-- ==== Sys2Proof/Word.lean ====
section
/-!
DEFINITION. Words of the Zhevyn instruction set and their plainest arithmetic.
Bit 0 of every value is its least significant bit (R2).
-/
namespace Sys2Proof

/-- A scalar register or a control register, 64 bits (R8). -/
abbrev Word := BitVec 64

/-- One byte of any memory (R2). -/
abbrev Byte := BitVec 8

/-- A vector register, vector latch or tile-register row: 64 lanes of 32 bits, lane L at bits
`[32L+31:32L]`, so that element `e` of width `w` is bits `[w*e+w-1 : w*e]` (R8, R167). -/
abbrev VReg := BitVec 2048

/-- A mask register, one bit a lane (R8). -/
abbrev Mask := BitVec 64

/-- A scale register of 1 KiB (R8, R49). -/
abbrev ScaleReg := BitVec 8192

/-- The field of `w` bits of `x` whose least significant bit is bit `lo`. -/
def field {n : Nat} (x : BitVec n) (lo w : Nat) : BitVec w := x.extractLsb' lo w

/-- Bit `i` of `x`. -/
def bitOf {n : Nat} (x : BitVec n) (i : Nat) : Bool := x.getLsbD i

/-- `x` with the field of width `w` at bit `lo` replaced by `v`. -/
def setField {n w : Nat} (x : BitVec n) (lo : Nat) (v : BitVec w) : BitVec n :=
  (x &&& ~~~ (((BitVec.allOnes w).setWidth n) <<< lo)) ||| ((v.setWidth n) <<< lo)

/-- One bit as a word of width `w`. -/
def ofBool (w : Nat) (b : Bool) : BitVec w := if b then 1#w else 0#w

/-- The byte `k` of `x`, little-endian (R2). -/
def byteOf {n : Nat} (x : BitVec n) (k : Nat) : Byte := x.extractLsb' (8 * k) 8

/-- The low `8 * k` bits of `x` as `k` bytes, little-endian (R2). -/
def toBytes {n : Nat} (x : BitVec n) (k : Nat) : List Byte := (List.range k).map (byteOf x)

/-- The number that a list of bytes stands for, little-endian (R2). -/
def natOfBytes : List Byte → Nat
  | [] => 0
  | b :: bs => b.toNat + 256 * natOfBytes bs

/-- The value of width `n` of a list of bytes, little-endian (R2). -/
def ofBytes (n : Nat) (bs : List Byte) : BitVec n := BitVec.ofNat n (natOfBytes bs)

end Sys2Proof
end

