-- ==== Sys2Proof/Config.lean ====
section
/-!
DEFINITION. What the spec leaves open, as opaque constants: nothing can be proved about their values.
-/
namespace Sys2Proof.Config

/-- Whether a fused product of an infinity and a zero with a quiet NaN addend raises NV: IEEE 754-2019, which
R54 follows, leaves it to the implementation (log entry 10). -/
opaque nvInfZeroNaN : Bool

/-- The departure, in units of the window's least weight, of an undervolted group sum whose low slices have
the given inputs: R69 bounds it and nothing else fixes it (log entry 12). -/
opaque sliceDeparture : Nat → List Int → Int

/-- The deficit, in percent, of a zone whose REQ is 0, by its flow: R487 divides by REQ and states none (log entry 50). -/
opaque deficitAtZero : Nat → Int

/-- Whether an RSASSA-PSS signature block verifies for an image header under the keys of the root ROM: R446 does not give the
keys (log entry 53). -/
opaque rsaVerifies : List Byte → List Byte → Bool

/-- Whether an SLH-DSA-SHA2-192s signature verifies for an image header under the keys of the root ROM (log entry 53). -/
opaque slhVerifies : List Byte → List Byte → Bool

/-- Byte of the RSASSA-PSS signature of a report under the identity key, by the signed bytes and its place (R457, log entry
53). -/
opaque rsaSignature : List Byte → Nat → Byte

/-- Byte of the SLH-DSA-SHA2-192s signature of a report (R457, log entry 53). -/
opaque slhSignature : List Byte → Nat → Byte

/-- Byte of DEVID, the hash of the identity public keys, which are fixed at manufacture (R448, R457, log entry 53). -/
opaque deviceId : Nat → Byte

/-- The bytes of the module's security configuration, by the fused SVNs of the three KINDs: R449 names its parts, the fuse
state and debug locks among them, and no layout (log entry 53). -/
opaque securityConfig : List Nat → List Byte

/-- The reason code that BOOTSTAT holds for a refused image, by the image: R447 gives no codes (log entry 54). -/
opaque bootReason : List Byte → Nat

/-- The prior word that an `ATOM` finds in a block whose stored metadata is invalid, by its address and a count (R102 delivers
no byte of such a block, log entry 74). -/
opaque unexpandedWord : Nat → Nat → Word

/-- Byte of the AES-GCM keystream of a manifest under the device key, by its SERIAL: R425 keeps the key in the hub (log
entry 53). -/
opaque manifestStream : Nat → Nat → Byte

/-- Byte of the GCM tag of a manifest, by its SERIAL, its additional data and its ciphertext (R424, log entry 53). -/
opaque manifestTag : Nat → List Byte → List Byte → Nat → Byte

/-- The supply levels of R474 and R475, which the module measures at module reset, Dawn and a warm reset of the die: the CORE
level of a tile and the VBASE of a column of it, by the tile, the column and the time and count of the measurement (log entry
62). -/
opaque coreLevel : Nat → Nat → Nat → BitVec 10
opaque vbaseLevel : Nat → Nat → Nat → Nat → BitVec 10

/-- The flits that a port's buffer of a paused class holds when it is full: R436 gives no size (log entry 59). -/
opaque classBuffer : Nat → Nat

/-- How many flits of a class the buffer of a port still holds at a time: R436 does not say how fast a buffer empties (log entry
59). -/
opaque flitsLeft : Nat → Nat → Nat → Nat

/-- The module that bridges the group of this one: the driver names it there, and no register here holds it (R442, R444, log entry
49). -/
opaque bridgeModule : Nat

/-- Another module of the group is its bridge already where BRCTL is written otherwise than by BRCTL_WRITE, by a count: no
register here tells (R442, log entry 49). -/
opaque bridgeTaken : Nat → Bool

/-- What the reserve still holds, in J, when the module has drawn on it, by a count (R491, R501, log entry
44). -/
opaque reserveLeft : Nat → Nat

/-- The lanes and spares of a link that a test finds bad, by link and time (R461, log entry 51). -/
opaque badLanes : Nat → Nat → Word
opaque badSpares : Nat → Nat → BitVec 4

/-- The event that EVPOP returns for a doorbell (0), a port notice (1), a migrator result (2) or a watchdog expiry (3), by its
kind and what it is of: R452 names these events and no source or payload (log entry 80). -/
opaque noticeWord : Nat → Nat → Word

/-- What a host read returns for an address that no register and no memory backs (R443 states none), by the address and a
count (log entry 63). -/
opaque unbackedWord : Nat → Nat → Word

end Sys2Proof.Config
end

