-- ==== Sys2Proof/Syntax.lean ====
section
/-!
DEFINITION. The steps of the module: one constructor for each row of the opcode table.
A slot instruction carries the fields of its slot (R116, R119, R122, R125); an event carries what it
concerns (the unit, the cluster, the queue) and what comes from outside the module (a written value, a
measurement, received bytes).  Which unit runs a slot instruction is the state's `focus`.
-/
namespace Sys2Proof

/-- The four tile buffers (R75), in the order of their codes. -/
inductive Buf
  | wb | ab | cb | sb
deriving DecidableEq, Repr

/-- The two vector clusters (R8). -/
inductive Cluster
  | va | vb
deriving DecidableEq, Repr

/-- The two copy engines, fed by slots C0 and C1 (R244). -/
inductive Engine
  | c0 | c1
deriving DecidableEq, Repr

/-- The space that a request over the fabric names: DRAM virtual or segment (R245), or, at the bridge, host memory (R444); or a
status request of class 0, which names none (R483). -/
inductive FabSpace
  | dram | seg | host | status
deriving DecidableEq, Repr

/-- How a host access comes: from the host to the bridge, from the bridge to the member that it reaches, or as that member's
answer back to the bridge (R443). -/
inductive HostVia
  | pcie | bridge (src : Nat) | answer (src : Nat)
deriving DecidableEq, Repr

/-- Where a host access comes from and the offset or address that it names (R443). -/
structure HostAddr where
  via : HostVia
  offset : Nat
deriving DecidableEq, Repr

/-- The header of a collective message to a tile's comm master: the member that it comes from, that member's module, and GROUP and
STEP (R323, R347). -/
structure Peer where
  member : Nat
  mod : Nat
  group : Nat
  step : Nat
deriving DecidableEq, Repr

/-- A chunk asked for again: its iteration, and whether the member itself has lost it (R333). -/
structure ChunkAsk where
  t : Nat
  mine : Bool
deriving DecidableEq, Repr

/-- What a peer answers: the member, its code, and whether that is the outcome with which its command ended (R345, R499). -/
structure PeerReply where
  member : Nat
  code : Nat
  closed : Bool
deriving DecidableEq, Repr

/-- A flit's sequence number, the first of the receiver's own flits that the peer has not acknowledged, and how many flits are
left in the buffer of the class (R436, R437). -/
structure FlitHead where
  seq : Nat
  acked : Nat
  left : Nat
deriving DecidableEq, Repr

/-- A value written to BRCTL, and whether another module of the group is its bridge already (R442). -/
structure BridgeWrite where
  v : Word
  second : Bool
deriving DecidableEq, Repr

/-- The fields of a scalar slot in format SR, without F where F is the operation (R116). -/
structure SR where
  nw : Bool
  pn : Bool
  p : BitVec 3
  b : BitVec 6
  a : BitVec 6
  d : BitVec 6
deriving DecidableEq, Repr

/-- The fields of a scalar slot in format SI (R116). -/
structure SI where
  imm9 : BitVec 9
  nw : Bool
  pn : Bool
  p : BitVec 3
  a : BitVec 6
  d : BitVec 6
deriving DecidableEq, Repr

/-- The fields of a scalar slot in format SL (R116). -/
structure SL where
  imm18 : BitVec 18
  d : BitVec 6
deriving DecidableEq, Repr

/-- The fields of a scalar slot in format SB (R116). -/
structure SB where
  off20 : BitVec 20
  pn : Bool
  p : BitVec 3
deriving DecidableEq, Repr

/-- The fields of a vector slot (R105, R119, R120). -/
structure VOps where
  vd : BitVec 6
  va : BitVec 6
  vb : BitVec 6
  vc : BitVec 6
  mask : BitVec 3
  neg : Bool
  rnd : BitVec 3
  ty : BitVec 3
  nw : Bool
  fn : BitVec 5
deriving DecidableEq, Repr

/-- The fields of a matrix slot besides the variant (R122, R123). -/
structure MOps where
  shape : BitVec 3
  fa : BitVec 3
  fb : BitVec 3
  acc : BitVec 2
  set : BitVec 4
  tag : BitVec 6
  rnd : BitVec 3
  asrc : Bool
  base : BitVec 4
deriving DecidableEq, Repr

/-- The fields of a copy slot (R125); `flags` is bits [31:18]. -/
structure COps where
  flags : BitVec 14
  pn : Bool
  p : BitVec 3
  tag : BitVec 6
  blk : BitVec 2
deriving DecidableEq, Repr

/-- One detected error of a run of a matrix command: its column and its slice (R71, R314), and how many. -/
structure Detection where
  col : Nat
  slice : Nat
  count : Nat
deriving DecidableEq, Repr

/-- A row of a pseudo-channel and how many activations a precharge adds to its count (R411). -/
structure RowCount where
  chan : Nat
  row : Nat
  count : Nat
deriving DecidableEq, Repr

/-- A region that switches on, and the regulator outputs of the regions that draw current, in 0.1 A (R476). -/
structure RegionDraw where
  region : Nat
  outputs : List (Nat × List Nat)
deriving DecidableEq, Repr

/-- What wakes the module from PL1 to PL3 (R483). -/
inductive WakeCause
  | tailWrite | flit | bar2 | migratorGo | lattol | sag
deriving DecidableEq, Repr

/-- The steps of the module, one constructor for each row of spec/opcode_table.json. -/
inductive Instr
  /-- NOP (R147): No operation. -/
  | nop
  /-- ADD (R133): sD := A + B. -/
  | add (o : SR)
  /-- SUB (R133): sD := A − B. -/
  | sub (o : SR)
  /-- AND (R133): sD := A AND B. -/
  | and (o : SR)
  /-- OR (R133): sD := A OR B. -/
  | or (o : SR)
  /-- XOR (R133): sD := A XOR B. -/
  | xor (o : SR)
  /-- ANDN (R133): sD := A AND NOT B. -/
  | andn (o : SR)
  /-- ORN (R133): sD := A OR NOT B. -/
  | orn (o : SR)
  /-- XNOR (R133): sD := NOT (A XOR B). -/
  | xnor (o : SR)
  /-- SHL (R135): Shift left by B[5:0]. -/
  | shl (o : SR)
  /-- SHR (R135): Logical shift right by B[5:0]. -/
  | shr (o : SR)
  /-- SAR (R135): Arithmetic shift right by B[5:0]. -/
  | sar (o : SR)
  /-- ROL (R135): Rotate left by B[5:0]. -/
  | rol (o : SR)
  /-- ROR (R135): Rotate right by B[5:0]. -/
  | ror (o : SR)
  /-- MUL (R141): Low 64 bits of A·B, latency 3. -/
  | mul (o : SR)
  /-- MULH (R141): High 64 bits of the unsigned product. -/
  | mulh (o : SR)
  /-- MULHS (R141): High 64 bits of the signed product. -/
  | mulhs (o : SR)
  /-- DIV (R142): Unsigned quotient, latency 12. -/
  | div (o : SR)
  /-- DIVS (R142): Signed quotient rounded toward zero. -/
  | divs (o : SR)
  /-- REM (R142): Unsigned remainder. -/
  | rem (o : SR)
  /-- REMS (R142): Signed remainder with the sign of A. -/
  | rems (o : SR)
  /-- MIN (R138): Unsigned minimum. -/
  | min (o : SR)
  /-- MAX (R138): Unsigned maximum. -/
  | max (o : SR)
  /-- MINS (R138): Signed minimum. -/
  | mins (o : SR)
  /-- MAXS (R138): Signed maximum. -/
  | maxs (o : SR)
  /-- CLZ (R139): Count leading zeros. -/
  | clz (o : SR)
  /-- CTZ (R139): Count trailing zeros. -/
  | ctz (o : SR)
  /-- POPC (R139): Count one bits. -/
  | popc (o : SR)
  /-- BREV (R139): Reverse bit order. -/
  | brev (o : SR)
  /-- SEXT (R140): Sign-extend the low 8, 16 or 32 bits. -/
  | sext (o : SR)
  /-- ZEXT (R140): Zero-extend the low 8, 16 or 32 bits. -/
  | zext (o : SR)
  /-- FSHL (R136): Funnel shift sD left filled from sA. -/
  | fshl (o : SR)
  /-- FSHR (R136): Funnel shift sD right filled from sA. -/
  | fshr (o : SR)
  /-- ADDSH (R137): sD := A + (B << n). -/
  | addsh (f : BitVec 3) (o : SR)
  /-- ADDI (R134): Add sign-extended IMM9. -/
  | addi (o : SI)
  /-- ANDI (R134): AND with sign-extended IMM9. -/
  | andi (o : SI)
  /-- ORI (R134): OR with sign-extended IMM9. -/
  | ori (o : SI)
  /-- XORI (R134): XOR with sign-extended IMM9. -/
  | xori (o : SI)
  /-- SHLI (R134): Shift left by immediate. -/
  | shli (o : SI)
  /-- SHRI (R134): Logical shift right by immediate. -/
  | shri (o : SI)
  /-- SARI (R134): Arithmetic shift right by immediate. -/
  | sari (o : SI)
  /-- MOVI (R143): sD := sext(IMM18). -/
  | movi (o : SL)
  /-- MOVH (R143): sD := (sD << 18) OR IMM18. -/
  | movh (o : SL)
  /-- SEL (R144): sD := A when pq, else B. -/
  | sel (f : BitVec 3) (o : SR)
  /-- SETP_EQ (R145): pD := A = B. -/
  | setpEq (o : SR)
  /-- SETP_NE (R145): pD := A ≠ B. -/
  | setpNe (o : SR)
  /-- SETP_LT (R145): pD := A < B unsigned. -/
  | setpLt (o : SR)
  /-- SETP_LTS (R145): pD := A < B signed. -/
  | setpLts (o : SR)
  /-- SETP_LE (R145): pD := A ≤ B unsigned. -/
  | setpLe (o : SR)
  /-- SETP_LES (R145): pD := A ≤ B signed. -/
  | setpLes (o : SR)
  /-- PAND (R146): pD := pA AND pB. -/
  | pand (o : SR)
  /-- POR (R146): pD := pA OR pB. -/
  | por (o : SR)
  /-- PXOR (R146): pD := pA XOR pB. -/
  | pxor (o : SR)
  /-- PNOT (R146): pD := NOT pA. -/
  | pnot (o : SR)
  /-- SETPI_EQ (R145): pD := A = sext(IMM9). -/
  | setpiEq (o : SI)
  /-- SETPI_NE (R145): pD := A ≠ sext(IMM9). -/
  | setpiNe (o : SI)
  /-- SETPI_LT (R145): pD := A < sext(IMM9) unsigned. -/
  | setpiLt (o : SI)
  /-- SETPI_LTS (R145): pD := A < sext(IMM9) signed. -/
  | setpiLts (o : SI)
  /-- SETPI_LE (R145): pD := A ≤ sext(IMM9) unsigned. -/
  | setpiLe (o : SI)
  /-- SETPI_LES (R145): pD := A ≤ sext(IMM9) signed. -/
  | setpiLes (o : SI)
  /-- BRI (R148): Branch to o + 32·OFF. -/
  | bri (o : SB)
  /-- CALL (R148): Branch to o + 32·OFF and write o + 32 to s55. -/
  | call (o : SB)
  /-- BR (R148): Branch to the value of sA. -/
  | br (o : SR)
  /-- RET (R148): Branch to the value of sA, s55 by default. -/
  | ret (o : SR)
  /-- LOOP (R150): Open a hardware loop of count sA[31:0] or skip the body. -/
  | loop (o : SI)
  /-- CHK (R153): Branch to recovery code when sA carries D. -/
  | chk (o : SI)
  /-- END (R26): Commit gated stores, wait for commands, stop issue and report the member ended, or faulted in handler mode. -/
  | endTask
  /-- LD (R156): Load from a tile buffer with bounds and ownership checks, latency 4. -/
  | ld (buf : Buf) (f : BitVec 3) (o : SR)
  /-- LDSP (R157): Speculative load delivering 0 with D set instead of faulting. -/
  | ldsp (buf : Buf) (f : BitVec 3) (o : SR)
  /-- ST (R158): Store sD to a tile buffer, gated inside a region. -/
  | st (buf : Buf) (f : BitVec 3) (o : SR)
  /-- XEXT (R159): Extract a vector lane into a scalar register, latency 2. -/
  | xext (f : BitVec 3) (o : SR)
  /-- STG (R160): Write sA to a staging register. -/
  | stg (o : SR)
  /-- WAITC_TAG (R161): Stall until one completion tag is complete. -/
  | waitcTag (o : SR)
  /-- WAITC_MASK (R161): Stall until every tag in the mask in sA is complete. -/
  | waitcMask (o : SR)
  /-- BAR (R162): Stall until every team member arrives at this barrier instance, or raise BARRIER_BROKEN. -/
  | bar (o : SR)
  /-- XFER (R163): Hand an owned region to team member sB. -/
  | xfer (o : SR)
  /-- ATOM_ADD (R164): Atomic add at segment address sA, reply prior value. -/
  | atomAdd (dbl : Bool) (o : SR)
  /-- ATOM_AND (R164): Atomic AND. -/
  | atomAnd (dbl : Bool) (o : SR)
  /-- ATOM_OR (R164): Atomic OR. -/
  | atomOr (dbl : Bool) (o : SR)
  /-- ATOM_XOR (R164): Atomic XOR. -/
  | atomXor (dbl : Bool) (o : SR)
  /-- ATOM_MIN (R164): Atomic unsigned minimum. -/
  | atomMin (dbl : Bool) (o : SR)
  /-- ATOM_MAX (R164): Atomic unsigned maximum. -/
  | atomMax (dbl : Bool) (o : SR)
  /-- ATOM_MINS (R164): Atomic signed minimum. -/
  | atomMins (dbl : Bool) (o : SR)
  /-- ATOM_MAXS (R164): Atomic signed maximum. -/
  | atomMaxs (dbl : Bool) (o : SR)
  /-- ATOM_XCHG (R164): Atomic exchange. -/
  | atomXchg (dbl : Bool) (o : SR)
  /-- ATOM_CAS (R164): Atomic compare-and-swap with comparand sD. -/
  | atomCas (dbl : Bool) (o : SR)
  /-- RDSYS (R277): Read a system register, latency 2. -/
  | rdsys (o : SR)
  /-- WRSYS (R277): Write a system register from sA, visible from the next bundle. -/
  | wrsys (o : SR)
  /-- TRAP (R278): Take BREAKPOINT after the bundle with the immediate in TRAPVAL. -/
  | trap (o : SR)
  /-- ERET (R290): Leave handler mode, restore latches, replay the bank and resume at TRAPPC. -/
  | eret
  /-- DUSKDONE (R280): Acknowledge DUSK or TWILIGHT_SHED and halt the tile. -/
  | duskdone
  /-- FENCE (R281): Hold later sequencer copy commands until earlier SSTs take effect. -/
  | fence (o : SR)
  /-- SLD (R282): Service load of an 8-byte control register, latency 16. -/
  | sld (o : SR)
  /-- SST (R282): Service store of sB to a control register, in issue order. -/
  | sst (o : SR)
  /-- VADD (R173): Vector integer add. -/
  | vadd (c : Cluster) (o : VOps)
  /-- VSUB (R173): Vector integer subtract. -/
  | vsub (c : Cluster) (o : VOps)
  /-- VMUL (R173): Vector integer multiply, low half. -/
  | vmul (c : Cluster) (o : VOps)
  /-- VMULH (R173): Vector integer multiply, high half. -/
  | vmulh (c : Cluster) (o : VOps)
  /-- VMAD (R173): Vector integer multiply-add. -/
  | vmad (c : Cluster) (o : VOps)
  /-- VAND (R173): Vector AND. -/
  | vand (c : Cluster) (o : VOps)
  /-- VOR (R173): Vector OR. -/
  | vor (c : Cluster) (o : VOps)
  /-- VXOR (R173): Vector XOR. -/
  | vxor (c : Cluster) (o : VOps)
  /-- VANDN (R173): Vector AND NOT. -/
  | vandn (c : Cluster) (o : VOps)
  /-- VSHL (R174): Vector shift left. -/
  | vshl (c : Cluster) (o : VOps)
  /-- VSHR (R174): Vector logical shift right. -/
  | vshr (c : Cluster) (o : VOps)
  /-- VSAR (R174): Vector arithmetic shift right. -/
  | vsar (c : Cluster) (o : VOps)
  /-- VROT (R174): Vector rotate. -/
  | vrot (c : Cluster) (o : VOps)
  /-- VFSHL (R175): Vector funnel shift left. -/
  | vfshl (c : Cluster) (o : VOps)
  /-- VFSHR (R175): Vector funnel shift right. -/
  | vfshr (c : Cluster) (o : VOps)
  /-- VMIN (R173): Vector integer minimum. -/
  | vmin (c : Cluster) (o : VOps)
  /-- VMAX (R173): Vector integer maximum. -/
  | vmax (c : Cluster) (o : VOps)
  /-- VABS (R173): Vector absolute value. -/
  | vabs (c : Cluster) (o : VOps)
  /-- VNEG (R173): Vector negate. -/
  | vneg (c : Cluster) (o : VOps)
  /-- VCMP (R176): Vector compare into a mask. -/
  | vcmp (c : Cluster) (o : VOps)
  /-- VSEL (R177): Select lanes of va or vb by the mask. -/
  | vsel (c : Cluster) (o : VOps)
  /-- VCLZ (R173): Vector count leading zeros. -/
  | vclz (c : Cluster) (o : VOps)
  /-- VPOPC (R173): Vector population count. -/
  | vpopc (c : Cluster) (o : VOps)
  /-- VMOVI (R178): Write a sign-extended immediate to every governed element. -/
  | vmovi (c : Cluster) (o : VOps)
  /-- VFADD (R180): Floating add. -/
  | vfadd (c : Cluster) (o : VOps)
  /-- VFSUB (R180): Floating subtract. -/
  | vfsub (c : Cluster) (o : VOps)
  /-- VFMUL (R180): Floating multiply. -/
  | vfmul (c : Cluster) (o : VOps)
  /-- VFMA (R180): Fused multiply-add. -/
  | vfma (c : Cluster) (o : VOps)
  /-- VFNMA (R180): Fused negated multiply-add c − a·b. -/
  | vfnma (c : Cluster) (o : VOps)
  /-- VFMIN (R181): minimumNumber. -/
  | vfmin (c : Cluster) (o : VOps)
  /-- VFMAX (R181): maximumNumber. -/
  | vfmax (c : Cluster) (o : VOps)
  /-- VCVT (R184): Convert elements between formats in their lanes. -/
  | vcvt (c : Cluster) (o : VOps)
  /-- VDOT (R189): FP8 four-product dot product rounded once into FP32. -/
  | vdot (c : Cluster) (o : VOps)
  /-- VEXP2 (R183): exp2z of each lane. -/
  | vexp2 (c : Cluster) (o : VOps)
  /-- VLOG2 (R182): Correctly rounded log2. -/
  | vlog2 (c : Cluster) (o : VOps)
  /-- VRCP (R182): Correctly rounded reciprocal. -/
  | vrcp (c : Cluster) (o : VOps)
  /-- VRSQ (R182): Correctly rounded reciprocal square root. -/
  | vrsq (c : Cluster) (o : VOps)
  /-- VFDIV (R180): Floating divide, latency 14. -/
  | vfdiv (c : Cluster) (o : VOps)
  /-- VFSQRT (R180): Floating square root, latency 14. -/
  | vfsqrt (c : Cluster) (o : VOps)
  /-- VTRIM_X (R191): Merged FP32 component of two attention partials. -/
  | vtrimX (c : Cluster) (o : VOps)
  /-- VTRIM_M (R191): Merged maximum of two attention partials. -/
  | vtrimM (c : Cluster) (o : VOps)
  /-- VTRIM_XB (R191): Merged BF16 components of two attention partials. -/
  | vtrimXb (c : Cluster) (o : VOps)
  /-- VRND (R192): Step each lane's generator and deliver 32 random bits. -/
  | vrnd (c : Cluster) (o : VOps)
  /-- VRND_SEED (R192): Reseed each lane's generator from va, then step it. -/
  | vrndSeed (c : Cluster) (o : VOps)
  /-- VSFCK_MOR (R194): Morton key of three 21-bit coordinates. -/
  | vsfckMor (c : Cluster) (o : VOps)
  /-- VSFCK_HIL (R195): Hilbert key of three 21-bit coordinates. -/
  | vsfckHil (c : Cluster) (o : VOps)
  /-- VLD (R204): Load 256 aligned bytes from a tile buffer. -/
  | vld (c : Cluster) (o : VOps)
  /-- VST (R205): Store 256 aligned bytes to a tile buffer. -/
  | vst (c : Cluster) (o : VOps)
  /-- VLDU (R204): Unaligned 256-byte load. -/
  | vldu (c : Cluster) (o : VOps)
  /-- VSTB (R205): Byte-enabled 256-byte store. -/
  | vstb (c : Cluster) (o : VOps)
  /-- VLDS (R204): Strided load. -/
  | vlds (c : Cluster) (o : VOps)
  /-- VSTS (R205): Strided store. -/
  | vsts (c : Cluster) (o : VOps)
  /-- VLDX (R204): Indexed load, latency 10. -/
  | vldx (c : Cluster) (o : VOps)
  /-- VSTX (R205): Indexed store. -/
  | vstx (c : Cluster) (o : VOps)
  /-- XBC (R206): Broadcast a scalar into vector lanes. -/
  | xbc (c : Cluster) (o : VOps)
  /-- XCOPY (R207): Copy a register of the other vector cluster. -/
  | xcopy (c : Cluster) (o : VOps)
  /-- VPERM (R208): Permute elements by indices. -/
  | vperm (c : Cluster) (o : VOps)
  /-- VSLIDE (R209): Slide whole lanes from va and vb. -/
  | vslide (c : Cluster) (o : VOps)
  /-- VRED (R211): Group reduction across lanes. -/
  | vred (c : Cluster) (o : VOps)
  /-- VSCAN (R211): Group inclusive scan across lanes. -/
  | vscan (c : Cluster) (o : VOps)
  /-- SPUSH (R214): Push governed lanes onto a conditional stream. -/
  | spush (c : Cluster) (o : VOps)
  /-- SPOP (R214): Pop words of a stream into governed lanes. -/
  | spop (c : Cluster) (o : VOps)
  /-- SBAL (R214): Pad a stream with zero words to a multiple of 64. -/
  | sbal (c : Cluster) (o : VOps)
  /-- SCNT (R214): Deliver a stream's count. -/
  | scnt (c : Cluster) (o : VOps)
  /-- TWR (R216): Write a tile-register row from a vector register. -/
  | twr (c : Cluster) (o : VOps)
  /-- TRDC (R216): Read a tile-register column. -/
  | trdc (c : Cluster) (o : VOps)
  /-- TRDR (R216): Read a tile-register row. -/
  | trdr (c : Cluster) (o : VOps)
  /-- KAND (R219): Mask AND. -/
  | kand (c : Cluster) (o : VOps)
  /-- KOR (R219): Mask OR. -/
  | kor (c : Cluster) (o : VOps)
  /-- KXOR (R219): Mask XOR. -/
  | kxor (c : Cluster) (o : VOps)
  /-- KNOT (R219): Mask NOT. -/
  | knot (c : Cluster) (o : VOps)
  /-- KPOPC (R219): Count one bits of a mask. -/
  | kpopc (c : Cluster) (o : VOps)
  /-- KFIRST (R219): Index of the lowest one bit of a mask. -/
  | kfirst (c : Cluster) (o : VOps)
  /-- KMOV (R219): Copy a mask. -/
  | kmov (c : Cluster) (o : VOps)
  /-- KMOV_VK (R219): Mask from non-zero vector lanes. -/
  | kmovVk (c : Cluster) (o : VOps)
  /-- KMOV_KV (R219): Vector lanes of all ones from mask bits. -/
  | kmovKv (c : Cluster) (o : VOps)
  /-- MM (R229): Dense matrix multiply-accumulate. -/
  | mm (o : MOps)
  /-- MMS_N24 (R227): Matrix multiply with A sparse 2:4. -/
  | mmsN24 (o : MOps)
  /-- MMS_N48 (R227): Matrix multiply with A sparse 4:8. -/
  | mmsN48 (o : MOps)
  /-- MMT (R229): Matrix multiply with B held transposed. -/
  | mmt (o : MOps)
  /-- AZERO (R233): Zero an accumulator block. -/
  | azero (o : MOps)
  /-- ASCL (R234): Scale accumulator rows by per-row factors. -/
  | ascl (o : MOps)
  /-- ACVT (R235): Convert an accumulator block into AB. -/
  | acvt (o : MOps)
  /-- CPY (R254): Affine copy of up to four dimensions. -/
  | cpy (e : Engine) (o : COps)
  /-- CPYM (R256): Copy into WB or AB with a follow-on matrix command. -/
  | cpym (e : Engine) (o : COps)
  /-- GATH (R257): Gather indexed elements into a tile buffer. -/
  | gath (e : Engine) (o : COps)
  /-- SCAT (R257): Scatter tile-buffer elements to indexed places. -/
  | scat (e : Engine) (o : COps)
  /-- FILL (R258): Fill a range with a 4, 8 or 16-byte pattern. -/
  | fill (e : Engine) (o : COps)
  /-- CMPR (R259): Recompress whole blocks in place. -/
  | cmpr (e : Engine) (o : COps)
  /-- SCLD (R261): Load 1,024 bytes into a scale register. -/
  | scld (e : Engine) (o : COps)
  /-- PREF (R260): Pre-translate a range and ask for absent pages. -/
  | pref (e : Engine) (o : COps)
  /-- CFENCE (R262): Order copy-slot commands of both engines. -/
  | cfence (e : Engine) (o : COps)
  /-- COLL (R265): Hand a collective to the comm master through the mailbox. -/
  | coll (e : Engine) (o : COps)
  /-- REPART (R265): Hand a repartition to the comm master through the mailbox. -/
  | repart (e : Engine) (o : COps)
  /-- WALK (R269): Run the affine loop nest of a collective record on a comm sequencer. -/
  | walk (e : Engine) (o : COps)
  /-- FSEND (R270): Write bytes to a remote module over the fabric. -/
  | fsend (e : Engine) (o : COps)
  /-- FFETCH (R270): Read bytes from a remote module over the fabric. -/
  | ffetch (e : Engine) (o : COps)
  /-- BUNDLE_ISSUE (R111): The tile fetches and issues one bundle: the header and all six slots are checked in the order of R111, split into sub-bundles by the shade level, and a bundle that traps has no effect. -/
  | bundleIssue (u : Nat)
  /-- RESTART_MARK (R291): A MARK bundle in task mode waits until earlier copies have passed translation, then commits the gated stores, sets MARKPC and shadows the context. -/
  | restartMark (u : Nat)
  /-- RESULT_LANDING (R5): A result lands in its register and latch at its latency, the later-issued result winning where two land together. -/
  | resultLanding (u : Nat)
  /-- TRAP_ENTRY (R289): At a bundle boundary the tile takes one ready trap in the order of R285, banks results in flight, sets TRAPCAUSE, TRAPPC, TRAPVAL and enters handler mode at TRAPVEC. -/
  | trapEntry (u : Nat)
  /-- PREEMPT (R296): The tile freezes fetch, banks results in flight, lets started matrix commands finish, stops started copies at 4 KiB and saves its context to shadow storage or DRAM. -/
  | preempt (team : Nat)
  /-- TEAM_RESUME (R298): A swapped team is restored with its context, held traps and bank and re-issues the bundle at its resume point. -/
  | teamResume (team : Nat)
  /-- LAUNCH_RECORD (R377): The graph scheduler reads one launch record from an enabled queue, checks it and its card, opens or closes graphs and derives the node's edges. -/
  | launchRecord (q : Nat)
  /-- TEAM_START (R23): A ready team with free tiles and region-table entries is staged in: code copied, buffers zeroed and initialised, pages made present and pinned, initial state set, and all members start together. -/
  | teamStart (node cluster first : Nat) (frames : List Nat)
  /-- NODE_COMPLETE (R16): When every member has ended and every command completed, the node completes, writes back its atomic lines and removes its region entries. -/
  | nodeComplete (node : Nat)
  /-- RECORD_COMPLETION (R380): When a record completes the scheduler applies its TAKE entries and writes its 16-byte completion record at CWORD. -/
  | recordCompletion (rec : Nat)
  /-- QUANTUM_EXPIRY (R385): A resident team whose quantum has run out is pre-empted for a waiting equal-priority team, or stays when no swap place is free and SWAPFULL is set. -/
  | quantumExpiry (team : Nat)
  /-- TEAM_PROMOTION (R29): A ready non-resident team that has waited 4 times the rotation length of its level is promoted one level and AGED counts it. -/
  | teamPromotion (node : Nat)
  /-- TAIL_WRITE (R372): A write of QTAIL stores TAIL or, on overrun, stops the queue with QERR OVERRUN. -/
  | tailWrite (q : Nat) (v : Word)
  /-- QCFG_WRITE (R371): A write of QCFG sets the queue's configuration, ignored except EN while EN is 1; EN 1 clears QERR and starts consumption. -/
  | qcfgWrite (q : Nat) (v : Word)
  /-- QRING_WRITE (R371): A write of QRING sets the ring address and size, ignored while EN is 1. -/
  | qringWrite (q : Nat) (v : Word)
  /-- STAGESZ_WRITE (R388): A write of STAGESZ sets the collective staging granules, ignored while any reservation is held or above 128. -/
  | stageszWrite (v : Word)
  /-- SWAP_AREA_WRITE (R388): A write of SWAPBASE or SWAPN sets the DRAM swap area, ignored while any team is in it. -/
  | swapAreaWrite (slots : Bool) (v : Word)
  /-- SHADE_EVALUATION (R479): Every 10 ns the module sets each cluster's shade level to the largest of its sources and pre-empts or re-admits teams by SHADELIM. -/
  | shadeEvaluation (k current tj : Nat)
  /-- CURRENT_LEVEL_FALL (R480): After 2 µs at or below 75% of CLIM the current level of a cluster falls one level. -/
  | currentLevelFall (k : Nat)
  /-- CORE_DROOP (R479): A tile's CORE rail falling 30 mV below its level sets SHADE2 on its cluster. -/
  | coreDroop (u : Nat)
  /-- DROOP_EXPIRY (R479): 1 µs after the last droop the droop level of the cluster ends. -/
  | droopExpiry (k : Nat)
  /-- XFER_HANDOVER (R89): When every earlier command of the owner touching a region in transfer has completed, the region becomes OWNED by the target. -/
  | xferHandover (owner : Nat) (x : Nat)
  /-- ATOM_APPLY (R92): The atomic engine grants one request per clock round-robin and applies its operation to the line at one instant. -/
  | atomApply (k requester : Nat)
  /-- ATOM_REPLY (R93): The reply of an applied ATOM arrives with the prior value and ends the pending state of its register. -/
  | atomReply (u id : Nat)
  /-- COPY_PRETRANSLATION (R248): A copy engine translates and checks every unit of a queued command in order, counting busy counts, and raises the first fault found. -/
  | copyPretranslation (u : Nat) (e : Engine)
  /-- COPY_COMMAND_START (R82): A copy engine starts a queued command once its scoreboard conflicts clear and it has passed translation, issuing its DRAM requests in its calendar slots. -/
  | copyCommandStart (u : Nat) (e : Engine) (id : Nat) (lost : List (Nat × Byte))
  /-- DRAM_READ_DELIVERY (R410): A read request delivers its last byte exactly 288 ns after the start of its slot. -/
  | dramReadDelivery (u : Nat) (e : Engine) (id : Nat) (err : Option Byte)
  /-- COPY_COMMAND_COMPLETE (R83): A copy command completes when every write is visible, completing its tag and releasing its busy counts. -/
  | copyCommandComplete (u : Nat) (e : Engine) (id : Nat) (err : Option Byte) (data : List Byte)
  /-- SCLD_LANDING (R261): A scale register loaded by SCLD lands at the first boundary at least 8 bundles after issue with all bytes arrived, and its tag completes. -/
  | scldLanding (u id : Nat)
  /-- CFENCE_START (R262): A CFENCE starts when every earlier copy-slot command has completed and completes its tag then. -/
  | cfenceStart (u id : Nat)
  /-- MATRIX_COMMAND_START (R239): The matrix engine starts the oldest queued command whose conflicts clear, with fewer than two started, at SHADE2 or lower, fixing its fidelity level. -/
  | matrixCommandStart (u : Nat)
  /-- MATRIX_OPERANDS_READ (R239): A started command has read its last A and B byte D clocks after its start, releasing those ranges. -/
  | matrixOperandsRead (u : Nat)
  /-- MATRIX_COMMAND_COMPLETE (R239): A matrix command completes D + 64 clocks after its start, writing C, setting MSTAT and completing its tag unless a replay is called for. -/
  | matrixCommandComplete (u : Nat) (detected : List Detection)
  /-- COLL_DISPATCH (R265): When LOCAL_IN and LOCAL_OUT clear the scoreboard the comm master receives the command, checks the record and reserves slots, pool and table entry at once. -/
  | collDispatch (u id : Nat) (keyless : Bool)
  /-- CREDIT (R332): A credit from a receiver for a GROUP and STEP lets the sender move one chunk. -/
  | credit (u id : Nat) (peer : Peer)
  /-- CHUNK (R331): A received chunk is applied in sender order, spilled to the pool when slots are full, or combined in a reduction. -/
  | chunk (u id : Nat) (peer : Peer) (t : Nat) (data : List Byte)
  /-- CHUNK_REQUEST (R333): A request for a lost or unapplied chunk makes the sender resend it from its kept copy. -/
  | chunkRequest (u id : Nat) (peer : Peer) (ask : ChunkAsk)
  /-- REPART_COUNTS (R343): Members exchange histograms and per-owner counts; BALANCED mode writes the splitters before records move. -/
  | repartCounts (u id : Nat) (hists : List (List Nat)) (counts : List (List Nat))
  /-- PEER_STATUS_REPLY (R345): A PEER_DARK or TWILIGHT reply makes the waiting member wait and set STATUS.WAITED. -/
  | peerStatusReply (u id : Nat) (reply : PeerReply)
  /-- PATIENCE_EXPIRY (R345): Waits on dark peers that exceed PATIENCE end the command with PEER_DARK or TWILIGHT. -/
  | patienceExpiry (u id : Nat)
  /-- COMPLETION_WORD (R266): When every chunk is applied the comm master writes the completion word and overflow descriptor, completes the tag and frees the mailbox entry. -/
  | completionWord (u id : Nat) (err : Option Byte) (pool : Nat)
  /-- FABRIC_REQUEST (R96): A fabric read or write from a peer sequencer arrives and takes effect in lane order. -/
  | fabricRequest (src : Nat) (write : Bool) (space : FabSpace) (addr : Word) (data : List Byte)
  /-- FLIT_RECEIVE (R437): A port receives a flit, checks CRC and tag, and acknowledges or NAKs it. -/
  | flitReceive (port cls : Nat) (head : FlitHead) (good : Bool)
  /-- NAK (R437): A NAK makes the sender replay from that flit; the eighth failure takes the link down and reroutes. -/
  | nak (port seq : Nat)
  /-- PAUSE (R436): A PAUSE for a class makes the sender stop starting flits of it within 100 ns. -/
  | pauseClass (port cls : Nat)
  /-- RESUME (R436): A RESUME for a class lets the sender start its flits again. -/
  | resumeClass (port cls : Nat)
  /-- DARK_NOTICE (R419): A DARK notice marks the peer module dark for collectives. -/
  | darkNotice (mod : Nat)
  /-- DAWN_NOTICE (R346): A DAWN notice with SERIAL makes receivers request unapplied chunks and resume saved collectives. -/
  | dawnNotice (mod : Nat) (serial : Word)
  /-- COLD_NOTICE (R430): A COLD notice ends the commands of groups that the module belonged to with PEER_DARK. -/
  | coldNotice (mod : Nat)
  /-- PORT_ENABLE (R441): A write of PCTL.EN trains or stops a Wyforen port. -/
  | portEnable (port : Nat) (v : Word)
  /-- PORT_TRAINED (R440): Training ends with keys agreed and versions negotiated, or the link stays down with a cause. -/
  | portTrained (port peer : Nat) (vers : List (Nat × Nat)) (auth : Bool)
  /-- LINK_REKEY (R438): After 2^40 flits or 24 hours a link rekeys in band and its epoch increments. -/
  | linkRekey (port : Nat)
  /-- HOST_BAR0_ACCESS (R443): An 8-byte host access through BAR0 reaches a member's control space in order; other accesses complete Unsupported Request. -/
  | hostBar0Access (addr : HostAddr) (size : Nat) (write : Bool) (v : Word)
  /-- HOST_BAR2_ACCESS (R443): A host access through BAR2 reaches the local physical space of the member in BRWIN. -/
  | hostBar2Access (addr : HostAddr) (write : Bool) (data : List Byte)
  /-- BRCTL_WRITE (R442): A write of BRCTL.EN names the module as its group's bridge. -/
  | brctlWrite (w : BridgeWrite)
  /-- HANDOVER_GO (R450): A write of HOCTL.GO starts a handover: the root verifies and loads the new images, or ends BUSY. -/
  | handoverGo (v : Word)
  /-- HOACK (R453): A sequencer's HOACK write advances the handover: blob written starts START, acknowledge, finished leads to commit. -/
  | hoack (u : Nat) (v : Word)
  /-- WDKICK (R453): A write of WDKICK restarts the sequencer's 10 ms watchdog. -/
  | wdkick (u : Nat)
  /-- WATCHDOG_EXPIRY (R454): A sequencer that leaves WDKICK unwritten for 10 ms is to be restarted by the root. -/
  | watchdogExpiry (u : Nat)
  /-- SEQUENCER_RESTART (R454): The root restarts a halted or silent sequencer at ENTRY within 1 ms, reloading its data section, appointing a spare comm sequencer where needed. -/
  | sequencerRestart (u : Nat)
  /-- EVPOP (R453): A read of EVPOP removes and returns the next queued event, zero when empty. -/
  | evpop (u : Nat)
  /-- ATTGO (R456): A write of ATTGO starts an attestation report, ignored while one is being made. -/
  | attgo (v : Word)
  /-- PF_WARN_L (R419): The supply warning starts Dusk: scheduling stops, tiles take DUSK, walkers stop, DARK notices go out, migrations end and engines write back. -/
  | pfWarnL (asserted : Bool)
  /-- DUSK_BUDGET_EXPIRY (R301): A tile whose BUDGET reaches zero halts with OVERRUN and saves its context. -/
  | duskBudgetExpiry (u : Nat)
  /-- PF_SAG_L (R427): The sag warning at Noon sheds the first die of ORDER. -/
  | pfSagL (asserted : Bool)
  /-- PLN_WRITE (R416): A write of PLN at Noon sets the list length and recomputes READY.LISTGB and FITS. -/
  | plnWrite (v : Word)
  /-- HIBCFG_WRITE (R416): A write of HIBCFG sets the hibernation area size, ignored while a pool reservation is held. -/
  | hibcfgWrite (v : Word)
  /-- RSVSTAT_REFRESH (R492): Every 100 ms the module refreshes RSVSTAT. -/
  | rsvstatRefresh (cap usable cycles : Nat) (fault : Bool)
  /-- TLBINV (R399): A write of TLBINV with GO starts an invalidation of the scope named and sets BUSY. -/
  | tlbinv (v : Word)
  /-- MIGRATE_GO (R403): MCTL.GO to a local frame checks the page and sets HOLD on its frames. -/
  | migrateGo (d : Nat)
  /-- EVICT_GO (R406): MCTL.GO with HOST set evicts the page to host memory or ends SKIPPED when busy. -/
  | evictGo (d : Nat)
  /-- MIGRATION_COUNTS_ZERO (R403): When every frame's busy count is zero the page is copied, rebound, invalidated and HOLD cleared, ending MOVED. -/
  | migrationCountsZero (d : Nat)
  /-- MIGRATION_FALLBACK (R403): After 50 µs with counts non-zero the migrator takes indirection entries and copies beneath the unchanged entry, or ends INDIR_FULL. -/
  | migrationFallback (d : Nat)
  /-- MIGRATION_COPY_END (R403): A fallback copy ends, every access goes to the new frame and the result is REMAPPED. -/
  | migrationCopyEnd (d : Nat)
  /-- FOLD (R403): A write of MCTL.FOLD waits for the old frames' counts and frees their indirection entries. -/
  | fold (d : Nat)
  /-- FOLD_COMPLETE (R403): When the old frames' counts reach zero their indirection entries are freed. -/
  | foldComplete (d : Nat)
  /-- REL (R405): A write of MCTL.REL ends the stay of the page in MVA. -/
  | rel (d : Nat)
  /-- STAY_END (R405): A moved page's stay ends after 16 touching commands or transfers have completed. -/
  | stayEnd (page : Nat)
  /-- ALERT (R411): A row's activation count reaching AT raises an alert, making the next rotation an alert rotation. -/
  | alert (act : RowCount)
  /-- ALERT_ROTATION (R413): An alert rotation has no slots, refreshes neighbours, and slips requests one rotation with ALERTSLIP counts. -/
  | alertRotation (pc : Nat)
  /-- REFRESH_UNIT_DUE (R412): Every 38 rotations a refresh unit falls due and takes from the allowance or a refresh rotation. -/
  | refreshUnitDue (pc : Nat)
  /-- REFRESH_ROTATION (R412): At a rotation boundary with idle or compute-phase owners the next rotation is a refresh rotation raising the allowance. -/
  | refreshRotation (pc : Nat)
  /-- LINK_PAUSE (R460): A write of LKCTL.PAUSE 1 stops new flits on the link and moves its share elsewhere, or is ignored with FAILCODE 4. -/
  | linkPause (n : Nat)
  /-- LINK_UNPAUSE (R460): A write of PAUSE 0 on a link that is up returns its share to it. -/
  | linkUnpause (n : Nat)
  /-- DIAG (R461): A write of LKCTL.DIAG while IDLE starts a lane test. -/
  | diag (n : Nat)
  /-- DIAG_DONE (R461): A lane test ends within 50 µs writing LKLANE and SPAREBAD. -/
  | diagDone (n : Nat) (bad : Word) (spareBad : BitVec 4)
  /-- RETRAIN (R462): A write of LKCTL.RETRAIN checks LKSPARE and trains the link at WIDTH and RATE. -/
  | retrain (n : Nat)
  /-- TRAINING_DONE (R462): Training ends with UP set and the replay buffer sent, or fails with its FAILCODE and event 0x22. -/
  | trainingDone (n : Nat)
  /-- TRAIN_TIMEOUT (R462): Training that has not ended in 100 µs fails with TRAIN_TIMEOUT. -/
  | trainTimeout (n : Nat)
  /-- LINK_RETRY (R463): RETRY rising more than LIMIT within a WINDOW raises event 0x21 once. -/
  | linkRetry (n count : Nat)
  /-- DIE_FENCE (R466): DRCTL FENCE at PHASE 000 stops team starts on the die and pre-empts its teams. -/
  | dieFence (d : Nat)
  /-- DIE_QUIESCE (R466): DRCTL QUIESCE at PHASE 001 holds the die's granules, ATOMs and ring traffic and suspends its collectives. -/
  | dieQuiesce (d : Nat)
  /-- DIE_UNFENCE (R466): DRCTL with FENCE and QUIESCE zero at PHASE 001 or 010 releases the die to PHASE 000. -/
  | dieUnfence (d : Nat)
  /-- WBACK (R466): DRCTL WBACK at PHASE 010 writes back atomic lines, discards TLBs and saves the die's tables to its base die. -/
  | wback (d : Nat)
  /-- DIE_RESET (R466): DRCTL RESET with its conditions met holds the compute die in reset for 200 µs, or is refused with REFUSED. -/
  | dieReset (d : Nat)
  /-- DIE_TRAIN (R466): DRCTL TRAIN at PHASE 100 retrains the die's eight links. -/
  | dieTrain (d : Nat)
  /-- DIE_ADMIT (R466): DRCTL ADMIT with LINKSUP restores the die's state, clears HOLD, releases ATOMs and swaps teams back in. -/
  | dieAdmit (d : Nat)
  /-- TEAMSOUT (R466): When no team is resident on the fenced die TEAMSOUT sets and PHASE becomes 001. -/
  | teamsout (d : Nat)
  /-- DRAINED (R466): When the die's busy counts reach zero DRAINED sets and PHASE becomes 010. -/
  | drained (d : Nat)
  /-- DRLIM_EXPIRY (R466): LIM µs after the QUIESCE write DRAINED sets regardless of counts. -/
  | drlimExpiry (d : Nat)
  /-- WBDONE (R466): The write-back completes and WBDONE sets. -/
  | wbdone (d : Nat)
  /-- DIE_RESET_RELEASE (R466): After 200 µs the die leaves reset, its sequencers are reloaded and PHASE becomes 100 when they start. -/
  | dieResetRelease (d : Nat)
  /-- DIE_ADMIT_DONE (R466): The admission ends and PHASE returns to 000. -/
  | dieAdmitDone (d : Nat)
  /-- REGION_SWITCH_ON (R477): A region starts switching on by closing its first stage of header switches. -/
  | regionSwitchOn (r : Nat)
  /-- STAGE_DUE (R477): A further stage closes when due unless an adjacent region draws above 90% of its limit. -/
  | stageDue (r : Nat) (outputs : List (Nat × List Nat))
  /-- SWITCH_PAUSE_LIMIT (R477): When pauses reach 20 µs the remaining stages close in half-stages without pausing. -/
  | switchPauseLimit (r : Nat)
  /-- REGION_ON (R477): 100 ns after its last stage the region is on and the next wave of its die may start. -/
  | regionOn (r : Nat)
  /-- MILLISECOND_TICK (R487): Each 1 ms the module computes zone REQ and deficit, sets flow floors, updates MODPWR.FLOOR and reads FLOWSTAT. -/
  | millisecondTick (powers : List Nat) (modulePower : Nat)
  /-- FLOWSTAT (R485): A valid FLOWSTAT message updates the zone's measured flow and temperatures. -/
  | flowstat (target : Nat) (msg : List Byte)
  /-- IBI (R485): An in-band interrupt from a zone controller makes the module read FLOWSTAT at once. -/
  | ibi (z : Nat)
  /-- HOT_JOIN (R484): A target joins the I3C bus, is addressed and bound to the zone it reports, a duplicate raising event 0x31. -/
  | hotJoin (target : Nat) (msg : List Byte)
  /-- ZONE_LOST (R488): A zone without valid FLOWSTAT for 50 ms is lost with deficit 100%. -/
  | zoneLost (z : Nat)
  /-- THERMAL_TRIP (R488): A TJ at or above 115.0 °C for 10 ms forces Dusk with FORCED. -/
  | thermalTrip (k : Nat)
  /-- POWER_STATE_EXIT (R483): A wake event takes the module from PL1 to PL3 back to PL0, and the waking request is served afterwards. -/
  | powerStateExit (cause : WakeCause)
  /-- PLCTL_WRITE (R481): A write of LATTOL sets the latency tolerance, a value below the current exit waking the module. -/
  | plctlWrite (v : Word)
  /-- FIDLIM_WRITE (R316): An SST to FIDLIM sets the cluster fidelity limit for commands starting later; 11 is ignored. -/
  | fidlimWrite (k : Nat) (v : Word)
  /-- COLERR_WRITE (R315): An SST to COLERR writes both trims and clears each count field written as zero. -/
  | colerrWrite (u n : Nat) (v : Word)
  /-- GSUM_WRITE (R315): An SST of zero to GSUM1 or GSUM2 clears it; other values are ignored. -/
  | gsumWrite (u : Nat) (second : Bool) (v : Word)
  /-- FIDINJ_WRITE (R321): An SST to FIDINJ starts or stops error injection, numbering group sums from that write. -/
  | fidinjWrite (u : Nat) (v : Word)
  /-- CONTROL_REGISTER_WRITE (R282): A write of any other control or status register stores its writable fields, clamps or clears as its table states. -/
  | controlRegisterWrite (addr : BitVec 40) (v : Word)
  /-- STAGE_PAUSE_END (R477): A paused switch-on stage closes at the moment no adjacent region draws more than 90% of its limit any more. -/
  | stagePauseEnd (x : RegionDraw)
  /-- PCIE_COMPLETION (R444): A PCIe completion for a memory request that the bridge issued for an RMT frame returns to the bridge and is forwarded to the requesting copy. -/
  | pcieCompletion (id : Nat) (data : List Byte)
  /-- CHUNK_APPLIED (R333): A receiver's report that a chunk, or a root result at every member, has been applied lets the sender release its kept copy and count the chunk toward its completion. -/
  | chunkApplied (u id byMember t : Nat)
  /-- MODULE_RESET (R447): At reset the root ROM verifies, measures and loads the sequencer images and starts them. -/
  | moduleReset
  /-- HANDOVER_DEADLINE (R450): A missed 100, 50 or 250 ms deadline stops the new images, restores data stores and restarts the old images. -/
  | handoverDeadline
  /-- ATTESTATION_REPORT (R457): The root writes the signed 17,120-byte report at ATTADR and raises vector 4. -/
  | attestationReport
  /-- DCTL_FORCE (R416): A write of DCTL.FORCE at Noon runs Dusk as if PF_WARN_L were asserted. -/
  | dctlForce
  /-- DUSK_TIME_LIMIT (R301): 20 µs after the warning every tile not yet halted halts with OVERRUN. -/
  | duskTimeLimit
  /-- DRAIN (R420): When every tile has halted the controller writes the system state, team contexts and priority list to the hibernation area. -/
  | drain
  /-- DRAIN_COMPLETE (R422): The drain ends with everything written and the manifest is sealed. -/
  | drainComplete
  /-- DRAIN_TIME_LIMIT (R422): 2.5 s after the warning the drain stops after the current unit and seals with SHORT. -/
  | drainTimeLimit
  /-- RESERVE_FLOOR (R422): The reserve falling to 250 J, or the area filling, stops the drain and seals. -/
  | reserveFloor
  /-- TSHED_EXPIRY (R427): Every TSHED while the sag persists and fewer than SHEDMAX dies are shed, the next die is shed. -/
  | tshedExpiry
  /-- TREADMIT_EXPIRY (R429): After PF_SAG_L has stayed deasserted for TREADMIT the most recently shed die is re-admitted. -/
  | treadmitExpiry
  /-- DAWN (R430): When warnings clear and the reserve is charged the root boots, judges both manifest slots and writes LASTDAWN. -/
  | dawn
  /-- READY_REFRESH (R416): Every 100 ms the module refreshes READY.SYSGB. -/
  | readyRefresh
  /-- TLB_INVALIDATION_DONE (R399): BUSY clears when no TLB holds a matching entry and every command that used one has completed. -/
  | tlbInvalidationDone
  /-- HUB_ZONE_LOST (R488): CZ4 lost for 500 ms forces Dusk with FORCED. -/
  | hubZoneLost
  /-- POWER_STATE_ENTRY (R482): After its dwell with the module idle the module enters the deepest PL state whose exit fits LATTOL. -/
  | powerStateEntry
  /-- SUPPLY_CUT (R426): Power is lost outright, for example during sealing, leaving a slot whose MAGIC has not landed invalid and the other slot as it was. -/
  | supplyCut
deriving DecidableEq, Repr

end Sys2Proof
end

