-- ==== Sys2Proof/Machine/State.lean ====
section
/-!
DEFINITION. The state of the module as plain data: every unit (tile or sequencer), every memory, every
queue, table and control register that the spec gives, what is pending between steps, and the fixed
names `Fault`, `Refusal` and `State.reset`.

Sparse tables are lists of key and value with strictly rising keys (`Tbl`); a key that is not listed
holds the table's default.  Memories are lists of `Host.Cell` in the same form; an unlisted byte reads
as zero (log entry 2).
-/
namespace Sys2Proof.Machine

/-- A sparse table; keys rise strictly and a key that is not listed holds the default its reader names. -/
abbrev Tbl (α : Type) := List (Nat × α)

/-- A memory: addresses rise strictly and no listed byte is zero, which is what an unlisted byte reads
as (log entry 2). -/
abbrev Memory := List Host.Cell

/-- A scalar register or latch with its deferred bit (R131). -/
structure SVal where
  v : Word := 0
  d : Bool := false
deriving DecidableEq, Repr, Inhabited

/-- A vector register, vector latch or tile-register row with its deferred bit (R170, R217). -/
structure VVal where
  v : VReg := 0
  d : Bool := false
deriving DecidableEq, Repr, Inhabited

/-- A mask register with its deferred bit (R170). -/
structure KVal where
  v : Mask := 0
  d : Bool := false
deriving DecidableEq, Repr, Inhabited

/-- One open hardware loop (R150). -/
structure LoopEntry where
  start : Nat
  last : Nat
  remaining : Nat
deriving DecidableEq, Repr

/-- Head and count of a conditional stream (R212). -/
structure Stream where
  head : Nat := 0
  count : Nat := 0
deriving DecidableEq, Repr, Inhabited

/-- The three slot groups that own latches (R33). -/
inductive Group
  | s | va | vb
deriving DecidableEq, Repr

/-- The six slots of a bundle, in the order of R111. -/
inductive Slot
  | s | va | vb | m | c0 | c1
deriving DecidableEq, Repr

/-- Where a result lands (R130, R169, R176, R160, R217). -/
inductive Dest
  | none                                -- the latches only
  | sreg (r : Nat)
  | preg (r : Nat)
  | vreg (c : Cluster) (r : Nat)
  | vpair (c : Cluster) (r : Nat)
  | mask (c : Cluster) (r : Nat)
  | row (t r : Nat)
  | staging (r : Nat)
deriving DecidableEq, Repr

/-- A result in flight (R5, R297): its destination, value (`hi` is the odd register of a pair), governed
lanes or bits, deferred bit, flags, captured enables, the bundles left until it lands and the offset of
the issuing bundle. -/
structure InFlight where
  dest : Dest
  group : Option Group
  nw : Bool
  lo : VReg
  hi : VReg
  gov : Mask
  d : Bool
  flags : BitVec 5
  en : BitVec 5
  k : Nat
  pc : Nat
deriving DecidableEq, Repr

/-- The part of the context that a mark shadows and a rollback restores (R292). -/
structure Regs where
  s : Tbl SVal := []
  p : BitVec 8 := 0
  pd : BitVec 8 := 0
  va : Tbl VVal := []
  vb : Tbl VVal := []
  ka : Tbl KVal := []
  kb : Tbl KVal := []
  tx : Tbl VVal := []
  stg : Tbl Word := []
  fcsr : Word := 0
  loops : List LoopEntry := []
  genA : Tbl Word := []
  genB : Tbl Word := []
  streams : Tbl Stream := []
deriving DecidableEq, Repr, Inhabited

/-- One gated store entry: a buffer and the bytes it will write (R84, R293). -/
structure Gated where
  buf : Buf
  bytes : List (Nat × Byte)
deriving DecidableEq, Repr

/-- State of a 64 KiB ownership unit of a tile's own buffers (R86): owned by a member of the team, or in
transfer to it since the command with serial `since` (R89). -/
inductive OwnUnit
  | owned (member : Nat)
  | transfer (member : Nat) (since : Nat)
deriving DecidableEq, Repr

/-- Trap causes (R284). -/
inductive Cause
  | illegalEncoding | illegalOperand | privilege | localBounds | ownership | misalign | deferredStore
  | copyTranslation | copyAccess | gateOverflow | fpEnabled | atomicFault | collectiveFault
  | fidelityReplayLimit | barrierBroken | breakpoint | preempt | dusk | twilightShed
deriving DecidableEq, Repr

/-- A trap that is ready or held: its cause, resume point (`none` until the boundary at which it is ready, R286), trap value,
whether it needs a rollback and whether its work was issued in handler mode; the tag of its command and when its condition
arose (R285), and `late` where that was while a stalled bundle stood behind its boundary (R284). -/
structure Pend where
  cause : Cause
  resume : Option Nat
  val : Word
  rollback : Bool
  handler : Bool
  tag : Nat := 0
  arose : Nat := 0
  late : Bool := false
deriving DecidableEq, Repr

/-- The snapshot latch bank of a task that is in its handler (R289, R297). -/
structure Bank where
  flight : List InFlight
  sl : List SVal
  la : List VVal
  lb : List VVal
  replies : List (Nat × Word)
deriving DecidableEq, Repr

/-- An `ATOM` reply awaited: the register, the request's id, its issue serial and whether a handler issued it
(R165, R289, R294). -/
structure PendAtom where
  reg : Nat
  id : Nat
  serial : Nat
  handler : Bool
deriving DecidableEq, Repr

/-- What a unit is doing.  `ending` and `faulting` have executed `END` and wait for their commands. -/
inductive RunState
  | idle | running | ending | ended | faulting | faulted | frozen | halted | seqHalted
deriving DecidableEq, Repr

/-- The matrix commands (R122); MMS 2:4 and 4:8 are two variants. -/
inductive MVar
  | mm | mms24 | mms48 | mmt | azero | ascl | acvt
deriving DecidableEq, Repr

/-- What the engine keeps of a started matrix command, so that a replay reads no buffer again (R231). -/
structure MRecord where
  ab : Memory
  wb : Memory
  cb : Memory
  tx : Tbl VVal
  scales : Tbl ScaleReg
deriving DecidableEq, Repr

/-- A place a byte can lie in once it is translated: a tile or sequencer buffer, cluster SRAM, module
DRAM, host memory, the TAIL of a queue behind a doorbell page, or a scale register (R74, R261, R394, R396,
R398). -/
inductive Place
  | buf (u : Nat) (b : Buf)
  | sram (k : Nat)
  | dram
  | host
  | doorbell
  | scale (r : Nat)
deriving DecidableEq, Repr

/-- An address in a place. -/
structure Loc where
  place : Place
  addr : Nat
deriving DecidableEq, Repr

/-- A matrix command in the matrix queue (R82, R221, R239).  `scales` is the snapshot of R241; `after` is the serial of the
`CPYM` whose copy must land first (R252, R256) and `follow` marks a follow-on; `level` is the fidelity level fixed at the start
(R230).  `bundle` names the bundle that issued it, and `old` holds bytes that this bundle's writes replaced, which the command
reads as they were (R79), `gate` the gated stores that a rollback discarded and that it still reads (R84, R249); `scaleSer`
orders the writes of its scale snapshot. -/
structure MCmd where
  serial : Nat
  pc : Nat
  var : MVar
  o : MOps
  stg : List Word
  fcsr : Word
  scales : Tbl ScaleReg
  scaleSer : Tbl Nat := []
  bundle : Nat
  old : List (Loc × Byte) := []
  gate : List Gated := []
  after : Option Nat
  follow : Bool := false
  handler : Bool
  started : Option Nat
  opsRead : Bool
  level : Nat
  replays : Nat
  record : Option MRecord
deriving DecidableEq, Repr

/-- One translation: a page or granule of `size` bytes at virtual page address `page`, the place and base it
names, its scheme, metadata place and permissions (R394, R398). -/
structure Xlat where
  seg : Bool
  aspace : Nat
  page : Nat
  size : Nat
  place : Place
  base : Nat
  cs : Nat
  mp : Bool
  r : Bool
  w : Bool
  db : Bool
deriving DecidableEq, Repr

/-- One DRAM request of a copy engine: its pseudo-channel, the start of its calendar slot, the time from which it is
ready, and whether it writes (R409, R410); `none` where no slot of the tables is its own.  A write is also not ready before
the read request `after` of its command has delivered, and a request that is `held` waits for a suspension to end (R253). -/
structure Req where
  chan : Nat
  slot : Option Nat
  ready : Nat
  write : Bool
  after : Option Nat := none
  held : Bool := false
deriving DecidableEq, Repr

/-- One piece of a copy, within one 64-byte unit at both ends: `len` bytes from `src` to `dst`; a fill has its bytes
in `lit`.  `scs` and `dcs` are the schemes of the blocks at both ends, `smp` and `dmp` whether their metadata is in
the side table; `req` and `wreq` are the places of its last read request and of its write request in the command's
requests (R409), and `wrote` tells that it has landed (R253, R410). -/
structure Run where
  src : Option Loc
  dst : Loc
  len : Nat
  lit : List Byte := []
  scs : Nat := 0
  smp : Bool := false
  dcs : Nat := 0
  dmp : Bool := false
  req : Option Nat := none
  wreq : Option Nat := none
  wrote : Bool := false
deriving DecidableEq, Repr

/-- A block as a copy between memories has read it: whether it was stored compressed, its metadata record and what it stores from
the payload's place on (R100, R102). -/
structure Stored where
  src : Loc
  packed : Bool
  record : List Byte
  payload : List Byte
deriving DecidableEq, Repr

/-- Progress of a copy-slot command (R82, R248). -/
inductive CPhase
  | queued | translated | started | moved
deriving DecidableEq, Repr

/-- A copy-slot command in its engine's queue (R82, R244): the instruction, the snapshot of its staging block, the index list
it has read, its translations, the units it counts in, its pieces, the bytes of each piece that has arrived, the pieces whose
data it could not obtain (R252), its DRAM requests, the error of R252 and the bundles until an `SCLD` may land; `bundle`, `old`
and `gate` as for a matrix command (R79, R84).  `stop` is the piece before which a suspension stops it (R253), and `refused`
tells that its pre-translation has ended in a fault (R248).  `blocks` are the source blocks that a copy between memories has
read, `oldBlocks` those that other commands of its bundle wrote over, as they stood before (R79, R100), `peer` tells that the
error is a peer's status reply (R270), and `strayed` are the dies at which the command counts as a stray (R467). -/
structure CCmd where
  serial : Nat
  pc : Nat
  engine : Engine
  op : Instr
  tag : Nat
  stg : List Word
  handler : Bool
  bundle : Nat := 0
  old : List (Loc × Byte) := []
  gate : List Gated := []
  phase : CPhase := .queued
  index : List Nat := []
  xlat : List Xlat := []
  counted : List Nat := []
  runs : List Run := []
  got : Tbl (List Byte) := []
  lost : List Nat := []
  reqs : List Req := []
  err : Option Byte := none
  left : Nat := 0
  stop : Option Nat := none
  refused : Bool := false
  blocks : List Stored := []
  oldBlocks : List Stored := []
  peer : Bool := false
  strayed : List Nat := []
deriving DecidableEq, Repr

/-- The place of a collective command in a mailbox (R265). -/
structure MailEntry where
  serial : Nat
  pc : Nat
  tag : Nat
  coll : Nat
deriving DecidableEq, Repr

/-- The fields of the job card that the tile uses (R17). -/
structure CardInfo where
  arg : Word := 0
  entry : Nat := 0
  trapEntry : Nat := 0
  fidmax : Nat := 0
  prio : Nat := 0
  phase : Bool := false
  shadelim : Nat := 3
  hrank : Nat := 0
  coll : List Nat := []
  aspace : Nat := 0
deriving DecidableEq, Repr, Inhabited

/-- One tile or sequencer, with everything that R292 saves and what the unit holds besides; `was` is what a frozen unit did
(R296), `waiting` holds while the next bundle has passed its boundary and stalls (R36), and `pastEnd` once the member has executed
`END` in task mode (R162). -/
structure Unit where
  run : RunState := .idle
  regs : Regs := {}
  shadow : Regs := {}
  shadowFlight : List InFlight := []
  pc : Nat := 0
  handler : Bool := false
  code : Memory := []
  codeLen : Nat := 0
  wb : Memory := []
  ab : Memory := []
  cb : Memory := []
  sb : Memory := []
  scales : Tbl ScaleReg := []
  scaleSer : Tbl Nat := []
  own : Tbl OwnUnit := []
  sl : List SVal := []
  la : List VVal := []
  lb : List VVal := []
  flight : List InFlight := []
  bank : Option Bank := none
  hloop : Option LoopEntry := none
  gated : List Gated := []
  afterEret : Bool := false
  markPc : Word := 0
  markSerial : Nat := 0
  markDone : Bool := false
  trapCause : Word := 0
  trapPc : Word := 0
  trapVal : Word := 0
  trapVec : Word := 0
  hstat : Word := 0
  mstat : Word := 0
  cstat : Word := 0
  fidstat : Word := 0
  bcount : Word := 0
  pend : List Pend := []
  duskTaken : Bool := false
  atoms : List PendAtom := []
  serial : Nat := 1
  tags : Tbl Nat := []
  mq : List MCmd := []
  q0 : List CCmd := []
  q1 : List CCmd := []
  sclds : List CCmd := []
  tlb0 : List Xlat := []
  tlb1 : List Xlat := []
  tlbw : List Xlat := []
  lastSlot0 : Option Nat := none
  lastSlot1 : Option Nat := none
  mail : List MailEntry := []
  barIssued : Nat := 0
  barWaiting : Bool := false
  pastEnd : Bool := false
  team : Option Nat := none
  member : Nat := 0
  teamSize : Nat := 0
  graph : Nat := 0
  node : Nat := 0
  queue : Nat := 0
  recSerial : Nat := 0
  card : CardInfo := {}
  duskDeadline : Option Nat := none
  nextIssue : Nat := 0
  colerr : Tbl Word := []
  gsum1 : Word := 0
  gsum2 : Word := 0
  fidinj : Word := 0
  injCount : Nat := 0
  calcnt : Word := 0
  vgen : Nat := 0
  events : List Word := []
  kicked : Nat := 0
  role : Bool := false
  hostate : Nat := 0
  hofin : Bool := false
  was : RunState := .idle
  waiting : Bool := false
deriving DecidableEq, Repr, Inhabited

/-- What happens when the bundle in issue ends: `TRAP`, `ERET`, `DUSKDONE`, `END`, and what an `SST` or a write of HOACK
does (R26, R278 to R282, R453). -/
inductive After
  | trap (imm : Nat) | eret | duskdone | endTask | sst (addr : Nat) (v : Word) | hoack (v : Word)
deriving DecidableEq, Repr

/-- The bundle in issue, empty between steps (the model's own).  `snap` is the unit as it stood before
any slot took effect, from which every slot reads its sources (R31, R38); while it is set the checks of
R111 have been made for the whole bundle.  `branch` is the target of a taken branch, `skip` where a `LOOP`
of count zero goes on (R148, R150). -/
structure IssueCtx where
  snap : Option Unit := none
  slots : List Instr := []
  branch : Option Nat := none
  skip : Option Nat := none
  after : Option After := none
deriving DecidableEq, Repr, Inhabited

/-- State of a region-table entry (R86): owned by a member of the node's team, in transfer between two of
them since a command serial, frozen, atomic, or the host's. -/
inductive RegState
  | owned (member : Nat)
  | transfer (src dst : Nat) (since : Nat)
  | frozen | atomic | host
deriving DecidableEq, Repr

/-- An entry of a cluster's region table: a range of 64-byte units in segment or DRAM virtual space, and the
node it belongs to (R86, R87). -/
structure Region where
  seg : Bool
  aspace : Nat
  base : Nat
  units : Nat
  st : RegState
  node : Option Nat
deriving DecidableEq, Repr

/-- The operations of `ATOM` (R164). -/
inductive AOp
  | add | and | or | xor | min | max | mins | maxs | xchg | cas
deriving DecidableEq, Repr

/-- A request waiting at an atomic engine (R92): its requester 0 to 17, the unit and the id of its reply (`none` with
suppressed write-back), the operation, the width in bytes, the line address in the cluster's SRAM, the scheme of its block and
the operands; `node` is the requester's team and `held` marks a request that waits at its source (R466). -/
structure AtomReq where
  requester : Nat
  unit : Nat
  node : Option Nat
  held : Bool := false
  id : Option Nat
  op : AOp
  bytes : Nat
  addr : Nat
  cs : Nat := 0
  v : Word
  cmp : Word
deriving DecidableEq, Repr

/-- A reply of an atomic engine on its way to a unit, with the address of the operation (R93, R460). -/
structure AtomReply where
  unit : Nat
  node : Option Nat
  id : Nat
  v : Word
  addr : Nat
deriving DecidableEq, Repr

/-- One cluster (R86, R91, R388, R479): among its power state, the current level with the time of its last change and since
when the current has been low, the end of the droop level, the thermal level, since when a junction is at 115.0 °C, and when
the level is next evaluated (R479, R480, R488). -/
structure ClusterSt where
  regions : List Region := []
  lines : Tbl (List Byte) := []
  reqs : List AtomReq := []
  replies : List AtomReply := []
  grantFrom : Nat := 0
  curLevel : Nat := 0
  curChange : Nat := 0
  lowFrom : Option Nat := none
  droopUntil : Option Nat := none
  thermal : Nat := 0
  hotFrom : Option Nat := none
  evalAt : Nat := 0
deriving DecidableEq, Repr, Inhabited

/-- What a record of a queue has come to (R380 to R382). -/
inductive NPhase
  | waiting | ready | resident | swapped | ended | done
deriving DecidableEq, Repr

/-- Where a swapped team's context lies: the shadow storage of its tiles, or the DRAM swap area with a slot for each
member (R28, R385). -/
inductive SwapPlace
  | shadow | area
deriving DecidableEq, Repr

/-- A GRANT or TAKE entry of a launch record (R375). -/
structure Grant where
  base : Nat
  len : Nat
  take : Bool
deriving DecidableEq, Repr

/-- A record that the scheduler has consumed: a node or a marker, with its edges, its team's placement and
the measures of R29 and R385.  `parked` is a team that SHADELIM stops on its tiles (R21), `leaving` one that is freezing for
a swap (R296). -/
structure Node where
  queue : Nat
  serial : Nat
  graph : Nat
  index : Nat
  marker : Bool := false
  aspace : Nat := 0
  mask : Nat := 0
  phase : NPhase := .waiting
  status : Nat := 0
  detail : Nat := 0
  edges : List Nat := []
  card : List Byte := []
  cword : Nat := 0
  grants : List Grant := []
  pin : Option (Nat × Nat) := none
  cluster : Nat := 0
  first : Nat := 0
  place : Option SwapPlace := none
  slots : List Nat := []
  pinned : List Nat := []
  parked : Bool := false
  leaving : Bool := false
  waitFrom : Nat := 0
  quantumFrom : Nat := 0
  promoted : Nat := 0
deriving DecidableEq, Repr, Inhabited

/-- A task graph of a queue (R376). -/
structure Graph where
  queue : Nat
  test : Bool
  conc : Bool
  prev : Option Nat
  closed : Bool := false
  nodes : Nat := 0
deriving DecidableEq, Repr, Inhabited

/-- What the scheduler keeps of a queue beside its registers: the open graph, the last graph and the count of
records consumed (R376, R380). -/
structure QueueSt where
  openGraph : Option Nat := none
  lastGraph : Option Nat := none
  serial : Nat := 0
deriving DecidableEq, Repr, Inhabited

/-- A round among the queues of one priority: the queue at which it began, the teams that each queue has started in it,
the queue after the last one served, and the queues that ran out of teams after a start (R383); `had` are the records of teams
that have started in the rotation in progress (R29). -/
structure Round where
  first : Nat := 0
  starts : Tbl Nat := []
  next : Nat := 0
  out : List Nat := []
  had : List Nat := []
deriving DecidableEq, Repr, Inhabited

/-- The scheduler (R371 to R390): records by number in the order of consumption, graphs by serial, the queue whose turn
to be consumed is next (R374), and the rounds of each priority. -/
structure Sched where
  queues : Tbl QueueSt := []
  graphs : Tbl Graph := []
  nodes : Tbl Node := []
  nextNode : Nat := 1
  nextGraph : Nat := 1
  turn : Nat := 0
  rounds : Tbl Round := []
deriving DecidableEq, Repr, Inhabited

/-- A migrator (R401): its request in progress, with the page as its leaf maps it, the frames it holds, the time at which it
began and its target, whether its counts were above zero 50 µs later, the old frames of each page that a fold waits for, and a
GO that waits for the module to wake (R483). -/
structure Migrator where
  page : Option Xlat := none
  hold : List Nat := []
  since : Nat := 0
  copying : Bool := false
  target : Nat := 0
  late : Bool := false
  folding : List (List Nat) := []
  asked : Bool := false
deriving DecidableEq, Repr, Inhabited

/-- One indirection entry: the frame that the tables name, the frame `src` that held its bytes and the frame that stands
beneath it (R403); while `copying`, reads go to `src` and writes to both. -/
structure Indirect where
  old : Nat
  src : Nat
  new : Nat
  copying : Bool
deriving DecidableEq, Repr

/-- Refresh and alert state of a pseudo-channel (R411 to R413), rotations by number: the alert and the refresh rotations that
are called for and still to come, how many refresh units have fallen due, the rotations taken, which had no slots, the counts of
its rows, and the rows whose alert is owed, each with the rotation that serves it. -/
structure PcSt where
  alerts : List Nat := []
  refreshes : List Nat := []
  due : Nat := 0
  blocked : List Nat := []
  rows : Tbl Nat := []
  alerting : List (Nat × Nat) := []
deriving DecidableEq, Repr, Inhabited

/-- A chunk that a member holds: its sender, its iteration or first record, and its bytes (R331, R343). -/
structure Chunk where
  sender : Nat
  t : Nat
  data : List Byte
deriving DecidableEq, Repr

/-- The last word about a member that is out of reach: its code, PEER_DARK or TWILIGHT, and whether this module itself knows it
(R345). -/
structure PeerWord where
  member : Nat
  code : Nat
  own : Bool
deriving DecidableEq, Repr

/-- Overflow records that a repartition left in the pool: the node that keeps them, the bytes reserved, and where they lie (R344,
R368). -/
structure KeptPool where
  node : Nat
  bytes : Nat
  aspace : Nat
  base : Nat
  size : Nat
deriving DecidableEq, Repr

/-- A collective or repartition command that a comm master runs for member `member` of its group (R323 to R347).
`rcd` is its record, `kept` the chunks it has read from LOCAL_IN, `credits` those that receivers gave it and
`granted` those that it gave, `acks` the reports that a chunk of its own is applied, `inSlots` and `inPool` what it
holds beyond order, `parts` what the hub units that combine its reduction have gathered, `counts` the exchange of R343 and
`owners` those of its own records, `slots` and `pool` its reservations in bytes, `waitOn` the members that are out of reach, in
the order in which that was heard, `turned` the chunks that came without a credit and found no room, `walk` where a `WALK` from an
iteration stands (R269), `barred` that a member answered with an outcome of R327, R328 or R499, `toAsk` the modules whose members
it asks for what is missing and `toResend` that it sends again what was not reported applied, both once its comm master runs
(R346), and `ended` an outcome that ends it. -/
structure Coll where
  unit : Nat
  serial : Nat
  pc : Nat
  tag : Nat
  handler : Bool
  node : Option Nat
  repart : Bool
  rcd : List Byte
  step : Nat
  member : Nat
  mems : List (Nat × Nat)
  win : Word
  wout : Word
  aspace : Nat
  xlat : List Xlat
  counted : List Nat
  noWord : Bool := false
  slots : Nat := 0
  pool : Nat := 0
  entry : Bool := false
  edge : Bool := false
  kept : Tbl (List Byte) := []
  credits : Tbl Nat := []
  granted : Tbl Nat := []
  sent : List (Nat × Nat) := []
  acks : List (Nat × Nat) := []
  inSlots : List Chunk := []
  inPool : List Chunk := []
  parts : List Chunk := []
  applied : List (Nat × Nat) := []
  counts : List (List Nat) := []
  owners : List Nat := []
  poolRecs : Tbl (List Byte) := []
  bounced : List Nat := []
  status : Nat := 0
  delivered : Nat := 0
  overflow : Nat := 0
  waitOn : List PeerWord := []
  turned : List (Nat × Nat) := []
  walk : Nat × Nat := (0, 0)
  barred : Bool := false
  toAsk : List Nat := []
  toResend : Bool := false
  waitFrom : Option Nat := none
  waited : Nat := 0
  waitCode : Nat := 3
  ended : Option Nat := none
deriving DecidableEq, Repr

/-- A collective that has ended at this module: its issuer, member index and outcome, what it had applied of each sender, and
the modules of its members; `barred` says that some member was known to have failed its checks.  Later chunks, credits and
requests are answered from it (R345, R347, R499). -/
structure EndedColl where
  unit : Nat
  serial : Nat
  group : Nat
  step : Nat
  member : Nat
  outcome : Nat
  applied : List (Nat × Nat)
  mods : List Nat
  barred : Bool := false
deriving DecidableEq, Repr

/-- A message that the module has sent: what its peers, its host and its links see of it (R332, R333, R345, R419,
R430, R436, R437, R444, R445). -/
inductive Msg
  | chunk (mod : Nat) (group step sender dest t : Nat) (dst : Nat) (data : List Byte)
  | credit (mod : Nat) (group step sender dest : Nat)
  | applied (mod : Nat) (group step sender by_ t : Nat)
  | request (mod : Nat) (group step sender dest t : Nat)
  | status (mod : Nat) (group step code : Nat) (ended : Bool)
  | write (mod : Nat) (seg : Bool) (addr : Nat) (data : List Byte)
  | read (mod : Nat) (seg : Bool) (addr len : Nat)
  | reply (mod : Nat) (data : List Byte)
  | answer (mod : Nat) (code : Nat)
  | dark (mod : Nat)
  | dawn (serial : Nat)
  | cold
  | ack (port seq : Nat)
  | nak (port seq : Nat)
  | flit (port seq : Nat)
  | pcieRead (id addr len : Nat)
  | pcieWrite (addr : Nat) (data : List Byte)
  | rmtRead (mod : Nat) (bulk : Bool) (id addr len : Nat)
  | rmtWrite (mod : Nat) (bulk : Bool) (addr : Nat) (data : List Byte)
  | capability (port : Nat) (vers : List (Nat × Nat))
  | pause (port cls : Nat)
  | resume (port cls : Nat)
  | hostData (data : List Byte)
  | hostAnswer (mod : Nat) (data : List Byte)
  | unsupported
  | flowSet (zone : Nat) (data : List Byte)
  | flowRead (zone : Nat)
  | hostCtl (mod addr : Nat) (write : Bool) (v : Word)
  | hostMem (mod addr : Nat) (write : Bool) (data : List Byte)
  | prefetch (aspace page : Nat)
deriving DecidableEq, Repr

/-- A memory read that the bridge has issued for a piece of a copy, or for the module `origin` (R444). -/
structure PcieRead where
  id : Nat
  unit : Nat
  node : Option Nat
  serial : Nat
  piece : Nat
  len : Nat
  origin : Option Nat := none
deriving DecidableEq, Repr

/-- One Wyforen port (R435 to R441): the sequence numbers of its next flit each way, its replay buffer as numbers, messages and
parts of them, the failures of the flit at its head, the classes paused by the peer, how many flits its own buffer of each
paused class holds and for which classes it has paused the peer, its link epoch, when and at which flit it was last keyed, and
the messages that wait, each with how many of its flits have started. -/
structure Port where
  txSeq : Nat := 0
  rxSeq : Nat := 0
  replay : List (Nat × Msg × Nat) := []
  fails : Nat := 0
  paused : List Nat := []
  buffered : Tbl Nat := []
  pausing : List Nat := []
  epoch : Nat := 0
  keyedAt : Nat := 0
  keyedSeq : Nat := 0
  waiting : List (Msg × Nat) := []
deriving DecidableEq, Repr, Inhabited

/-- Whether a region is off, switching on or on (R477). -/
inductive SwPhase
  | off | switching | on
deriving DecidableEq, Repr, Inhabited

/-- The header switches of a region (R476, R477): 512 tile regions, then 32 cluster core regions; the half-stages that have
closed, of 16, when the last one closed, since when a stage is paused, and the pauses of this switch-on added up. -/
structure Switch where
  phase : SwPhase := .on
  halves : Nat := 16
  lastAt : Nat := 0
  pausedFrom : Option Nat := none
  paused : Nat := 0
deriving DecidableEq, Repr, Inhabited

/-- A coolant zone (R484 to R488): its flow floor as the table of R487 gives it, when its last valid FLOWSTAT came, whether
and since when it is lost, when FLOWREQ was last sent, the bus target bound to it, and the last SEQ it applied. -/
structure Zone where
  floor : Nat := 0
  lastValid : Nat := 0
  lost : Bool := false
  lostFrom : Nat := 0
  sentAt : Nat := 0
  target : Option Nat := none
  applied : Nat := 0
deriving DecidableEq, Repr, Inhabited

/-- A die-to-die link beside its registers (R459 to R463): when its training began and for which width and rate, its window of
retries, the flit that failed last and how often, how many flits its replay buffer holds unacknowledged, and when its test
began. -/
structure Link where
  trainFrom : Nat := 0
  width : Nat := 0
  rate : Nat := 0
  windowFrom : Nat := 0
  inWindow : Nat := 0
  told : Bool := false
  failing : Nat := 0
  fails : Nat := 0
  unacked : Nat := 0
  diagFrom : Nat := 0
deriving DecidableEq, Repr, Inhabited

/-- A warm reset beside its registers (R466): when QUIESCE was written, when the die was put in reset, and whether its
write-back is under way. -/
structure DieSt where
  limFrom : Nat := 0
  resetFrom : Nat := 0
  writing : Bool := false
deriving DecidableEq, Repr, Inhabited

/-- A firmware handover (R450): the time of its GO, the new images by KIND in the idle banks, and every sequencer as it stood
at START. -/
structure Handover where
  goAt : Option Nat := none
  idle : Tbl (List Byte) := []
  old : Tbl Unit := []
deriving DecidableEq, Repr, Inhabited

/-- What the root sequencer keeps (R446 to R449, R456): the image set by KIND that starts at reset and Dawn, the measurement
registers, the fused SVN of each KIND, the nonce and address of the report that is being made, and when the module was
last reset or woken (R464). -/
structure Root where
  images : Tbl (List Byte) := []
  meas : Tbl (List Byte) := []
  svn : Tbl Nat := []
  att : Option (List Byte × Nat) := none
  bootAt : Nat := 0
deriving DecidableEq, Repr, Inhabited

/-- An extent of a hibernation area (R425): its KIND, tier offset, length, index and hash. -/
structure Extent where
  kind : Nat
  off : Nat
  len : Nat
  index : Nat
  hash : List Byte
deriving DecidableEq, Repr

/-- The system state that a drain writes (R420), with the slip counters of every tile and the busy counts that each team's
commands hold (R400, R414). -/
structure SysImage where
  ctl : Tbl Word := []
  clusters : Tbl ClusterSt := []
  sched : Sched := {}
  cbits : List Nat := []
  busy : Tbl Nat := []
  held : List Nat := []
  stays : Tbl Nat := []
  invWait : List (Nat × Nat) := []
  migrators : Tbl Migrator := []
  indirect : Tbl (List Indirect) := []
  pcs : Tbl PcSt := []
  calPend : Tbl (Nat × Word) := []
  colls : List Coll := []
  endedColls : List EndedColl := []
  poolKept : List KeptPool := []
  darkMods : List Nat := []
  routes : Tbl (List Nat) := []
  versions : Tbl (List Nat) := []
  ports : Tbl Port := []
  heldEvents : List (Nat × Word) := []
  tables : Memory := []
  records : Memory := []
  hostReset : Bool := false
  calcnts : Tbl Word := []
  counts : Tbl (List Nat) := []
deriving DecidableEq, Repr, Inhabited

/-- DRAM, the indirection tables and the control registers as they stood when a warning came, from which the drain takes the
list and walks the tables (R417, R418), and the system state then (R420). -/
structure AtWarn where
  dram : Memory
  indirect : Tbl (List Indirect)
  ctl : Tbl Word
  image : SysImage
deriving DecidableEq, Repr, Inhabited

/-- The Dusk controller (R416 to R434): the two warning lines with their last changes, when Dusk began and whether it was
forced, Midnight and since when, the dies shed (most recent first), the die that is being shed and since when; and of the drain
the area it writes, its next free offset, whether the system state is written, the teams and list entries that remain, the next
unit of the first entry, the units drained so far with their tier offsets, the DONE count of each entry and the extents.
`atWarn` is what the list and the tables were at the warning, `plan` the order of the valid entries then (R417, R418); `dawn`
holds while a Dawn is under way, `supply` while the supply is present, `reserve` is the energy that the reserve held at
`chargedAt` (R431, R501); `readyAt` and `refreshed` are when SYSGB and RSVSTAT were last refreshed. -/
structure DuskSt where
  warn : Bool := false
  sag : Bool := false
  calmFrom : Nat := 0
  sagFrom : Nat := 0
  warnAt : Nat := 0
  forced : Bool := false
  midnight : Bool := false
  sleptAt : Nat := 0
  shedAt : Nat := 0
  shed : List Nat := []
  shedding : Option Nat := none
  area : Nat := 0
  off : Nat := 0
  sysDone : Bool := false
  teams : List Nat := []
  entries : List Nat := []
  unit : Nat := 0
  drained : List (Loc × Nat) := []
  done : Tbl Nat := []
  extents : List Extent := []
  atWarn : Option AtWarn := none
  plan : List Nat := []
  dawn : Bool := false
  supply : Bool := true
  reserve : Nat := 0
  chargedAt : Nat := 0
  refreshed : Option Nat := none
  readyAt : Nat := 0
deriving DecidableEq, Repr, Inhabited

/-- What a hibernation area holds beside its manifest slot and the bytes of its list extents, which lie in the storage tier
(R423 to R425): the system state, the team contexts by node, and where each drained unit lies. -/
structure HibArea where
  sys : SysImage := {}
  teams : Tbl (Tbl Unit) := []
  units : List (Loc × Nat) := []
deriving DecidableEq, Repr, Inhabited

/-- The whole module. -/
structure State where
  units : Tbl Unit := []
  focus : Nat := 0
  issue : IssueCtx := {}
  agenda : List (Nat × Instr) := []
  now : Nat := 0
  free : Nat := 0
  dram : Memory := []
  sram : Tbl Memory := []
  host : Memory := []
  tier : Memory := []
  ctl : Tbl Word := []
  clusters : Tbl ClusterSt := []
  sched : Sched := {}
  cbits : List Nat := []
  busy : Tbl Nat := []
  held : List Nat := []
  stays : Tbl Nat := []
  invWait : List (Nat × Nat) := []
  migrators : Tbl Migrator := []
  indirect : Tbl (List Indirect) := []
  pcs : Tbl PcSt := []
  calPend : Tbl (Nat × Word) := []
  saved : Tbl (Tbl Unit) := []
  modnum : Nat := 0
  leads : Tbl Nat := []
  colls : List Coll := []
  endedColls : List EndedColl := []
  poolKept : List KeptPool := []
  out : List Msg := []
  darkMods : List Nat := []
  routes : Tbl (List Nat) := []
  versions : Tbl (List Nat) := []
  ports : Tbl Port := []
  pcie : List PcieRead := []
  nextPcie : Nat := 1
  hostReset : Bool := false
  hostReads : List (Nat × Nat) := []
  switches : Tbl Switch := []
  hoStart : Option Nat := none
  zones : Tbl Zone := []
  spares : List Nat := []
  woken : Bool := false
  dueBase : Nat := 0
  bumpedAt : Nat := 0
  bumped : List (Nat × Nat × Nat) := []
  tickAt : Nat := 0
  lowTicks : Nat := 0
  busyAt : Nat := 0
  heldEvents : List (Nat × Word) := []
  links : Tbl Link := []
  dies : Tbl DieSt := []
  ho : Handover := {}
  root : Root := {}
  dusk : DuskSt := {}
  hib : Tbl HibArea := []
deriving DecidableEq, Repr, Inhabited

/-- Why the machine stops. -/
inductive Fault
  /-- Raised by a step that names a unit, queue, port or other numbered part that the module does not
  have (R1).  Safe: no such event exists on the module. -/
  | noSuchPart (n : Nat)
deriving DecidableEq, Repr

/-- Why an instruction has no meaning. -/
inductive Refusal
  /-- Raised by an arm of `exec` that has no meaning yet. Safe. -/
  | notModelled (mnemonic : String)
deriving DecidableEq, Repr

/-- The module right after reset: every part holds the value the spec gives for reset, or the value that
the log names. -/
def State.reset : State := {}

end Sys2Proof.Machine
end

