-- ==== Sys2Proof/Machine/Ops.lean ====
section
/-!
DEFINITION. The named operations over tables, memories and units: reading and writing one byte, results
in flight, restart marks and rollback, taking a trap and returning from one.
-/
namespace Sys2Proof.Machine

/-! ### Tables -/

/-- The value a table holds at a key; `d` where the key is not listed. -/
def tget {α : Type} (d : α) : Tbl α → Nat → α
  | [], _ => d
  | (k, v) :: t, i => if i = k then v else if i < k then d else tget d t i

/-- The table with `v` at key `i`; keys stay strictly rising. -/
def tput {α : Type} : Tbl α → Nat → α → Tbl α
  | [], i, v => [(i, v)]
  | (k, w) :: t, i, v =>
    if i < k then (i, v) :: (k, w) :: t
    else if i = k then (i, v) :: t
    else (k, w) :: tput t i v

/-- The table without key `i`. -/
def tdel {α : Type} : Tbl α → Nat → Tbl α
  | [], _ => []
  | (k, w) :: t, i => if i = k then t else (k, w) :: tdel t i

/-- The table with `f` applied to the value at key `i`. -/
def tmod {α : Type} (d : α) (t : Tbl α) (i : Nat) (f : α → α) : Tbl α := tput t i (f (tget d t i))

/-- The keys of a table hold no repeats and rise. -/
def tsorted {α : Type} : Tbl α → Bool
  | [] => true
  | [_] => true
  | (a, _) :: (b, w) :: t => decide (a < b) && tsorted ((b, w) :: t)

/-! ### Memories -/

/-- The byte at an address; an unlisted byte reads as zero (log entry 2). -/
def mget (m : Memory) (a : Nat) : Byte := tget 0 m a

/-- The memory with byte `b` at address `a`, in canonical form: a zero byte is not listed. -/
def mput : Memory → Nat → Byte → Memory
  | [], a, b => if b = 0 then [] else [(a, b)]
  | (k, w) :: t, a, b =>
    if a < k then (if b = 0 then (k, w) :: t else (a, b) :: (k, w) :: t)
    else if a = k then (if b = 0 then t else (a, b) :: t)
    else (k, w) :: mput t a b

/-- The canonical form of a memory: addresses strictly rising and no zero byte listed. -/
def Memory.wf (m : Memory) : Bool := tsorted m && m.all (fun c => c.2 != 0)

/-- `n` bytes from address `a`. -/
def mread (m : Memory) (a n : Nat) : List Byte := (List.range n).map (fun i => mget m (a + i))

/-- The memory with `bs` written from address `a`. -/
def mwrite : Memory → Nat → List Byte → Memory
  | m, _, [] => m
  | m, a, b :: bs => mwrite (mput m a b) (a + 1) bs

/-- The memory with each listed byte written, in order. -/
def mwriteEach (m : Memory) (bs : List (Nat × Byte)) : Memory := bs.foldl (fun m c => mput m c.1 c.2) m

/-- The value of `n` bits held little-endian from address `a` (R2). -/
def mword (n : Nat) (m : Memory) (a : Nat) : BitVec n := ofBytes n (mread m a (n / 8))

/-! ### Units -/

/-- The kinds of unit (TILEID.KIND, R275). -/
inductive Kind
  | tile | comm | service | root
deriving DecidableEq, Repr

/-- Units 0 to 511 are the tiles, 512 to 575 the comm sequencers (two a cluster), 576 to 583 the die
service sequencers (two a die), 584 and 585 the hub service sequencers and 586 the root sequencer
(R1, R43, R473; the numbering is the model's own, log entry 3). -/
def unitKind (u : Nat) : Kind :=
  if u < 512 then .tile else if u < 576 then .comm else if u < 586 then .service else .root

/-- How many units the module has. -/
def unitCount : Nat := 587

/-- A unit is a tile. -/
def isTile (u : Nat) : Bool := decide (u < 512)

/-- The cluster, 0 to 31, of a tile or comm sequencer; that of cluster 0 of its die for a die service
sequencer (R473), and 0 for a hub sequencer. -/
def clusterOf (u : Nat) : Nat :=
  if u < 512 then u / 16 else if u < 576 then (u - 512) / 2 else if u < 584 then 8 * ((u - 576) / 2) else 0

/-- The compute die of a unit; 0 for hub sequencers (R275). -/
def dieOf (u : Nat) : Nat := clusterOf u / 8

/-- Clock period of a unit in units of 1/90 ns: 3.6 GHz for tiles and 1.8 GHz for sequencers (R1). -/
def period (u : Nat) : Nat := if u < 512 then 25 else 50

/-- `n` nanoseconds in units of 1/90 ns. -/
def ns (n : Nat) : Nat := 90 * n

/-- `n` microseconds in units of 1/90 ns. -/
def us (n : Nat) : Nat := 90000 * n

/-- Unit `u` of the module. -/
def State.unit (s : State) (u : Nat) : Unit := tget {} s.units u

/-- The module with unit `u` replaced. -/
def State.setUnit (s : State) (u : Nat) (x : Unit) : State := { s with units := tput s.units u x }

/-- The module with `f` applied to unit `u`. -/
def State.modUnit (s : State) (u : Nat) (f : Unit → Unit) : State := s.setUnit u (f (s.unit u))

/-- The unit that issues. -/
def State.cur (s : State) : Unit := s.unit s.focus

/-- The unit as the slots of the bundle in issue read it: as it stood before any slot of the bundle took
effect (R31). -/
def State.src (s : State) : Unit := s.issue.snap.getD s.cur

/-- The module with `f` applied to the unit that issues. -/
def State.modCur (s : State) (f : Unit → Unit) : State := s.modUnit s.focus f

/-- Privilege modes (R42). -/
inductive Mode
  | task | handler | service
deriving DecidableEq, Repr

/-- The mode unit `u` is in (R42). -/
def modeOf (u : Nat) (x : Unit) : Mode :=
  if isTile u then (if x.handler then .handler else .task) else .service

/-- The size of a buffer of unit `u` (R75); a sequencer has only SB, of 256 KiB (R44). -/
def bufSize (u : Nat) (b : Buf) : Nat :=
  if isTile u then
    match b with
    | .wb => 1048576
    | .ab => 655360
    | .cb => 262144
    | .sb => 131072
  else
    match b with
    | .sb => 262144
    | _ => 0

/-- A buffer of a unit. -/
def Unit.buf (x : Unit) : Buf → Memory
  | .wb => x.wb
  | .ab => x.ab
  | .cb => x.cb
  | .sb => x.sb

/-- The unit with a buffer replaced. -/
def Unit.setBuf (x : Unit) (b : Buf) (m : Memory) : Unit :=
  match b with
  | .wb => { x with wb := m }
  | .ab => { x with ab := m }
  | .cb => { x with cb := m }
  | .sb => { x with sb := m }

/-- The byte that a gated entry of `b` will write at `a`, the latest entry first (R84). -/
def gatedByte (g : List Gated) (b : Buf) (a : Nat) : Option Byte :=
  match g with
  | [] => none
  | e :: es =>
    match gatedByte es b a with
    | some v => some v
    | none => if e.buf = b then (e.bytes.reverse.find? (fun c => c.1 == a)).map (·.2) else none

/-- The byte of buffer `b` that the unit's own accesses and commands read: an uncommitted gated store is
read as a committed one (R84). -/
def Unit.bget (x : Unit) (b : Buf) (a : Nat) : Byte := (gatedByte x.gated b a).getD (mget (x.buf b) a)

/-- `n` bytes of buffer `b` from offset `a`, gated stores included (R84). -/
def Unit.bread (x : Unit) (b : Buf) (a n : Nat) : List Byte := (List.range n).map (fun i => x.bget b (a + i))

/-- A gated entry without the listed bytes of buffer `b`: another write supersedes them (R84, R293). -/
def Gated.without (e : Gated) (b : Buf) (bs : List (Nat × Byte)) : Gated :=
  if e.buf = b then { e with bytes := e.bytes.filter (fun c => !(bs.any (fun d => d.1 == c.1))) } else e

/-- The unit with bytes written to buffer `b` past the gated store buffer, as an engine write or a
handler-mode store writes: gated entries, and those that a queued command still reads, no longer hold them (R84, R293). -/
def Unit.bput (x : Unit) (b : Buf) (bs : List (Nat × Byte)) : Unit :=
  let cut (g : List Gated) : List Gated := g.map (fun (e : Gated) => e.without b bs)
  let copy (c : CCmd) : CCmd := { c with gate := cut c.gate }
  ({ x with
    gated := cut x.gated
    mq := x.mq.map (fun (m : MCmd) => { m with gate := cut m.gate })
    q0 := x.q0.map copy
    q1 := x.q1.map copy }).setBuf b (mwriteEach (x.buf b) bs)

/-- `bs` placed from offset `a`. -/
def placed (a : Nat) (bs : List Byte) : List (Nat × Byte) :=
  (List.range bs.length).map (fun i => (a + i, bs.getD i 0))

/-- The unit with every gated store written into its buffer, in issue order, and every entry freed
(R291). -/
def Unit.commitGated (x : Unit) : Unit :=
  let y := x.gated.foldl (fun y e => y.setBuf e.buf (mwriteEach (y.buf e.buf) e.bytes)) x
  { y with gated := [] }

/-- A local store of the unit: one gated entry for each listed block in task mode or a sequencer's service
mode outside its handler, and directly to the buffer in handler mode (R158, R201, R293). -/
def Unit.store (x : Unit) (b : Buf) (entries : List (List (Nat × Byte))) : Unit :=
  if x.handler then entries.foldl (fun y bs => y.bput b bs) x
  else { x with gated := x.gated ++ entries.map (fun bs => { buf := b, bytes := bs }) }

/-! ### Results in flight -/

/-- The unit with a result issued: it is read from the bundle `k` bundles after the issuing one on (R5). -/
def Unit.issueResult (x : Unit) (r : InFlight) : Unit := { x with flight := x.flight ++ [r] }

/-- `old` with the lanes that `gov` governs taken from `new` (R169). -/
def mergeLanes (gov : Mask) (old new : VReg) : VReg :=
  (List.range 64).foldl (fun acc l =>
    if bitOf gov l then setField acc (32 * l) (field new (32 * l) 32) else acc) old

/-- One register's share of a landing: the register, the value, its governed lanes or bits and its D. -/
structure Part where
  dest : Dest
  v : VReg
  gov : Mask
  d : Bool
deriving DecidableEq, Repr

/-- The shares of a result in vector registers, masks and tile-register rows (R169, R170, R217). -/
def InFlight.parts (r : InFlight) : List Part :=
  if r.nw then []
  else match r.dest with
    | .vreg c i => [{ dest := .vreg c i, v := r.lo, gov := r.gov, d := r.d }]
    | .vpair c i => [{ dest := .vreg c i, v := r.lo, gov := r.gov, d := r.d },
                     { dest := .vreg c (i + 1), v := r.hi, gov := r.gov, d := r.d }]
    | .mask c i => if i = 0 then [] else [{ dest := .mask c i, v := r.lo, gov := r.gov, d := r.d }]
    | .row t i => [{ dest := .row t i, v := r.lo, gov := r.gov, d := r.d }]
    | _ => []

/-- The lanes or bits that the shares of one register govern together. -/
def govUnion (ps : List Part) (dst : Dest) : Mask :=
  (ps.filter (fun p => p.dest = dst)).foldl (fun (m : Mask) p => m ||| p.gov) (0 : Mask)

/-- The D bit that the shares `ps` leave in a register whose D bit was `old`: a single share gives its own, several give those
that write a lane, and the old bit counts where a lane keeps its value (R170, R217). -/
def landD (ps : List Part) (dst : Dest) (old : Bool) : Bool :=
  let mine := ps.filter (fun p => p.dest = dst)
  let kept := govUnion ps dst != BitVec.allOnes 64
  (kept && old) || mine.any (fun p => p.d && (decide (mine.length ≤ 1) || p.gov != 0))

/-- A vector value after one share lands: governed lanes take it (R169). -/
def VVal.share (x : VVal) (p : Part) (d : Bool) : VVal := { v := mergeLanes p.gov x.v p.v, d := d }

/-- A mask after one share lands: governed bits take it (R219). -/
def KVal.share (x : KVal) (p : Part) (d : Bool) : KVal :=
  { v := (x.v &&& ~~~ p.gov) ||| (p.v.setWidth 64 &&& p.gov), d := d }

/-- The registers with one share landed; `g0` are the registers before the first share of the boundary and
`ps` every share of the boundary. -/
def Regs.share (g0 : Regs) (ps : List Part) (g : Regs) (p : Part) : Regs :=
  match p.dest with
  | .vreg .va i => { g with va := tput g.va i ((tget {} g.va i).share p (landD ps p.dest (tget {} g0.va i).d)) }
  | .vreg .vb i => { g with vb := tput g.vb i ((tget {} g.vb i).share p (landD ps p.dest (tget {} g0.vb i).d)) }
  | .mask .va i => { g with ka := tput g.ka i ((tget {} g.ka i).share p (landD ps p.dest (tget {} g0.ka i).d)) }
  | .mask .vb i => { g with kb := tput g.kb i ((tget {} g.kb i).share p (landD ps p.dest (tget {} g0.kb i).d)) }
  | .row t i =>
    { g with tx := tput g.tx (64 * t + i) ((tget {} g.tx (64 * t + i)).share p
        (landD ps p.dest (tget {} g0.tx (64 * t + i)).d)) }
  | _ => g

/-- The registers after the scalar and staging part of a result lands (R130, R160); p0 is never written. -/
def Regs.land (g : Regs) (r : InFlight) : Regs :=
  if r.nw then g
  else match r.dest with
    | .sreg i => { g with s := tput g.s i { v := r.lo.setWidth 64, d := r.d } }
    | .preg i =>
      if i = 0 then g
      else { g with p := setField g.p i (r.lo.setWidth 1), pd := setField g.pd i (ofBool 1 r.d) }
    | .staging i => { g with stg := tput g.stg i (r.lo.setWidth 64) }
    | _ => g

/-- What a result leaves in a vector latch: lanes that are not governed read as zero (R169); a mask result
fills lanes 0 and 1 (R176, R198). A pair enters as its even register's half (R115). -/
def latchVal (r : InFlight) : VVal :=
  match r.dest with
  | .mask _ _ => { v := (r.lo.setWidth 64 : Mask).setWidth 2048, d := r.d }
  | _ => { v := mergeLanes r.gov 0 r.lo, d := r.d }

/-- `l` with its first entry, latch 0, replaced (R33). -/
def setLatch0 {α : Type} (l : List α) (v : α) : List α := v :: l.drop 1

/-- One result lands in its scalar, predicate or staging register, where write-back is not suppressed, in
FCSR.FLG, and in latch 0 of its group (R33, R61, R130). -/
def Unit.landOne (x : Unit) (r : InFlight) : Unit :=
  let g := x.regs.land r
  let x := { x with regs := { g with fcsr := g.fcsr ||| ((r.flags.setWidth 64) <<< 8) } }
  match r.group with
  | none => x
  | some .s => { x with sl := setLatch0 x.sl { v := r.lo.setWidth 64, d := r.d } }
  | some .va => { x with la := setLatch0 x.la (latchVal r) }
  | some .vb => { x with lb := setLatch0 x.lb (latchVal r) }

/-- The registers after every share of the results due at one boundary has landed (R169, R170). -/
def Regs.landParts (g : Regs) (ps : List Part) : Regs := ps.foldl (Regs.share g ps) g

/-- Every result due at this boundary lands, in issue order, so that the later-issued one is kept (R32). -/
def Unit.landDue (x : Unit) : Unit :=
  let due := x.flight.filter (fun r => r.k == 0)
  let x := { x with flight := x.flight.filter (fun r => r.k != 0)
                    regs := x.regs.landParts (due.flatMap InFlight.parts) }
  due.foldl Unit.landOne x

/-- A result due at this boundary raises an enabled exception (R63). -/
def InFlight.raises (r : InFlight) : Bool := r.k == 0 && (r.flags &&& r.en) != 0

/-! ### Traps -/

/-- The code of a cause (R284). -/
def Cause.code : Cause → Nat
  | .illegalEncoding => 0x00
  | .illegalOperand => 0x01
  | .privilege => 0x02
  | .localBounds => 0x03
  | .ownership => 0x04
  | .misalign => 0x05
  | .deferredStore => 0x06
  | .copyTranslation => 0x07
  | .copyAccess => 0x08
  | .gateOverflow => 0x09
  | .fpEnabled => 0x0A
  | .atomicFault => 0x0B
  | .collectiveFault => 0x0C
  | .fidelityReplayLimit => 0x0D
  | .barrierBroken => 0x0E
  | .breakpoint => 0x0F
  | .preempt => 0x10
  | .dusk => 0x11
  | .twilightShed => 0x12

/-- TRAPCAUSE of a cause: CODE in [4:0] and ASYNC in [8] (R275). -/
def Cause.word (c : Cause) : Word :=
  BitVec.ofNat 64 (c.code + if c = .dusk ∨ c = .twilightShed then 0x100 else 0)

/-- HSTAT bit numbers (R275). -/
def hsOverrun : Nat := 7
/-- HSTAT.RESUMED (R275). -/
def hsResumed : Nat := 6
/-- HSTAT.ROLLED (R275). -/
def hsRolled : Nat := 1

/-- A word with one bit set. -/
def setBit (w : Word) (i : Nat) : Word := w ||| ((1 : Word) <<< i)

/-- How many issued commands of a tag have not completed, adjusted by one completion (R126). -/
def Unit.tagDone (x : Unit) (t : Nat) : Unit := { x with tags := tmod 0 x.tags t (· - 1) }

/-- A tag with one more command issued (R126). -/
def Unit.tagIssue (x : Unit) (t : Nat) : Unit := { x with tags := tmod 0 x.tags t (· + 1) }

/-- A tag is complete when every command issued with it has completed (R126). -/
def Unit.tagComplete (x : Unit) (t : Nat) : Bool := tget 0 x.tags t == 0

/-- `COLL`, `REPART` and `CFENCE` do not pre-translate (R262, R265). -/
def CCmd.untranslated (c : CCmd) : Bool :=
  match c.op with
  | .cfence _ _ => true
  | .coll _ _ => true
  | .repart _ _ => true
  | _ => false

/-- A rollback discards this copy-slot command: it was issued since the mark and has not passed
translation (R249, R251). -/
def CCmd.discarded (mark : Nat) (c : CCmd) : Bool :=
  decide (mark ≤ c.serial) && c.phase == .queued && !c.untranslated

/-- The commands that a rollback discards leave their queues, their tags and the matrix queue's
follow-on places (R249). -/
def Unit.discardCmds (x : Unit) : Unit :=
  let gone := (x.q0 ++ x.q1).filter (CCmd.discarded x.markSerial)
  let follow := x.mq.filter (fun m => match m.after with
    | some n => gone.any (fun c => c.serial == n)
    | none => false)
  let x := gone.foldl (fun x c => x.tagDone c.tag) x
  let x := follow.foldl (fun x m => x.tagDone m.o.tag.toNat) x
  { x with
    q0 := x.q0.filter (fun c => !(c.discarded x.markSerial))
    q1 := x.q1.filter (fun c => !(c.discarded x.markSerial))
    mq := x.mq.filter (fun m => !(follow.any (fun f => f.serial == m.serial))) }

/-- The gated stores are discarded, and the commands that go on keep those that they read (R84, R154, R249). -/
def Unit.dropGated (x : Unit) : Unit :=
  let copy (c : CCmd) : CCmd := { c with gate := c.gate ++ x.gated }
  { x with
    gated := []
    mq := x.mq.map (fun (m : MCmd) => { m with gate := m.gate ++ x.gated })
    q0 := x.q0.map copy
    q1 := x.q1.map copy }

/-- The rollback to the last mark: the shadowed context is restored, gated stores and results issued since
the mark are discarded, results that were in flight across the mark stand with their shadowed offsets, and
the latches are cleared; traps of the discarded commands and results go with them (R84, R249, R286, R294, R34). -/
def Unit.rollback (x : Unit) : Unit :=
  let x := x.discardCmds
  { x.dropGated with
    regs := x.shadow
    flight := x.shadowFlight
    sl := []
    la := []
    lb := []
    atoms := x.atoms.filter (fun a => decide (a.serial < x.markSerial))
    pend := x.pend.filter (fun p => p.cause != .fpEnabled && (!p.rollback || p.handler))
    hstat := setBit x.hstat hsRolled }

/-- Entering the trap handler (R289): after the rollback of a rollback cause, every result in flight and the latches move into
the bank, TRAPCAUSE, TRAPPC and TRAPVAL are set, handler mode begins with its own empty loop entry and fetch goes to TRAPVEC.
The generator states are not banked: the handler goes on with the task's (DESIGN CHOICE, log entry 95). -/
def Unit.enterTrap (x : Unit) (c : Cause) (resume : Nat) (val : Word) (rb : Bool) : Unit :=
  let x := if rb then x.rollback else x
  { x with
    bank := some { flight := x.flight, sl := x.sl, la := x.la, lb := x.lb, replies := [] }
    flight := []
    sl := []
    la := []
    lb := []
    trapCause := c.word
    trapPc := BitVec.ofNat 64 ((if rb then x.markPc.toNat else resume) % 2 ^ 17)
    trapVal := val
    handler := true
    hloop := none
    afterEret := false
    markDone := false
    waiting := false
    pc := x.trapVec.toNat }

/-- Ending the member as faulted: the gated stores of the open region are discarded, and the unit waits
for its commands before it is reported with the cause (R154, R288); TRAPVAL is that of the fault (R152, log entry 9). -/
def Unit.endFaulted (x : Unit) (c val : Word) : Unit :=
  { x.dropGated with trapCause := c, trapVal := val, run := .faulting, regs := { x.regs with loops := [] } }

/-- A synchronous trap of unit `u`: entry to the handler, or, in handler mode, the end of the member as
faulted on a tile and a halt on a sequencer (R288, R289). -/
def Unit.syncTrap (u : Nat) (x : Unit) (c : Cause) (val : Word) : Unit :=
  if x.handler then
    (if isTile u then x.endFaulted c.word val else { x with run := .seqHalted, trapCause := c.word, trapVal := val })
  else x.enterTrap c x.pc val false

/-- A result that writes scalar register `r`. -/
def InFlight.writesS (q : InFlight) (r : Nat) : Bool := q.dest == .sreg r && !q.nw

/-- The results in flight once a reply has come for register `r`: an earlier result that lands with it enters its latch only
(R165). -/
def keepReply (r : Nat) (fs : List InFlight) : List InFlight :=
  fs.map (fun q => if q.k = 0 ∧ q.writesS r then { q with dest := .none } else q)

/-- An `ATOM` reply for register `r` is written.  The reply of an `ATOM` issued before the mark stands in the shadow too, whose
register then awaits it no more, and so do the earlier results that it came after (R165, R294, log entry 71). -/
def Unit.writeReply (x : Unit) (r : Nat) (serial : Nat) (v : Word) : Unit :=
  let g (g : Regs) : Regs := { g with s := tput g.s r { v := v } }
  let later (q : InFlight) : Bool := x.flight.any (fun f => f.writesS r && f.pc == q.pc && f.k != 0)
  let before := decide (serial < x.markSerial)
  { x with
    regs := g x.regs
    flight := keepReply r x.flight
    shadow := if before then g x.shadow else x.shadow
    shadowFlight := if before then
        x.shadowFlight.map (fun q => if q.writesS r ∧ !(later q) then { q with dest := .none } else q)
      else x.shadowFlight }

/-- The held replies are written, and their registers are pending no more (R290). -/
def Unit.landReplies (x : Unit) (rs : List (Nat × Word)) : Unit :=
  rs.foldl (fun (x : Unit) r =>
    match x.atoms.find? (fun a => a.reg == r.1) with
    | none => x
    | some a => { x.writeReply r.1 a.serial r.2 with atoms := x.atoms.filter (fun b => b.id != a.id) }) x

/-- The unit in its task again (R290): H is cleared, the latches and the bank of the task come back beside the
handler's own results in flight, and fetch goes to TRAPPC, where the first bundle takes no BRK trap. -/
def Unit.restoreBank (x : Unit) : Unit :=
  match x.bank with
  | none => { x with handler := false, hloop := none, afterEret := true, pc := x.trapPc.toNat }
  | some b =>
    { x with
      handler := false
      hloop := none
      afterEret := true
      pc := x.trapPc.toNat
      flight := b.flight ++ x.flight
      sl := b.sl
      la := b.la
      lb := b.lb
      bank := none }

/-- Leaving the handler (R290): the bank comes back, and held replies are written. -/
def Unit.leaveTrap (x : Unit) : Unit := x.restoreBank.landReplies ((x.bank.map (·.replies)).getD [])

/-- HSTAT as it reads: the held traps and the mode beside the stored fields (R275, R287). -/
def Unit.hstatView (x : Unit) : Word :=
  let other := x.pend.any (fun p => p.cause != .dusk && p.cause != .twilightShed)
  x.hstat ||| (ofBool 64 (x.pend.any (fun p => p.cause == .twilightShed)) <<< 5)
    ||| (ofBool 64 (x.pend.any (fun p => p.cause == .dusk)) <<< 4)
    ||| (ofBool 64 other <<< 3) ||| ofBool 64 x.handler

/-- Every copy issued since the last mark has passed translation; `COLL`, `REPART` and `CFENCE` do not
pre-translate (R36, R265, R291). -/
def Unit.copiesPassed (x : Unit) : Bool :=
  (x.q0 ++ x.q1).all (fun c => decide (c.serial < x.markSerial) || c.phase != .queued || c.untranslated)

/-- The mark commits (R291): gated stores are written, MARKPC is the marked bundle, and the context of
R292 with the results in flight across the mark goes into the shadow. -/
def Unit.commitMark (x : Unit) : Unit :=
  let x := x.commitGated
  { x with
    markPc := BitVec.ofNat 64 x.pc
    markSerial := x.serial
    shadow := x.regs
    shadowFlight := x.flight
    markDone := true }

/-- Place of a pending trap in the order in which a boundary takes it (R285). -/
def Pend.order (p : Pend) : Nat :=
  if p.rollback then 1
  else match p.cause with
    | .dusk => 2
    | .twilightShed => 3
    | .fpEnabled => 5
    | .breakpoint => 7
    | _ => 6

/-- `p` comes before `q`, which the list has after it: by the order of R285, in order 6 by the time at which the conditions
arose and then by the tag, and else by their places. -/
def Pend.before (p q : Pend) : Bool :=
  if p.order ≠ q.order then decide (p.order < q.order)
  else if p.order ≠ 6 then true
  else if p.arose ≠ q.arose then decide (p.arose < q.arose)
  else decide (p.tag ≤ q.tag)

/-- The first pending trap in the order of R285. -/
def firstPend : List Pend → Option Pend
  | [] => none
  | p :: ps =>
    match firstPend ps with
    | none => some p
    | some q => if p.before q then some p else some q

/-- The list without the first entry equal to `p`. -/
def dropPend (p : Pend) : List Pend → List Pend
  | [] => []
  | q :: qs => if q = p then qs else q :: dropPend p qs

/-- Results that raise an enabled exception at this boundary leave the flight and become one pending
FP_ENABLED of the earliest issued; their flags, those of each of them (DESIGN CHOICE, log entry 92), are recorded in FCSR.FLG and
none of them lands (R63). -/
def Unit.collectFp (x : Unit) : Unit :=
  match x.flight.filter InFlight.raises with
  | [] => x
  | r :: rs =>
    let flags := (r :: rs).foldl (fun (f : BitVec 5) q => f ||| q.flags) (0 : BitVec 5)
    { x with
      flight := x.flight.filter (fun q => !q.raises)
      regs := { x.regs with fcsr := x.regs.fcsr ||| ((flags.setWidth 64) <<< 8) }
      pend := x.pend ++ [{ cause := .fpEnabled, resume := none, val := BitVec.ofNat 64 r.pc,
                           rollback := false, handler := x.handler }] }

/-- A pending trap that is a double fault when it becomes ready in handler mode: an FP_ENABLED, rollback
or data error of work issued in handler mode (R288). -/
def Pend.double (p : Pend) : Bool :=
  p.handler && (p.rollback || p.cause == .fpEnabled || p.cause == .copyAccess)

/-- The budget of a DUSK or TWILIGHT_SHED, HSTAT[31:20] (R275, R300). -/
def Unit.budget (x : Unit) : Nat := (field x.hstat 20 12).toNat

/-- The unit with the budget set (R300, R301). -/
def Unit.setBudget (x : Unit) (n : Nat) : Unit := { x with hstat := setField x.hstat 20 (BitVec.ofNat 12 n) }

/-- The boundary is that of a trap: one that arose while a stalled bundle stood behind its boundary is taken after it (R284,
R364, log entry 72). -/
def Unit.readyAt (x : Unit) (p : Pend) : Bool := !(x.waiting && p.late)

/-- The traps that are ready at a boundary outside a handler have this bundle as their resume point from now on (R284, R286). -/
def Unit.holdPends (x : Unit) : Unit :=
  { x with pend := x.pend.map (fun (p : Pend) =>
      if p.resume.isSome ∨ p.rollback ∨ !(x.readyAt p) then p else { p with resume := some x.pc }) }

/-- Taking one ready trap at a bundle boundary (R285 to R289); `none` when no trap is taken there. -/
def Unit.takeReady (u : Nat) (x : Unit) : Option Unit :=
  let x := x.collectFp
  if x.handler then
    match x.pend.find? (fun p => p.double && x.readyAt p) with
    | none => none
    | some p =>
      if isTile u then some ({ x with pend := dropPend p x.pend }.endFaulted p.cause.word p.val)
      else some { x with pend := dropPend p x.pend, run := .seqHalted, trapCause := p.cause.word, trapVal := p.val }
  else
    let x := x.holdPends
    match firstPend (x.pend.filter x.readyAt) with
    | none => none
    | some p =>
      let y := { x with pend := dropPend p x.pend,
                        duskTaken := x.duskTaken || (p.cause == Cause.dusk) || (p.cause == Cause.twilightShed) }
      some (y.enterTrap p.cause (p.resume.getD x.pc) p.val p.rollback)

end Sys2Proof.Machine
end

