-- ==== Sys2Proof/Machine/CtlMap.lean ====
section
/-!
DEFINITION. The physical control space (R282): which register an address names, the value it holds after
reset, and reading and replacing the stored word or a field of it.  What a write does beyond storing is in
the files of the registers' chapters.
-/
namespace Sys2Proof.Machine

/-- A register of the control space: its block, which copy of the block, and its offset in the block. -/
inductive CReg
  | sch (off : Nat)               -- R387
  | queue (q off : Nat)           -- R371
  | trb (off : Nat)               -- R391
  | mig (d off : Nat)             -- R401
  | dcb (off : Nat)               -- R416, R492
  | fab (p off : Nat)             -- R441
  | rob (off : Nat)               -- R454, R456
  | brb (off : Nat)               -- R445
  | dlb (n off : Nat)             -- R459
  | drb (d off : Nat)             -- R465
  | cal (k c off : Nat)           -- R408, R414
  | pwb (off : Nat)               -- R481
  | clshade (k : Nat)             -- R481
  | cllim (k : Nat)               -- R481
  | dielim (d : Nat)              -- R481
  | clb (off : Nat)               -- R486
  | colerr (u n : Nat)            -- R315
  | gsum (u : Nat) (second : Bool) -- R315
  | fidinj (u : Nat)              -- R315
  | calcnt (u : Nat)              -- R414
  | colvb (u n : Nat)             -- R475
  | fidlim (k : Nat)              -- R316
deriving DecidableEq, Repr

/-! ### Addresses -/

/-- SCB (R371). -/
def scb : Nat := 0x20000000
/-- Register `off` of queue `q` (R371). -/
def qAddr (q off : Nat) : Nat := scb + 0x100000 + 32 * q + off
/-- TRB (R391). -/
def trb : Nat := 0x28000000
/-- MIG(d) (R401). -/
def migAddr (d : Nat) : Nat := 0x29000000 + 0x10000 * d
/-- DCB (R416). -/
def dcb : Nat := 0x2A000000
/-- Port `p` of the fabric block (R441). -/
def fabAddr (p : Nat) : Nat := 0x2B000000 + 0x1000 * p
/-- ROB (R454). -/
def rob : Nat := 0x2C000000
/-- BRB (R445). -/
def brb : Nat := 0x2D000000
/-- Link `n` of the die-link block (R459). -/
def dlbAddr (n : Nat) : Nat := 0x2E000000 + 0x100 * n
/-- Die `d` of the warm-reset block (R465). -/
def drbAddr (d : Nat) : Nat := 0x2F000000 + 0x1000 * d
/-- CAL(k, c) (R408). -/
def calAddr (k c : Nat) : Nat := 0x30000000 + 0x10000 * k + 0x100 * c
/-- PWB (R481). -/
def pwb : Nat := 0x31000000
/-- CLB (R486). -/
def clb : Nat := 0x32000000
/-- CTL(d, c, t) of a tile (R314). -/
def ctlAddr (u : Nat) : Nat := 0x40000000 + (u / 128) * 0x10000000 + (u / 16 % 8) * 0x01000000 + (u % 16) * 0x10000
/-- FIDLIM of cluster `k` (R316). -/
def fidlimAddr (k : Nat) : Nat := ctlAddr (16 * k) + 0x100000

/-- A condition for an optional result. -/
def guarded {α : Type} (b : Bool) (x : α) : Option α := if b then some x else none

/-- The register of a compute die's tile control blocks at offset `o` from CTL(0, 0, 0) (R314 to R316, R414,
R475). -/
def tileRegOf (o : Nat) : Option CReg :=
  let k := o / 0x10000000 * 8 + o / 0x01000000 % 16
  let r := o % 0x01000000
  if 32 ≤ k ∨ 8 ≤ o / 0x01000000 % 16 ∨ o % 8 ≠ 0 then none
  else if r = 0x100000 then some (.fidlim k)
  else if 0x100000 ≤ r then none
  else
    let u := 16 * k + r / 0x10000
    let x := r % 0x10000
    if x < 0x8000 then none
    else if x < 0x8200 then some (.colerr u ((x - 0x8000) / 8))
    else if x = 0x8200 then some (.gsum u false)
    else if x = 0x8208 then some (.gsum u true)
    else if x = 0x8210 then some (.fidinj u)
    else if x = 0x8220 then some (.calcnt u)
    else if x < 0x8300 then none
    else if x < 0x8500 then some (.colvb u ((x - 0x8300) / 8))
    else none

/-- The register that an address of the control space names; `none` where no register backs the address. -/
def cregOf (a : Nat) : Option CReg :=
  if a % 8 ≠ 0 then none
  else if a < scb then none
  else if a < trb then
    let o := a - scb
    if o ≤ 0x28 then some (.sch o)
    else if 0x100000 ≤ o ∧ o < 0x300000 then some (.queue ((o - 0x100000) / 32) ((o - 0x100000) % 32))
    else none
  else
    let b := a / 0x01000000
    let o := a % 0x01000000
    match b with
    | 0x28 => guarded (o ≤ 0x20) (.trb o)
    | 0x29 => guarded (o / 0x10000 < 4 && o % 0x10000 ≤ 0x18) (.mig (o / 0x10000) (o % 0x10000))
    | 0x2A => guarded (o ≤ 0x50) (.dcb o)
    | 0x2B => guarded (o / 0x1000 < 16 && (o % 0x1000 ≤ 0x10 || (0x800 ≤ o % 0x1000 && o % 0x1000 < 0xA00)))
                (.fab (o / 0x1000) (o % 0x1000))
    | 0x2C => guarded (o ≤ 0x20 || (0x40 ≤ o && o ≤ 0x68)) (.rob o)
    | 0x2D => guarded (o ≤ 0x98) (.brb o)
    | 0x2E => guarded (o / 0x100 < 24 && o % 0x100 ≤ 0x28) (.dlb (o / 0x100) (o % 0x100))
    | 0x2F => guarded (o / 0x1000 < 4 && o % 0x1000 ≤ 0x10) (.drb (o / 0x1000) (o % 0x1000))
    | 0x30 => guarded (o / 0x10000 < 24 && o % 0x10000 < 0x4000 && o % 0x100 ≤ 0x88)
                (.cal (o / 0x10000) (o % 0x10000 / 0x100) (o % 0x100))
    | 0x31 =>
      if o ≤ 0x18 then some (.pwb o)
      else if 0x100 ≤ o ∧ o < 0x200 then some (.clshade ((o - 0x100) / 8))
      else if 0x200 ≤ o ∧ o < 0x300 then some (.cllim ((o - 0x200) / 8))
      else if 0x400 ≤ o ∧ o < 0x420 then some (.dielim ((o - 0x400) / 8))
      else none
    | 0x32 => guarded (o < 0xC0) (.clb o)
    | _ => if 0x40000000 ≤ a ∧ a < 0x80000000 then tileRegOf (a - 0x40000000) else none

/-- The compute die on which a register lies (R282); hub and base-die registers lie on none. -/
def CReg.die : CReg → Option Nat
  | .colerr u _ => some (u / 128)
  | .gsum u _ => some (u / 128)
  | .fidinj u => some (u / 128)
  | .calcnt u => some (u / 128)
  | .colvb u _ => some (u / 128)
  | .fidlim k => some (k / 8)
  | _ => none

/-- FMIN and FMAX of a coolant zone after reset (R484). -/
def zoneFlow (z : Nat) : Nat × Nat :=
  if z < 4 then (20, 100) else if z = 5 ∨ z = 6 then (15, 60) else (10, 40)

/-- The word of a register after reset: the values of R316, R387, R408, R414, R416, R459, R465, R481 and R486, links up (log
entry 4), the least LOG2N and WEIGHT that R371 stores (log entry 7), and zero where the spec gives none (log entry 1). -/
def creset (a : Nat) : Word :=
  match cregOf a with
  | some (.sch 0x08) => 0x07D003E801F400FA
  | some (.sch 0x10) => 16
  | some (.queue _ 0) => 0x0400000000000000
  | some (.queue _ 8) => 0x0000010000000000
  | some (.dcb 0x18) => 1000
  | some (.dcb 0x20) => 0x30123
  | some (.dcb 0x28) => 0x0000006400000005
  | some (.dcb 0x48) => 1
  | some (.dlb _ 0x08) => 1
  | some (.dlb _ 0x28) => 0x0000006400000040
  | some (.drb _ 0x10) => 100
  | some (.cal _ _ 0x80) => 4096
  | some (.pwb 0x10) => 2800
  | some (.cllim _) => 900
  | some (.dielim _) => 60
  | some (.clb o) =>
    if o < 0x40 then
      let f := zoneFlow (o / 8)
      BitVec.ofNat 64 (450 * 2 ^ 32 + f.2 * 2 ^ 16 + f.1)
    else 0
  | some (.fidlim _) => 2
  | _ => 0

/-- The stored word of the register at an address. -/
def State.cget (s : State) (a : Nat) : Word := tget (creset a) s.ctl a

/-- The module with the stored word of a register replaced. -/
def State.cset (s : State) (a : Nat) (w : Word) : State := { s with ctl := tput s.ctl a w }

/-- A field of a stored word, as a number. -/
def State.cfield (s : State) (a lo w : Nat) : Nat := (field (s.cget a) lo w).toNat

/-- The module with a field of a stored word replaced. -/
def State.csetField (s : State) (a lo w v : Nat) : State := s.cset a (setField (s.cget a) lo (BitVec.ofNat w v))

/-- An increment of a counter is kept in mind for the clock in which it falls (R493). -/
def State.noteBump (s : State) (a lo n : Nat) : State :=
  { s with bumpedAt := s.now, bumped := (if s.bumpedAt = s.now then s.bumped else []) ++ [(a, lo, n)] }

/-- The module with a counter field raised by `n`, saturating (R493). -/
def State.cbump (s : State) (a lo w n : Nat) : State :=
  (s.noteBump a lo n).csetField a lo w (min (2 ^ w - 1) (s.cfield a lo w + n))

/-- What a counter holds once it is cleared: its increments of the same clock, which are applied after the clear (R493). -/
def State.bumpsNow (s : State) (a lo : Nat) : Nat :=
  if s.bumpedAt = s.now then (s.bumped.filter (fun b => b.1 == a && b.2.1 == lo)).foldl (fun n b => n + b.2.2) 0 else 0

/-- The module with a counter field cleared (R493). -/
def State.cclear (s : State) (a lo w : Nat) : State := s.csetField a lo w (min (2 ^ w - 1) (s.bumpsNow a lo))

/-- The module with an MSI-X event raised, where it is the bridge of its group (R445). -/
def State.raiseVector (s : State) (n : Nat) : State :=
  if bitOf (s.cget brb) 0 then s.cset (brb + 0x98) (s.cget (brb + 0x98) ||| ((1 : Word) <<< n)) else s

/-- The bridge is on: it is not a second one, whose host port stays in reset (R442). -/
def State.bridging (s : State) : Bool := bitOf (s.cget brb) 0 && !s.hostReset && !s.dusk.midnight

/-- The hub service sequencer that receives the events of the die service, and the one that receives those of power and
cooling (R463, R489; the numbering of units is log entry 3). -/
def hubSeq0 : Nat := 584
def hubSeq1 : Nat := 585

/-- An event as EVPOP returns it: its source and payload (R453). -/
def eventWord (src payload : Nat) : Word := BitVec.ofNat 64 (src * 2 ^ 56 + payload % 2 ^ 56)

/-- The module with an event for a sequencer; between START and the end of a handover it queues (R452). -/
def State.raiseEvent (s : State) (u : Nat) (w : Word) : State :=
  if s.hoStart.isSome then { s with heldEvents := s.heldEvents ++ [(u, w)] }
  else s.modUnit u (fun x => { x with events := x.events ++ [w] })

/-- The module with an event of a source and payload raised for a sequencer. -/
def State.postEvent (s : State) (u src payload : Nat) : State := s.raiseEvent u (eventWord src payload)

/-- The event of a doorbell, a port notice, a migrator result or a watchdog expiry (R452, log entry 80). -/
def State.postNotice (s : State) (kind n : Nat) : State := s.raiseEvent hubSeq0 (Config.noticeWord kind n)

/-! ### Phases that many steps ask for -/

/-- An activity that R482 counts has just ended. -/
def State.stir (s : State) : State := { s with busyAt := s.now }

/-- DSTAT.PHASE (R416): 0 Noon, 1 halting, 2 draining, 3 sealing, 5 Dawn. -/
def State.duskPhase (s : State) : Nat := s.cfield (dcb + 0x30) 0 3

/-- The module is at Noon. -/
def State.noon (s : State) : Bool := s.duskPhase == 0 && !s.dusk.midnight

/-- Compute die `d` is shed (DSTAT.SHED, R416). -/
def State.isShed (s : State) (d : Nat) : Bool := bitOf (s.cget (dcb + 0x30)) (8 + d)

/-- DRSTAT.PHASE of a die (R465): 0 running, 1 fenced, 2 quiesced, 3 resetting, 4 reset done, 5 admitting. -/
def State.diePhase (s : State) (d : Nat) : Nat := s.cfield (drbAddr d + 8) 0 3

/-- The registers of die `d` do not answer (R282). -/
def State.dieSilent (s : State) (d : Nat) : Bool := s.diePhase d == 3 || s.diePhase d == 4

/-- Granules homed on die `d` are held, for a pre-translation that reaches them: the die is shed or it is
quiesced and not yet admitted (R428, R466, R467). -/
def State.dieHeld (s : State) (d : Nat) : Bool := s.isShed d || decide (2 ≤ s.diePhase d) ||
  bitOf (s.cget (drbAddr d)) 1

/-- Data transfers to granules of die `d` meet its warm reset (R467). -/
def State.dieResetting (s : State) (d : Nat) : Bool := decide (3 ≤ s.diePhase d) && decide (s.diePhase d ≤ 5)

/-- The module is in PL0, where tiles issue and DRAM serves requests (R482). -/
def State.awake (s : State) : Bool := s.cfield (pwb + 8) 0 3 == 0 && !s.dusk.midnight

/-- DRAM is in self-refresh, or off (R426, R482). -/
def State.selfRefresh (s : State) : Bool := s.cfield (pwb + 8) 0 3 == 3 || s.dusk.midnight

/-- A tile's region is on (R477). -/
def State.tileOn (s : State) (u : Nat) : Bool := (tget {} s.switches u).phase == .on

/-- The cluster core region of a cluster is on (R475, R477). -/
def State.coreOn (s : State) (k : Nat) : Bool := (tget {} s.switches (512 + k)).phase == .on

/-- The module serves requests: it is in PL0, and where it left another state, a tile could issue (R483). -/
def State.serving (s : State) : Bool :=
  s.awake && ((List.range 512).any s.tileOn || !(s.switches.any (fun p => p.2.phase == .switching)))

/-- Unit `u` has its clock and its supply: hub sequencers always, the others where their regions are on in PL0 (R473,
R475, R482). -/
def State.powered (s : State) (u : Nat) : Bool :=
  (decide (584 ≤ u) && !s.dusk.midnight) || (s.awake && (if u < 512 then s.tileOn u else s.coreOn (clusterOf u)))

/-- A cluster's shade level in force (CLSHADE.LEVEL, R479). -/
def State.shadeOf (s : State) (k : Nat) : Nat := s.cfield (pwb + 0x100 + 8 * k) 0 2

/-- Granules of each cluster's staging area (STAGESZ, R387). -/
def State.stagingGrans (s : State) : Nat := s.cfield (scb + 0x10) 0 8

end Sys2Proof.Machine
end

