-- ==== Sys2Proof/Machine/Trans.lean ====
section
/-!
DEFINITION. Physical memory and translation: DRAM through the indirection tables (R403, R407), the walks of
page tables and of segment directories (R392 to R398), TLBs (R399), and busy counts with HOLD (R400).
-/
namespace Sys2Proof.Machine

/-! ### DRAM -/

/-- A local physical address lies in populated DRAM (R407). -/
def populated (pa : Nat) : Bool := decide (pa / 2 ^ 37 < 24) && decide (pa % 2 ^ 37 < 96000000000) && decide (pa < 2 ^ 42)

/-- The stack of a physical address and the compute die it belongs to (R407). -/
def stackOf (pa : Nat) : Nat := pa / 2 ^ 37
def stackDie (pa : Nat) : Nat := stackOf pa / 6

/-- The pseudo-channel, 0 to 1535, of a physical address: 64 to a stack (R407). -/
def channelOf (pa : Nat) : Nat := 64 * stackOf pa + ((pa / 64 % 64) ^^^ (pa / 4096 % 64))

/-- The indirection entry of the frame of a physical address (R403). -/
def State.indirectOf (s : State) (pa : Nat) : Option Indirect :=
  (tget [] s.indirect (stackDie pa)).find? (fun e => e.old == pa / 65536)

/-- Where a physical address is read (R403). -/
def State.readAt (s : State) (pa : Nat) : Nat :=
  match s.indirectOf pa with
  | none => pa
  | some e => (if e.copying then e.src else e.new) * 65536 + pa % 65536

/-- Where a physical address is written: both frames while a fallback copy runs (R403). -/
def State.writeAt (s : State) (pa : Nat) : List Nat :=
  match s.indirectOf pa with
  | none => [pa]
  | some e =>
    (if e.copying then [e.src * 65536 + pa % 65536] else []) ++ [e.new * 65536 + pa % 65536]

/-- One byte of DRAM at a local physical address. -/
def State.dget (s : State) (pa : Nat) : Byte := mget s.dram (s.readAt pa)

/-- `n` bytes of DRAM. -/
def State.dread (s : State) (pa n : Nat) : List Byte := (List.range n).map (fun i => s.dget (pa + i))

/-- The module with one byte of DRAM written. -/
def State.dput (s : State) (pa : Nat) (b : Byte) : State :=
  { s with dram := (s.writeAt pa).foldl (fun m a => mput m a b) s.dram }

/-- The module with bytes of DRAM written. -/
def State.dwrite (s : State) (pa : Nat) : List Byte → State
  | [] => s
  | b :: bs => (s.dput pa b).dwrite (pa + 1) bs

/-- The 8-byte entry at a physical address. -/
def State.dword (s : State) (pa : Nat) : Word := ofBytes 64 (s.dread pa 8)

/-! ### Walks -/

/-- The entry of an address space in the table at ASTBASE: its page root and its segment root (R392). -/
def State.spaceRoots (s : State) (aspace : Nat) : Word × Word :=
  let base := s.cfield trb 20 22 * 2 ^ 20 + 16 * aspace
  (s.dword base, s.dword (base + 8))

/-- The table that a root word names, `none` where V is 0 or a zero field is set (R392, R395). -/
def rootTable (w : Word) (lo : Nat) : Option Nat :=
  let keep : Word := (BitVec.allOnes 64 <<< lo) &&& 0x3FFFFFFFFFF
  if bitOf w 0 ∧ w &&& ~~~ keep = 1 then some (w &&& keep).toNat else none

/-- Index into a page table of a level (R393). -/
def levelIndex (level va : Nat) : Nat :=
  match level with
  | 0 => va / 2 ^ 41 % 2048
  | 1 => va / 2 ^ 30 % 2048
  | 2 => va / 2 ^ 21 % 512
  | _ => va / 2 ^ 16 % 32

/-- Alignment of the table that an entry of a level names: the size of a table of the next level (R393). -/
def tableAlign (level : Nat) : Nat :=
  match level with
  | 0 => 16384
  | 1 => 4096
  | _ => 256

/-- Size of the page that a leaf of a level maps (R393). -/
def leafSize (level : Nat) : Nat :=
  match level with
  | 1 => 2 ^ 30
  | 2 => 2 ^ 21
  | _ => 65536

/-- Bits that a table entry leaves zero (R394). -/
def tableZero (w : Word) : Bool := w &&& 0xFFFFFC00000000FC == 0

/-- A leaf entry as a translation of the page that holds `va`, `none` where R395 refuses its structure. -/
def leafXlat (aspace level va : Nat) (w : Word) : Option Xlat :=
  let size := leafSize level
  let rmt := bitOf w 9
  let mp := bitOf w 8
  let cs := (field w 5 3).toNat
  let db := bitOf w 4
  let frame := (field w 16 (if rmt then 40 else 26)).toNat * 65536
  let zero := field w 56 8 == 0 && (rmt || field w 42 14 == 0) && field w 10 6 == 0
  let local_ := decide (frame % size = 0) && (rmt || db || populated (frame + va % size))
  let host := !rmt || (cs == 0 && !mp)
  let door := !db || (level == 3 && cs == 0 && !rmt && decide (frame < 2 ^ 19))
  if zero && decide (cs < 4) && local_ && host && door then
    some { seg := false, aspace := aspace, page := va / size * size, size := size,
           place := if db then .doorbell else if rmt then .host else .dram,
           base := frame, cs := cs, mp := mp, r := bitOf w 2, w := bitOf w 3, db := db }
  else none

/-- The walk of a DRAM virtual address from a level on (R393 to R395). -/
def State.walkFrom (s : State) (aspace va table : Nat) : Nat → Nat → Option Xlat
  | _, 0 => none
  | level, fuel + 1 =>
    let w := s.dword (table + 8 * levelIndex level va)
    if !bitOf w 0 then none
    else if bitOf w 1 then (if level = 0 then none else leafXlat aspace level va w)
    else if level = 3 then none
    else
      let t := (field w 8 34).toNat * 256
      if tableZero w && decide (t % tableAlign level = 0) then s.walkFrom aspace va t (level + 1) fuel else none

/-- The translation of a DRAM virtual address by its page tables (R393 to R396). -/
def State.walkPage (s : State) (aspace va : Nat) : Option Xlat :=
  match rootTable (s.spaceRoots aspace).1 14 with
  | none => none
  | some t => s.walkFrom aspace va t 0 4

/-- The translation of a segment address by the segment directory (R398). -/
def State.walkSegment (s : State) (aspace a : Nat) : Option Xlat :=
  match rootTable (s.spaceRoots aspace).2 15 with
  | none => none
  | some t =>
    match rootTable (s.dword (t + 8 * (a / 2 ^ 28 % 4096))) 15 with
    | none => none
    | some l =>
      let w := s.dword (l + 8 * (a / 65536 % 4096))
      let gran := (field w 20 9).toNat
      let cs := (field w 5 3).toNat
      if bitOf w 0 && w &&& 0xFFFFFFFFE0007F12 == 0 && decide (cs < 4) && decide (gran + s.stagingGrans < 512) then
        some { seg := true, aspace := aspace, page := a / 65536 * 65536, size := 65536,
               place := .sram ((field w 15 2).toNat * 8 + (field w 17 3).toNat), base := gran * 65536,
               cs := cs, mp := false, r := bitOf w 2, w := bitOf w 3, db := false }
      else none

/-- The translation of an address by the tables as they stand. -/
def State.walk (s : State) (seg : Bool) (aspace a : Nat) : Option Xlat :=
  if seg then s.walkSegment aspace a else s.walkPage aspace a

/-- A translation maps an address of a space. -/
def Xlat.maps (x : Xlat) (seg : Bool) (aspace a : Nat) : Bool :=
  x.seg == seg && x.aspace == aspace && decide (x.page ≤ a) && decide (a < x.page + x.size)

/-- The first translation of a list that maps an address. -/
def findXlat (l : List Xlat) (seg : Bool) (aspace a : Nat) : Option Xlat := l.find? (fun x => x.maps seg aspace a)

/-- The place of an address under a translation that maps it. -/
def Xlat.loc (x : Xlat) (a : Nat) : Loc := { place := x.place, addr := x.base + (a - x.page) }

/-- A TLB with a translation filled in; it holds 512 entries and drops the oldest (R399). -/
def tlbFill (tlb : List Xlat) (x : Xlat) : List Xlat := (x :: tlb).take 512

/-! ### Cluster SRAM and bytes in a place -/

/-- The SRAM of a cluster. -/
def State.sramOf (s : State) (k : Nat) : Memory := tget [] s.sram k

/-- A cluster of the module. -/
def State.cluster (s : State) (k : Nat) : ClusterSt := tget {} s.clusters k

/-- The module with a cluster replaced. -/
def State.setCluster (s : State) (k : Nat) (c : ClusterSt) : State := { s with clusters := tput s.clusters k c }

/-- The 64-byte line that the atomic engine of a cluster holds at an address of its SRAM (R91). -/
def State.lineOf (s : State) (k a : Nat) : Option (List Byte) :=
  ((s.cluster k).lines.find? (fun l => l.1 == a / 64)).map (·.2)

/-- One byte of cluster SRAM; a line in the atomic engine's store stands before the granule's byte (R91). -/
def State.sramGet (s : State) (k a : Nat) : Byte :=
  match s.lineOf k a with
  | some l => l.getD (a % 64) 0
  | none => mget (s.sramOf k) a

/-- The module with one byte of cluster SRAM written, and of a line held over it. -/
def State.sramPut (s : State) (k a : Nat) (b : Byte) : State :=
  let s := { s with sram := tput s.sram k (mput (s.sramOf k) a b) }
  match s.lineOf k a with
  | none => s
  | some l =>
    let c := s.cluster k
    s.setCluster k { c with lines := tput c.lines (a / 64) (l.set (a % 64) b) }

/-- One byte in a place.  A unit's own buffer is read with its gated stores (R84); a doorbell page and a scale
register are never read this way. -/
def State.locGet (s : State) (l : Loc) : Byte :=
  match l.place with
  | .buf u b => (s.unit u).bget b l.addr
  | .sram k => s.sramGet k l.addr
  | .dram => s.dget l.addr
  | .host => mget s.host l.addr
  | .doorbell => 0
  | .scale _ => 0

/-- The module with one byte in a place written by an engine (R84). -/
def State.locPut (s : State) (l : Loc) (b : Byte) : State :=
  match l.place with
  | .buf u bf => s.modUnit u (fun x => x.bput bf [(l.addr, b)])
  | .sram k => s.sramPut k l.addr b
  | .dram => s.dput l.addr b
  | .host => { s with host := mput s.host l.addr b }
  | .doorbell => s
  | .scale _ => s

/-- `n` bytes in a place. -/
def State.locRead (s : State) (l : Loc) (n : Nat) : List Byte :=
  (List.range n).map (fun i => s.locGet { l with addr := l.addr + i })

/-- The module with bytes in a place written by an engine. -/
def State.locWrite (s : State) (l : Loc) : List Byte → State
  | [] => s
  | b :: bs => (s.locPut l b).locWrite { l with addr := l.addr + 1 } bs

/-! ### Busy counts and HOLD -/

/-- The key of the 64 KiB frame or granule of a place: frames from 0, granules of cluster `k` from
2^40 + 512 k; `none` where no busy count exists (R400). -/
def Loc.busyKey (l : Loc) : Option Nat :=
  match l.place with
  | .dram => some (l.addr / 65536)
  | .sram k => some (2 ^ 40 + 512 * k + l.addr / 65536)
  | _ => none

/-- The busy count of a key. -/
def State.busyOf (s : State) (key : Nat) : Nat := tget 0 s.busy key

/-- The die on which the home of a granule lies; DRAM is served while its die is shed or reset (R428,
R467). -/
def Loc.homeDie (l : Loc) : Option Nat :=
  match l.place with
  | .sram k => some (k / 8)
  | _ => none

/-- A new pre-translation that touches the place waits: the unit is under HOLD, its count is full, or its home
die is shed or quiesced (R400, R428, R467). -/
def State.mustWait (s : State) (l : Loc) : Bool :=
  (match l.busyKey with
    | none => false
    | some k => s.held.contains k || s.busyOf k == 0xFFFF) ||
  (match l.homeDie with
    | none => false
    | some d => s.dieHeld d)

/-- The module with one added to the busy count of a key. -/
def State.busyUp (s : State) (key : Nat) : State := { s with busy := tput s.busy key (s.busyOf key + 1) }

/-- The module with one subtracted from the busy count of each key of a list (R400). -/
def State.busyDown (s : State) (keys : List Nat) : State :=
  keys.foldl (fun s k => { s with busy := tput s.busy k (s.busyOf k - 1) }) s

end Sys2Proof.Machine
end

