-- ==== Sys2Proof/Machine/Compress.lean ====
section
/-!
DEFINITION. The compression codecs and stored blocks (R99 to R103, R255, R397): the payload of each scheme, the
16-byte record, reading a block's data and writing a whole block.
-/
namespace Sys2Proof.Machine

/-! ### Codecs -/

/-- The CRC-32C register after one more bit of the remainder (R102). -/
def crcShift : Nat → BitVec 32 → BitVec 32
  | 0, c => c
  | n + 1, c => crcShift n (if bitOf c 0 then (c >>> 1) ^^^ 0x82F63B78 else c >>> 1)

/-- CRC-32C (Castagnoli) of a list of bytes (R102). -/
def crc32c (bs : List Byte) : BitVec 32 :=
  ~~~ (bs.foldl (fun (c : BitVec 32) b => crcShift 8 (c ^^^ b.setWidth 32)) (BitVec.allOnes 32))

/-- Element `i` of `k` bytes of a list of bytes, little-endian (R2). -/
def elemAt (bs : List Byte) (k i : Nat) : Nat := natOfBytes ((bs.drop (k * i)).take k)

/-- A number as `n` little-endian bytes. -/
def natBytes (n x : Nat) : List Byte := (List.range n).map (fun i => BitVec.ofNat 8 (x / 256 ^ i))

/-- Numbers of `w` bits packed from bit 0 of byte 0 upward, padded with zero bits to a whole byte (R103). -/
def packBits (w : Nat) (xs : List Nat) : List Byte :=
  natBytes ((xs.length * w + 7) / 8) (xs.foldr (fun x acc => x % 2 ^ w + 2 ^ w * acc) 0)

/-- Number `i` of `w` bits in packed bytes. -/
def unpackBits (w : Nat) (bs : List Byte) (i : Nat) : Nat := natOfBytes bs / 2 ^ (w * i) % 2 ^ w

/-- The width of a 3-bit width code of base-delta (R103). -/
def bdWidth (code : Nat) : Nat :=
  match code with
  | 0 => 0
  | 1 => 4
  | 2 => 8
  | 3 => 16
  | _ => 32

/-- A difference fits `w` bits, two's complement (R103). -/
def fitsWidth (w : Nat) (d : BitVec 32) : Bool :=
  if w = 0 then d == 0 else decide (-(2 ^ (w - 1) : Int) ≤ d.toInt) && decide (d.toInt < 2 ^ (w - 1))

/-- The differences of a group of 16 words from its word 0 (R103). -/
def bdDeltas (bs : List Byte) (g : Nat) : List (BitVec 32) :=
  let b : BitVec 32 := BitVec.ofNat 32 (elemAt bs 4 (16 * g))
  (List.range 15).map (fun i => BitVec.ofNat 32 (elemAt bs 4 (16 * g + i + 1)) - b)

/-- The width code of a group: that of the least width that holds every difference (R103). -/
def bdCode (ds : List (BitVec 32)) : Nat :=
  ((List.range 5).find? (fun c => ds.all (fitsWidth (bdWidth c)))).getD 4

/-- The base-delta payload of a block (R103). -/
def packBaseDelta (bs : List Byte) : List Byte :=
  let groups := (List.range 64).map (bdDeltas bs)
  packBits 3 (groups.map bdCode) ++ List.replicate 8 0 ++
    (List.range 64).flatMap (fun g =>
      let ds := groups.getD g []
      natBytes 4 (elemAt bs 4 (16 * g)) ++ packBits (bdWidth (bdCode ds)) (ds.map BitVec.toNat))

/-- The words of one group of a base-delta payload, from its bytes. -/
def bdGroup (w : Nat) (bs : List Byte) : List Byte :=
  let b : BitVec 32 := BitVec.ofNat 32 (elemAt bs 4 0)
  let ds := (bs.drop 4).take ((15 * w + 7) / 8)
  natBytes 4 b.toNat ++ (List.range 15).flatMap (fun i =>
    natBytes 4 (b + (BitVec.ofNat w (unpackBits w ds i)).signExtend 32).toNat)

/-- The groups of a base-delta payload, one width after another. -/
def bdGroups : List Nat → List Byte → List Byte
  | [], _ => []
  | w :: ws, bs => bdGroup w bs ++ bdGroups ws (bs.drop (4 + (15 * w + 7) / 8))

/-- The block of a base-delta payload. -/
def unpackBaseDelta (p : List Byte) : List Byte :=
  bdGroups ((List.range 64).map (fun g => bdWidth (unpackBits 3 (p.take 24) g))) (p.drop 32)

/-- The zero-run payload of a block (R103). -/
def packZeroRun (bs : List Byte) : List Byte :=
  let ws := (List.range 512).map (elemAt bs 8)
  packBits 1 (ws.map (fun w => if w = 0 then 0 else 1)) ++ (ws.filter (fun w => w != 0)).flatMap (natBytes 8)

/-- The words of a zero-run payload, bit by bit of its bitmap. -/
def zrWords : List Bool → List Byte → List Byte
  | [], _ => []
  | b :: m, bs =>
    if b then (bs ++ List.replicate 8 0).take 8 ++ zrWords m (bs.drop 8) else List.replicate 8 0 ++ zrWords m bs

/-- The block of a zero-run payload. -/
def unpackZeroRun (p : List Byte) : List Byte :=
  zrWords ((List.range 512).map (fun i => unpackBits 1 (p.take 64) i == 1)) (p.drop 64)

/-- Bits of an index into a list of `n` values, 1 to 16 (R103). -/
def epBits (n : Nat) : Nat := if n ≤ 1 then 0 else if n ≤ 2 then 1 else if n ≤ 4 then 2 else if n ≤ 8 then 3 else 4

/-- The encoding of the 64 high bytes of a group (R103). -/
def epGroup (hs : List Byte) : List Byte :=
  let vs := ((List.range 256).map (BitVec.ofNat 8)).filter (fun v => hs.contains v)
  if 16 < vs.length then 0 :: hs
  else BitVec.ofNat 8 vs.length :: vs ++ packBits (epBits vs.length) (hs.map (fun h => vs.idxOf h))

/-- The exponent-pack payload of a block (R103). -/
def packExponent (bs : List Byte) : List Byte :=
  let at_ (i : Nat) : Byte := bs.getD i 0
  (List.range 32).flatMap (fun g => epGroup ((List.range 64).map (fun i => at_ (2 * (64 * g + i) + 1)))) ++
    (List.range 2048).map (fun i => at_ (2 * i))

/-- The high bytes of the groups of an exponent-pack payload, and the bytes after them. -/
def epGroups : Nat → List Byte → List Byte × List Byte
  | 0, bs => ([], bs)
  | n + 1, bs =>
    let k := (bs.headD 0).toNat
    let rest := bs.drop 1
    let r : List Byte × List Byte :=
      if k = 0 then (rest.take 64, rest.drop 64)
      else
        let vs := rest.take k
        let len := (64 * epBits k + 7) / 8
        let ix := (rest.drop k).take len
        ((List.range 64).map (fun i => vs.getD (unpackBits (epBits k) ix i) 0), rest.drop (k + len))
    let t := epGroups n r.2
    (r.1 ++ t.1, t.2)

/-- The block of an exponent-pack payload. -/
def unpackExponent (p : List Byte) : List Byte :=
  let r := epGroups 32 p
  (List.range 2048).flatMap (fun i => [r.2.getD i 0, r.1.getD i 0])

/-- The payload of a block under a scheme (R103). -/
def payloadOf (cs : Nat) (bs : List Byte) : List Byte :=
  match cs with
  | 1 => packBaseDelta bs
  | 2 => packZeroRun bs
  | _ => packExponent bs

/-- The block of a payload under a scheme; a payload that is not the one encoding of its block is refused (R102,
R103). -/
def expandPayload (cs : Nat) (p : List Byte) : Option (List Byte) :=
  let bs := match cs with
    | 1 => unpackBaseDelta p
    | 2 => unpackZeroRun p
    | _ => unpackExponent p
  if bs.length = 4096 ∧ payloadOf cs bs = p then some bs else none

/-! ### Stored blocks -/

/-- The block of a place: its first byte. -/
def Loc.block (l : Loc) : Loc := { l with addr := l.addr / 4096 * 4096 }

/-- The key of a block's state bit (R102): DRAM blocks by their number, cluster blocks beyond them; `none` where no
block lies. -/
def Loc.cbitKey (l : Loc) : Option Nat :=
  match l.place with
  | .dram => some (l.addr / 4096)
  | .sram k => some (2 ^ 40 + 8192 * k + l.addr / 4096)
  | _ => none

/-- The state bit of the block that holds a place is set: the block is stored compressed (R102).  A remapped frame's
bits lie with the frame that is read (R403). -/
def State.isCompressed (s : State) (l : Loc) : Bool :=
  let m : Loc := if l.place = .dram then { l with addr := s.readAt l.addr } else l
  match m.cbitKey with
  | none => false
  | some k => s.cbits.contains k

/-- A list of numbers with one added in rising order, or taken out. -/
def setMember : List Nat → Nat → Bool → List Nat
  | [], k, b => if b then [k] else []
  | x :: xs, k, b =>
    if k < x then (if b then k :: x :: xs else x :: xs)
    else if k = x then (if b then x :: xs else xs)
    else x :: setMember xs k b

/-- The module with the state bit of a block set or cleared, in both frames during a fallback copy (R102, R403). -/
def State.setCompressed (s : State) (l : Loc) (b : Bool) : State :=
  let keys := match l.place with
    | .dram => (s.writeAt l.addr).filterMap (fun a => Loc.cbitKey { l with addr := a })
    | _ => l.cbitKey.toList
  keys.foldl (fun s k => { s with cbits := setMember s.cbits k b }) s

/-- The record of a physical address in the side table at MDBASE (R397). -/
def State.sideRecord (s : State) (pa : Nat) : Loc :=
  { place := .dram, addr := s.cfield (trb + 0x08) 20 22 * 2 ^ 20 + 16 * (pa / 4096) }

/-- Where the metadata record and the payload of a block lie (R102, R397): the record in the block's first bytes, or
in the side table, by the frame that is read (R403, log entry 73). -/
def State.recordLoc (s : State) (l : Loc) (mp : Bool) : Loc × Loc :=
  if mp then (s.sideRecord (s.readAt l.addr), l.block)
  else (l.block, { l.block with addr := l.block.addr + 16 })

/-- The module with the record of a block written, for both frames during a fallback copy (R397, R403). -/
def State.putRecord (s : State) (l : Loc) (mp : Bool) (bs : List Byte) : State :=
  if mp then (s.writeAt l.addr).foldl (fun (s : State) a => s.locWrite (s.sideRecord a) bs) s
  else s.locWrite l.block bs

/-- The record of a compressed block (R102). -/
def blockRecord (cs : Nat) (payload data : List Byte) : List Byte :=
  [1, BitVec.ofNat 8 cs] ++ natBytes 2 payload.length ++ natBytes 4 (crc32c data).toNat ++ List.replicate 8 0

/-- CLEN of the record of a block that is stored compressed. -/
def State.clen (s : State) (l : Loc) (mp : Bool) : Nat := elemAt (s.locRead (s.recordLoc l mp).1 16) 2 1

/-- The stored size of a payload: its bytes with an inline record, rounded up to a multiple of 64 (R102). -/
def storedBytes (clen : Nat) (mp : Bool) : Nat := (clen + (if mp then 0 else 16) + 63) / 64 * 64

/-- The stored size of the block that holds a place (R102). -/
def State.storedSize (s : State) (l : Loc) (mp : Bool) : Nat :=
  if s.isCompressed l then storedBytes (s.clen l mp) mp else 4096

/-- The 4,096 data bytes of a block under scheme `cs`; `none` where expansion fails, the error CODEC (R98, R102). -/
def State.blockData (s : State) (l : Loc) (cs : Nat) (mp : Bool) : Option (List Byte) :=
  if cs = 0 ∨ !s.isCompressed l then some (s.locRead l.block 4096)
  else
    let at_ := s.recordLoc l mp
    let r := s.locRead at_.1 16
    let clen := elemAt r 2 1
    if r.take 2 ≠ [1, BitVec.ofNat 8 cs] ∨ clen = 0 ∨ 4080 < clen ∨ (r.drop 8).any (fun b => b != 0) then none
    else
      match expandPayload cs (s.locRead at_.2 clen) with
      | none => none
      | some bs => if natBytes 4 (crc32c bs).toNat = (r.drop 4).take 4 then some bs else none

/-- The DSIZE bytes of a code (R244). -/
def dsizeBytes (code : Nat) : Nat :=
  match code with
  | 0 => 4096
  | 1 => 3072
  | 2 => 2048
  | 3 => 1024
  | _ => 512

/-- A whole block written through the codec (R102, R255), and whether it is written raw under a scheme other than
none.  A compressed block is padded with zero bytes to its declared size. -/
def State.writeBlock (s : State) (l : Loc) (cs : Nat) (mp : Bool) (dsize : Nat) (data : List Byte) : State × Bool :=
  if cs = 0 then (s.locWrite l.block data, false)
  else
    let p := payloadOf cs data
    if p.length ≤ 4080 ∧ storedBytes p.length mp ≤ dsize then
      let at_ := s.recordLoc l mp
      let pad := dsize - (p.length + (if mp then 0 else 16))
      (((s.locWrite at_.2 (p ++ List.replicate pad 0)).putRecord l mp (blockRecord cs p data)).setCompressed l true, false)
    else ((s.locWrite l.block data).setCompressed l false, true)

/-- A block is demoted to raw, its data in place (R101); `none` where it does not expand (R102). -/
def State.demote (s : State) (l : Loc) (cs : Nat) (mp : Bool) : Option State :=
  if cs = 0 ∨ !s.isCompressed l then some s
  else (s.blockData l cs mp).map (fun bs => (s.locWrite l.block bs).setCompressed l false)

/-- `n` data bytes from a place under scheme `cs`, whatever is stored there; `none` on error CODEC (R98). -/
def State.logical (s : State) (l : Loc) (cs : Nat) (mp : Bool) (n : Nat) : Option (List Byte) :=
  if cs = 0 then some (s.locRead l n)
  else
    let first := l.addr / 4096
    let blocks := (List.range ((l.addr + n + 4095) / 4096 - first)).map (fun i =>
      s.blockData { l with addr := (first + i) * 4096 } cs mp)
    if blocks.any Option.isNone then none
    else some (((blocks.flatMap (fun b => b.getD [])).drop (l.addr % 4096)).take n)

/-- A range cut at the boundaries of `g`-byte units: the start and length of each part. -/
def cutParts (g a n : Nat) : List (Nat × Nat) :=
  if n = 0 then []
  else (List.range ((a + n - 1) / g + 1 - a / g)).map (fun i =>
    let lo := max a ((a / g + i) * g)
    let hi := min (a + n) ((a / g + i + 1) * g)
    (lo, hi - lo))

/-- A range cut at 64 KiB boundaries. -/
def pageParts (a n : Nat) : List (Nat × Nat) := cutParts 65536 a n

/-- Data bytes written to part of a block under scheme `cs`: it is demoted first, and one that does not expand keeps what it
stores (R101, R102, log entry 74). -/
def State.partWrite (s : State) (l : Loc) (cs : Nat) (mp : Bool) (bs : List Byte) : State :=
  if bs.length = 4096 then (s.locWrite l bs).setCompressed l false
  else
    match s.demote l cs mp with
    | none => s
    | some s => s.locWrite l bs

/-- Data bytes written under scheme `cs`, block by block (R101). -/
def State.logicalWrite (s : State) (l : Loc) (cs : Nat) (mp : Bool) (bs : List Byte) : State :=
  if cs = 0 then s.locWrite l bs
  else (cutParts 4096 l.addr bs.length).foldl (fun (s : State) p =>
    s.partWrite { l with addr := p.1 } cs mp ((bs.drop (p.1 - l.addr)).take p.2)) s

/-- Populated DRAM backs an address of a translation (R395, R407). -/
def Xlat.backs (x : Xlat) (a : Nat) : Bool := x.place != .dram || populated (x.loc a).addr

/-- The translations that `look` gives of a range that may be read, or written, by anything but a doorbell write (R395). -/
def rangeVia (look : Nat → Option Xlat) (a n : Nat) (write : Bool) : Option (List Xlat) :=
  let xs := (pageParts a n).map (fun p => (look p.1).filter (fun x =>
    !x.db && x.backs (p.1 + p.2 - 1) && (if write then x.w else x.r)))
  if xs.any Option.isNone then none else some (xs.filterMap id)

/-- The translations of a range by the tables as they stand. -/
def State.rangeXlat (s : State) (seg : Bool) (aspace a n : Nat) (write : Bool) : Option (List Xlat) :=
  rangeVia (s.walk seg aspace) a n write

/-- The data bytes of a range under its translations. -/
def State.readParts (s : State) (a n : Nat) (xs : List Xlat) : Option (List Byte) :=
  let parts := ((pageParts a n).zip xs).map (fun p => s.logical (p.2.loc p.1.1) p.2.cs p.2.mp p.1.2)
  if parts.any Option.isNone then none else some (parts.flatMap (fun b => b.getD []))

/-- The module with data bytes written to a range under its translations. -/
def State.writeParts (s : State) (a : Nat) (bs : List Byte) (xs : List Xlat) : State :=
  ((pageParts a bs.length).zip xs).foldl (fun (s : State) p =>
    s.logicalWrite (p.2.loc p.1.1) p.2.cs p.2.mp ((bs.drop (p.1.1 - a)).take p.1.2)) s

/-- The data bytes of a range of an address space; `none` without a valid translation. -/
def State.vread (s : State) (seg : Bool) (aspace a n : Nat) : Option (List Byte) :=
  (s.rangeXlat seg aspace a n false).bind (s.readParts a n)

/-- The module with data bytes written to a range of an address space; `none` without a valid translation. -/
def State.vwrite (s : State) (seg : Bool) (aspace a : Nat) (bs : List Byte) : Option State :=
  (s.rangeXlat seg aspace a bs.length true).map (s.writeParts a bs)

/-- The bytes of a block from the place of its payload on (R102). -/
def payloadRoom (mp : Bool) : Nat := if mp then 4096 else 4080

/-- A block as it is stored. -/
def State.takeBlock (s : State) (src : Loc) (mp : Bool) : Stored :=
  let a := s.recordLoc src mp
  { src := src.block, packed := s.isCompressed src, record := s.locRead a.1 16, payload := s.locRead a.2 (payloadRoom mp) }

/-- A compressed block, as it was read, put unchanged in the place of another of the same scheme: its record and payload take
the destination's places (R100, R397). -/
def State.putBlock (s : State) (k : Stored) (dst : Loc) (mp : Bool) : State :=
  ((s.locWrite (s.recordLoc dst mp).2 (k.payload.take (payloadRoom mp))).putRecord dst mp k.record).setCompressed dst true

/-- A compressed block moved unchanged to another of the same scheme (R100, R397). -/
def State.moveBlock (s : State) (src : Loc) (smp : Bool) (dst : Loc) (dmp : Bool) : State :=
  s.putBlock (s.takeBlock src smp) dst dmp

end Sys2Proof.Machine
end

