-- ==== Sys2Proof/Machine/Float.lean ====
section
/-!
DEFINITION. Number formats and exact arithmetic (R46 to R63, R72, R73): decoding to exact values, one
rounding, and the element operations of the vector floating instructions.  Exact magnitudes are integers
scaled by a power of two, with a sticky bit where the value lies strictly above that.
-/
namespace Sys2Proof.Machine

/-- The floating formats of R46. -/
inductive Fmt
  | f32 | bf16 | f16 | e4m3 | e5m2 | fp4x | e8m0
deriving DecidableEq, Repr

/-- Width of the fraction field (R46). -/
def Fmt.frac : Fmt → Nat
  | .f32 => 23
  | .bf16 => 7
  | .f16 => 10
  | .e4m3 => 3
  | .e5m2 => 2
  | .fp4x => 1
  | .e8m0 => 0

/-- Exponent bias (R46). -/
def Fmt.bias : Fmt → Nat
  | .f32 => 127
  | .bf16 => 127
  | .f16 => 15
  | .e4m3 => 7
  | .e5m2 => 15
  | .fp4x => 1
  | .e8m0 => 127

/-- Width in bits (R46, R167). -/
def Fmt.width : Fmt → Nat
  | .f32 => 32
  | .bf16 => 16
  | .f16 => 16
  | .e4m3 => 8
  | .e5m2 => 8
  | .fp4x => 4
  | .e8m0 => 8

/-- The code of the largest finite magnitude (R46). -/
def Fmt.maxFinite : Fmt → Nat
  | .f32 => 0x7F7FFFFF
  | .bf16 => 0x7F7F
  | .f16 => 0x7BFF
  | .e4m3 => 0x7E
  | .e5m2 => 0x7B
  | .fp4x => 0x7
  | .e8m0 => 0xFE

/-- The code of +infinity where the format has one (R46). -/
def Fmt.infCode : Fmt → Option Nat
  | .f32 => some 0x7F800000
  | .bf16 => some 0x7F80
  | .f16 => some 0x7C00
  | .e5m2 => some 0x7C
  | _ => none

/-- The canonical NaN (R55); FP4X has none. -/
def Fmt.canonical : Fmt → Nat
  | .f32 => 0x7FC00000
  | .bf16 => 0x7FC0
  | .f16 => 0x7E00
  | .e4m3 => 0x7F
  | .e5m2 => 0x7E
  | .fp4x => 0
  | .e8m0 => 0xFF

/-- DAZ and FTZ act on these formats only (R56). -/
def Fmt.flushes : Fmt → Bool
  | .f32 | .bf16 | .f16 => true
  | _ => false

/-- The format of a floating-class code (R119). -/
def Fmt.ofCode : Nat → Fmt
  | 0 => .f32
  | 1 => .bf16
  | 2 => .f16
  | 3 => .e4m3
  | 4 => .e5m2
  | 5 => .fp4x
  | _ => .e8m0

/-- A decoded value: a NaN with its sign, its fraction, the width of that fraction and whether it is
signalling; an infinity; or the number `± m · 2^e`, a signed zero when `m` is 0 (R47). -/
inductive FV
  | nan (s : Bool) (fr w : Nat) (sig : Bool)
  | inf (s : Bool)
  | fin (s : Bool) (m : Nat) (e : Int)
deriving DecidableEq, Repr

/-- Floating flags in the order of FCSR.FLG (R59). -/
abbrev Flags := BitVec 5

def flNV : Flags := 16
def flDZ : Flags := 8
def flOF : Flags := 4
def flUF : Flags := 2
def flNX : Flags := 1

/-- A result element and the flags it raises. -/
structure FRes where
  code : Nat
  fl : Flags := 0
deriving DecidableEq, Repr

/-- The FCSR fields that an instruction reads when it issues, with its rounding mode resolved (R53, R59). -/
structure FCtx where
  mode : Nat := 0
  dn : Bool := false
  daz : Bool := false
  ftz : Bool := false
deriving DecidableEq, Repr

/-- The exact magnitude `m · 2^e`, or a value strictly between it and `(m + 1) · 2^e` when sticky. -/
structure Mag where
  m : Nat
  e : Int
  sticky : Bool := false
deriving DecidableEq, Repr

/-- Decoding of a code of a format (R46, R47), with DAZ applied where `daz` is set (R56). -/
def Fmt.unpack (k : Fmt) (daz : Bool) (code : Nat) : FV :=
  match k with
  | .e8m0 => if code = 0xFF then .nan false 0 1 false else .fin false 1 (code - 127)
  | _ =>
    let f := k.frac
    let ew := k.width - 1 - f
    let s := code.testBit (k.width - 1)
    let ex := (code / 2 ^ f) % 2 ^ ew
    let fr := code % 2 ^ f
    let top := 2 ^ ew - 1
    let special := ex == top && (k.infCode.isSome || (k == .e4m3 && fr == 7))
    if special then
      (if fr = 0 then .inf s else .nan s fr f (k != .e4m3 && !fr.testBit (f - 1)))
    else if ex = 0 then
      (if k == .fp4x && fr == 0 then .fin false 0 0
       else if daz && k.flushes then .fin s 0 0
       else .fin s fr (1 - (k.bias : Int) - f))
    else .fin s (2 ^ f + fr) ((ex : Int) - k.bias - f)

/-- `code` with the sign bit of the format. -/
def Fmt.signed (k : Fmt) (s : Bool) (code : Nat) : Nat := if s then code + 2 ^ (k.width - 1) else code

/-- A signed zero; FP4X has only one zero (R187). -/
def Fmt.zero (k : Fmt) (s : Bool) : Nat := if k = .fp4x then 0 else k.signed s 0

/-- Position of the highest one bit of a magnitude as a power of two. -/
def Mag.log2 (x : Mag) : Int := (x.m.log2 : Int) + x.e

/-- The number of units of `2^uq` that a magnitude rounds to, and whether that is inexact. `mode` is a code
of R51 other than dynamic, `s` the sign and `q` the random bits of R52. -/
def Mag.roundAt (x : Mag) (uq : Int) (mode : Nat) (s : Bool) (q : Nat) : Nat × Bool :=
  let k := uq - x.e
  if k ≤ 0 then (x.m * 2 ^ k.natAbs, x.sticky)
  else
    let kn := k.toNat
    let n := x.m / 2 ^ kn
    let rem := x.m % 2 ^ kn
    let half := 2 ^ (kn - 1)
    let inexact := rem != 0 || x.sticky
    let up : Bool :=
      match mode with
      | 0 | 6 => decide (half < rem) || (rem == half && (x.sticky || n % 2 == 1))
      | 2 => s && inexact
      | 3 => !s && inexact
      | 4 => decide (half ≤ rem)
      | _ => false
    if mode = 5 then
      let t := if kn ≤ 16 then x.m * 2 ^ (16 - kn) else x.m / 2 ^ (kn - 16)
      ((t + q) / 65536, inexact)
    else (if up then n + 1 else n, inexact)

/-- The infinity of a sign, or, in a format without one, the NaN of that sign, which is canonical under DN (R51, R55). -/
def Fmt.beyond (k : Fmt) (dn s : Bool) : Nat :=
  match k.infCode with
  | some c => k.signed s c
  | none => if dn then k.canonical else k.signed s k.canonical

/-- The result of an overflow, or of an infinite input that R51 does not leave infinite (R51).  That the NaN of E4M3 under modes
010 and 011 has the sign of the value is the model's choice (DESIGN CHOICE, log entry 111). -/
def Fmt.overflow (k : Fmt) (dn : Bool) (mode : Nat) (s : Bool) : Nat :=
  let largest := k.signed s k.maxFinite
  let beyond := k.beyond dn s
  if k = .fp4x then largest
  else match mode with
    | 1 | 6 => largest
    | 2 => if s then beyond else largest
    | 3 => if s then largest else beyond
    | _ => beyond

/-- round(mode, x) of a nonzero magnitude of sign `s` into a format (R51, R52, R54, R56). -/
def Fmt.round (k : Fmt) (c : FCtx) (q : Nat) (s : Bool) (x : Mag) : FRes :=
  let f : Int := k.frac
  let emin : Int := 1 - (k.bias : Int)
  let u := x.log2 - f
  let uq := max u (emin - f)
  let (n, inexact) := x.roundAt uq c.mode s q
  let biased := (uq - (emin - f)).toNat
  let code := biased * 2 ^ k.frac + n
  let (n0, _) := x.roundAt u c.mode s q
  let tiny : Bool := decide (u < emin - f) && decide (n0 < 2 ^ (emin - u).toNat)
  if k.maxFinite < code then { code := k.overflow c.dn c.mode s, fl := flOF ||| flNX }
  else if c.ftz && k.flushes && code != 0 && decide (code < 2 ^ k.frac) then
    { code := k.zero s, fl := flUF ||| flNX }
  else
    { code := if code = 0 then k.zero s else k.signed s code
      fl := (if inexact then flNX else 0) ||| (if tiny && inexact then flUF else 0) }

/-- The first NaN of a list of operands. -/
def firstNaN : List FV → Option FV
  | [] => none
  | .nan s fr w sig :: _ => some (.nan s fr w sig)
  | _ :: vs => firstNaN vs

/-- A signalling NaN (R58). -/
def FV.signals : FV → Bool
  | .nan _ _ _ sig => sig
  | _ => false

/-- The NaN result of an instruction with NaN operands (R55): the first NaN, quiet, its fraction fitted to
the destination, or the canonical NaN under DN; NV for a signalling source. -/
def Fmt.nanOf (k : Fmt) (c : FCtx) (ops : List FV) : FRes :=
  let nv : Flags := if ops.any FV.signals then flNV else 0
  if k = .fp4x then { code := 0, fl := nv ||| flNV }
  else if c.dn then { code := k.canonical, fl := nv }
  else match firstNaN ops with
    | some (.nan s fr w _) =>
      if k = .e4m3 then { code := k.signed s 0x7F, fl := nv }
      else
        let quiet := fr ||| 2 ^ (w - 1)
        let fit := if w ≤ k.frac then quiet * 2 ^ (k.frac - w) else quiet / 2 ^ (w - k.frac)
        { code := k.signed s ((k.infCode.getD 0) + fit), fl := nv }
    | _ => { code := k.canonical, fl := nv }

/-- The canonical NaN of an invalid operation (R55). -/
def Fmt.invalid (k : Fmt) : FRes := { code := k.canonical, fl := flNV }

/-- An exact infinite arithmetic result (R54). -/
def Fmt.inf (k : Fmt) (dn s : Bool) : FRes := { code := k.beyond dn s }

/-- A value that is no NaN is delivered: an infinity as it stands, a zero with its sign, a number by one
rounding. -/
def Fmt.deliver (k : Fmt) (c : FCtx) (q : Nat) : FV → FRes
  | .nan _ _ _ _ => { code := k.canonical }
  | .inf s => k.inf c.dn s
  | .fin s m e => if m = 0 then { code := k.zero s } else k.round c q s { m := m, e := e }

/-- A value is a NaN. -/
def FV.isNaN : FV → Bool
  | .nan _ _ _ _ => true
  | _ => false

/-- The sign of a value. -/
def FV.sign : FV → Bool
  | .nan s _ _ _ => s
  | .inf s => s
  | .fin s _ _ => s

/-- The negation of a value. -/
def FV.neg : FV → FV
  | .nan s f w g => .nan s f w g
  | .inf s => .inf !s
  | .fin s m e => .fin (!s) m e

/-- The exact signed integer of a finite value in units of `2^e0`, for `e0` not above its exponent. -/
def FV.at (e0 : Int) : FV → Int
  | .fin s m e => let v : Int := (m * 2 ^ (e - e0).toNat : Nat); if s then -v else v
  | _ => 0

/-- The exponent of a finite value. -/
def FV.exp : FV → Int
  | .fin _ _ e => e
  | _ => 0

/-- The least of a list of exponents. -/
def leastExp : List FV → Int
  | [] => 0
  | [v] => v.exp
  | v :: vs => min v.exp (leastExp vs)

/-- The exact sum of finite values; an exact zero is negative when every term is, else positive, or
negative under mode 010 when the signs differ (R54). -/
def exactSum (mode : Nat) (vs : List FV) : FV :=
  let e0 := leastExp vs
  let t : Int := vs.foldl (fun (a : Int) v => a + v.at e0) 0
  if t = 0 then
    (if vs.all (fun v => v.sign) then .fin true 0 0
     else if vs.any (fun v => v.sign) then .fin (mode == 2) 0 0
     else .fin false 0 0)
  else .fin (decide (t < 0)) t.natAbs e0

/-- The exact product of two values that are no NaN; `none` for an infinity times a zero. -/
def exactMul : FV → FV → Option FV
  | .fin s m e, .fin t n g => some (.fin (s != t) (m * n) (e + g))
  | .inf s, .fin t n _ => if n = 0 then none else some (.inf (s != t))
  | .fin s m _, .inf t => if m = 0 then none else some (.inf (s != t))
  | a, b => some (.inf (a.sign != b.sign))

/-- A value is infinite. -/
def FV.isInf : FV → Bool
  | .inf _ => true
  | _ => false

/-- The sum of values that are no NaN; `none` when infinities of both signs meet (R55). -/
def sumValues (mode : Nat) (vs : List FV) : Option FV :=
  let pos := vs.any (fun v => v.isInf && !v.sign)
  let neg := vs.any (fun v => v.isInf && v.sign)
  if pos && neg then none
  else if pos then some (.inf false)
  else if neg then some (.inf true)
  else some (exactSum mode vs)

/-- One rounding of a sum of values into a format (R54, R55). -/
def Fmt.sum (k : Fmt) (c : FCtx) (q : Nat) (vs : List FV) : FRes :=
  if vs.any FV.isNaN then k.nanOf c vs
  else match sumValues c.mode vs with
    | none => k.invalid
    | some v => k.deliver c q v

/-- Addition (R180). -/
def Fmt.add (k : Fmt) (c : FCtx) (q a b : Nat) : FRes := k.sum c q [k.unpack c.daz a, k.unpack c.daz b]

/-- Subtraction (R180). -/
def Fmt.sub (k : Fmt) (c : FCtx) (q a b : Nat) : FRes := k.sum c q [k.unpack c.daz a, (k.unpack c.daz b).neg]

/-- One rounding of a product of two values (R54, R55). -/
def Fmt.mulV (k : Fmt) (c : FCtx) (q : Nat) (x y : FV) : FRes :=
  if x.isNaN || y.isNaN then k.nanOf c [x, y]
  else match exactMul x y with
    | none => k.invalid
    | some v => k.deliver c q v

/-- Multiplication (R180). -/
def Fmt.mul (k : Fmt) (c : FCtx) (q a b : Nat) : FRes := k.mulV c q (k.unpack c.daz a) (k.unpack c.daz b)

/-- Fused multiply-add `± a·b + z`, one rounding (R180). -/
def Fmt.fma (k : Fmt) (c : FCtx) (neg : Bool) (a b z : Nat) : FRes :=
  let x := k.unpack c.daz a
  let y := k.unpack c.daz b
  let w := k.unpack c.daz z
  let p := if x.isNaN || y.isNaN then some (FV.fin false 0 0) else exactMul x y
  if x.isNaN || y.isNaN || w.isNaN then
    let r := k.nanOf c [x, y, w]
    if p.isNone && Config.nvInfZeroNaN then { r with fl := r.fl ||| flNV } else r
  else match p with
    | none => k.invalid
    | some v => k.sum c 0 [if neg then v.neg else v, w]

/-- Order of two numbers with −0 below +0. -/
def FV.below (x y : FV) : Bool :=
  match x, y with
  | .inf s, .inf t => s && !t
  | .inf s, _ => s
  | _, .inf t => !t
  | .fin s m e, .fin t n g =>
    if m = 0 ∧ n = 0 then s && !t
    else
      let e0 := min e g
      decide ((FV.fin s m e).at e0 < (FV.fin t n g).at e0)
  | _, _ => false

/-- The code of a value that a comparison selects: the operand after DAZ. -/
def Fmt.afterDaz (k : Fmt) (c : FCtx) (a : Nat) : Nat :=
  match k.unpack c.daz a with
  | .fin s 0 _ => k.zero s
  | _ => a

/-- minimumNumber, or maximumNumber where `big` is set (R181). -/
def Fmt.minMax (k : Fmt) (c : FCtx) (big : Bool) (a b : Nat) : FRes :=
  let x := k.unpack c.daz a
  let y := k.unpack c.daz b
  let nv : Flags := if x.signals || y.signals then flNV else 0
  if x.isNaN && y.isNaN then k.nanOf c [x, y]
  else if x.isNaN then { code := k.afterDaz c b, fl := nv }
  else if y.isNaN then { code := k.afterDaz c a, fl := nv }
  else if (if big then x.below y else y.below x) then { code := k.afterDaz c b }
  else { code := k.afterDaz c a }

/-- The quotient of two magnitudes with 64 bits or more and a sticky bit. -/
def magDiv (m : Nat) (e : Int) (n : Nat) (g : Int) : Mag :=
  let sh := 64 + n.log2 + 1
  let num := m * 2 ^ sh
  { m := num / n, e := e - g - sh, sticky := num % n != 0 }

/-- Division (R180, R182). -/
def Fmt.div (k : Fmt) (c : FCtx) (q a b : Nat) : FRes :=
  let x := k.unpack c.daz a
  let y := k.unpack c.daz b
  let s := x.sign != y.sign
  match x, y with
  | .nan _ _ _ _, _ => k.nanOf c [x, y]
  | _, .nan _ _ _ _ => k.nanOf c [x, y]
  | .inf _, .inf _ => k.invalid
  | .inf _, _ => k.inf c.dn s
  | _, .inf _ => { code := k.zero s }
  | .fin _ m e, .fin _ n g =>
    if n = 0 then (if m = 0 then k.invalid else { k.inf c.dn s with fl := flDZ })
    else if m = 0 then { code := k.zero s }
    else k.round c q s (magDiv m e n g)

/-- The integer square root, found bit by bit from bit `i` down. -/
def isqrtFrom (n : Nat) : Nat → Nat → Nat
  | 0, r => if (r + 1) * (r + 1) ≤ n then r + 1 else r
  | i + 1, r =>
    let t := r + 2 ^ (i + 1)
    isqrtFrom n i (if t * t ≤ n then t else r)

/-- The integer square root. -/
def isqrt (n : Nat) : Nat := isqrtFrom n (n.log2 / 2 + 1) 0

/-- The square root of a magnitude, with 40 bits or more and a sticky bit. -/
def magSqrt (m : Nat) (e : Int) : Mag :=
  let (m, e) := if e % 2 = 0 then (m, e) else (2 * m, e - 1)
  let n := m * 2 ^ 96
  let r := isqrt n
  { m := r, e := e / 2 - 48, sticky := r * r != n }

/-- Square root (R180, R182). -/
def Fmt.sqrt (k : Fmt) (c : FCtx) (q a : Nat) : FRes :=
  let x := k.unpack c.daz a
  match x with
  | .nan _ _ _ _ => k.nanOf c [x]
  | .inf s => if s then k.invalid else k.inf c.dn false
  | .fin s m e =>
    if m = 0 then { code := k.zero s }
    else if s then k.invalid
    else k.round c q false (magSqrt m e)

/-- Reciprocal (R182). -/
def Fmt.rcp (k : Fmt) (c : FCtx) (q a : Nat) : FRes :=
  let x := k.unpack c.daz a
  match x with
  | .nan _ _ _ _ => k.nanOf c [x]
  | .inf s => { code := k.zero s }
  | .fin s m e => if m = 0 then { k.inf c.dn s with fl := flDZ } else k.round c q s (magDiv 1 0 m e)

/-- The reciprocal square root of a magnitude, with 40 bits or more and a sticky bit. -/
def magRsqrt (m : Nat) (e : Int) : Mag :=
  let (m, e) := if e % 2 = 0 then (m, e) else (2 * m, e - 1)
  let h := 64 + m.log2
  let r := isqrt (2 ^ (2 * h) / m)
  { m := r, e := -(e / 2) - h, sticky := r * r * m != 2 ^ (2 * h) }

/-- Reciprocal square root (R182). -/
def Fmt.rsq (k : Fmt) (c : FCtx) (q a : Nat) : FRes :=
  let x := k.unpack c.daz a
  match x with
  | .nan _ _ _ _ => k.nanOf c [x]
  | .inf s => if s then k.invalid else { code := k.zero false }
  | .fin s m e =>
    if m = 0 then { k.inf c.dn s with fl := flDZ }
    else if s then k.invalid
    else k.round c q false (magRsqrt m e)

/-- `n` bits of the binary logarithm of `y · 2^-p`, a number from 1 up to 2, by repeated squaring. -/
def log2Bits (p : Nat) : Nat → Nat → Nat → Nat
  | 0, _, acc => acc
  | n + 1, y, acc =>
    let z := y * y / 2 ^ p
    if 2 ^ (p + 1) ≤ z then log2Bits p n (z / 2) (2 * acc + 1) else log2Bits p n z (2 * acc)

/-- log2 of `m · 2^e` for a number that is no power of two: its sign and its magnitude to 128 bits after the
point (log entry 11). -/
def magLog2 (m : Nat) (e : Int) : Bool × Mag :=
  let k : Int := (m.log2 : Int) + e
  let p := 384
  let y := m * 2 ^ (p - m.log2)
  let fr := log2Bits p 128 y 0
  let t : Int := k * 2 ^ 128 + fr
  if t < 0 then (true, { m := (-t - 1).toNat, e := -128, sticky := true })
  else (false, { m := t.toNat, e := -128, sticky := true })

/-- Binary logarithm (R182). -/
def Fmt.log2 (k : Fmt) (c : FCtx) (q a : Nat) : FRes :=
  let x := k.unpack c.daz a
  match x with
  | .nan _ _ _ _ => k.nanOf c [x]
  | .inf s => if s then k.invalid else k.inf c.dn false
  | .fin s m e =>
    if m = 0 then { k.inf c.dn true with fl := flDZ }
    else if s then k.invalid
    else if m = 2 ^ m.log2 then
      let v : Int := (m.log2 : Int) + e
      k.deliver c q (.fin (decide (v < 0)) v.natAbs 0)
    else
      let r := magLog2 m e
      k.round c q r.1 r.2

/-! ### exp2z -/

/-- The table of R73. -/
def exp2Table : List Nat :=
  [0x3F800000, 0x3F8164D2, 0x3F82CD87, 0x3F843A29, 0x3F85AAC3, 0x3F871F62, 0x3F88980F, 0x3F8A14D5] ++
  [0x3F8B95C2, 0x3F8D1ADF, 0x3F8EA43A, 0x3F9031DC, 0x3F91C3D3, 0x3F935A2B, 0x3F94F4F0, 0x3F96942D] ++
  [0x3F9837F0, 0x3F99E046, 0x3F9B8D3A, 0x3F9D3EDA, 0x3F9EF532, 0x3FA0B051, 0x3FA27043, 0x3FA43516] ++
  [0x3FA5FED7, 0x3FA7CD94, 0x3FA9A15B, 0x3FAB7A3A, 0x3FAD583F, 0x3FAF3B79, 0x3FB123F6, 0x3FB311C4] ++
  [0x3FB504F3, 0x3FB6FD92, 0x3FB8FBAF, 0x3FBAFF5B, 0x3FBD08A4, 0x3FBF179A, 0x3FC12C4D, 0x3FC346CD] ++
  [0x3FC5672A, 0x3FC78D75, 0x3FC9B9BE, 0x3FCBEC15, 0x3FCE248C, 0x3FD06334, 0x3FD2A81E, 0x3FD4F35B] ++
  [0x3FD744FD, 0x3FD99D16, 0x3FDBFBB8, 0x3FDE60F5, 0x3FE0CCDF, 0x3FE33F89, 0x3FE5B907, 0x3FE8396A] ++
  [0x3FEAC0C7, 0x3FED4F30, 0x3FEFE4BA, 0x3FF28177, 0x3FF5257D, 0x3FF7D0DF, 0x3FFA83B3, 0x3FFD3E0C]

/-- rne into FP32 without flushing, read back as a value. -/
def rne32 (v : FV) : FV := Fmt.unpack .f32 false (Fmt.deliver .f32 {} 0 v).code

/-- The exact sum of two values as a value. -/
def addV (a b : FV) : FV := exactSum 0 [a, b]

/-- The exact product of two finite values. -/
def mulFin (a b : FV) : FV := (exactMul a b).getD (.fin false 0 0)

/-- exp2z of an FP32 value (R72): flags NV, OF and UF only. -/
def exp2z (c : FCtx) (a : Nat) : FRes :=
  let x := Fmt.unpack .f32 false a
  match x with
  | .nan _ _ _ _ => Fmt.nanOf .f32 c [x]
  | .inf s => if s then { code := 0 } else { code := 0x7F800000 }
  | .fin _ _ e =>
    let g := min e 0
    let t := x.at g
    let one : Int := 2 ^ (-g).toNat
    let n := t / one
    let f := t % one
    let j := (64 * f / one).toNat
    let r := FV.fin false (64 * f - j * one).toNat (g - 6)
    let t1 := rne32 (mulFin r (Fmt.unpack .f32 false 0x3E75FDF0))
    let t2 := rne32 (addV (Fmt.unpack .f32 false 0x3F317218) t1)
    let t3 := rne32 (mulFin r t2)
    let p := rne32 (addV (.fin false 1 0) t3)
    let y := rne32 (mulFin (Fmt.unpack .f32 false (exp2Table.getD j 0)) p)
    match y with
    | .fin _ m ey =>
      let top := (m.log2 : Int) + ey + n
      if 128 ≤ top then { code := 0x7F800000, fl := flOF }
      else if top < -126 then { code := 0, fl := flUF }
      else { code := (Fmt.deliver .f32 {} 0 (.fin false m (ey + n))).code }
    | _ => { code := 0 }

/-! ### Conversion -/

/-- The integer formats of `VCVT` (R50, R184). -/
inductive IFmt
  | s8 | s16 | s32 | u8
deriving DecidableEq, Repr

/-- The integer format of a code (R184). -/
def IFmt.ofCode : Nat → IFmt
  | 0 => .s8
  | 1 => .s16
  | 2 => .s32
  | _ => .u8

/-- Width in bits. -/
def IFmt.width : IFmt → Nat
  | .s8 => 8
  | .s16 => 16
  | .s32 => 32
  | .u8 => 8

/-- The least value (R50). -/
def IFmt.lo : IFmt → Int
  | .s8 => -128
  | .s16 => -32768
  | .s32 => -2147483648
  | .u8 => 0

/-- The greatest value (R50). -/
def IFmt.hi : IFmt → Int
  | .s8 => 127
  | .s16 => 32767
  | .s32 => 2147483647
  | .u8 => 255

/-- The value of a code. -/
def IFmt.value (k : IFmt) (code : Nat) : Int :=
  if k = .u8 then (code : Int)
  else if code.testBit (k.width - 1) then (code : Int) - 2 ^ k.width else (code : Int)

/-- An integer clamped into a format, with NV when clamped (R57, R186). -/
def IFmt.clamp (k : IFmt) (v : Int) : FRes :=
  if v < k.lo then { code := (k.lo % 2 ^ k.width).toNat, fl := flNV }
  else if k.hi < v then { code := (k.hi % 2 ^ k.width).toNat, fl := flNV }
  else { code := (v % 2 ^ k.width).toNat }

/-- Conversion of a value to an integer format (R57). -/
def IFmt.ofFloat (k : IFmt) (c : FCtx) (q : Nat) : FV → FRes
  | .nan _ _ _ _ => { code := 0, fl := flNV }
  | .inf s => { code := ((if s then k.lo else k.hi) % 2 ^ k.width).toNat, fl := flNV }
  | .fin s m e =>
    let (n, inexact) := ({ m := m, e := e } : Mag).roundAt 0 c.mode s q
    let r := k.clamp (if s then -(n : Int) else n)
    if r.fl = 0 && inexact then { r with fl := flNX } else r

/-- Conversion to E8M0 (R188). -/
def toE8M0 (c : FCtx) : FV → FRes
  | .nan _ _ _ _ => { code := 0xFF, fl := flNV }
  | .inf s => if s then { code := 0xFF, fl := flNV } else { code := 0xFE, fl := flOF ||| flNX }
  | .fin s m e =>
    if s || m == 0 then { code := 0xFF, fl := flNV }
    else
      let k : Int := (m.log2 : Int) + e
      let exact := m == 2 ^ m.log2
      let up : Bool :=
        match c.mode with
        | 1 | 2 => false
        | 3 => !exact
        | _ => decide (3 * 2 ^ m.log2 ≤ 2 * m)
      let b := (if up then k + 1 else k) + 127
      let code := (max 0 (min 254 b)).toNat
      let same := exact && (code : Int) == k + 127
      { code := code
        fl := (if same then 0 else flNX) ||| (if b < 0 then flUF else 0) ||| (if 254 < b then flOF else 0) }

/-- Conversion of a value to a floating format, as `VCVT` and `ACVT` convert (R51, R186, R187, R188). -/
def Fmt.convert (k : Fmt) (c : FCtx) (q : Nat) (v : FV) : FRes :=
  if k = .e8m0 then toE8M0 c v
  else match v with
    | .nan _ _ _ _ => k.nanOf c [v]
    | .inf s =>
      let stays := k.infCode.isSome && (c.mode == 0 || c.mode == 4 || c.mode == 5)
      if stays then k.inf c.dn s
      else
        let r := k.overflow c.dn c.mode s
        if some r = k.infCode.map (k.signed s) then { code := r } else { code := r, fl := flOF ||| flNX }
    | .fin s m e => k.deliver c q (.fin s m e)

/-- The value of a source element of `VCVT` (R186 to R188): an E8M0 NaN gives the canonical NaN without a
flag, under every DN. -/
def cvtFloat (from_ to_ : Fmt) (c : FCtx) (q code : Nat) : FRes :=
  match from_, from_.unpack c.daz code with
  | .e8m0, .nan _ _ _ _ => { code := to_.canonical }
  | _, v => to_.convert c q v

/-! ### Attention-triple merge -/

/-- The canonical-NaN context of R191. -/
def trimCtx : FCtx := { dn := true }

/-- The greater of two FP32 values, NaN if either is (R191); −0 stands below +0, and of equal values the first is taken (DESIGN
CHOICE, log entry 94). -/
def trimMax (m1 m2 : Nat) : FRes :=
  let x := Fmt.unpack .f32 false m1
  let y := Fmt.unpack .f32 false m2
  if x.isNaN || y.isNaN then Fmt.nanOf .f32 trimCtx [x, y]
  else if x.below y then { code := m2 } else { code := m1 }

/-- The weight of one partial (R191). -/
def trimWeight (mi m : Nat) : FRes :=
  if mi = 0xFF800000 then { code := 0 }
  else
    let d := Fmt.sub .f32 trimCtx 0 mi m
    let w := exp2z trimCtx d.code
    { code := w.code, fl := d.fl ||| w.fl }

/-- rne(rne(y1 · a1) + rne(y2 · a2)) in FP32 (R191). -/
def trimMerge (y1 a1 y2 a2 : Nat) : FRes :=
  let p := Fmt.mul .f32 trimCtx 0 y1 a1
  let r := Fmt.mul .f32 trimCtx 0 y2 a2
  let s := Fmt.add .f32 trimCtx 0 p.code r.code
  { code := s.code, fl := p.fl ||| r.fl ||| s.fl }

/-- Flags without NX (R191). -/
def FRes.noNX (r : FRes) : FRes := { r with fl := r.fl &&& 0x1E }

/-- Part .x of the merge for one lane (R191). -/
def trimX (m1 m2 x1 x2 : Nat) : FRes :=
  let m := trimMax m1 m2
  let a1 := trimWeight m1 m.code
  let a2 := trimWeight m2 m.code
  let r := trimMerge x1 a1.code x2 a2.code
  ({ code := r.code, fl := m.fl ||| a1.fl ||| a2.fl ||| r.fl } : FRes).noNX

/-- Part .xb of the merge for one lane: two BF16 elements, widened and rounded back (R191). -/
def trimXb (m1 m2 x1 x2 : Nat) : FRes :=
  let m := trimMax m1 m2
  let a1 := trimWeight m1 m.code
  let a2 := trimWeight m2 m.code
  let part (e : Nat) : FRes :=
    let w1 := (x1 / 2 ^ (16 * e) % 65536) * 65536
    let w2 := (x2 / 2 ^ (16 * e) % 65536) * 65536
    let r := trimMerge w1 a1.code w2 a2.code
    let b := cvtFloat .f32 .bf16 trimCtx 0 r.code
    { code := b.code, fl := r.fl ||| b.fl }
  let lo := part 0
  let hi := part 1
  ({ code := lo.code + 65536 * hi.code, fl := m.fl ||| a1.fl ||| a2.fl ||| lo.fl ||| hi.fl } : FRes).noNX

/-! ### Packed dot product -/

/-- Exact products of matching elements; `none` where an infinity meets a zero. -/
def dotProducts : List FV → List FV → List (Option FV)
  | a :: as, b :: bs => (if a.isNaN || b.isNaN then some (.fin false 0 0) else exactMul a b) :: dotProducts as bs
  | _, _ => []

/-- The operands of a dot product in the order of R55: the pairs in ascending k, then the addend. -/
def dotOperands : List FV → List FV → List FV
  | a :: as, b :: bs => a :: b :: dotOperands as bs
  | _, _ => []

/-- VDOT of one lane (R68, R189).  That a NaN operand is delivered though another product is ∞·0, and that NV is then a free
value, is the model's choice (DESIGN CHOICE, log entry 10). -/
def dotLane (k : Fmt) (c : FCtx) (q : Nat) (a b : List Nat) (addend : Option Nat) : FRes :=
  let xs := a.map (k.unpack false)
  let ys := b.map (k.unpack false)
  let z := (addend.map (Fmt.unpack .f32 c.daz)).toList
  let ps := dotProducts xs ys
  let ops := dotOperands xs ys ++ z
  let bad := ps.any Option.isNone
  if ops.any FV.isNaN then
    let r := Fmt.nanOf .f32 c ops
    if bad && Config.nvInfZeroNaN then { r with fl := r.fl ||| flNV } else r
  else if bad then Fmt.invalid .f32
  else Fmt.sum .f32 c q (ps.map (fun p => p.getD (.fin false 0 0)) ++ z)

end Sys2Proof.Machine
end

