-- ==== Sys2Proof/Machine/Ports.lean ====
section
/-!
DEFINITION. The Wyforen ports as senders (R435 to R437): lane classes, the port of a module, flits in the replay buffer,
and messages that wait for a paused class; and the die-to-die links that carry an access (R458, R460).
-/
namespace Sys2Proof.Machine

/-- The lane class of a message (R435): control; collective traffic; copies, host and RMT traffic; a migrator's. -/
def Msg.lane : Msg → Nat
  | .chunk .. => 1
  | .applied .. => 1
  | .request .. => 1
  | .write .. => 2
  | .read .. => 2
  | .reply .. => 2
  | .hostCtl .. => 2
  | .hostMem .. => 2
  | .hostAnswer .. => 2
  | .rmtRead _ bulk .. => if bulk then 3 else 2
  | .rmtWrite _ bulk .. => if bulk then 3 else 2
  | .pcieRead .. => 2
  | .pcieWrite .. => 2
  | _ => 0

/-- The address-hash lane of a destination byte address (R96). -/
def addrLane (a : Nat) : Nat := (a / 64 % 8) ^^^ (a / 512 % 8) ^^^ (a / 4096 % 8)

/-- The address-hash lane in which a message travels within its class (R96, R435). -/
def Msg.hashLane : Msg → Nat
  | .chunk _ _ _ _ _ _ dst _ => addrLane dst
  | .write _ _ a _ => addrLane a
  | .read _ _ a _ => addrLane a
  | .hostCtl _ a _ _ => addrLane a
  | .hostMem _ a _ _ => addrLane a
  | .rmtRead _ _ _ a _ => addrLane a
  | .rmtWrite _ _ a _ => addrLane a
  | _ => 0

/-- The module that a message is for; notices and messages to the host have none. -/
def Msg.target : Msg → Option Nat
  | .chunk m .. => some m
  | .credit m .. => some m
  | .applied m .. => some m
  | .request m .. => some m
  | .status m .. => some m
  | .write m .. => some m
  | .read m .. => some m
  | .reply m _ => some m
  | .answer m _ => some m
  | .hostCtl m .. => some m
  | .hostMem m .. => some m
  | .hostAnswer m _ => some m
  | .rmtRead m .. => some m
  | .rmtWrite m .. => some m
  | _ => none

/-- An access of the host that the bridge forwards (R443). -/
def Msg.isHost : Msg → Bool
  | .hostCtl .. => true
  | .hostMem .. => true
  | _ => false

/-- Bytes that a message carries beside its header. -/
def Msg.payload : Msg → Nat
  | .chunk _ _ _ _ _ _ _ bs => bs.length
  | .write _ _ _ bs => bs.length
  | .reply _ bs => bs.length
  | .hostMem _ _ _ bs => bs.length
  | .hostAnswer _ bs => bs.length
  | .rmtWrite _ _ _ bs => bs.length
  | _ => 0

/-- The flits of a message, 224 bytes of payload each (R435). -/
def Msg.flits (m : Msg) : Nat := max 1 ((m.payload + 223) / 224)

/-- PSTAT.STATE of a port (R441). -/
def State.portState (s : State) (p : Nat) : Nat := s.cfield (fabAddr p + 8) 0 2

/-- A port is up, paused in some class or not (R441). -/
def State.portUp (s : State) (p : Nat) : Bool := decide (2 ≤ s.portState p)

/-- A port by number. -/
def State.port (s : State) (p : Nat) : Port := tget {} s.ports p

/-- The module with a port replaced. -/
def State.setPort (s : State) (p : Nat) (x : Port) : State := { s with ports := tput s.ports p x }

/-- The port by which a module is reached: the first one up of its routes, else one trained with it (R437). -/
def State.portFor (s : State) (m : Nat) : Option Nat :=
  match (tget [] s.routes m).find? s.portUp with
  | some p => some p
  | none => (List.range 16).find? (fun p => s.portUp p && s.cfield (fabAddr p + 8) 48 16 == m)

/-- A port in training towards a module that it reached before: messages for the module wait there (R431, R441). -/
def State.portSoon (s : State) (m : Nat) : Option Nat :=
  (List.range 16).find? (fun p => s.portState p == 1 &&
    ((tget [] s.routes m).contains p ||
      (s.versions.any (fun v => v.1 == m) && s.cfield (fabAddr p + 8) 48 16 == m)))

/-- The port by which a module is reached, now or once it has trained. -/
def State.portTowards (s : State) (m : Nat) : Option Nat :=
  match s.portFor m with
  | some p => some p
  | none => s.portSoon m

/-- A module that is not dark: this one, or one that has sent no DARK notice and that a link reaches which is up or comes up again
(R345, R431, R437). -/
def State.reachable (s : State) (m : Nat) : Bool :=
  m == s.modnum || (!(s.darkMods.contains m) && (s.portTowards m).isSome)

/-- Flits that the replay buffer of a port holds (R437). -/
def replayFlits : Nat := 512

/-- A message may not start: its class is paused, the replay buffer is full, or one of its class and lane waits before it (R96,
R436, R437). -/
def Port.blocks (x : Port) (m : Msg) : Bool :=
  x.paused.contains m.lane || decide (replayFlits ≤ x.replay.length) ||
    x.waiting.any (fun w => (w.1.lane == m.lane && w.1.hashLane == m.hashLane) ||
      (w.1.isHost && m.isHost && w.1.target == m.target))

/-- A message kept at a port until it may start, from a flit on. -/
def Port.keep (x : Port) (m : Msg) (k : Nat) : Port := { x with waiting := x.waiting ++ [(m, k)] }

/-- Flits of a message sent on a port, from the `k`-th on, as many as the replay buffer takes: each gets the next sequence number
and stays there until it is acknowledged (R437). -/
def Port.put (x : Port) (m : Msg) (k : Nat) : Port :=
  let n := min (m.flits - k) (replayFlits - x.replay.length)
  let y : Port := { x with txSeq := x.txSeq + n, replay := x.replay ++ (List.range n).map (fun i => (x.txSeq + i, m, k + i)) }
  if k + n < m.flits then y.keep m (k + n) else y

/-- The module with a message sent on a port, from the `k`-th flit on, or kept there until it may start or go on (R435, R436).
`out` takes a message once its last flit has started. -/
def State.sendFrom (s : State) (p : Nat) (m : Msg) (k : Nat) : State :=
  let x := s.port p
  if x.blocks m then s.setPort p (x.keep m k)
  else if m.flits - k ≤ replayFlits - x.replay.length then { (s.setPort p (x.put m k)) with out := s.out ++ [m] }
  else s.setPort p (x.put m k)

/-- The module with a message sent on a port. -/
def State.sendOn (s : State) (p : Nat) (m : Msg) : State := s.sendFrom p m 0

/-- Messages sent again on a port in order, each from its next flit on. -/
def State.sendEach (s : State) (p : Nat) (ms : List (Msg × Nat)) : State :=
  ms.foldl (fun (s : State) w => s.sendFrom p w.1 w.2) s

/-- The messages that wait at a port start as far as they may, in order. -/
def State.flushPort (s : State) (p : Nat) : State :=
  let x := s.port p
  (s.setPort p { x with waiting := [] }).sendEach p x.waiting

/-- A port still has a message of the same class for the same module, which a later one must not overtake on another port (R96,
R443). -/
def Port.carries (x : Port) (m : Msg) : Bool :=
  let same (n : Msg) : Bool := n.target == m.target && n.lane == m.lane
  x.waiting.any (fun w => same w.1) || x.replay.any (fun f => same f.2.1)

/-- The port by which a message goes: one up or in training that still has messages of its stream, else the one that reaches its
module, or will once it has trained (R96, R437, R441, R443). -/
def State.portOf (s : State) (m : Msg) : Option Nat :=
  if m.target.isNone then none
  else
    match s.ports.find? (fun p => decide (1 ≤ s.portState p.1) && p.2.carries m) with
    | some p => some p.1
    | none => m.target.bind s.portTowards

/-- The module with a message sent from its `k`-th flit on; where its port trains it waits there. -/
def State.sendAt (s : State) (m : Msg) (k : Nat) : State :=
  match s.portOf m with
  | some p => if s.portUp p then s.sendFrom p m k else s.setPort p ((s.port p).keep m k)
  | none => { s with out := s.out ++ [m] }

/-- The module with a message sent. -/
def State.send (s : State) (m : Msg) : State := s.sendAt m 0

/-- A notice on every port that is up (R419, R430, R431). -/
def State.notice (s : State) (m : Msg) : State :=
  ((List.range 16).filter s.portUp).foldl (fun (s : State) p => s.sendOn p m) s

/-! ### Training -/

/-- PSTAT of a port (R441). -/
def pstat (p : Nat) : Nat := fabAddr p + 8

/-- STATE and CAUSE of a port set (R441). -/
def State.setPort2 (s : State) (p st cause : Nat) : State := (s.csetField (pstat p) 0 2 st).csetField (pstat p) 16 8 cause

/-- The capability record of the module: it supports 0x02 and 0x01 of each item (R440). -/
def capabilities : List (Nat × Nat) := (List.range 5).map (fun i => (i, 2))

/-- A port begins to train, with its capability record (R440). -/
def State.trainPort (s : State) (p : Nat) : State :=
  let t := s.setPort2 p 1 0
  { t with out := t.out ++ [.capability p capabilities] }

/-- Every enabled port trains again; the others are down (R431, R440). -/
def State.retrain (s : State) : State :=
  (List.range 16).foldl (fun (s : State) p =>
    if bitOf (s.cget (fabAddr p)) 0 then s.trainPort p else s.csetField (pstat p) 0 2 0) s

/-- A notice that every enabled port sends once it is up (R431). -/
def State.noticeSoon (s : State) (m : Msg) : State :=
  ((List.range 16).filter (fun p => bitOf (s.cget (fabAddr p)) 0)).foldl (fun (s : State) p =>
    s.setPort p ((s.port p).keep m 0)) s

/-! ### Host memory -/

/-- A request for host memory, which the bridge issues itself and any other module sends to it: `bulk` for a migrator's (R435,
R444). -/
def State.hostWrites (s : State) (bulk : Bool) (a : Nat) (bs : List Byte) : State :=
  s.send (if s.bridging then .pcieWrite a bs else .rmtWrite Config.bridgeModule bulk a bs)

/-- A read of host memory that goes out, in the same way. -/
def State.hostReadsAt (s : State) (bulk : Bool) (id a n : Nat) : State :=
  s.send (if s.bridging then .pcieRead id a n else .rmtRead Config.bridgeModule bulk id a n)

/-! ### Die-to-die links -/

/-- How many die-to-die links the module has (R458). -/
def linkCount : Nat := 24

/-- The links of a compute die: four to the hub, and both modules of its two ring edges (R458). -/
def dieLinks (d : Nat) : List Nat :=
  (List.range 4).map (fun k => 4 * d + k) ++
    (match d with
      | 0 => [16, 17, 22, 23]
      | 1 => [16, 17, 18, 19]
      | 2 => [20, 21, 22, 23]
      | _ => [18, 19, 20, 21])

/-- LKSTAT of a link (R459). -/
def lkstat (n : Nat) : Nat := dlbAddr n + 8

/-- LKCTL.PAUSE of a link (R459). -/
def State.linkPaused (s : State) (n : Nat) : Bool := bitOf (s.cget (dlbAddr n)) 0

/-- LKSTAT.UP of a link (R459). -/
def State.linkUp (s : State) (n : Nat) : Bool := bitOf (s.cget (lkstat n)) 0

/-- A link beside its registers. -/
def State.linkOf (s : State) (n : Nat) : Link := tget {} s.links n

/-- A link takes new flits: it is up and not paused (R460). -/
def State.linkOpen (s : State) (n : Nat) : Bool := s.linkUp n && !(s.linkPaused n)

/-- Lanes of a link in force (R459). -/
def State.linkWidth (s : State) (n : Nat) : Nat := if s.cfield (lkstat n) 4 2 = 0 then 64 else 32

/-- The hub links of a die that carry its traffic, with their shares in proportion to their widths (R460). -/
def State.hubShares (s : State) (d : Nat) : List (Nat × Nat) :=
  (((List.range 4).map (fun k => 4 * d + k)).filter s.linkOpen).map (fun n => (n, s.linkWidth n))

/-- The hub link of a die to whose share a byte address belongs (R458, R460, log entry 51). -/
def hubLink (d a : Nat) : Nat := 4 * d + addrLane a % 4

/-- The link of a die that carries the share of an address to the hub: its own while it is open, else one of the die's other hub
links, over which the lines of the share spread in proportion to their widths (R460). -/
def State.hubCarrier (s : State) (d a : Nat) : Option Nat :=
  if s.linkOpen (hubLink d a) then some (hubLink d a)
  else
    let ways := (s.hubShares d).flatMap (fun p => List.replicate (p.2 / 32) p.1)
    ways[a / 64 % max 1 ways.length]?

/-- A stream that used a link has left it: it moves only after every flit that it sent there has been acknowledged (R460). -/
def State.streamFree (s : State) (n : Nat) : Bool := s.linkOpen n || (s.linkOf n).unacked == 0

/-- What goes between a die and the hub for an address may start: on its own link, or on another one after every flit that
closed links of the die hold has been acknowledged (R460). -/
def State.hubWay (s : State) (d a : Nat) : Bool :=
  s.linkOpen (hubLink d a) ||
    ((List.range 4).all (fun k => s.streamFree (4 * d + k)) && (s.hubCarrier d a).isSome)

/-- The first link of the ring edge between two dies (R458). -/
def ringEdge (a b : Nat) : Option Nat :=
  match min a b, max a b with
  | 0, 1 => some 16
  | 1, 3 => some 18
  | 2, 3 => some 20
  | 0, 2 => some 22
  | _, _ => none

/-- What goes over the ring edge whose first link is `n` may start: on the link of its share, or on the other module of the edge
once the first holds nothing unacknowledged (R460). -/
def State.edgeOpen (s : State) (n a : Nat) : Bool :=
  s.linkOpen (n + addrLane a % 2) || (s.streamFree (n + addrLane a % 2) && s.linkOpen (n + (addrLane a + 1) % 2))

/-- Neither module of a ring edge is open, and none holds anything unacknowledged: the edge's traffic goes through the hub
(R460). -/
def State.edgeShut (s : State) (n : Nat) : Bool :=
  [n, n + 1].all (fun k => !(s.linkOpen k) && s.streamFree k)

/-- The ring edges over which two compute dies reach each other: the one between them, or the two by way of a third die; those of
a die that is shed or quiesced are left out (R428, R458, R466). -/
def State.ringPaths (s : State) (a b : Nat) : List (List Nat) :=
  if s.dieHeld a || s.dieHeld b then []
  else
    match ringEdge a b with
    | some n => [[n]]
    | none => ((List.range 4).filter (fun k => k != a && k != b && !(s.dieHeld k))).map (fun k =>
        (ringEdge a k).toList ++ (ringEdge k b).toList)

/-- What goes between two compute dies for an address may start: over ring edges that are open, or through the hub, where that is
open, once every path has a shut edge (R428, R458, R460, R466). -/
def State.ringWay (s : State) (a b addr : Nat) (hub : Bool) : Bool :=
  (s.ringPaths a b).any (fun p => p.all (fun n => s.edgeOpen n addr)) ||
    ((s.ringPaths a b).all (fun p => p.any s.edgeShut) && hub)

/-- An access between two dies, where 4 is the hub, may start (R428, R458, R460, R466). -/
def State.wayOpen (s : State) (a b addr : Nat) : Bool :=
  if a = b then true
  else if a = 4 then s.hubWay b addr
  else if b = 4 then s.hubWay a addr
  else s.ringWay a b addr (s.hubWay a addr && s.hubWay b addr)

/-- The die on which a unit lies, 4 for the hub (R275). -/
def dieAt (u : Nat) : Nat := if 584 ≤ u then 4 else dieOf u

end Sys2Proof.Machine
end

