-- ==== Sys2Proof/WellFormed.lean ====
section
/-!
DEFINITION. Check 4 of R111: the fields of a slot instruction that break its encoding.  A fault is the slot
bit number of the least significant bit of the offending field (R112).  An instruction is well formed when
it has none; steps that are no slot instructions have no encoding.
-/
namespace Sys2Proof

/-- A field that must be zero: its bit number when it is not (R110). -/
def zeroField {n : Nat} (lo : Nat) (x : BitVec n) : List Nat := if x = 0 then [] else [lo]

/-- A condition that an encoding must meet: the field's bit number when it does not. -/
def need (lo : Nat) (ok : Bool) : List Nat := if ok then [] else [lo]

/-- The format codes of R124 that the matrix slot takes: code 111 is reserved. -/
def matrixPair (fa fb : BitVec 3) : Bool :=
  let a := fa.toNat
  let b := fb.toNat
  (a ≤ 1 && b ≤ 1) || (a == 2 && b == 2) || ((a == 3 || a == 4) && (b == 3 || b == 4)) ||
    ((a == 5 || a == 6) && (b == 5 || b == 6))

/-- A format code of R124 is an integer format. -/
def matrixInt (f : BitVec 3) : Bool := f == 5 || f == 6

/-- A format code of R124 takes block scales (R226). -/
def matrixScaled (f : BitVec 3) : Bool := f.toNat ≤ 2

/-- Scalar-slot faults of check 4 (R116, R118, R130, R276). A value of F that part of it makes reserved or non-zero is
reported at F's lowest bit, 29 (DESIGN CHOICE, log entry 82). -/
def scalarFaults : Instr → List Nat
  | .clz o | .ctz o | .popc o | .brev o | .sld o => zeroField 18 o.b
  | .pnot o => zeroField 18 o.b
  | .br o | .ret o => zeroField 6 o.d ++ zeroField 18 o.b ++ need 28 (!o.nw)
  | .loop o | .chk o => zeroField 6 o.d ++ need 28 (!o.nw)
  | .ld _ f _ | .ldsp _ f _ => need 29 (f != 7)
  | .st _ f o => need 28 (!o.nw) ++ need 29 (!bitOf f 2)
  | .xext f _ => need 29 (field f 1 2 != 3)
  | .stg o => zeroField 18 o.b ++ need 28 (!o.nw)
  | .waitcTag o => zeroField 6 o.d ++ zeroField 12 o.a ++ need 28 (!o.nw)
  | .waitcMask o => zeroField 6 o.d ++ zeroField 18 o.b ++ need 28 (!o.nw)
  | .bar o => zeroField 6 o.d ++ zeroField 12 o.a ++ zeroField 18 o.b ++ need 28 (!o.nw)
  | .xfer o => zeroField 6 o.d ++ need 28 (!o.nw)
  | .wrsys o => need 28 (!o.nw)
  | .trap o => zeroField 6 o.d ++ need 28 (!o.nw)
  | .fence o => zeroField 6 o.d ++ zeroField 12 o.a ++ zeroField 18 o.b ++ need 28 (!o.nw)
  | .sst o => zeroField 6 o.d ++ need 28 (!o.nw)
  | _ => []

/-- What a register field of a vector slot holds (R114, R115, R120). `pair` marks an operand that is an
even-odd pair. -/
inductive VUse
  | zero                    -- a zero field
  | imm                     -- part of an immediate, any value
  | dst (pair : Bool)
  | src (pair : Bool)
  | mask
  | scalar                  -- a scalar code 0–55 or 60 (`XBC`)
  | cross (pair : Bool)     -- a register of the other cluster (`XCOPY`)
  | group                   -- log2 of the group size, 0–6
  | vz                      -- code 36
deriving DecidableEq, Repr

/-- What R120 and the chapters of the instructions require of the fields of one vector slot: which source
code, type, rounding and fn values are accepted, what each register field holds, whether NW must be zero
and, for an immediate shift amount, that it is below the element width. -/
structure VForm where
  srcOk : Bool := true
  tyOk : Bool
  rndOk : Bool
  fnOk : Bool
  d : VUse
  a : VUse
  b : VUse
  c : VUse
  noNw : Bool := false
  amtOk : Bool := true
deriving DecidableEq, Repr

/-- The pairs of source and destination that R184 permits, by class (floating or not) and code. -/
def cvtPair (sf : Bool) (sc : Nat) (df : Bool) (dc : Nat) : Bool :=
  if sf then
    if sc ≤ 2 then (df && dc ≤ 6) || (!df && dc ≤ 3)
    else if sc ≤ 4 then (df && dc ≤ 5) || (!df && dc ≤ 3)
    else if sc == 5 then df && dc ≤ 5
    else sc == 6 && df && dc ≤ 2
  else sc ≤ 3 && ((df && dc ≤ 4) || (!df && dc ≤ 3))

/-- A `VCVT` source code is reserved in itself (R119, R184). -/
def cvtSrcReserved (sf : Bool) (sc : Nat) : Bool := if sf then sc == 7 else decide (3 < sc)

/-- A `VCVT` destination code is reserved in itself (R119, R184). -/
def cvtDstReserved (df : Bool) (dc : Nat) : Bool := if df then dc == 7 else decide (3 < dc)

/-- The width of an element of an integer type code (R119, R167). -/
def intWidth (ty : BitVec 3) : Nat := 8 * 2 ^ ty.toNat

/-- The form of each vector opcode (R120, with the chapter of each instruction); `none` for a reserved
opcode.  A raw form of 0x52 to 0x54 with a type other than 000 is refused at the type field (DESIGN CHOICE, log entry 97),
and rounding 101 of VCVT to .e8m0 and of VDOT with an addend at the rounding field (DESIGN CHOICE, log entry 82). -/
def vform (op : Nat) (o : VOps) : Option VForm :=
  let ty := o.ty.toNat
  let fn := o.fn.toNat
  let p := ty == 3
  let r0 : Bool := o.rnd == 0
  let r5 : Bool := o.rnd == 5
  let rc : VUse := if r5 then .src false else .zero
  let amt : VUse := if fn == 0 then .src p else .zero
  let amtOk : Bool := fn == 0 || decide (3 < ty) || decide (fn < intWidth o.ty)
  let s := VUse.src
  match op with
  | 0x01 | 0x02 => some { tyOk := ty ≤ 3, rndOk := r0, fnOk := fn == 0, d := .dst p, a := s p, b := s p, c := .zero }
  | 0x03 => some { tyOk := ty ≤ 2, rndOk := r0, fnOk := fn == 0, d := .dst false, a := s false, b := s false, c := .zero }
  | 0x04 => some { tyOk := ty ≤ 2, rndOk := r0, fnOk := fn ≤ 1, d := .dst false, a := s false, b := s false, c := .zero }
  | 0x05 => some { tyOk := ty ≤ 2, rndOk := r0, fnOk := fn == 0, d := .dst false, a := s false, b := s false, c := s false }
  | 0x06 | 0x07 | 0x08 | 0x09 => some { tyOk := ty ≤ 3, rndOk := r0, fnOk := fn == 0, d := .dst p, a := s p, b := s p, c := .zero }
  | 0x0A | 0x0B | 0x0C | 0x0D => some { tyOk := ty ≤ 3, rndOk := r0, fnOk := true, d := .dst p, a := s p, b := amt, c := .zero, amtOk := amtOk }
  | 0x0E | 0x0F => some { tyOk := ty ≤ 3, rndOk := r0, fnOk := true, d := .dst p, a := s p, b := s p, c := amt, amtOk := amtOk }
  | 0x10 | 0x11 => some { tyOk := ty ≤ 3, rndOk := r0, fnOk := fn ≤ 1, d := .dst p, a := s p, b := s p, c := .zero }
  | 0x12 | 0x13 => some { tyOk := ty ≤ 3, rndOk := r0, fnOk := fn == 0, d := .dst p, a := s p, b := .zero, c := .zero }
  | 0x14 => some { tyOk := ty ≤ 3, rndOk := r0, fnOk := fn ≤ 5, d := .mask, a := s p, b := s p, c := .zero }
  | 0x15 => some { tyOk := ty ≤ 3, rndOk := r0, fnOk := fn == 0, d := .dst p, a := s p, b := s p, c := .zero }
  | 0x16 | 0x17 => some { tyOk := ty ≤ 2, rndOk := r0, fnOk := fn == 0, d := .dst false, a := s false, b := .zero, c := .zero }
  | 0x18 => some { tyOk := ty ≤ 3, rndOk := r0, fnOk := true, d := .dst p, a := .imm, b := .imm, c := .imm }
  | 0x20 | 0x21 | 0x22 => some { tyOk := ty ≤ 2, rndOk := true, fnOk := fn == 0, d := .dst false, a := s false, b := s false, c := rc }
  | 0x23 | 0x24 => some { tyOk := ty ≤ 2, rndOk := !r5, fnOk := fn == 0, d := .dst false, a := s false, b := s false, c := s false }
  | 0x25 | 0x26 => some { tyOk := ty ≤ 2, rndOk := r0, fnOk := fn == 0, d := .dst false, a := s false, b := s false, c := .zero }
  | 0x27 =>
    let df := bitOf o.fn 0
    let sf := bitOf o.fn 1
    let sc := fn / 4
    some { srcOk := !cvtSrcReserved sf sc
           tyOk := !cvtDstReserved df ty && (cvtSrcReserved sf sc || cvtPair sf sc df ty)
           rndOk := !(r5 && df && ty == 6), fnOk := true, d := .dst false, a := s false, b := .zero, c := rc }
  | 0x28 => some { tyOk := ty == 3 || ty == 4, rndOk := !(r5 && bitOf o.fn 0), fnOk := fn ≤ 1, d := .dst false
                   a := s false, b := s false, c := if bitOf o.fn 0 then s false else rc }
  | 0x29 => some { tyOk := ty == 0, rndOk := r0, fnOk := fn == 0, d := .dst false, a := s false, b := .zero, c := .zero }
  | 0x2A | 0x2B | 0x2C => some { tyOk := ty == 0, rndOk := true, fnOk := fn == 0, d := .dst false, a := s false, b := .zero, c := rc }
  | 0x2D => some { tyOk := ty ≤ 2, rndOk := true, fnOk := fn == 0, d := .dst false, a := s false, b := s false, c := rc }
  | 0x2E => some { tyOk := ty ≤ 2, rndOk := true, fnOk := fn == 0, d := .dst false, a := s false, b := .zero, c := rc }
  | 0x2F =>
    let x : VUse := if fn == 1 then .vz else s false
    some { tyOk := ty == 0, rndOk := r0, fnOk := fn ≤ 2, d := .dst false, a := s true, b := x, c := x }
  | 0x30 => some { tyOk := ty == 2, rndOk := r0, fnOk := fn ≤ 1, d := .dst false
                   a := if bitOf o.fn 0 then s false else .zero, b := .zero, c := .zero }
  | 0x31 => some { tyOk := p, rndOk := r0, fnOk := fn ≤ 1, d := .dst true, a := s false, b := s false, c := s false }
  | 0x40 => some { tyOk := ty == 0, rndOk := r0, fnOk := fn % 8 == 0, d := .dst false, a := s false, b := .imm, c := .imm }
  | 0x41 => some { tyOk := ty == 0, rndOk := r0, fnOk := fn % 8 == 0, d := s false, a := s false, b := .imm, c := .imm, noNw := true }
  | 0x42 => some { tyOk := ty == 0, rndOk := r0, fnOk := fn % 8 == 0, d := .dst false, a := s false, b := .zero, c := .imm }
  | 0x43 => some { tyOk := ty == 0, rndOk := r0, fnOk := fn % 8 == 0, d := s false, a := s false, b := s false, c := .imm, noNw := true }
  | 0x44 | 0x46 => some { tyOk := ty ≤ 3, rndOk := r0, fnOk := fn % 8 == 0, d := .dst p, a := s false, b := s false, c := .zero }
  | 0x45 | 0x47 => some { tyOk := ty ≤ 3, rndOk := r0, fnOk := fn % 8 == 0, d := s p, a := s false, b := s false, c := .zero, noNw := true }
  | 0x48 => some { tyOk := ty ≤ 3, rndOk := r0, fnOk := fn == 0, d := .dst p, a := .scalar, b := .zero, c := .zero }
  | 0x49 => some { tyOk := ty == 0 || p, rndOk := r0, fnOk := fn == 0, d := .dst p, a := .cross p, b := .zero, c := .zero }
  | 0x4A => some { tyOk := ty ≤ 3, rndOk := r0, fnOk := fn == 0, d := .dst p, a := s p, b := s false, c := .zero }
  | 0x4B => some { tyOk := ty ≤ 3, rndOk := r0, fnOk := fn == 0, d := .dst p, a := s p, b := s p, c := .imm }
  | 0x4C | 0x4D =>
    let fl := bitOf o.fn 1
    let sg := bitOf o.fn 0
    let k := fn / 4
    some { tyOk := if fl then ty ≤ 2 else ty ≤ 3
           rndOk := if fl && k == 0 then !r5 else r0
           fnOk := if fl then k ≤ 2 && !sg else k ≤ 5 && (!sg || k == 1 || k == 2)
           d := .dst (p && !fl), a := s (p && !fl), b := .zero, c := .group }
  | 0x4E => some { tyOk := ty == 2 || p, rndOk := r0, fnOk := fn < 4, d := .zero, a := s p, b := .zero, c := .zero, noNw := true }
  | 0x4F => some { tyOk := ty == 2 || p, rndOk := r0, fnOk := fn < 4, d := .dst p, a := .zero, b := .zero, c := .zero }
  | 0x50 | 0x51 => some { tyOk := ty == 2, rndOk := r0, fnOk := fn < 4, d := .dst false, a := .zero, b := .zero, c := .zero }
  | 0x52 =>
    let raw := fn / 4 == 7
    some { tyOk := if raw then ty == 0 else ty != 6 && cvtPair true (fn / 4) true ty, srcOk := fn / 4 != 6
           rndOk := if raw then r0 else !r5, fnOk := true, d := .zero, a := s false, b := .imm, c := .zero, noNw := true }
  | 0x53 | 0x54 =>
    let raw := fn / 4 == 7
    some { tyOk := if raw then ty == 0 else ty != 6 && cvtPair true (fn / 4) true ty, srcOk := fn / 4 != 6
           rndOk := if raw then r0 else !r5, fnOk := true, d := .dst false, a := .zero, b := .imm, c := .zero }
  | 0x58 | 0x59 | 0x5A => some { tyOk := ty == 0, rndOk := r0, fnOk := fn == 0, d := .mask, a := .mask, b := .mask, c := .zero }
  | 0x5B => some { tyOk := ty == 0, rndOk := r0, fnOk := fn == 0, d := .mask, a := .mask, b := .zero, c := .zero }
  | 0x5C | 0x5D => some { tyOk := ty == 2, rndOk := r0, fnOk := fn == 0, d := .dst false, a := .mask, b := .zero, c := .zero }
  | 0x5E =>
    some { tyOk := ty == 0, rndOk := r0, fnOk := fn ≤ 2, d := if fn == 2 then .dst false else .mask
           a := if fn == 1 then s false else .mask, b := .zero, c := .zero }
  | _ => none

/-- The opcode, cluster and fields of a vector instruction (R120). -/
def vectorOf : Instr → Option (Nat × Cluster × VOps)
  | .vadd c o => some (0x01, c, o)
  | .vsub c o => some (0x02, c, o)
  | .vmul c o => some (0x03, c, o)
  | .vmulh c o => some (0x04, c, o)
  | .vmad c o => some (0x05, c, o)
  | .vand c o => some (0x06, c, o)
  | .vor c o => some (0x07, c, o)
  | .vxor c o => some (0x08, c, o)
  | .vandn c o => some (0x09, c, o)
  | .vshl c o => some (0x0A, c, o)
  | .vshr c o => some (0x0B, c, o)
  | .vsar c o => some (0x0C, c, o)
  | .vrot c o => some (0x0D, c, o)
  | .vfshl c o => some (0x0E, c, o)
  | .vfshr c o => some (0x0F, c, o)
  | .vmin c o => some (0x10, c, o)
  | .vmax c o => some (0x11, c, o)
  | .vabs c o => some (0x12, c, o)
  | .vneg c o => some (0x13, c, o)
  | .vcmp c o => some (0x14, c, o)
  | .vsel c o => some (0x15, c, o)
  | .vclz c o => some (0x16, c, o)
  | .vpopc c o => some (0x17, c, o)
  | .vmovi c o => some (0x18, c, o)
  | .vfadd c o => some (0x20, c, o)
  | .vfsub c o => some (0x21, c, o)
  | .vfmul c o => some (0x22, c, o)
  | .vfma c o => some (0x23, c, o)
  | .vfnma c o => some (0x24, c, o)
  | .vfmin c o => some (0x25, c, o)
  | .vfmax c o => some (0x26, c, o)
  | .vcvt c o => some (0x27, c, o)
  | .vdot c o => some (0x28, c, o)
  | .vexp2 c o => some (0x29, c, o)
  | .vlog2 c o => some (0x2A, c, o)
  | .vrcp c o => some (0x2B, c, o)
  | .vrsq c o => some (0x2C, c, o)
  | .vfdiv c o => some (0x2D, c, o)
  | .vfsqrt c o => some (0x2E, c, o)
  | .vtrimX c o => some (0x2F, c, o)
  | .vtrimM c o => some (0x2F, c, o)
  | .vtrimXb c o => some (0x2F, c, o)
  | .vrnd c o => some (0x30, c, o)
  | .vrndSeed c o => some (0x30, c, o)
  | .vsfckMor c o => some (0x31, c, o)
  | .vsfckHil c o => some (0x31, c, o)
  | .vld c o => some (0x40, c, o)
  | .vst c o => some (0x41, c, o)
  | .vldu c o => some (0x42, c, o)
  | .vstb c o => some (0x43, c, o)
  | .vlds c o => some (0x44, c, o)
  | .vsts c o => some (0x45, c, o)
  | .vldx c o => some (0x46, c, o)
  | .vstx c o => some (0x47, c, o)
  | .xbc c o => some (0x48, c, o)
  | .xcopy c o => some (0x49, c, o)
  | .vperm c o => some (0x4A, c, o)
  | .vslide c o => some (0x4B, c, o)
  | .vred c o => some (0x4C, c, o)
  | .vscan c o => some (0x4D, c, o)
  | .spush c o => some (0x4E, c, o)
  | .spop c o => some (0x4F, c, o)
  | .sbal c o => some (0x50, c, o)
  | .scnt c o => some (0x51, c, o)
  | .twr c o => some (0x52, c, o)
  | .trdc c o => some (0x53, c, o)
  | .trdr c o => some (0x54, c, o)
  | .kand c o => some (0x58, c, o)
  | .kor c o => some (0x59, c, o)
  | .kxor c o => some (0x5A, c, o)
  | .knot c o => some (0x5B, c, o)
  | .kpopc c o => some (0x5C, c, o)
  | .kfirst c o => some (0x5D, c, o)
  | .kmov c o => some (0x5E, c, o)
  | .kmovVk c o => some (0x5E, c, o)
  | .kmovKv c o => some (0x5E, c, o)
  | _ => none

/-- The fn value belongs to the constructor where an opcode has one constructor for each (R190, R192,
R194, R195, R219). -/
def variantOk : Instr → Bool
  | .vtrimX _ o => o.fn == 0
  | .vtrimM _ o => o.fn == 1
  | .vtrimXb _ o => o.fn == 2
  | .vrnd _ o => o.fn == 0
  | .vrndSeed _ o => o.fn == 1
  | .vsfckMor _ o => o.fn == 0
  | .vsfckHil _ o => o.fn == 1
  | .kmov _ o => o.fn == 0
  | .kmovVk _ o => o.fn == 1
  | .kmovKv _ o => o.fn == 2
  | _ => true

/-- A register field that R120 marks with a dash must be zero. -/
def VUse.faults (u : VUse) (lo : Nat) (x : BitVec 6) : List Nat :=
  match u with
  | .zero => zeroField lo x
  | _ => []

/-- Vector-slot faults of check 4 (R110, R119, R120). A refused value of part of `fn` is reported at the lowest bit of
`fn`, 43, and mask 000 with negate at negate, 35 (DESIGN CHOICE, log entry 82). -/
def vectorFaults (f : VForm) (o : VOps) : List Nat :=
  f.d.faults 8 o.vd ++ f.a.faults 14 o.va ++ f.b.faults 20 o.vb ++ f.c.faults 26 o.vc
    ++ need 35 (!(o.mask == 0 && o.neg)) ++ need 36 f.rndOk ++ need 39 f.tyOk
    ++ need 42 (!(f.noNw && o.nw)) ++ need 43 f.fnOk ++ need 45 f.srcOk

/-- The variant and fields of a matrix instruction (R122). -/
def matrixOf : Instr → Option (Nat × MOps)
  | .mm o => some (0, o)
  | .mmsN24 o => some (1, o)
  | .mmsN48 o => some (2, o)
  | .mmt o => some (3, o)
  | .azero o => some (4, o)
  | .ascl o => some (5, o)
  | .acvt o => some (6, o)
  | _ => none

/-- Matrix-slot faults of check 4 (R122 to R124, R64, R66, R67, R226, R235). A pair of formats that R64 does not have is
reported at A's format, bit 6, and control 10 with integers at the control, bit 12 (DESIGN CHOICE, log entry 82). -/
def matrixFaults (var : Nat) (o : MOps) : List Nat :=
  need 0 (decide (o.shape.toNat ≤ 4)) ++
  (if var ≤ 3 then
    need 6 (o.fa != 7 && (o.fb == 7 || matrixPair o.fa o.fb)) ++ need 9 (o.fb != 7) ++
    need 12 (o.acc != 3 && !(o.acc == 2 && matrixInt o.fa && matrixInt o.fb)) ++
    zeroField 24 o.rnd ++
    need 28 (o.base == 0 || !matrixPair o.fa o.fb || matrixScaled o.fa)
  else
    zeroField 6 o.fa ++
    (if var = 6 then need 9 (o.fb != 7) else zeroField 9 o.fb) ++
    zeroField 12 o.acc ++
    (if var = 4 then zeroField 24 o.rnd else need 24 (o.rnd != 5)) ++
    need 27 (!o.asrc) ++
    need 28 (o.base == 0 || (var == 6 && o.fb == 2)))

/-- The opcode, engine and fields of a copy-slot instruction (R125). -/
def copyOf : Instr → Option (Nat × Engine × COps)
  | .cpy e o => some (0x01, e, o)
  | .cpym e o => some (0x02, e, o)
  | .gath e o => some (0x03, e, o)
  | .scat e o => some (0x04, e, o)
  | .fill e o => some (0x05, e, o)
  | .cmpr e o => some (0x06, e, o)
  | .scld e o => some (0x07, e, o)
  | .pref e o => some (0x08, e, o)
  | .cfence e o => some (0x09, e, o)
  | .coll e o => some (0x0A, e, o)
  | .repart e o => some (0x0B, e, o)
  | .walk e o => some (0x10, e, o)
  | .fsend e o => some (0x11, e, o)
  | .ffetch e o => some (0x12, e, o)
  | _ => none

/-- The flag bits, counted from bit 18, that R125 lists for a copy-slot opcode. -/
def copyFlags (op : Nat) : BitVec 14 :=
  match op with
  | 0x01 | 0x02 | 0x03 | 0x04 => 0x3FC0
  | 0x05 => 0x31C0
  | 0x06 => 0x01C0
  | 0x07 => 0x0E0F
  | 0x08 => 0x0E00
  | 0x0A | 0x0B => 0x0003
  | 0x11 => 0x0E00
  | 0x12 => 0x01C0
  | _ => 0

/-- The source-space code [29:27] (R125). -/
def COps.from (o : COps) : Nat := (field o.flags 9 3).toNat
/-- The destination-space code [26:24] (R125). -/
def COps.to (o : COps) : Nat := (field o.flags 6 3).toNat
/-- Flags [31:30]: dimensions less one, index width or pattern width (R125). -/
def COps.width (o : COps) : Nat := (field o.flags 12 2).toNat

/-- Copy-slot faults of check 4 (R110, R125, R262). -/
def copyFaults (op : Nat) (o : COps) : List Nat :=
  let extra := o.flags &&& ~~~ (copyFlags op)
  ((List.range 14).filter (fun i => bitOf extra i)).map (18 + ·) ++
  (match op with
    | 0x01 => need 27 (decide (o.from ≤ 5)) ++ need 24 (decide (o.to ≤ 5))
    | 0x02 => need 27 (decide (o.from ≤ 5)) ++ need 24 (decide (o.to ≤ 1))
    | 0x03 => need 27 (decide (o.from ≤ 5)) ++ need 24 (decide (o.to ≤ 3)) ++ need 30 (decide (o.width ≤ 1))
    | 0x04 => need 27 (decide (o.from ≤ 3)) ++ need 24 (decide (o.to ≤ 5)) ++ need 30 (decide (o.width ≤ 1))
    | 0x05 => need 24 (decide (o.to ≤ 5)) ++ need 30 (decide (o.width ≤ 2))
    | 0x06 => need 24 (o.to == 4 || o.to == 5)
    | 0x07 => need 27 (decide (o.from ≤ 5))
    | 0x08 => need 27 (o.from == 4 || o.from == 5)
    | 0x09 => zeroField 6 o.blk
    | 0x11 => need 27 (decide (o.from ≤ 5))
    | 0x12 => need 24 (decide (o.to ≤ 5))
    | _ => [])

/-- Which slot an instruction stands in. -/
inductive Family
  | scalar | vector | matrix | copy | event
deriving DecidableEq, Repr

/-- The slot instructions of the scalar slot (R118). -/
def isScalar : Instr → Bool
  | .nop | .endTask | .eret | .duskdone => true
  | .add _ | .sub _ | .and _ | .or _ | .xor _ | .andn _ | .orn _ | .xnor _ => true
  | .shl _ | .shr _ | .sar _ | .rol _ | .ror _ => true
  | .mul _ | .mulh _ | .mulhs _ | .div _ | .divs _ | .rem _ | .rems _ => true
  | .min _ | .max _ | .mins _ | .maxs _ => true
  | .clz _ | .ctz _ | .popc _ | .brev _ | .sext _ | .zext _ | .fshl _ | .fshr _ | .addsh _ _ => true
  | .addi _ | .andi _ | .ori _ | .xori _ | .shli _ | .shri _ | .sari _ | .movi _ | .movh _ => true
  | .sel _ _ | .setpEq _ | .setpNe _ | .setpLt _ | .setpLts _ | .setpLe _ | .setpLes _ => true
  | .pand _ | .por _ | .pxor _ | .pnot _ => true
  | .setpiEq _ | .setpiNe _ | .setpiLt _ | .setpiLts _ | .setpiLe _ | .setpiLes _ => true
  | .bri _ | .call _ | .br _ | .ret _ | .loop _ | .chk _ => true
  | .ld _ _ _ | .ldsp _ _ _ | .st _ _ _ | .xext _ _ | .stg _ => true
  | .waitcTag _ | .waitcMask _ | .bar _ | .xfer _ => true
  | .atomAdd _ _ | .atomAnd _ _ | .atomOr _ _ | .atomXor _ _ | .atomMin _ _ | .atomMax _ _ => true
  | .atomMins _ _ | .atomMaxs _ _ | .atomXchg _ _ | .atomCas _ _ => true
  | .rdsys _ | .wrsys _ | .trap _ | .fence _ | .sld _ | .sst _ => true
  | _ => false

/-- The family of an instruction. -/
def Instr.family (i : Instr) : Family :=
  if isScalar i then .scalar
  else if (vectorOf i).isSome then .vector
  else if (matrixOf i).isSome then .matrix
  else if (copyOf i).isSome then .copy
  else .event

/-- The faults of check 4 of R111: slot bit numbers of the offending fields. -/
def encodingFaults (i : Instr) : List Nat :=
  match vectorOf i with
  | some (op, _, o) =>
    (match vform op o with
      | some f => vectorFaults f o ++ need 43 (variantOk i)
      | none => [0])
  | none =>
    match matrixOf i with
    | some (v, o) => matrixFaults v o
    | none =>
      match copyOf i with
      | some (op, _, o) => copyFaults op o
      | none => scalarFaults i

/-- A well-formed instruction is a slot instruction without a fault of check 4. -/
def WellFormed (i : Instr) : Bool := i.family != .event && (encodingFaults i).isEmpty

end Sys2Proof
end

