-- ==== Sys2Proof/Decode.lean ====
section
/-!
DEFINITION. The decoder: from the bits of a slot to an instruction, or the slot bit number of the field
that check 4 of R111 reports; the bundle layout (R105); and the encoder, from the same tables
(R116 to R125).
-/
namespace Sys2Proof

/-- What the decoder makes of a slot: an instruction, or the lowest offending field (R111, R112). -/
inductive Dec
  | ok (i : Instr)
  | bad (bit : Nat)
deriving DecidableEq, Repr

/-- The least number of a list, `d` where it is empty. -/
def leastOf (d : Nat) : List Nat → Nat
  | [] => d
  | x :: xs => xs.foldl min x

/-- An instruction without faults, or the lowest of its faults. -/
def Dec.check (i : Instr) (faults : List Nat) : Dec := if faults.isEmpty then .ok i else .bad (leastOf 0 faults)

/-! ### Scalar slot -/

/-- The SR fields of a scalar slot (R116). -/
def srOf (w : BitVec 32) : SR where
  nw := bitOf w 28
  pn := bitOf w 27
  p := field w 24 3
  b := field w 18 6
  a := field w 12 6
  d := field w 6 6

/-- The SI fields of a scalar slot (R116). -/
def siOf (w : BitVec 32) : SI where
  imm9 := field w 29 3 ++ field w 18 6
  nw := bitOf w 28
  pn := bitOf w 27
  p := field w 24 3
  a := field w 12 6
  d := field w 6 6

/-- The SL fields of a scalar slot: IMM18 is bits [29:12] (R116). -/
def slOf (w : BitVec 32) : SL where
  imm18 := field w 12 18
  d := field w 6 6

/-- The SB fields of a scalar slot (R116). -/
def sbOf (w : BitVec 32) : SB where
  off20 := field w 28 2 ++ field w 18 6 ++ field w 12 6 ++ field w 6 6
  pn := bitOf w 27
  p := field w 24 3

/-- The F field [31:29] (R116). -/
def subOf (w : BitVec 32) : BitVec 3 := field w 29 3

/-- The instruction that the opcode and sub-code of a scalar slot name (R117, R118); a reserved opcode is
reported in OP and a reserved sub-code in F. -/
def scalarName (w : BitVec 32) : Dec :=
  match (field w 0 6).toNat with
  | 0x00 => .ok .nop
  | 0x01 =>
    match (subOf w).toNat with
    | 0 => .ok (.add (srOf w))
    | 1 => .ok (.sub (srOf w))
    | 2 => .ok (.and (srOf w))
    | 3 => .ok (.or (srOf w))
    | 4 => .ok (.xor (srOf w))
    | 5 => .ok (.andn (srOf w))
    | 6 => .ok (.orn (srOf w))
    | _ => .ok (.xnor (srOf w))
  | 0x02 =>
    match (subOf w).toNat with
    | 0 => .ok (.shl (srOf w))
    | 1 => .ok (.shr (srOf w))
    | 2 => .ok (.sar (srOf w))
    | 3 => .ok (.rol (srOf w))
    | 4 => .ok (.ror (srOf w))
    | _ => .bad 29
  | 0x03 =>
    match (subOf w).toNat with
    | 0 => .ok (.mul (srOf w))
    | 1 => .ok (.mulh (srOf w))
    | 2 => .ok (.mulhs (srOf w))
    | 3 => .ok (.div (srOf w))
    | 4 => .ok (.divs (srOf w))
    | 5 => .ok (.rem (srOf w))
    | 6 => .ok (.rems (srOf w))
    | _ => .bad 29
  | 0x04 =>
    match (subOf w).toNat with
    | 0 => .ok (.min (srOf w))
    | 1 => .ok (.max (srOf w))
    | 2 => .ok (.mins (srOf w))
    | 3 => .ok (.maxs (srOf w))
    | _ => .bad 29
  | 0x05 =>
    match (subOf w).toNat with
    | 0 => .ok (.clz (srOf w))
    | 1 => .ok (.ctz (srOf w))
    | 2 => .ok (.popc (srOf w))
    | 3 => .ok (.brev (srOf w))
    | 4 => .ok (.sext (srOf w))
    | 5 => .ok (.zext (srOf w))
    | _ => .bad 29
  | 0x06 =>
    match (subOf w).toNat with
    | 0 => .ok (.fshl (srOf w))
    | 1 => .ok (.fshr (srOf w))
    | _ => .bad 29
  | 0x07 => .ok (.addsh (subOf w) (srOf w))
  | 0x08 => .ok (.addi (siOf w))
  | 0x09 => .ok (.andi (siOf w))
  | 0x0A => .ok (.ori (siOf w))
  | 0x0B => .ok (.xori (siOf w))
  | 0x0C => .ok (.shli (siOf w))
  | 0x0D => .ok (.shri (siOf w))
  | 0x0E => .ok (.sari (siOf w))
  | 0x10 => .ok (.movi (slOf w))
  | 0x11 => .ok (.movh (slOf w))
  | 0x12 => .ok (.sel (subOf w) (srOf w))
  | 0x13 =>
    match (subOf w).toNat with
    | 0 => .ok (.setpEq (srOf w))
    | 1 => .ok (.setpNe (srOf w))
    | 2 => .ok (.setpLt (srOf w))
    | 3 => .ok (.setpLts (srOf w))
    | 4 => .ok (.setpLe (srOf w))
    | 5 => .ok (.setpLes (srOf w))
    | _ => .bad 29
  | 0x14 =>
    match (subOf w).toNat with
    | 0 => .ok (.pand (srOf w))
    | 1 => .ok (.por (srOf w))
    | 2 => .ok (.pxor (srOf w))
    | 3 => .ok (.pnot (srOf w))
    | _ => .bad 29
  | 0x18 => .ok (.setpiEq (siOf w))
  | 0x19 => .ok (.setpiNe (siOf w))
  | 0x1A => .ok (.setpiLt (siOf w))
  | 0x1B => .ok (.setpiLts (siOf w))
  | 0x1C => .ok (.setpiLe (siOf w))
  | 0x1D => .ok (.setpiLes (siOf w))
  | 0x20 => .ok (.bri (sbOf w))
  | 0x21 => .ok (.call (sbOf w))
  | 0x22 =>
    match (subOf w).toNat with
    | 0 => .ok (.br (srOf w))
    | 1 => .ok (.ret (srOf w))
    | _ => .bad 29
  | 0x23 => .ok (.loop (siOf w))
  | 0x24 => .ok (.chk (siOf w))
  | 0x25 => .ok .endTask
  | 0x28 => .ok (.ld .wb (subOf w) (srOf w))
  | 0x29 => .ok (.ld .ab (subOf w) (srOf w))
  | 0x2A => .ok (.ld .cb (subOf w) (srOf w))
  | 0x2B => .ok (.ld .sb (subOf w) (srOf w))
  | 0x2C => .ok (.ldsp .wb (subOf w) (srOf w))
  | 0x2D => .ok (.ldsp .ab (subOf w) (srOf w))
  | 0x2E => .ok (.ldsp .cb (subOf w) (srOf w))
  | 0x2F => .ok (.ldsp .sb (subOf w) (srOf w))
  | 0x30 => .ok (.st .wb (subOf w) (srOf w))
  | 0x31 => .ok (.st .ab (subOf w) (srOf w))
  | 0x32 => .ok (.st .cb (subOf w) (srOf w))
  | 0x33 => .ok (.st .sb (subOf w) (srOf w))
  | 0x34 => .ok (.xext (subOf w) (srOf w))
  | 0x35 =>
    match (subOf w).toNat with
    | 0 => .ok (.stg (srOf w))
    | _ => .bad 29
  | 0x36 =>
    match (subOf w).toNat with
    | 0 => .ok (.waitcTag (srOf w))
    | 1 => .ok (.waitcMask (srOf w))
    | 2 => .ok (.bar (srOf w))
    | 3 => .ok (.xfer (srOf w))
    | _ => .bad 29
  | 0x38 =>
    match (subOf w).toNat with
    | 0 => .ok (.atomAdd false (srOf w))
    | 1 => .ok (.atomAnd false (srOf w))
    | 2 => .ok (.atomOr false (srOf w))
    | 3 => .ok (.atomXor false (srOf w))
    | 4 => .ok (.atomMin false (srOf w))
    | 5 => .ok (.atomMax false (srOf w))
    | 6 => .ok (.atomMins false (srOf w))
    | _ => .ok (.atomMaxs false (srOf w))
  | 0x39 =>
    match (subOf w).toNat with
    | 0 => .ok (.atomAdd true (srOf w))
    | 1 => .ok (.atomAnd true (srOf w))
    | 2 => .ok (.atomOr true (srOf w))
    | 3 => .ok (.atomXor true (srOf w))
    | 4 => .ok (.atomMin true (srOf w))
    | 5 => .ok (.atomMax true (srOf w))
    | 6 => .ok (.atomMins true (srOf w))
    | _ => .ok (.atomMaxs true (srOf w))
  | 0x3A =>
    match (subOf w).toNat with
    | 0 => .ok (.atomXchg false (srOf w))
    | 1 => .ok (.atomCas false (srOf w))
    | 2 => .ok (.atomXchg true (srOf w))
    | 3 => .ok (.atomCas true (srOf w))
    | _ => .bad 29
  | 0x3B =>
    match (subOf w).toNat with
    | 0 => .ok (.rdsys (srOf w))
    | 1 => .ok (.wrsys (srOf w))
    | 2 => .ok (.trap (srOf w))
    | 3 => .ok .eret
    | 4 => .ok .duskdone
    | 5 => .ok (.fence (srOf w))
    | 6 => .ok (.sld (srOf w))
    | _ => .ok (.sst (srOf w))
  | _ => .bad 0

/-- Faults of a scalar slot in bits that the instruction does not keep: every bit but OP of `NOP` and
`END`, the fields of `ERET` and `DUSKDONE`, and bits [31:30] of the formats SL and SB (R116, R118, R276). -/
def scalarWordFaults (w : BitVec 32) : Instr → List Nat
  | .nop | .endTask => zeroField 6 (field w 6 6) ++ zeroField 12 (field w 12 6) ++ zeroField 18 (field w 18 6)
      ++ zeroField 24 (field w 24 3) ++ zeroField 27 (field w 27 1) ++ zeroField 28 (field w 28 1)
      ++ zeroField 29 (field w 29 3)
  | .eret | .duskdone => zeroField 6 (field w 6 6) ++ zeroField 12 (field w 12 6) ++ zeroField 18 (field w 18 6)
      ++ zeroField 24 (field w 24 3) ++ zeroField 27 (field w 27 1) ++ zeroField 28 (field w 28 1)
  | .movi _ | .movh _ | .bri _ | .call _ => zeroField 30 (field w 30 2)
  | _ => []

/-- The decoder of the scalar slot. -/
def decodeScalar (w : BitVec 32) : Dec :=
  match scalarName w with
  | .bad b => .bad b
  | .ok i => Dec.check i (scalarWordFaults w i ++ encodingFaults i)

/-! ### Vector slots -/

/-- The fields of a vector slot (R105, R119, R120). -/
def vopsOf (w : BitVec 48) : VOps where
  vd := field w 8 6
  va := field w 14 6
  vb := field w 20 6
  vc := field w 26 6
  mask := field w 32 3
  neg := bitOf w 35
  rnd := field w 36 3
  ty := field w 39 3
  nw := bitOf w 42
  fn := field w 43 5

/-- The instruction that a vector opcode and its fn value name (R120). -/
def vectorName (op : Nat) (c : Cluster) (o : VOps) : Option Instr :=
  match op with
  | 0x01 => some (.vadd c o)
  | 0x02 => some (.vsub c o)
  | 0x03 => some (.vmul c o)
  | 0x04 => some (.vmulh c o)
  | 0x05 => some (.vmad c o)
  | 0x06 => some (.vand c o)
  | 0x07 => some (.vor c o)
  | 0x08 => some (.vxor c o)
  | 0x09 => some (.vandn c o)
  | 0x0A => some (.vshl c o)
  | 0x0B => some (.vshr c o)
  | 0x0C => some (.vsar c o)
  | 0x0D => some (.vrot c o)
  | 0x0E => some (.vfshl c o)
  | 0x0F => some (.vfshr c o)
  | 0x10 => some (.vmin c o)
  | 0x11 => some (.vmax c o)
  | 0x12 => some (.vabs c o)
  | 0x13 => some (.vneg c o)
  | 0x14 => some (.vcmp c o)
  | 0x15 => some (.vsel c o)
  | 0x16 => some (.vclz c o)
  | 0x17 => some (.vpopc c o)
  | 0x18 => some (.vmovi c o)
  | 0x20 => some (.vfadd c o)
  | 0x21 => some (.vfsub c o)
  | 0x22 => some (.vfmul c o)
  | 0x23 => some (.vfma c o)
  | 0x24 => some (.vfnma c o)
  | 0x25 => some (.vfmin c o)
  | 0x26 => some (.vfmax c o)
  | 0x27 => some (.vcvt c o)
  | 0x28 => some (.vdot c o)
  | 0x29 => some (.vexp2 c o)
  | 0x2A => some (.vlog2 c o)
  | 0x2B => some (.vrcp c o)
  | 0x2C => some (.vrsq c o)
  | 0x2D => some (.vfdiv c o)
  | 0x2E => some (.vfsqrt c o)
  | 0x2F => some (if o.fn == 1 then .vtrimM c o else if o.fn == 2 then .vtrimXb c o else .vtrimX c o)
  | 0x30 => some (if o.fn == 1 then .vrndSeed c o else .vrnd c o)
  | 0x31 => some (if o.fn == 1 then .vsfckHil c o else .vsfckMor c o)
  | 0x40 => some (.vld c o)
  | 0x41 => some (.vst c o)
  | 0x42 => some (.vldu c o)
  | 0x43 => some (.vstb c o)
  | 0x44 => some (.vlds c o)
  | 0x45 => some (.vsts c o)
  | 0x46 => some (.vldx c o)
  | 0x47 => some (.vstx c o)
  | 0x48 => some (.xbc c o)
  | 0x49 => some (.xcopy c o)
  | 0x4A => some (.vperm c o)
  | 0x4B => some (.vslide c o)
  | 0x4C => some (.vred c o)
  | 0x4D => some (.vscan c o)
  | 0x4E => some (.spush c o)
  | 0x4F => some (.spop c o)
  | 0x50 => some (.sbal c o)
  | 0x51 => some (.scnt c o)
  | 0x52 => some (.twr c o)
  | 0x53 => some (.trdc c o)
  | 0x54 => some (.trdr c o)
  | 0x58 => some (.kand c o)
  | 0x59 => some (.kor c o)
  | 0x5A => some (.kxor c o)
  | 0x5B => some (.knot c o)
  | 0x5C => some (.kpopc c o)
  | 0x5D => some (.kfirst c o)
  | 0x5E => some (if o.fn == 1 then .kmovVk c o else if o.fn == 2 then .kmovKv c o else .kmov c o)
  | _ => none

/-- The decoder of a vector slot. -/
def decodeVector (c : Cluster) (w : BitVec 48) : Dec :=
  match vectorName (field w 0 8).toNat c (vopsOf w) with
  | none => .bad 0
  | some i => Dec.check i (encodingFaults i)

/-! ### Matrix slot -/

/-- The fields of a matrix slot (R123). -/
def mopsOf (w : BitVec 48) : MOps where
  shape := field w 0 3
  fa := field w 6 3
  fb := field w 9 3
  acc := field w 12 2
  set := field w 14 4
  tag := field w 18 6
  rnd := field w 24 3
  asrc := bitOf w 27
  base := field w 28 4

/-- The instruction that a matrix variant names (R122). -/
def matrixName (var : Nat) (o : MOps) : Option Instr :=
  match var with
  | 0 => some (.mm o)
  | 1 => some (.mmsN24 o)
  | 2 => some (.mmsN48 o)
  | 3 => some (.mmt o)
  | 4 => some (.azero o)
  | 5 => some (.ascl o)
  | 6 => some (.acvt o)
  | _ => none

/-- The decoder of the matrix slot; bits [47:32] must be zero (R123).  Variant 111 is a fault of the variant field, bits
[5:3] (R122). -/
def decodeMatrix (w : BitVec 48) : Dec :=
  match matrixName (field w 3 3).toNat (mopsOf w) with
  | none => .bad (if 4 < (field w 0 3).toNat then 0 else 3)
  | some i => Dec.check i (zeroField 32 (field w 32 16) ++ encodingFaults i)

/-! ### Copy slots -/

/-- The fields of a copy slot (R125). -/
def copsOf (w : BitVec 32) : COps where
  flags := field w 18 14
  pn := bitOf w 17
  p := field w 14 3
  tag := field w 8 6
  blk := field w 6 2

/-- The instruction that a copy opcode names (R125). -/
def copyName (op : Nat) (e : Engine) (o : COps) : Option Instr :=
  match op with
  | 0x01 => some (.cpy e o)
  | 0x02 => some (.cpym e o)
  | 0x03 => some (.gath e o)
  | 0x04 => some (.scat e o)
  | 0x05 => some (.fill e o)
  | 0x06 => some (.cmpr e o)
  | 0x07 => some (.scld e o)
  | 0x08 => some (.pref e o)
  | 0x09 => some (.cfence e o)
  | 0x0A => some (.coll e o)
  | 0x0B => some (.repart e o)
  | 0x10 => some (.walk e o)
  | 0x11 => some (.fsend e o)
  | 0x12 => some (.ffetch e o)
  | _ => none

/-- The decoder of a copy slot. -/
def decodeCopy (e : Engine) (w : BitVec 32) : Dec :=
  match copyName (field w 0 6).toNat e (copsOf w) with
  | none => .bad 0
  | some i => Dec.check i (encodingFaults i)

/-! ### The encoder -/

/-- A scalar slot with only its opcode and sub-code (R118, R276). -/
def packBare (op f : Nat) : BitVec 32 := (BitVec.ofNat 3 f) ++ (0 : BitVec 23) ++ (BitVec.ofNat 6 op)

/-- A scalar slot of format SR (R116). -/
def packSR (op : Nat) (f : BitVec 3) (o : SR) : BitVec 32 :=
  f ++ (ofBool 1 o.nw ++ (ofBool 1 o.pn ++ (o.p ++ (o.b ++ (o.a ++ (o.d ++ BitVec.ofNat 6 op))))))

/-- A scalar slot of format SI (R116). -/
def packSI (op : Nat) (o : SI) : BitVec 32 :=
  field o.imm9 6 3 ++ (ofBool 1 o.nw ++ (ofBool 1 o.pn ++ (o.p ++ (field o.imm9 0 6 ++ (o.a ++ (o.d ++
    BitVec.ofNat 6 op))))))

/-- A scalar slot of format SL (R116). -/
def packSL (op : Nat) (o : SL) : BitVec 32 := (0 : BitVec 2) ++ (o.imm18 ++ (o.d ++ BitVec.ofNat 6 op))

/-- A scalar slot of format SB (R116). -/
def packSB (op : Nat) (o : SB) : BitVec 32 :=
  (0 : BitVec 2) ++ (field o.off20 18 2 ++ (ofBool 1 o.pn ++ (o.p ++ (field o.off20 12 6 ++
    (field o.off20 6 6 ++ (field o.off20 0 6 ++ BitVec.ofNat 6 op))))))

/-- A vector slot (R105, R119, R120). -/
def packV (op : Nat) (o : VOps) : BitVec 48 :=
  o.fn ++ (ofBool 1 o.nw ++ (o.ty ++ (o.rnd ++ (ofBool 1 o.neg ++ (o.mask ++ (o.vc ++ (o.vb ++ (o.va ++ (o.vd ++
    BitVec.ofNat 8 op)))))))))

/-- A matrix slot (R122, R123). -/
def packM (var : Nat) (o : MOps) : BitVec 48 :=
  (0 : BitVec 16) ++ (o.base ++ (ofBool 1 o.asrc ++ (o.rnd ++ (o.tag ++ (o.set ++ (o.acc ++ (o.fb ++ (o.fa ++
    (BitVec.ofNat 3 var ++ o.shape)))))))))

/-- A copy slot (R125). -/
def packC (op : Nat) (o : COps) : BitVec 32 :=
  o.flags ++ (ofBool 1 o.pn ++ (o.p ++ (o.tag ++ (o.blk ++ BitVec.ofNat 6 op))))

/-- The scalar slot of an instruction (R118). -/
def encodeScalar : Instr → Option (BitVec 32)
  | .nop => some (packBare 0x00 0)
  | .endTask => some (packBare 0x25 0)
  | .eret => some (packBare 0x3B 3)
  | .duskdone => some (packBare 0x3B 4)
  | .add o => some (packSR 0x01 0 o)
  | .sub o => some (packSR 0x01 1 o)
  | .and o => some (packSR 0x01 2 o)
  | .or o => some (packSR 0x01 3 o)
  | .xor o => some (packSR 0x01 4 o)
  | .andn o => some (packSR 0x01 5 o)
  | .orn o => some (packSR 0x01 6 o)
  | .xnor o => some (packSR 0x01 7 o)
  | .shl o => some (packSR 0x02 0 o)
  | .shr o => some (packSR 0x02 1 o)
  | .sar o => some (packSR 0x02 2 o)
  | .rol o => some (packSR 0x02 3 o)
  | .ror o => some (packSR 0x02 4 o)
  | .mul o => some (packSR 0x03 0 o)
  | .mulh o => some (packSR 0x03 1 o)
  | .mulhs o => some (packSR 0x03 2 o)
  | .div o => some (packSR 0x03 3 o)
  | .divs o => some (packSR 0x03 4 o)
  | .rem o => some (packSR 0x03 5 o)
  | .rems o => some (packSR 0x03 6 o)
  | .min o => some (packSR 0x04 0 o)
  | .max o => some (packSR 0x04 1 o)
  | .mins o => some (packSR 0x04 2 o)
  | .maxs o => some (packSR 0x04 3 o)
  | .clz o => some (packSR 0x05 0 o)
  | .ctz o => some (packSR 0x05 1 o)
  | .popc o => some (packSR 0x05 2 o)
  | .brev o => some (packSR 0x05 3 o)
  | .sext o => some (packSR 0x05 4 o)
  | .zext o => some (packSR 0x05 5 o)
  | .fshl o => some (packSR 0x06 0 o)
  | .fshr o => some (packSR 0x06 1 o)
  | .setpEq o => some (packSR 0x13 0 o)
  | .setpNe o => some (packSR 0x13 1 o)
  | .setpLt o => some (packSR 0x13 2 o)
  | .setpLts o => some (packSR 0x13 3 o)
  | .setpLe o => some (packSR 0x13 4 o)
  | .setpLes o => some (packSR 0x13 5 o)
  | .pand o => some (packSR 0x14 0 o)
  | .por o => some (packSR 0x14 1 o)
  | .pxor o => some (packSR 0x14 2 o)
  | .pnot o => some (packSR 0x14 3 o)
  | .br o => some (packSR 0x22 0 o)
  | .ret o => some (packSR 0x22 1 o)
  | .stg o => some (packSR 0x35 0 o)
  | .waitcTag o => some (packSR 0x36 0 o)
  | .waitcMask o => some (packSR 0x36 1 o)
  | .bar o => some (packSR 0x36 2 o)
  | .xfer o => some (packSR 0x36 3 o)
  | .rdsys o => some (packSR 0x3B 0 o)
  | .wrsys o => some (packSR 0x3B 1 o)
  | .trap o => some (packSR 0x3B 2 o)
  | .fence o => some (packSR 0x3B 5 o)
  | .sld o => some (packSR 0x3B 6 o)
  | .sst o => some (packSR 0x3B 7 o)
  | .addi o => some (packSI 0x08 o)
  | .andi o => some (packSI 0x09 o)
  | .ori o => some (packSI 0x0A o)
  | .xori o => some (packSI 0x0B o)
  | .shli o => some (packSI 0x0C o)
  | .shri o => some (packSI 0x0D o)
  | .sari o => some (packSI 0x0E o)
  | .setpiEq o => some (packSI 0x18 o)
  | .setpiNe o => some (packSI 0x19 o)
  | .setpiLt o => some (packSI 0x1A o)
  | .setpiLts o => some (packSI 0x1B o)
  | .setpiLe o => some (packSI 0x1C o)
  | .setpiLes o => some (packSI 0x1D o)
  | .loop o => some (packSI 0x23 o)
  | .chk o => some (packSI 0x24 o)
  | .movi o => some (packSL 0x10 o)
  | .movh o => some (packSL 0x11 o)
  | .bri o => some (packSB 0x20 o)
  | .call o => some (packSB 0x21 o)
  | .addsh f o => some (packSR 0x07 f o)
  | .sel f o => some (packSR 0x12 f o)
  | .xext f o => some (packSR 0x34 f o)
  | .ld .wb f o => some (packSR 0x28 f o)
  | .ld .ab f o => some (packSR 0x29 f o)
  | .ld .cb f o => some (packSR 0x2A f o)
  | .ld .sb f o => some (packSR 0x2B f o)
  | .ldsp .wb f o => some (packSR 0x2C f o)
  | .ldsp .ab f o => some (packSR 0x2D f o)
  | .ldsp .cb f o => some (packSR 0x2E f o)
  | .ldsp .sb f o => some (packSR 0x2F f o)
  | .st .wb f o => some (packSR 0x30 f o)
  | .st .ab f o => some (packSR 0x31 f o)
  | .st .cb f o => some (packSR 0x32 f o)
  | .st .sb f o => some (packSR 0x33 f o)
  | .atomAdd false o => some (packSR 0x38 0 o)
  | .atomAnd false o => some (packSR 0x38 1 o)
  | .atomOr false o => some (packSR 0x38 2 o)
  | .atomXor false o => some (packSR 0x38 3 o)
  | .atomMin false o => some (packSR 0x38 4 o)
  | .atomMax false o => some (packSR 0x38 5 o)
  | .atomMins false o => some (packSR 0x38 6 o)
  | .atomMaxs false o => some (packSR 0x38 7 o)
  | .atomAdd true o => some (packSR 0x39 0 o)
  | .atomAnd true o => some (packSR 0x39 1 o)
  | .atomOr true o => some (packSR 0x39 2 o)
  | .atomXor true o => some (packSR 0x39 3 o)
  | .atomMin true o => some (packSR 0x39 4 o)
  | .atomMax true o => some (packSR 0x39 5 o)
  | .atomMins true o => some (packSR 0x39 6 o)
  | .atomMaxs true o => some (packSR 0x39 7 o)
  | .atomXchg false o => some (packSR 0x3A 0 o)
  | .atomCas false o => some (packSR 0x3A 1 o)
  | .atomXchg true o => some (packSR 0x3A 2 o)
  | .atomCas true o => some (packSR 0x3A 3 o)
  | _ => none

/-- The vector slot of an instruction (R120). -/
def encodeVector (i : Instr) : Option (BitVec 48) := (vectorOf i).map (fun t => packV t.1 t.2.2)

/-- The matrix slot of an instruction (R122). -/
def encodeMatrix (i : Instr) : Option (BitVec 48) := (matrixOf i).map (fun t => packM t.1 t.2)

/-- The copy slot of an instruction (R125). -/
def encodeCopy (i : Instr) : Option (BitVec 32) := (copyOf i).map (fun t => packC t.1 t.2.2)

/-- The slot word of an instruction: its width in bits and its value. -/
def encode (i : Instr) : Option (Nat × Nat) :=
  match encodeScalar i with
  | some w => some (32, w.toNat)
  | none =>
    match encodeVector i with
    | some w => some (48, w.toNat)
    | none =>
      match encodeMatrix i with
      | some w => some (48, w.toNat)
      | none => (encodeCopy i).map (fun w => (32, w.toNat))

/-! ### The bundle -/

/-- The header and the six slots of a bundle (R105). -/
structure Bundle where
  header : BitVec 16
  s : BitVec 32
  va : BitVec 48
  vb : BitVec 48
  m : BitVec 48
  c0 : BitVec 32
  c1 : BitVec 32
deriving DecidableEq, Repr

/-- The parts of a bundle (R105). -/
def bundleOf (w : BitVec 256) : Bundle where
  header := field w 0 16
  s := field w 16 32
  va := field w 48 48
  vb := field w 96 48
  m := field w 144 48
  c0 := field w 192 32
  c1 := field w 224 32

/-- The 256 bits of a bundle (R105). -/
def Bundle.word (b : Bundle) : BitVec 256 :=
  b.c1 ++ (b.c0 ++ (b.m ++ (b.vb ++ (b.va ++ (b.s ++ b.header)))))

/-- VALID bit of slot `k`, 0 S to 5 C1 (R105). -/
def Bundle.valid (b : Bundle) (k : Nat) : Bool := bitOf b.header k
/-- The restart mark bit (R105). -/
def Bundle.mark (b : Bundle) : Bool := bitOf b.header 6
/-- The debug break bit (R105). -/
def Bundle.brk (b : Bundle) : Bool := bitOf b.header 7

/-- The bundle bit number at which slot `k` begins (R105). -/
def slotBase (k : Nat) : Nat :=
  match k with
  | 0 => 16
  | 1 => 48
  | 2 => 96
  | 3 => 144
  | 4 => 192
  | _ => 224

/-- The decoder of slot `k` of a bundle. -/
def Bundle.decodeSlot (b : Bundle) (k : Nat) : Dec :=
  match k with
  | 0 => decodeScalar b.s
  | 1 => decodeVector .va b.va
  | 2 => decodeVector .vb b.vb
  | 3 => decodeMatrix b.m
  | 4 => decodeCopy .c0 b.c0
  | _ => decodeCopy .c1 b.c1

/-- The bits of slot `k` of a bundle as a number. -/
def Bundle.slotBits (b : Bundle) (k : Nat) : Nat :=
  match k with
  | 0 => b.s.toNat
  | 1 => b.va.toNat
  | 2 => b.vb.toNat
  | 3 => b.m.toNat
  | 4 => b.c0.toNat
  | _ => b.c1.toNat

/-- The bundle that holds nothing but one word of a row of the opcode table: in the S slot where the scalar
decoder takes it, else in C0; 48-bit words go to VA where the vector decoder takes them, else to M. -/
def bundleOfWord (nbits w : Nat) : Bundle :=
  let e : Bundle := { header := 0, s := 0, va := 0, vb := 0, m := 0, c0 := 0, c1 := 0 }
  if nbits ≤ 32 then
    match decodeScalar (BitVec.ofNat 32 w) with
    | .ok _ => { e with header := 1, s := BitVec.ofNat 32 w }
    | .bad _ => { e with header := 16, c0 := BitVec.ofNat 32 w }
  else
    match decodeVector .va (BitVec.ofNat 48 w) with
    | .ok _ => { e with header := 2, va := BitVec.ofNat 48 w }
    | .bad _ => { e with header := 8, m := BitVec.ofNat 48 w }

/-- The one instruction of a bundle that holds one: the lowest slot whose VALID bit is set. -/
def Bundle.single (b : Bundle) : Option Instr :=
  match (List.range 6).find? b.valid with
  | none => none
  | some k =>
    match b.decodeSlot k with
    | .ok i => some i
    | .bad _ => none

/-- The instruction that the decoder reads from a slot word whose bits are `w`. -/
def decodeTableWord (nbits w : Nat) : Option Instr := (bundleOf (bundleOfWord nbits w).word).single

end Sys2Proof
end

