-- ==== Sys2Proof/Machine/Operands.lean ====
section
/-!
DEFINITION. Operand forms: what each register field of a slot names, how it is read, whether its code is
permitted (check 6 of R111), and how a result is issued.
-/
namespace Sys2Proof.Machine

/-! ### Slots -/

/-- The number of the slot an instruction stands in: 0 S, 1 VA, 2 VB, 3 M, 4 C0, 5 C1 (R112). -/
def slotOf (i : Instr) : Nat :=
  match vectorOf i with
  | some (_, .va, _) => 1
  | some (_, .vb, _) => 2
  | none =>
    match matrixOf i with
    | some _ => 3
    | none =>
      match copyOf i with
      | some (_, .c0, _) => 4
      | some (_, .c1, _) => 5
      | none => 0

/-- TRAPVAL for a field at slot bit `bit` of slot `k`, as the bit of the bundle that R112 asks for. -/
def fieldVal (k bit : Nat) : Word := BitVec.ofNat 64 ((slotBase k + bit) * 256 + k)

/-- TRAPVAL for header bit `bit` (R112). -/
def headerVal (bit : Nat) : Word := BitVec.ofNat 64 (bit * 256 + 7)

/-! ### Scalar operands -/

/-- A scalar source operand (R113): a register, a latch or zero. -/
def Unit.sreg (x : Unit) (c : BitVec 6) : SVal :=
  let n := c.toNat
  if n < 56 then tget {} x.regs.s n else if n < 60 then x.sl.getD (n - 56) {} else {}

/-- A predicate and its D bit; p0 reads 1 (R129, R146). -/
def Unit.preg (x : Unit) (i : Nat) : Bool × Bool :=
  if i = 0 then (true, false) else (bitOf x.regs.p i, bitOf x.regs.pd i)

/-- What a field of a scalar slot names (R113, R115, R128). -/
inductive Role
  | dst | src | rmw | pdst | psrc | vec (pair : Bool) | size | staging
deriving DecidableEq, Repr

/-- A field of a scalar slot: its slot bit number, its code and what it names. -/
structure SField where
  bit : Nat
  code : BitVec 6
  role : Role
deriving DecidableEq, Repr

def fD (r : Role) (o : SR) : SField := { bit := 6, code := o.d, role := r }
def fA (r : Role) (o : SR) : SField := { bit := 12, code := o.a, role := r }
def fB (r : Role) (o : SR) : SField := { bit := 18, code := o.b, role := r }
def iD (r : Role) (o : SI) : SField := { bit := 6, code := o.d, role := r }
def iA (r : Role) (o : SI) : SField := { bit := 12, code := o.a, role := r }

/-- The operand fields of each scalar instruction (R118, R128). -/
def scalarFields : Instr → List SField
  | .add o | .sub o | .and o | .or o | .xor o | .andn o | .orn o | .xnor o
  | .shl o | .shr o | .sar o | .rol o | .ror o
  | .mul o | .mulh o | .mulhs o | .div o | .divs o | .rem o | .rems o
  | .min o | .max o | .mins o | .maxs o | .addsh _ o | .sel _ o => [fD .dst o, fA .src o, fB .src o]
  | .clz o | .ctz o | .popc o | .brev o => [fD .dst o, fA .src o]
  | .sext o | .zext o => [fD .dst o, fA .src o, fB .size o]
  | .fshl o | .fshr o => [fD .rmw o, fA .src o]
  | .addi o | .andi o | .ori o | .xori o | .shli o | .shri o | .sari o => [iD .dst o, iA .src o]
  | .movi o => [{ bit := 6, code := o.d, role := .dst }]
  | .movh o => [{ bit := 6, code := o.d, role := .rmw }]
  | .setpEq o | .setpNe o | .setpLt o | .setpLts o | .setpLe o | .setpLes o => [fD .pdst o, fA .src o, fB .src o]
  | .pand o | .por o | .pxor o => [fD .pdst o, fA .psrc o, fB .psrc o]
  | .pnot o => [fD .pdst o, fA .psrc o]
  | .setpiEq o | .setpiNe o | .setpiLt o | .setpiLts o | .setpiLe o | .setpiLes o => [iD .pdst o, iA .src o]
  | .br o | .ret o => [fA .src o]
  | .loop o | .chk o => [iA .src o]
  | .ld _ _ o | .ldsp _ _ o => [fD .dst o, fA .src o]
  | .st _ _ o => [fD .src o, fA .src o]
  | .xext f o => [fD .dst o, fA (.vec (field f 1 2 == 2)) o]
  | .stg o => [fD .staging o, fA .src o]
  | .waitcMask o => [fA .src o]
  | .xfer o => [fA .src o, fB .src o]
  | .atomAdd _ o | .atomAnd _ o | .atomOr _ o | .atomXor _ o | .atomMin _ o | .atomMax _ o
  | .atomMins _ o | .atomMaxs _ o | .atomXchg _ o => [fD .dst o, fA .src o, fB .src o]
  | .atomCas _ o => [fD .rmw o, fA .src o, fB .src o]
  | .rdsys o => [fD .dst o]
  | .wrsys o => [fA .src o]
  | .sld o => [fD .dst o, fA .src o]
  | .sst o => [fA .src o, fB .src o]
  | _ => []

/-- Whether a code is permitted in its role (R113, R114, R115, R118, R140, R159). -/
def Role.permits (r : Role) (c : BitVec 6) : Bool :=
  let n := c.toNat
  match r with
  | .dst | .rmw => n < 56
  | .src => n < 61
  | .pdst | .psrc => n < 8
  | .vec p => n == 36 || (n < 32 && (!p || n % 2 == 0))
  | .size => n < 3
  | .staging => n < 16 || 32 ≤ n

/-- The predicate field of an instruction that has one, and PN: formats SR, SI and SB, and the copy slots
(R116, R125, R129). -/
def predOf : Instr → Option (BitVec 3 × Bool)
  | .add o | .sub o | .and o | .or o | .xor o | .andn o | .orn o | .xnor o
  | .shl o | .shr o | .sar o | .rol o | .ror o
  | .mul o | .mulh o | .mulhs o | .div o | .divs o | .rem o | .rems o
  | .min o | .max o | .mins o | .maxs o | .addsh _ o | .sel _ o
  | .clz o | .ctz o | .popc o | .brev o | .sext o | .zext o | .fshl o | .fshr o
  | .setpEq o | .setpNe o | .setpLt o | .setpLts o | .setpLe o | .setpLes o
  | .pand o | .por o | .pxor o | .pnot o | .br o | .ret o
  | .ld _ _ o | .ldsp _ _ o | .st _ _ o | .xext _ o | .stg o
  | .waitcTag o | .waitcMask o | .bar o | .xfer o
  | .atomAdd _ o | .atomAnd _ o | .atomOr _ o | .atomXor _ o | .atomMin _ o | .atomMax _ o
  | .atomMins _ o | .atomMaxs _ o | .atomXchg _ o | .atomCas _ o
  | .rdsys o | .wrsys o | .trap o | .fence o | .sld o | .sst o => some (o.p, o.pn)
  | .addi o | .andi o | .ori o | .xori o | .shli o | .shri o | .sari o
  | .setpiEq o | .setpiNe o | .setpiLt o | .setpiLts o | .setpiLe o | .setpiLes o
  | .loop o | .chk o => some (o.p, o.pn)
  | .bri o | .call o => some (o.p, o.pn)
  | i => (copyOf i).map (fun t => (t.2.2.p, t.2.2.pn))

/-- Whether a slot executes: its predicate XOR PN is 1; a slot without a predicate always does (R129). -/
def Unit.executes (x : Unit) (i : Instr) : Bool :=
  match predOf i with
  | none => true
  | some (p, pn) => (x.preg p.toNat).1 != pn

/-- Whether the predicate of a slot carries D (R131, R246). -/
def Unit.predMarked (x : Unit) (i : Instr) : Bool :=
  match predOf i with
  | none => false
  | some (p, _) => (x.preg p.toNat).2

/-- The slot bit number of the predicate field (R116, R125). -/
def predBit (i : Instr) : Nat := if (copyOf i).isSome then 14 else 24

/-- sext(IMM9, 64) (R116). -/
def immOf (o : SI) : Word := o.imm9.signExtend 64

/-! ### System registers -/

/-- The die-control system registers that chapters 21 and 22 assign, for service mode (R274, R453, R464):
whether each is readable and writable. -/
def dieControl (n : Nat) : Option (Bool × Bool) :=
  match n with
  | 0x800 => some (true, false)
  | 0x801 => some (false, true)
  | 0x802 => some (true, false)
  | 0x803 => some (false, true)
  | 0x804 => some (true, false)
  | 0x805 => some (true, false)
  | 0x810 => some (true, false)
  | 0x811 => some (true, false)
  | _ => none

/-- Whether a mode may read (or write) a system register; `none` where the number names no register
(R274). -/
def sysAccess (m : Mode) (wr : Bool) (n : Nat) : Option Bool :=
  if n < 0x00F then
    match m with
    | .task =>
      if wr then some (n == 0) else some (!(5 ≤ n && n ≤ 8))
    | _ => if wr then some (n == 0 || n == 6 || (8 ≤ n && n ≤ 0xC)) else some true
  else if n < 0x800 then none
  else if m = .service then (dieControl n).map (fun a => if wr then a.2 else a.1)
  else some false

/-- The 12-bit register number of `RDSYS` and `TRAP`: {B, A} (R276). -/
def numBA (o : SR) : Nat := (o.b ++ o.a : BitVec 12).toNat
/-- The 12-bit register number of `WRSYS`: {B, D} (R276). -/
def numBD (o : SR) : Nat := (o.b ++ o.d : BitVec 12).toNat

/-! ### Check 5: privilege -/

/-- The slot bit numbers of the fields for which a mode refuses an instruction (R42, R163, R274, R276); for an instruction
that the mode refuses whatever its fields hold, OP, bit 0 (DESIGN CHOICE, log entry 82). -/
def privilegeFaults (m : Mode) : Instr → List Nat
  | .eret => need 0 (m != .task)
  | .duskdone => need 0 (m == .handler)
  | .trap _ => need 0 (m != .handler)
  | .sld _ | .sst _ => need 0 (m == .service)
  | .xfer _ => need 0 (m != .service)
  | .rdsys o => need 12 (sysAccess m false (numBA o) != some false)
  | .wrsys o => need 6 (sysAccess m true (numBD o) != some false)
  | _ => []

/-! ### Check 6: operand codes and immediate limits -/

/-- Scalar-slot faults of check 6 (R113, R118, R134, R150, R153, R274). -/
def scalarOperandFaults (i : Instr) : List Nat :=
  ((scalarFields i).filter (fun f => !f.role.permits f.code)).map (·.bit) ++
  (match i with
    | .shli o | .shri o | .sari o => need 18 (decide (o.imm9.toNat < 64))
    | .loop o => need 18 (decide (1 ≤ o.imm9.toNat) && decide (o.imm9.toNat < 256))
    | .chk o => need 18 (o.imm9 != 0)
    | .rdsys o => need 12 (numBA o < 0x00F || (0x800 ≤ numBA o && (dieControl (numBA o)).isSome))
    | .wrsys o => need 6 (numBD o < 0x00F || (0x800 ≤ numBD o && (dieControl (numBD o)).isSome))
    | _ => [])

/-- A code is permitted for what a vector field holds (R114, R115, R190, R206, R207, R210). -/
def vusePermits (u : VUse) (c : BitVec 6) : Bool :=
  let n := c.toNat
  match u with
  | .zero | .imm => true
  | .dst p => n < 32 && (!p || n % 2 == 0)
  | .src p => n == 36 || (if p then n < 32 && n % 2 == 0 else n < 36)
  | .mask => n < 8
  | .scalar => n < 56 || n == 60
  | .cross p => n == 36 || (n < 32 && (!p || n % 2 == 0))
  | .group => n < 7
  | .vz => n == 36

/-- Vector-slot faults of check 6. -/
def vectorOperandFaults (f : VForm) (o : VOps) : List Nat :=
  need 8 (vusePermits f.d o.vd) ++ need 14 (vusePermits f.a o.va) ++ need 20 (vusePermits f.b o.vb) ++
    need 26 (vusePermits f.c o.vc) ++ need 43 f.amtOk

/-- M of a shape code (R122). -/
def shapeM (s : BitVec 3) : Nat :=
  match s.toNat with
  | 0 => 32
  | 1 => 32
  | 2 => 64
  | 3 => 64
  | _ => 128

/-- N of a shape code (R122). -/
def shapeN (s : BitVec 3) : Nat :=
  match s.toNat with
  | 0 => 32
  | 1 => 64
  | 2 => 64
  | 3 => 128
  | _ => 128

/-- Width in bits of an element of a matrix format code (R124). -/
def matrixWidth (f : BitVec 3) : Nat :=
  match f.toNat with
  | 0 => 8
  | 1 => 8
  | 2 => 4
  | 3 => 16
  | 4 => 16
  | _ => 8

/-- K, the elements of a 256-byte row (R64). -/
def matrixK (f : BitVec 3) : Nat := 2048 / matrixWidth f

/-- How many staging registers a matrix command reads (R221). -/
def stagingCount (var : Nat) (acc : BitVec 2) : Nat :=
  match var with
  | 4 => 1
  | 5 => 2
  | 6 => 2
  | _ => (if var = 1 ∨ var = 2 then 4 else 3) + (if acc = 2 then 1 else 0)

/-- `a / b` rounded up. -/
def ceilDiv (a b : Nat) : Nat := (a + b - 1) / b

/-- Scale registers of the A range (R226). -/
def scaleRegsA (o : MOps) : Nat := ceilDiv (shapeM o.shape * (matrixK o.fa / 32)) 512
/-- Scale registers of the B range (R226). -/
def scaleRegsB (o : MOps) : Nat := ceilDiv (shapeN o.shape * (matrixK o.fb / 32)) 512

/-- How many scale registers a matrix command names from its base (R226, R236). -/
def scaleCount (var : Nat) (o : MOps) : Nat :=
  if var ≤ 3 then (if matrixScaled o.fa then scaleRegsA o + scaleRegsB o else 0)
  else if var = 6 ∧ o.fb = 2 then ceilDiv (shapeM o.shape * (shapeN o.shape / 32)) 512
  else 0

/-- Matrix-slot faults of check 6 (R123, R226, R236). -/
def matrixOperandFaults (var : Nat) (o : MOps) : List Nat :=
  need 14 (decide (o.set.toNat + stagingCount var o.acc ≤ 16)) ++
    need 28 (decide (o.base.toNat + scaleCount var o ≤ 16))

/-- Copy-slot faults of check 6: binding 3 (R125). -/
def copyOperandFaults (op : Nat) (o : COps) : List Nat :=
  if op = 0x0A ∨ op = 0x0B then need 18 (field o.flags 0 2 != 3) else []

/-- The faults of check 6 of R111. -/
def operandFaults (i : Instr) : List Nat :=
  match vectorOf i with
  | some (op, _, o) =>
    (match vform op o with
      | some f => vectorOperandFaults f o
      | none => [])
  | none =>
    match matrixOf i with
    | some (v, o) => matrixOperandFaults v o
    | none =>
      match copyOf i with
      | some (op, _, o) => copyOperandFaults op o
      | none => scalarOperandFaults i

/-! ### Check 3: service profile -/

/-- The slot bit number of a field that the profile of the unit's kind forbids (R43, R112, R160). -/
def profileFaults (k : Kind) : Instr → List Nat
  | .xext _ _ => need 0 (k == .tile)
  | .bar _ => need 0 (k == .tile)
  | .cpym _ _ => need 0 (k == .tile)
  | .scld _ _ => need 0 (k == .tile)
  | .stg o => need 6 (k == .tile || decide (16 ≤ o.d.toNat))
  | .walk _ _ => need 0 (k == .comm)
  | .fsend _ _ => need 0 (k == .comm)
  | .ffetch _ _ => need 0 (k == .comm)
  | _ => []

/-! ### Vector operands -/

/-- The group of latches of a vector cluster. -/
def groupOf : Cluster → Group
  | .va => .va
  | .vb => .vb

/-- The other vector cluster (R207). -/
def otherCluster : Cluster → Cluster
  | .va => .vb
  | .vb => .va

/-- A vector register of a cluster. -/
def Regs.vreg (g : Regs) : Cluster → Nat → VVal
  | .va, i => tget {} g.va i
  | .vb, i => tget {} g.vb i

/-- A mask register of a cluster; ka0 and kb0 read all ones (R120, R198). -/
def Regs.mask (g : Regs) (c : Cluster) (i : Nat) : KVal :=
  if i = 0 then { v := BitVec.allOnes 64 }
  else match c with
    | .va => tget {} g.ka i
    | .vb => tget {} g.kb i

/-- A vector source: one register, latch or zero, or an even-odd pair, with its D bit. -/
structure VSrc where
  lo : VReg := 0
  hi : VReg := 0
  d : Bool := false
deriving DecidableEq, Repr

/-- A vector source operand of a cluster (R114). -/
def Unit.vsrc (x : Unit) (c : Cluster) (code : BitVec 6) : VSrc :=
  let n := code.toNat
  let v : VVal :=
    if n < 32 then x.regs.vreg c n
    else if n < 36 then (match c with | .va => x.la.getD (n - 32) {} | .vb => x.lb.getD (n - 32) {})
    else {}
  { lo := v.v, d := v.d }

/-- A pair source operand (R50, R115). -/
def Unit.vpair (x : Unit) (c : Cluster) (code : BitVec 6) : VSrc :=
  let n := code.toNat
  if n < 32 then
    let e := x.regs.vreg c n
    let o := x.regs.vreg c (n + 1)
    { lo := e.v, hi := o.v, d := e.d || o.d }
  else {}

/-- A vector source operand, a pair where the type says so (R167). -/
def Unit.vop (x : Unit) (c : Cluster) (pair : Bool) (code : BitVec 6) : VSrc :=
  if pair then x.vpair c code else x.vsrc c code

/-- Lane `l` of a vector register. -/
def laneAt (v : VReg) (l : Nat) : Nat := v.toNat / 2 ^ (32 * l) % 2 ^ 32

/-- Element `k` of lane `l`, of `w` bits; for 64 bits the lane of the pair (R50, R167). -/
def VSrc.el (s : VSrc) (w l k : Nat) : Nat :=
  if w = 64 then laneAt s.lo l + 2 ^ 32 * laneAt s.hi l
  else laneAt s.lo l / 2 ^ (w * k) % 2 ^ w

/-- Elements of width `w` in a lane (R167). -/
def perLane (w : Nat) : Nat := if w = 64 then 1 else 32 / w

/-- A vector register from its lanes. -/
def joinLanes (ls : List Nat) : VReg := BitVec.ofNat 2048 (ls.foldr (fun x acc => x % 2 ^ 32 + 2 ^ 32 * acc) 0)

/-- The lanes numbered 0 to 63. -/
def lanes : List Nat := List.range 64

/-- The governing mask of a vector instruction and its D bit (R168). -/
def Unit.gov (x : Unit) (c : Cluster) (o : VOps) : Mask × Bool :=
  let k := x.regs.mask c o.mask.toNat
  (if o.neg then ~~~ k.v else k.v, k.d)

/-- A lane value built from elements of width `w`, element 0 lowest. -/
def joinElems (w : Nat) (es : List Nat) : Nat := es.foldr (fun x acc => x % 2 ^ w + 2 ^ w * acc) 0

/-- A value of 2,048 lanes' bits for each register of a result from lane values of up to 64 bits. -/
def lanesLo (ls : List Nat) : VReg := joinLanes ls
/-- The odd register of a pair result (R50). -/
def lanesHi (ls : List Nat) : VReg := joinLanes (ls.map (· / 2 ^ 32))

/-- Element results and flags over the governed lanes: `f l k` gives element `k` of lane `l`, of width `w`. -/
def mapElems (gov : Mask) (w : Nat) (f : Nat → Nat → Nat) : List Nat :=
  lanes.map (fun l => if bitOf gov l then joinElems w ((List.range (perLane w)).map (f l)) else 0)

/-- As `mapElems`, with the OR of the flags (R58). -/
def mapFloat (gov : Mask) (w : Nat) (f : Nat → Nat → FRes) : List Nat × Flags :=
  let rs := lanes.map (fun l =>
    if bitOf gov l then (List.range (perLane w)).map (f l) else [])
  (rs.map (fun es => joinElems w (es.map (·.code))),
   rs.foldl (fun (fl : Flags) es => es.foldl (fun (fl : Flags) r => fl ||| r.fl) fl) (0 : Flags))

/-! ### Issuing results -/

/-- The FCSR trap enables captured at issue (R61, R63). -/
def Unit.enables (x : Unit) : BitVec 5 := field x.regs.fcsr 16 5

/-- A scalar result issued with its latency (R130, R132). -/
def State.deliverS (s : State) (nw : Bool) (dest : Dest) (lat : Nat) (v : SVal) : State :=
  let pc := s.src.pc
  s.modCur (fun x => x.issueResult
    { dest := dest, group := some .s, nw := nw, lo := v.v.setWidth 2048, hi := 0, gov := BitVec.allOnes 64,
      d := v.d, flags := 0, en := 0, k := lat, pc := pc })

/-- A vector result issued with its latency (R169, R171, R197). -/
def State.deliverV (s : State) (c : Cluster) (nw : Bool) (dest : Dest) (gov : Mask) (lat : Nat) (ls : List Nat)
    (d : Bool) (fl : Flags) : State :=
  let pc := s.src.pc
  let en := s.src.enables
  s.modCur (fun x => x.issueResult
    { dest := dest, group := some (groupOf c), nw := nw, lo := lanesLo ls, hi := lanesHi ls, gov := gov,
      d := d, flags := fl, en := en, k := lat, pc := pc })

/-- A mask result issued with its latency (R176, R198). -/
def State.deliverK (s : State) (c : Cluster) (nw : Bool) (k : Nat) (gov : Mask) (lat : Nat) (m : Mask) (d : Bool) :
    State :=
  let pc := s.src.pc
  s.modCur (fun x => x.issueResult
    { dest := .mask c k, group := some (groupOf c), nw := nw, lo := m.setWidth 2048, hi := 0, gov := gov,
      d := d, flags := 0, en := 0, k := lat, pc := pc })

end Sys2Proof.Machine
end

