-- ==== Sys2Proof/Machine/MatrixOps.lean ====
section
/-!
DEFINITION. The matrix engine's operations: staging descriptors and the offsets of rows (R221 to R224), the
issue checks of R228, scales and sparse metadata (R226, R227), group sums (R65 to R67, R69, R321), and what
each command leaves in the buffers (R229 to R236).
-/
namespace Sys2Proof.Machine

/-! ### Descriptors -/

/-- What a staging register of a matrix command describes (R221, R222). -/
inductive DKind
  | rows (isrc : Bool)     -- a buffer descriptor; `isrc` for an ACVT destination
  | acc                    -- a C descriptor
  | factor
  | gamma
  | tileReg
deriving DecidableEq, Repr

/-- A staging register that a matrix command reads: its number, its kind, the buffer it addresses, how many
rows of how many bytes it describes, and the word in it. -/
structure MOperand where
  mg : Nat
  kind : DKind
  buf : Buf
  rows : Nat
  len : Nat
  w : Word
deriving DecidableEq, Repr

/-- BASE, TPITCH, RPITCH, ROT, ISRC of a descriptor (R222). -/
def dBase (w : Word) : Nat := (field w 0 20).toNat
def dRpitch (w : Word) : Nat := (field w 20 12).toNat
def dTpitch (w : Word) : Nat := (field w 32 16).toNat
def dRot (w : Word) : Nat := (field w 48 3).toNat
def dIsrc (w : Word) : Bool := bitOf w 52

/-- Row length in bytes of each operand of a command (R223). -/
def lenA (var : Nat) : Nat := if var = 1 ∨ var = 2 then 128 else 256
def lenB (var : Nat) (o : MOps) : Nat := if var = 3 then shapeN o.shape * matrixWidth o.fb / 8 else 256
def rowsB (var : Nat) (o : MOps) : Nat := if var = 3 then matrixK o.fb else shapeN o.shape
def lenMeta (o : MOps) : Nat := matrixK o.fa / 4
def lenDest (o : MOps) : Nat := shapeN o.shape * matrixWidth o.fb / 8

/-- The staging registers a command reads, with what each describes, in the order of R221. `stg` is the
snapshot from mg s on. -/
def matrixOperands (var : Nat) (o : MOps) (stg : List Word) : List MOperand :=
  let s := o.set.toNat
  let m := shapeM o.shape
  let n := shapeN o.shape
  let w (i : Nat) : Word := stg.getD i 0
  let c (i : Nat) : MOperand := { mg := s + i, kind := .acc, buf := .cb, rows := m, len := 4 * n, w := w i }
  match var with
  | 4 => [c 0]
  | 5 => [c 0, { mg := s + 1, kind := .factor, buf := .cb, rows := 1, len := 4 * m, w := w 1 }]
  | 6 => [c 0, { mg := s + 1, kind := .rows true, buf := .ab, rows := m, len := lenDest o, w := w 1 }]
  | _ =>
    let a : MOperand :=
      if o.asrc then { mg := s, kind := .tileReg, buf := .ab, rows := 0, len := 0, w := w 0 }
      else { mg := s, kind := .rows false, buf := .ab, rows := m, len := lenA var, w := w 0 }
    let b : MOperand := { mg := s + 1, kind := .rows false, buf := .wb, rows := rowsB var o, len := lenB var o, w := w 1 }
    let sparse := var == 1 || var == 2
    let md : List MOperand :=
      if sparse then [{ mg := s + 3, kind := .rows false, buf := .ab, rows := m, len := lenMeta o, w := w 3 }] else []
    let gi := if sparse then 4 else 3
    let g : List MOperand :=
      if o.acc = 2 then [{ mg := s + gi, kind := .gamma, buf := .cb, rows := 0, len := 0, w := w gi }] else []
    [a, b, c 2] ++ md ++ g

/-- The offset at which row `r` of an operand begins (R223). -/
def rowBase (d : MOperand) (r : Nat) : Nat :=
  match d.kind with
  | .acc => dBase d.w + 16 * (r * dRpitch d.w)
  | .factor => dBase d.w
  | _ => dBase d.w + 16 * (r / 32 * dTpitch d.w + r % 32 * dRpitch d.w)

/-- The offset of logical byte `b` of row `r` (R223). -/
def rowByte (d : MOperand) (r b : Nat) : Nat :=
  match d.kind with
  | .rows _ => rowBase d r + 16 * ((b / 16 + dRot d.w * r) % (d.len / 16)) + b % 16
  | _ => rowBase d r + b

/-- The bits that R222 requires to be zero in a staging register. -/
def zeroBits (k : DKind) : Word :=
  match k with
  | .rows true => 0xFFE8000000000000
  | .rows false => 0xFFF8000000000000
  | .acc => 0xFFFFFFFF00000000
  | .factor => 0xFFFFFFFFFFF00000
  | .gamma => 0xFFFFFFFF00000000
  | .tileReg => 0xFFFFFFFFFFFFFFFC

/-- The bit numbers of the one bits of a word. -/
def oneBits (w : Word) : List Nat := (List.range 64).filter (fun i => bitOf w i)

/-- The offending bits of condition 1 of R228. -/
def layoutFaults (o : MOps) (d : MOperand) : List Nat :=
  oneBits (d.w &&& zeroBits d.kind) ++
  (match d.kind with
    | .acc => need 20 (decide (d.len / 16 ≤ dRpitch d.w))
    | .rows true => need 20 (decide (d.len / 16 ≤ dRpitch d.w))
    | .tileReg => need 0 (!(shapeM o.shape == 128 && bitOf d.w 0))
    | _ => [])

/-- TRAPVAL of a staging fault (R228). -/
def stagingVal (mg bit : Nat) : Word := BitVec.ofNat 64 (bit * 256 + mg * 16 + 8 + 3)

/-- A descriptor that addresses a buffer. -/
def MOperand.addresses (d : MOperand) : Bool :=
  match d.kind with
  | .gamma => false
  | .tileReg => false
  | _ => true

/-- The lowest byte of an operand at or beyond its buffer (R228, condition 3). -/
def beyondBuffer (u : Nat) (d : MOperand) : Option Nat :=
  let size := bufSize u d.buf
  let bad := ((List.range d.rows).map (rowBase d)).filter (fun a => decide (size < a + d.len))
  match bad with
  | [] => none
  | a :: as => some (as.foldl (fun b x => min b (max x size)) (max a size))

/-- The ownership unit of a buffer offset, 0 to 31: WB 0–15, AB 16–25, CB 26–29, SB 30–31 (R75, R86). -/
def ownIndex (b : Buf) (a : Nat) : Nat :=
  (match b with | .wb => 0 | .ab => 16 | .cb => 26 | .sb => 30) + a / 65536

/-- The tile owns the 64 KiB unit that holds an offset (R86). A sequencer's store has no unit states. -/
def Unit.owns (u : Nat) (x : Unit) (b : Buf) (a : Nat) : Bool :=
  if isTile u then
    match tget (.owned x.member) x.own (ownIndex b a) with
    | .owned m => m == x.member
    | .transfer _ _ => false
  else true

/-- The first touched byte of the lowest unit of a list of ranges (offset, length) that the tile does not
own. -/
def Unit.unowned (u : Nat) (x : Unit) (b : Buf) (rs : List (Nat × Nat)) : Option Nat :=
  let cand := rs.flatMap (fun r =>
    if r.2 = 0 then []
    else (List.range ((r.1 + r.2 - 1) / 65536 + 1 - r.1 / 65536)).map (fun i =>
      if i = 0 then r.1 else 65536 * (r.1 / 65536 + i)))
  match cand.filter (fun a => !(x.owns u b a)) with
  | [] => none
  | a :: as => some (as.foldl min a)

/-- The rows of an operand as ranges. -/
def MOperand.ranges (d : MOperand) : List (Nat × Nat) := (List.range d.rows).map (fun r => (rowBase d r, d.len))

/-- The first of a list of options that is set. -/
def firstSome {α β : Type} (f : α → Option β) : List α → Option β
  | [] => none
  | a :: as =>
    match f a with
    | some b => some b
    | none => firstSome f as

/-- Check 7 of a matrix command on its staging snapshot, condition by condition (R228). -/
def matrixTrap (u : Nat) (x : Unit) (var : Nat) (o : MOps) (stg : List Word) : Option (Cause × Word) :=
  let ds := matrixOperands var o stg
  let c1 := firstSome (fun (d : MOperand) =>
    match layoutFaults o d with
    | [] => none
    | b :: bs => some (Cause.illegalOperand, stagingVal d.mg (leastOf 0 (b :: bs)))) ds
  let adr := ds.filter MOperand.addresses
  let c2 := firstSome (fun (d : MOperand) =>
    if dBase d.w % 16 = 0 then none else some (Cause.misalign, BitVec.ofNat 64 (dBase d.w))) adr
  let c3 := firstSome (fun d => (beyondBuffer u d).map (fun a => (Cause.localBounds, BitVec.ofNat 64 a))) adr
  let c4 := firstSome (fun (d : MOperand) =>
    (x.unowned u d.buf d.ranges).map (fun a => (Cause.ownership, BitVec.ofNat 64 a))) adr
  match c1 with
  | some t => some t
  | none =>
    match c2 with
    | some t => some t
    | none =>
      match c3 with
      | some t => some t
      | none => c4

/-! ### Element values -/

/-- The format of a floating matrix format code (R124). -/
def matrixFmt (f : BitVec 3) : Fmt :=
  match f.toNat with
  | 0 => .e4m3
  | 1 => .e5m2
  | 2 => .fp4x
  | 3 => .bf16
  | _ => .f16

/-- The memory an operand is read from. -/
def MRecord.buf (r : MRecord) : Buf → Memory
  | .wb => r.wb
  | .ab => r.ab
  | .cb => r.cb
  | .sb => []

/-- `n` bytes of row `r` of an operand from logical byte `b` (R223). -/
def rowBytes (m : Memory) (d : MOperand) (r b n : Nat) : List Byte :=
  (List.range n).map (fun i => mget m (rowByte d r (b + i)))

/-- A row of tile registers as 256 bytes (R224). -/
def tileRow (tx : Tbl VVal) (t i : Nat) : List Byte :=
  toBytes (tget {} tx (64 * (t + i / 64) + i % 64)).v 256

/-- Element `k` of width `w` of a row of bytes (R225, R48). -/
def elemOf (row : List Byte) (w k : Nat) : Nat :=
  if w = 4 then (row.getD (k / 2) 0).toNat / 16 ^ (k % 2) % 16
  else natOfBytes ((row.drop (k * (w / 8))).take (w / 8))

/-- Scale pair `p` of a range that starts at register `c` (R226, R49). -/
def scalePair (sc : Tbl ScaleReg) (c p : Nat) : Nat :=
  (field (tget 0 sc (c + p / 512)) (16 * (p % 512)) 16).toNat

/-- A decoded element with its block scale: `none` scale for formats that take none (R48, R65, R226). -/
def scaledElem (f : BitVec 3) (daz : Bool) (code : Nat) (pair : Option Nat) : FV :=
  match pair with
  | none => (matrixFmt f).unpack daz code
  | some p =>
    let s := p % 256
    if s = 0xFF then .nan false 1 1 false
    else
      let v := if f = 2 ∧ code = 8 then Fmt.unpack .e4m3 false (p / 256) else (matrixFmt f).unpack false code
      match v with
      | .fin g m e => .fin g m (e + s - 127)
      | w => w

/-! ### Group sums -/

/-- MSTAT bits that matrix commands set (R237). -/
def msLimit : Nat := 7
def msMeta : Nat := 6
def msNV : Nat := 5
def msOF : Nat := 4
def msUF : Nat := 3
def msNX : Nat := 2

/-- What a run of a command accumulates besides C: MSTAT bits, floating group sums run, window-forming
group sums numbered since EN, and detections forced by injection (R237, R315, R321). -/
structure MRun where
  mstat : Word := 0
  gsums : Nat := 0
  number : Nat := 0
  forced : List Detection := []
deriving DecidableEq, Repr, Inhabited

/-- How group sums are run: the level, the captured flags, and the injection register (R69, R321). -/
structure MEnv where
  level : Nat
  daz : Bool
  ftz : Bool
  inj : Word
deriving DecidableEq, Repr

/-- The windowed product, truncated in magnitude, in units of `2^(E-27)` (R65). -/
def windowed (e27 : Int) : FV → Int
  | .fin s m e =>
    let t : Int := if e27 ≤ e then (m * 2 ^ (e - e27).toNat : Nat) else (m / 2 ^ (e27 - e).toNat : Nat)
    if s then -t else t
  | _ => 0

/-- floor(log2 |p|) of a nonzero finite product. -/
def prodExp : FV → Option Int
  | .fin _ m e => if m = 0 then none else some ((m.log2 : Int) + e)
  | _ => none

/-- The greatest of a list of exponents. -/
def maxExp : List Int → Option Int
  | [] => none
  | x :: xs => some (xs.foldl max x)

/-- The FP32 context of a group step: RNE, canonical NaN, captured FTZ (R65, R229). -/
def groupCtx (ftz : Bool) : FCtx := { dn := true, ftz := ftz }

/-- The exact difference of two values; an infinity for anything but two finite values. -/
def subVal (x y : FV) : FV :=
  match x, y with
  | .fin _ _ _, .fin _ _ _ => addV x y.neg
  | _, _ => .inf false

/-- A slice has an input that is not zero: bits [7k+6:7k] of the magnitude of a product in the window (R65, R69). -/
def sliceActive (ws : List Int) (k : Nat) : Bool := ws.any (fun w => w.natAbs / 2 ^ (7 * k) % 128 != 0)

/-- A group result at an undervolted level: that of `acc` with the injected `extra`, or one that departs from it within the
bound of R69.  A slice without an input contributes zero and passes no carry, so that slice 0 alone departs within the bound
of F1, and slice 1 alone by multiples of its weight; a unit injected in a slice that is undervolted counts in the bound
(R69, R70, R321, log entry 12). -/
def undervolted (c : FCtx) (level : Nat) (ws : List Int) (acc e27 : Int) (slice : Nat) (extra : Int) : FRes :=
  let g (t : Int) : FRes := Fmt.deliver .f32 c 0 (.fin (decide (t < 0)) t.natAbs e27)
  let g0 := g (acc + extra)
  let low := decide (0 < level) && sliceActive ws 0
  let mid := decide (1 < level) && sliceActive ws 1
  if !low && !mid then g0
  else
    let from_ := if slice < level then g acc else g0
    let g1 := g (acc + extra + (if low then 1 else 128) * Config.sliceDeparture level ws)
    match subVal (Fmt.unpack .f32 false g1.code) (Fmt.unpack .f32 false from_.code) with
    | .fin _ m e => if FV.below (.fin false m e) (.fin false 1 (e27 + (if mid then 19 else 12))) then g1 else g0
    | _ => g0

/-- MSTAT.OF for a finite value rounded to infinity (R237). -/
def ofBit (r : FRes) : Word := if r.fl &&& flOF != 0 then setBit 0 msOF else 0

/-- One group: the window sum of at most 32 products, `none` standing for an infinity times a zero, and the
accumulator after it (R65, R66). -/
def groupStep (env : MEnv) (col : Nat) (ps : List (Option FV)) (c : FV) (r : MRun) : FV × MRun :=
  let r := { r with gsums := r.gsums + 1 }
  let vs := ps.map (fun p => p.getD (.nan false 1 1 false))
  let made := ps.any Option.isNone
  let nan := vs.any FV.isNaN
  let pos := vs.any (fun v => v.isInf && !v.sign)
  let neg := vs.any (fun v => v.isInf && v.sign)
  let canon := Fmt.unpack .f32 false 0x7FC00000
  let (g, r) : FV × MRun :=
    if nan || (pos && neg) then
      (canon, if made || (pos && neg && !nan) then { r with mstat := setBit r.mstat msNV } else r)
    else if pos then (.inf false, r)
    else if neg then (.inf true, r)
    else
      match maxExp (vs.filterMap prodExp) with
      | none => (.fin false 0 0, r)
      | some e =>
        let ws := vs.map (windowed (e - 27))
        let acc : Int := ws.foldl (· + ·) 0
        let number := r.number + 1
        let period := (field env.inj 0 40).toNat
        let hit := bitOf env.inj 63 && period != 0 && number % period == 0
        let slice := (field env.inj 60 2).toNat
        let g := undervolted (groupCtx env.ftz) env.level ws acc (e - 27) slice (if hit then 2 ^ (7 * slice) else 0)
        (Fmt.unpack .f32 false g.code,
         { r with mstat := r.mstat ||| ofBit g
                  number := if bitOf env.inj 63 then number else r.number
                  forced := if hit then r.forced ++ [{ col := col, slice := slice, count := 1 }] else r.forced })
  let s := Fmt.sum .f32 (groupCtx env.ftz) 0 [c, g]
  let nv := !c.isNaN && !g.isNaN && (Fmt.unpack .f32 false s.code).isNaN
  (Fmt.unpack .f32 false s.code,
   { r with mstat := (if nv then setBit r.mstat msNV else r.mstat) ||| ofBit s })

/-- Groups of 32 products in ascending k (R65). -/
def groupsOf : Nat → List (Option FV) → List (List (Option FV))
  | 0, _ => []
  | n + 1, ps => ps.take 32 :: groupsOf n (ps.drop 32)

/-- The FP32 code of a value that is held in an accumulator. -/
def code32 (v : FV) : Nat := (Fmt.deliver .f32 { dn := true } 0 v).code

/-- The initial step of R66 on an accumulator word. -/
def initAcc (env : MEnv) (acc : BitVec 2) (gamma c : Nat) (r : MRun) : FV × MRun :=
  if acc = 0 then (.fin false 0 0, r)
  else
    let v := Fmt.unpack .f32 env.daz c
    if acc = 1 then (v, r)
    else
      let g := Fmt.unpack .f32 env.daz gamma
      let p := Fmt.mulV .f32 (groupCtx env.ftz) 0 g v
      let w := Fmt.unpack .f32 false p.code
      (w, { r with mstat := (if w.isNaN && !g.isNaN && !v.isNaN then setBit r.mstat msNV else r.mstat) ||| ofBit p })

/-- One floating output element: its FP32 code and what the run accumulated (R65, R66). -/
def floatElem (env : MEnv) (acc : BitVec 2) (gamma c col : Nat) (a b : List FV) (r : MRun) : Nat × MRun :=
  let ps := (a.zip b).map (fun p =>
    if p.1.isNaN || p.2.isNaN then some (FV.nan false 1 1 false) else exactMul p.1 p.2)
  let start := initAcc env acc gamma c r
  let (v, r) := (groupsOf (ps.length / 32) ps).foldl (fun st g => groupStep env col g st.1 st.2) start
  (code32 v, r)

/-- One integer output element (R67). -/
def intElem (acc : BitVec 2) (c : Nat) (a b : List Int) : Nat :=
  let t := ((a.zip b).map (fun p => p.1 * p.2)).foldl (· + ·) (if acc = 0 then (0 : Int) else c)
  (t % 2 ^ 32).toNat

/-! ### Operand rows -/

/-- Dense codes of a sparse A row from kept values and position codes: `none` where metadata is bad
(R227). -/
def sparseGroup (g n : Nat) (vals codes : List Nat) : Option (List (Nat × Nat)) :=
  if codes.all (fun c => decide (c < g)) && codes.Nodup then some ((codes.zip vals).take n) else none

/-- The dense A row of `K` element codes, absent positions `none`, and whether any group had bad metadata
(R227). -/
def sparseRow (g n k : Nat) (val code : Nat → Nat) : List (Option Nat) × Bool :=
  let groups := (List.range (k / g)).map (fun q =>
    sparseGroup g n ((List.range n).map (fun t => val (n * q + t))) ((List.range n).map (fun t => code (n * q + t))))
  (groups.flatMap (fun gr => (List.range g).map (fun p =>
    match gr with
    | none => none
    | some l => (l.find? (fun x => x.1 == p)).map (·.2))), groups.any Option.isNone)

/-- The bytes of A row `i` (R223, R224). -/
def rowA (rec_ : MRecord) (o : MOps) (ds : List MOperand) (len i : Nat) : List Byte :=
  match ds with
  | d :: _ =>
    if o.asrc then (tileRow rec_.tx (d.w.toNat % 4) i).take len
    else rowBytes rec_.ab d i 0 len
  | [] => []

/-- The element codes of A row `i`, absent positions `none`, and whether its metadata was bad (R225,
R227). -/
def codesA (rec_ : MRecord) (var : Nat) (o : MOps) (ds : List MOperand) (i : Nat) : List (Option Nat) × Bool :=
  let w := matrixWidth o.fa
  let k := matrixK o.fa
  let row := rowA rec_ o ds (lenA var) i
  if var = 1 ∨ var = 2 then
    match ds.drop 3 with
    | md :: _ =>
      let mrow := rowBytes rec_.ab md i 0 (lenMeta o)
      let g := if var = 1 then 4 else 8
      sparseRow g (g / 2) k (elemOf row w) (elemOf mrow 4)
    | [] => ([], false)
  else ((List.range k).map (fun j => some (elemOf row w j)), false)

/-- The element codes of column `j` of B (R225). -/
def codesB (rec_ : MRecord) (var : Nat) (o : MOps) (ds : List MOperand) (j : Nat) : List Nat :=
  match ds.drop 1 with
  | d :: _ =>
    let w := matrixWidth o.fb
    let k := matrixK o.fb
    if var = 3 then
      (List.range k).map (fun q => elemOf (rowBytes rec_.wb d q 0 (lenB var o)) w j)
    else
      let row := rowBytes rec_.wb d j 0 256
      (List.range k).map (elemOf row w)
  | [] => []

/-- The scale pair of element `k` of row `i` of a range at register `c`, where the format takes scales
(R226). -/
def pairOf (sc : Tbl ScaleReg) (f : BitVec 3) (c i k : Nat) : Option Nat :=
  if matrixScaled f then some (scalePair sc c (i * (matrixK f / 32) + k / 32)) else none

/-- The value of an integer matrix element (R124). -/
def intCode (f : BitVec 3) (code : Nat) : Int := if f = 5 then IFmt.value .s8 code else (code : Int)

/-! ### Commands -/

/-- Bytes of C written by a command: four for each element, element j of row i at byte 4j (R223). -/
def writeC (d : MOperand) (elems : List ((Nat × Nat) × Nat)) : List (Nat × Byte) :=
  elems.flatMap (fun e => placed (rowByte d e.1.1 (4 * e.1.2)) (toBytes (BitVec.ofNat 32 e.2) 4))

/-- The word of C at element (i, j). -/
def readC (rec_ : MRecord) (d : MOperand) (i j : Nat) : Nat := natOfBytes (rowBytes rec_.cb d i (4 * j) 4)

/-- The elements of an M × N block, row by row. -/
def blockIndex (o : MOps) : List (Nat × Nat) :=
  (List.range (shapeM o.shape)).flatMap (fun i => (List.range (shapeN o.shape)).map (fun j => (i, j)))

/-- The C operand of a command. -/
def operandC (var : Nat) (ds : List MOperand) : MOperand :=
  (if var ≤ 3 then ds.getD 2 default else ds.getD 0 default)
where default : MOperand := { mg := 0, kind := .acc, buf := .cb, rows := 0, len := 0, w := 0 }

/-- The run of `MM`, `MMS` or `MMT`: the C bytes it writes and what it accumulates (R229). -/
def runProduct (env : MEnv) (var : Nat) (o : MOps) (stg : List Word) (rec_ : MRecord) (number : Nat) :
    List (Nat × Byte) × MRun :=
  let ds := matrixOperands var o stg
  let dc := operandC var ds
  let gamma := ((ds.getLast?).map (fun d => d.w.toNat % 2 ^ 32)).getD 0
  let rowsA := (List.range (shapeM o.shape)).map (codesA rec_ var o ds)
  let colsB := (List.range (shapeN o.shape)).map (codesB rec_ var o ds)
  let bad := rowsA.any (·.2)
  let r0 : MRun := { mstat := if bad then setBit 0 msMeta else 0, number := number }
  if matrixInt o.fa then
    let es := (blockIndex o).map (fun ij =>
      let a := ((rowsA.getD ij.1 ([], false)).1).map (fun c => (c.map (intCode o.fa)).getD 0)
      let b := (colsB.getD ij.2 []).map (intCode o.fb)
      (ij, intElem o.acc (readC rec_ dc ij.1 ij.2) a b))
    (writeC dc es, r0)
  else
    let base := o.base.toNat
    let bbase := base + scaleRegsA o
    let va := (List.range (shapeM o.shape)).map (fun i =>
      let cs := (rowsA.getD i ([], false)).1
      (List.range cs.length).map (fun k =>
        scaledElem o.fa env.daz ((cs.getD k none).getD 0) (pairOf rec_.scales o.fa base i k)))
    let vb := (List.range (shapeN o.shape)).map (fun j =>
      let cs := colsB.getD j []
      (List.range cs.length).map (fun k =>
        scaledElem o.fb env.daz (cs.getD k 0) (pairOf rec_.scales o.fb bbase j k)))
    let (es, r) := (blockIndex o).foldl (fun (st : List ((Nat × Nat) × Nat) × MRun) ij =>
      let (code, r) := floatElem env o.acc gamma (readC rec_ dc ij.1 ij.2) (ij.2 % 64)
        (va.getD ij.1 []) (vb.getD ij.2 []) st.2
      ((ij, code) :: st.1, r)) ([], r0)
    (writeC dc es.reverse, r)

/-- MSTAT bits for the flags of a conversion (R237). -/
def mstatOf (fl : Flags) : Word :=
  (if fl &&& flNV != 0 then setBit 0 msNV else 0) ||| (if fl &&& flOF != 0 then setBit 0 msOF else 0) |||
    (if fl &&& flUF != 0 then setBit 0 msUF else 0) ||| (if fl &&& flNX != 0 then setBit 0 msNX else 0)

/-- The context of a captured FCSR with the rounding of a matrix slot (R53, R62). -/
def capturedCtx (fcsr : Word) (rnd : BitVec 3) : FCtx :=
  let rm := (field fcsr 0 3).toNat
  { mode := if rnd = 7 then (if rm = 5 then 0 else rm) else rnd.toNat
    dn := bitOf fcsr 5, daz := bitOf fcsr 4, ftz := bitOf fcsr 3 }

/-- `AZERO` (R233). -/
def runAzero (o : MOps) (stg : List Word) : List (Nat × Byte) :=
  writeC (operandC 4 (matrixOperands 4 o stg)) ((blockIndex o).map (fun ij => (ij, 0)))

/-- `ASCL` (R234). -/
def runAscl (o : MOps) (stg : List Word) (fcsr : Word) (rec_ : MRecord) : List (Nat × Byte) × Word :=
  let ds := matrixOperands 5 o stg
  let dc := operandC 5 ds
  let fbase := (ds.drop 1).head?.map (fun d => dBase d.w)
  let c : FCtx := { capturedCtx fcsr o.rnd with dn := true }
  let es := (blockIndex o).map (fun ij =>
    let f := natOfBytes (mread rec_.cb ((fbase.getD 0) + 4 * ij.1) 4)
    (ij, Fmt.mul .f32 c 0 (readC rec_ dc ij.1 ij.2) f))
  (writeC dc (es.map (fun e => (e.1, e.2.code))),
   es.foldl (fun (m : Word) e => m ||| mstatOf e.2.fl) (0 : Word))

/-- The source value of `ACVT`: FP32 under DAZ, or SINT32 where ISRC is set (R235). -/
def acvtSource (isrc daz : Bool) (w : Nat) : FV :=
  if isrc then
    let v := IFmt.value .s32 w
    .fin (decide (v < 0)) v.natAbs 0
  else Fmt.unpack .f32 daz w

/-- The exact order of magnitudes: |x| < |y| for numbers and infinities. -/
def magBelow (x y : FV) : Bool :=
  (match x with | .fin _ m e => FV.fin false m e | .inf _ => .inf false | v => v).below
    (match y with | .fin _ m e => FV.fin false m e | .inf _ => .inf false | v => v)

/-- A value scaled by a power of two. -/
def scaleV (v : FV) (k : Int) : FV :=
  match v with
  | .fin s m e => .fin s m (e + k)
  | w => w

/-- One block of 32 values converted to FP4X: its codes, its scale pair and MSTAT bits (R236). -/
def fp4xBlock (c : FCtx) (xs : List FV) : List Nat × Nat × Word :=
  if xs.any FV.isNaN then (xs.map (fun _ => 0), 0x00FF, setBit 0 msNV)
  else
    let top := xs.foldl (fun (m : FV) x => if magBelow m x then x else m) (.fin false 0 0)
    match top with
    | .fin _ 0 _ => (xs.map (fun _ => 0), 0x007F, 0)
    | _ =>
      let e : Int := match top with
        | .fin _ m g => (m.log2 : Int) + g - 2
        | _ => 127
      let s : Nat := (max 0 (min 254 (e + 127))).toNat
      let ys := xs.map (fun x => scaleV x (127 - (s : Int)))
      let xr := Fmt.convert .e4m3 { mode := 6 } 0 (scaleV top (127 - (s : Int)))
      let xv := Fmt.unpack .e4m3 false xr.code
      let pick (y : FV) : Nat :=
        let r := (Fmt.convert .fp4x c 0 y).code
        match y with
        | .fin _ _ _ => if magBelow (subVal y xv) (subVal y (Fmt.unpack .fp4x false r)) then 8 else r
        | _ => r
      let codes := ys.map pick
      let value (k : Nat) : FV := if k = 8 then xv else Fmt.unpack .fp4x false k
      let same (y : FV) (k : Nat) : Bool :=
        match y with
        | .fin _ _ _ => (match subVal y (value k) with | .fin _ m _ => m == 0 | _ => false)
        | _ => false
      let zip := ys.zip codes
      let nx := zip.any (fun p => !(same p.1 p.2))
      let uf := zip.any (fun p => p.2 == 0 && !(same p.1 0))
      (codes, xr.code * 256 + s,
       (if nx then setBit 0 msNX else 0) ||| (if top.isInf then setBit 0 msOF else 0) |||
         (if uf then setBit 0 msUF else 0))

/-- Bytes of a row from element codes of `w` bits (R225). -/
def packRow (w : Nat) (codes : List Nat) : List Byte :=
  let n := joinElems w codes
  toBytes (BitVec.ofNat (8 * (codes.length * w / 8)) n) (codes.length * w / 8)

/-- The `MSTAT` bits one converted element raises: an integer destination raises `NV` alone, when the value was clamped or was
a NaN (R235); a floating destination raises what R58 gives its conversion, so a quiet NaN or an overflow to NaN sets no NV
(DEDUCED, log entry 99). -/
def acvtStat (fb : BitVec 3) (fl : Flags) : Word :=
  if matrixInt fb then mstatOf fl &&& setBit 0 msNV else mstatOf fl

/-- What `ACVT` leaves: destination bytes in AB, scale pairs, MSTAT bits (R235, R236). -/
def runAcvt (o : MOps) (stg : List Word) (fcsr : Word) (rec_ : MRecord) :
    List (Nat × Byte) × List (Nat × Nat) × Word :=
  let ds := matrixOperands 6 o stg
  let dc := operandC 6 ds
  let dd := (ds.drop 1).getD 0 dc
  let c : FCtx := { capturedCtx fcsr o.rnd with dn := true }
  let n := shapeN o.shape
  let isrc := dIsrc dd.w
  let store (i : Nat) (bs : List Byte) : List (Nat × Byte) :=
    (List.range bs.length).map (fun b => (rowByte dd i b, bs.getD b 0))
  let rows := (List.range (shapeM o.shape)).map (fun i =>
    (i, (List.range n).map (fun j => acvtSource isrc c.daz (readC rec_ dc i j))))
  if o.fb = 2 then
    let bl := rows.map (fun r => (r.1, (List.range (n / 32)).map (fun q => fp4xBlock c ((r.2.drop (32 * q)).take 32))))
    (bl.flatMap (fun r => store r.1 (packRow 4 (r.2.flatMap (·.1)))),
     bl.flatMap (fun r => (List.range r.2.length).map (fun q =>
       (r.1 * (n / 32) + q, (r.2.getD q ([], 0, 0)).2.1))),
     bl.foldl (fun (m : Word) r => r.2.foldl (fun (m : Word) b => m ||| b.2.2) m) (0 : Word))
  else
    let conv (v : FV) : FRes :=
      if matrixInt o.fb then (if o.fb = 5 then IFmt.ofFloat .s8 c 0 v else IFmt.ofFloat .u8 c 0 v)
      else (matrixFmt o.fb).convert c 0 v
    let rs := rows.map (fun r => (r.1, r.2.map conv))
    (rs.flatMap (fun r => store r.1 (packRow (matrixWidth o.fb) (r.2.map (·.code)))), [],
     rs.foldl (fun (m : Word) r => r.2.foldl (fun (m : Word) e => m ||| acvtStat o.fb e.fl) m) (0 : Word))

end Sys2Proof.Machine
end

