-- ==== Sys2Proof/Machine/CopyOps.lean ====
section
/-!
DEFINITION. The geometry of copy-slot commands: operands and bounding ranges (R244, R245, R263), the issue
checks of R246 and R247, the runs of bytes that a command moves (R254, R257, R258) and the ranges by which
commands meet on the scoreboard (R79 to R83).
-/
namespace Sys2Proof.Machine

/-! ### Operands -/

/-- A space of an operand: a buffer of a unit, segment space or DRAM virtual space (R74). -/
inductive Space
  | buf (u : Nat) (b : Buf)
  | seg
  | dram
deriving DecidableEq, Repr

/-- A range of bytes, both ends included, in one space (R80). -/
structure Span where
  space : Space
  lo : Int
  hi : Int
deriving DecidableEq, Repr

/-- The units of 64 bytes of two ranges of one space meet (R80). -/
def Span.meets (a b : Span) : Bool :=
  a.space == b.space && decide (a.lo / 64 ≤ b.hi / 64) && decide (b.lo / 64 ≤ a.hi / 64) &&
    decide (a.lo ≤ a.hi) && decide (b.lo ≤ b.hi)

/-- Two lists of ranges meet. -/
def spansMeet (a b : List Span) : Bool := a.any (fun x => b.any x.meets)

/-- An address operand of a copy-slot command: the index of its staging register, its space code (R125), the
word in the register, the offsets of its lowest and highest byte from its base, the alignment its base needs,
and which way it is accessed. -/
structure COperand where
  reg : Nat
  code : Nat
  w : Word
  lo : Int
  hi : Int
  align : Nat
  rd : Bool
  wr : Bool
deriving DecidableEq, Repr

/-- The base byte address or offset of an operand (R245). -/
def COperand.base (u : Nat) (c : COperand) : Nat :=
  if c.code < 4 then (if isTile u then (field c.w 0 20).toNat else (field c.w 0 18).toNat) else c.w.toNat

/-- The member index that a tile-buffer address names; `none` for the issuing tile's own buffer (R245). -/
def COperand.member (c : COperand) : Option Nat :=
  if c.code < 4 && bitOf c.w 28 then some (field c.w 24 4).toNat else none

/-- Buffer of a space code 0 to 3 (R125). -/
def bufOf (code : Nat) : Buf :=
  match code with
  | 0 => .wb
  | 1 => .ab
  | 2 => .cb
  | _ => .sb

/-- The unit on which member `m` of the team of unit `u` runs (R13). -/
def State.memberUnit (s : State) (u m : Nat) : Option Nat :=
  let x := s.unit u
  if m = x.member ∨ x.team.isNone then some u
  else ((List.range 16).map (fun i => u / 16 * 16 + i)).find? (fun v =>
    (s.unit v).team == x.team && (s.unit v).member == m)

/-- The space of an operand. -/
def State.spaceOf (s : State) (u : Nat) (c : COperand) : Space :=
  if c.code < 4 then
    match c.member with
    | none => .buf u (bufOf c.code)
    | some m => .buf ((s.memberUnit u m).getD u) (bufOf c.code)
  else if c.code = 4 then .seg else .dram

/-- The bounding range of an operand (R80, R246). -/
def State.spanOf (s : State) (u : Nat) (c : COperand) : Span :=
  { space := s.spaceOf u c, lo := c.base u + c.lo, hi := c.base u + c.hi }

/-! ### Geometry -/

/-- A 32-bit field of a staging register as a signed stride (R244). -/
def stride (w : Word) (lo : Nat) : Int := (field w lo 32).toInt

/-- Word `i` of a staging snapshot. -/
def sreg (stg : List Word) (i : Nat) : Word := stg.getD i 0

/-- LEN0, N1, N2 and N3 of an affine copy as its registers hold them (R244). -/
def affCounts (stg : List Word) : Nat × Nat × Nat × Nat :=
  ((field (sreg stg 2) 0 32).toNat, (field (sreg stg 2) 32 16).toNat, (field (sreg stg 2) 48 16).toNat,
   (field (sreg stg 3) 0 16).toNat)

/-- The count and the strides of dimension k, 1 to 3, of an affine copy; an unused dimension counts 1 (R254). -/
def affDims (o : COps) (stg : List Word) : List (Nat × Int × Int) :=
  let (_, n1, n2, n3) := affCounts stg
  let used (k n : Nat) : Nat × Int × Int :=
    if k ≤ o.width then (n, stride (sreg stg (3 + k)) 0, stride (sreg stg (3 + k)) 32) else (1, 0, 0)
  [used 1 n1, used 2 n2, used 3 n3]

/-- The lowest and the highest offset of the runs of counts and strides. -/
def strideSpan (ds : List (Nat × Int)) : Int × Int :=
  ds.foldl (fun (a : Int × Int) d =>
    let e : Int := ((d.1 : Int) - 1) * d.2
    (a.1 + min 0 e, a.2 + max 0 e)) (0, 0)

/-- The address operands of a copy-slot opcode (R244, R263).  A far side whose indices are not yet read is
bounded by its base. -/
def copyOperands (op : Nat) (o : COps) (stg : List Word) (index : List Nat) : List COperand :=
  let w := sreg stg
  let len : Int := (field (w 2) 0 32).toNat
  match op with
  | 0x01 | 0x02 =>
    let (len0, _) := affCounts stg
    let ds := affDims o stg
    let a := strideSpan (ds.map (fun d => (d.1, d.2.1)))
    let b := strideSpan (ds.map (fun d => (d.1, d.2.2)))
    [{ reg := 0, code := o.from, w := w 0, lo := a.1, hi := a.2 + len0 - 1, align := 1, rd := true, wr := false },
     { reg := 1, code := o.to, w := w 1, lo := b.1, hi := b.2 + len0 - 1, align := 1, rd := false, wr := true }]
  | 0x03 | 0x04 =>
    let elen : Int := (field (w 2) 0 32).toNat
    let count : Int := (field (w 2) 32 32).toNat
    let near (hi : Int) : Int × Int := (0, hi)
    let far : Int × Int :=
      match index with
      | [] => (0, elen - 1)
      | i :: is => ((is.foldl min i : Nat) * elen, (is.foldl max i : Nat) * elen + elen - 1)
    let pk := near (count * elen - 1)
    let iw : Nat := 4 * 2 ^ o.width
    let ix : COperand := { reg := 4, code := 3, w := w 4, lo := 0, hi := count * iw - 1, align := iw, rd := true, wr := false }
    let (sp, dp) := if op = 0x03 then (far, pk) else (pk, far)
    [{ reg := 0, code := o.from, w := w 0, lo := sp.1, hi := sp.2, align := 1, rd := true, wr := false },
     { reg := 1, code := o.to, w := w 1, lo := dp.1, hi := dp.2, align := 1, rd := false, wr := true }, ix]
  | 0x05 => [{ reg := 1, code := o.to, w := w 1, lo := 0, hi := len - 1, align := 4 * 2 ^ o.width, rd := false, wr := true }]
  | 0x06 => [{ reg := 0, code := o.to, w := w 0, lo := 0, hi := len - 1, align := 4096, rd := true, wr := true }]
  | 0x07 => [{ reg := 0, code := o.from, w := w 0, lo := 0, hi := 1023, align := 256, rd := true, wr := false }]
  | 0x08 => [{ reg := 0, code := o.from, w := w 0, lo := 0, hi := len - 1, align := 1, rd := false, wr := false }]
  | 0x10 => [{ reg := 0, code := 5, w := w 0, lo := 0, hi := 127, align := 128, rd := false, wr := false }]
  | 0x11 =>
    let l : Int := (field (w 3) 0 32).toNat
    [{ reg := 0, code := o.from, w := w 0, lo := 0, hi := l - 1, align := 64, rd := true, wr := false }]
  | 0x12 =>
    let l : Int := (field (w 3) 0 32).toNat
    [{ reg := 0, code := o.to, w := w 0, lo := 0, hi := l - 1, align := 64, rd := false, wr := true }]
  | _ => []

/-- LOCAL_IN or LOCAL_OUT: valid, its buffer, its offset and its length in bytes (R245). -/
structure LocalRange where
  valid : Bool
  buf : Buf
  off : Nat
  len : Nat
deriving DecidableEq, Repr

/-- A LOCAL_IN or LOCAL_OUT register (R245). -/
def localRange (w : Word) : LocalRange :=
  { valid := bitOf w 63, buf := bufOf (field w 52 2).toNat, off := (field w 0 20).toNat, len := 64 * (field w 32 20).toNat }

/-- The bytes of a local range. -/
def LocalRange.span (u : Nat) (r : LocalRange) : List Span :=
  if r.valid then [{ space := .buf u r.buf, lo := r.off, hi := (r.off : Int) + r.len - 1 }] else []

/-! ### Check 7 -/

/-- The bits of a register that R244 and R245 leave zero but which are set. -/
def stray (w mask : Word) : List Nat := oneBits (w &&& mask)

/-- Zero bits of an address register (R245); `own` where only the tile's own buffer may be named (R261). -/
def addrFaults (u teamSize : Nat) (own : Bool) (c : COperand) : List Nat :=
  if c.code < 4 then
    if isTile u then
      stray c.w 0xFFFFFFFFE0F00000 ++
        (if bitOf c.w 28 then
          (if own then [28] else need 24 (decide ((field c.w 24 4).toNat < teamSize)))
        else stray c.w 0x0F000000)
    else stray c.w 0xFFFFFFFFFFFC0000
  else []

/-- Offending bits of register b+3 where it holds DSIZE; `n3` where N3 must be zero (R244). -/
def dsizeFaults (w : Word) (n3 : Bool) : List Nat :=
  stray w 0xFFFFFFFFFFF80000 ++ need 16 (decide ((field w 16 3).toNat ≤ 4)) ++ (if n3 then stray w 0xFFFF else [])

/-- Offending bits of a LOCAL register (R245). -/
def localFaults (w : Word) : List Nat :=
  if bitOf w 63 then stray w 0x7FC00000FFF00000 ++ need 32 (field w 32 20 != 0) else stray w 0x7FFFFFFFFFFFFFFF

/-- Offending bits of a LEN that must be a multiple of `p` from `p` to 2^32 - p: the bits below `p` that are set, else the field
(R246, R258, R259). -/
def lenFaults (p len : Nat) : List Nat :=
  if len % p ≠ 0 then oneBits (BitVec.ofNat 64 (len % p))
  else need 0 (decide (p ≤ len) && decide (len + p ≤ 2 ^ 32))

/-- Offending bits of the staging registers of a command other than its address registers: condition 1 of
R246, by register index. -/
def stagingFaults (op : Nat) (o : COps) (stg : List Word) : List (Nat × List Nat) :=
  let w := sreg stg
  let hi32 : Word := 0xFFFFFFFF00000000
  let len := (field (w 2) 0 32).toNat
  match op with
  | 0x01 | 0x02 =>
    let (len0, n1, n2, n3) := affCounts stg
    let dim (k n lo : Nat) : List Nat :=
      if k ≤ o.width then need lo (n != 0) else (oneBits (BitVec.ofNat 16 n |>.setWidth 64)).map (lo + ·)
    [(2, need 0 (len0 != 0) ++ dim 1 n1 32 ++ dim 2 n2 48), (3, dim 3 n3 0 ++ dsizeFaults (w 3) false)] ++
      (if op = 0x02 then [(7, stray (w 7) hi32)] else [])
  | 0x03 | 0x04 =>
    let count := (field (w 2) 32 32).toNat
    [(2, need 0 (decide (1 ≤ len) && decide (len ≤ 4096)) ++ need 32 (decide (1 ≤ count) && decide (count ≤ 65536))),
     (3, dsizeFaults (w 3) true)]
  | 0x05 =>
    let p := 4 * 2 ^ o.width
    [(2, stray (w 2) hi32 ++ lenFaults p len),
     (3, dsizeFaults (w 3) true)]
  | 0x06 =>
    [(2, stray (w 2) hi32 ++ lenFaults 4096 len),
     (3, dsizeFaults (w 3) true)]
  | 0x08 => [(2, stray (w 2) hi32 ++ need 0 (len != 0))]
  | 0x0A | 0x0B => [(0, localFaults (w 0)), (1, localFaults (w 1)), (2, stray (w 2) hi32)]
  | 0x10 => [(1, stray (w 1) hi32), (2, stray (w 2) hi32), (3, stray (w 3) hi32)]
  | 0x11 | 0x12 =>
    let l := (field (w 3) 0 32).toNat
    let rs := (field (w 1) 52 3).toNat
    [(1, stray (w 1) 0xFF80000000000000 ++ need 52 (rs == 4 || rs == 5)), (2, stray (w 2) 0xFFFFFFFFFFFF0000),
     (3, stray (w 3) hi32 ++ need 0 (decide (64 ≤ l) && decide (l + 64 ≤ 2 ^ 32)))]
  | _ => []

/-- TRAPVAL of condition 1 of R246. -/
def copyVal (slot reg bit : Nat) : Word := BitVec.ofNat 64 (bit * 256 + reg * 16 + 8 + slot)

/-- The lowest register index with a fault, and its lowest bit. -/
def firstFault (l : List (Nat × List Nat)) : Option (Nat × Nat) :=
  (List.range 8).foldr (fun i rest =>
    match (l.filter (fun p => p.1 == i)).flatMap (·.2) with
    | [] => rest
    | b :: bs => some (i, leastOf 0 (b :: bs))) none

/-- The first address of an operand outside R77: the base itself, else the first address of its bounding range
beyond the space. -/
def beyondSpace (c : COperand) : Option Word :=
  if c.code < 4 then none
  else
    let top : Nat := if c.code = 4 then 2 ^ 40 else 2 ^ 52
    let a := c.w.toNat
    if top ≤ a then some c.w
    else if (a : Int) + c.lo < 0 then some (BitVec.ofInt 64 ((a : Int) + c.lo))
    else if (top : Int) ≤ (a : Int) + c.hi then some (BitVec.ofInt 64 (max top ((a : Int) + c.lo)))
    else none

/-- The first offset of a tile-buffer operand outside its buffer (R75, R246); the buffers that a sequencer
does not have hold no offset (R44).  A negative one is reported as its low 64 bits (DESIGN CHOICE, log entry 100). -/
def beyondOperand (u : Nat) (c : COperand) : Option Word :=
  if 4 ≤ c.code then none
  else
    let size : Nat := bufSize u (bufOf c.code)
    let lo : Int := c.base u + c.lo
    let hi : Int := c.base u + c.hi
    if lo < 0 then some (BitVec.ofInt 64 lo)
    else if (size : Int) ≤ hi then some (BitVec.ofInt 64 (max size lo))
    else none

/-- The index-list operand of `GATH` and `SCAT` names its buffer in the address itself only by the space of the
packed side (R257, log entry 21). -/
def withIndexSpace (op : Nat) (o : COps) (ops : List COperand) : List COperand :=
  if op = 0x03 ∨ op = 0x04 then
    ops.map (fun c => if c.reg = 4 then { c with code := if op = 0x03 then o.to else o.from } else c)
  else ops

/-- The operands of a command with the space of an index list settled. -/
def operandsOf (op : Nat) (o : COps) (stg : List Word) (index : List Nat) : List COperand :=
  withIndexSpace op o (copyOperands op o stg index)

/-- Conditions 3 of R246 for what is no address operand: the LENs of `FSEND` and `FFETCH` (R270) and the ranges of
`COLL` and `REPART`.  That a LEN alone at fault is reported with the local address, register b+0, is the model's choice (DESIGN
CHOICE, log entry 114). -/
def extraMisalign (op : Nat) (stg : List Word) : Option Word :=
  let w := sreg stg
  if op = 0x11 ∨ op = 0x12 then
    if (w 1).toNat % 64 ≠ 0 then some (w 1)
    else if (field (w 3) 0 32).toNat % 64 ≠ 0 then some (w 0)
    else none
  else if op = 0x0A ∨ op = 0x0B then
    (firstSome (fun (i : Nat) =>
      let r := localRange (w i)
      if r.valid ∧ r.off % 64 ≠ 0 then some (BitVec.ofNat 64 r.off) else none) [0, 1])
  else none

/-- Condition 2 of R246 for the remote address of `FSEND` and `FFETCH` (R245): the register as it stands where the address lies
outside its space, the top of the space where the range passes it (DESIGN CHOICE, log entry 101). -/
def extraSpace (op : Nat) (stg : List Word) : Option Word :=
  if op = 0x11 ∨ op = 0x12 then
    let w := sreg stg 1
    let a := (field w 0 52).toNat
    let l := (field (sreg stg 3) 0 32).toNat
    let top := if field w 52 3 = 4 then 2 ^ 40 else 2 ^ 52
    if top ≤ a then some w else if top < a + l then some (BitVec.ofNat 64 top) else none
  else none

/-- Condition 4 of R246 for LOCAL_IN and LOCAL_OUT. -/
def extraBounds (u op : Nat) (stg : List Word) : Option Word :=
  if op = 0x0A ∨ op = 0x0B then
    firstSome (fun (i : Nat) =>
      let r := localRange (sreg stg i)
      let size := bufSize u r.buf
      if r.valid ∧ size < r.off + r.len then some (BitVec.ofNat 64 (max r.off size)) else none) [0, 1]
  else none

/-- The follow-on of a `CPYM`: the matrix instruction that its header b+7 holds (R247). -/
def followOn (stg : List Word) : Dec := decodeMatrix ((field (sreg stg 7) 0 32).setWidth 48)

/-- Condition 6 of R246: the follow-on header and its staging set, which reports as a command of the M slot of the bundle would
(R112, R247). -/
def followTrap (u : Nat) (x : Unit) (slot : Nat) (stg mg : List Word) : Option (Cause × Word) :=
  match followOn stg with
  | .bad b => some (.illegalEncoding, copyVal slot 7 (if 4 ≤ (field (sreg stg 7) 3 3).toNat then min b 3 else b))
  | .ok i =>
    match matrixOf i with
    | none => some (.illegalEncoding, copyVal slot 7 0)
    | some (var, o) =>
      if 4 ≤ var then some (.illegalEncoding, copyVal slot 7 3)
      else
        match matrixOperandFaults var o with
        | b :: bs => some (.illegalOperand, fieldVal 3 (leastOf 0 (b :: bs)))
        | [] => matrixTrap u x var o ((mg.drop o.set.toNat).take (stagingCount var o.acc))

/-- Staging registers mg0 to mg15. -/
def Unit.mgs (x : Unit) : List Word := (List.range 16).map (fun i => tget 0 x.regs.stg i)

/-- The staging block of a copy-slot command: staging register 32 + i is cg i (R118, R244). -/
def Unit.block (x : Unit) (o : COps) : List Word :=
  (List.range 8).map (fun i => tget 0 x.regs.stg (32 + 8 * o.blk.toNat + i))

/-- Check 7 of a copy-slot command (R246), and for an `SCLD` from a tile buffer the ownership of a local load
(R261). `x` is the unit as the slot reads it.  That TRAPVAL of MISALIGN for a tile-buffer operand or a LOCAL range is its byte
offset alone is the model's choice (DESIGN CHOICE, log entry 114). -/
def copyTrap (u : Nat) (x : Unit) (slot op : Nat) (o : COps) : Option (Cause × Word) :=
  let stg := x.block o
  let ops := operandsOf op o stg []
  let scldLocal := op == 0x07 && decide (o.from < 4)
  let c1 := (firstFault (stagingFaults op o stg ++
    ops.map (fun c => (c.reg, addrFaults u x.teamSize scldLocal c)))).map
      (fun p => (Cause.illegalOperand, copyVal slot p.1 p.2))
  let c2 := (firstSome id [firstSome beyondSpace ops, extraSpace op stg]).map (fun a => (Cause.copyAccess, a))
  let c3 := (firstSome id [firstSome (fun (c : COperand) =>
      if c.base u % c.align = 0 then none else some (BitVec.ofNat 64 (c.base u))) ops, extraMisalign op stg]).map
        (fun a => (Cause.misalign, a))
  let c4 := (firstSome id [firstSome (beyondOperand u) ops, extraBounds u op stg]).map
    (fun a => (Cause.localBounds, a))
  let c5 : Option (Cause × Word) :=
    if op = 0x0A ∨ op = 0x0B then
      let n := (field o.flags 0 2).toNat
      if x.card.coll.getD n 0 = 0 then some (.collectiveFault, BitVec.ofNat 64 n) else none
    else none
  let c6 := if op = 0x02 then followTrap u x slot stg x.mgs else none
  let c7 : Option (Cause × Word) :=
    if scldLocal then
      (x.unowned u (bufOf o.from) (ops.map (fun c => (c.base u, 1024)))).map
        (fun a => (Cause.ownership, BitVec.ofNat 64 a))
    else none
  firstSome id [c1, c2, c3, c4, c5, c6, c7]

/-! ### Runs -/

/-- One run of bytes at virtual addresses: from `src` to `dst`, or a fill of `dst`. -/
structure VRun where
  src : Nat
  dst : Nat
  len : Nat
deriving DecidableEq, Repr

/-- The runs of a command in the order of its rule (R254, R257, R258). -/
def copyRuns (u op : Nat) (o : COps) (stg : List Word) (index : List Nat) : List VRun :=
  let ops := operandsOf op o stg index
  let base (r : Nat) : Nat := ((ops.find? (fun c => c.reg == r)).map (fun c => c.base u)).getD 0
  let len := (field (sreg stg 2) 0 32).toNat
  match op with
  | 0x01 | 0x02 =>
    let (len0, _) := affCounts stg
    match affDims o stg with
    | [d1, d2, d3] =>
      (List.range d3.1).flatMap (fun (i3 : Nat) => (List.range d2.1).flatMap (fun (i2 : Nat) =>
        (List.range d1.1).map (fun (i1 : Nat) =>
          { src := ((base 0 : Int) + i1 * d1.2.1 + i2 * d2.2.1 + i3 * d3.2.1).toNat
            dst := ((base 1 : Int) + i1 * d1.2.2 + i2 * d2.2.2 + i3 * d3.2.2).toNat
            len := len0 })))
    | _ => []
  | 0x03 | 0x04 =>
    (List.range index.length).map (fun i =>
      let far := index.getD i 0 * len
      let near := i * len
      if op = 0x03 then { src := base 0 + far, dst := base 1 + near, len := len }
      else { src := base 0 + near, dst := base 1 + far, len := len })
  | 0x05 => [{ src := 0, dst := base 1, len := len }]
  | 0x06 => [{ src := base 0, dst := base 0, len := len }]
  | 0x07 => [{ src := base 0, dst := 0, len := 1024 }]
  | 0x08 => [{ src := base 0, dst := 0, len := len }]
  | 0x10 => [{ src := base 0, dst := 0, len := 128 }]
  | 0x11 => [{ src := base 0, dst := 0, len := (field (sreg stg 3) 0 32).toNat }]
  | 0x12 => [{ src := 0, dst := base 0, len := (field (sreg stg 3) 0 32).toNat }]
  | _ => []

/-- The pattern byte at offset `x` of a `FILL` (R258). -/
def fillByte (o : COps) (stg : List Word) (x : Nat) : Byte :=
  let p := 4 * 2 ^ o.width
  (toBytes (sreg stg 0) 8 ++ toBytes (sreg stg 4) 8).getD (x % p) 0

/-! ### Scoreboard ranges -/

/-- The opcode and fields of a queued command. -/
def CCmd.fields (c : CCmd) : Nat × COps :=
  match copyOf c.op with
  | some (op, _, o) => (op, o)
  | none => (0, { flags := 0, pn := false, p := 0, tag := 0, blk := 0 })

/-- The far side of a `GATH` or `SCAT` whose index list is not read may lie anywhere in its space. -/
def unread (c : CCmd) (sp : Span) (k : COperand) : Span :=
  let f := c.fields
  if (f.1 = 0x03 ∧ k.reg = 0 ∨ f.1 = 0x04 ∧ k.reg = 1) ∧ c.index.isEmpty then { sp with lo := 0, hi := 2 ^ 52 } else sp

/-- The ranges that a command reads (R263); those of its index list apart. -/
def State.readSpans (s : State) (u : Nat) (c : CCmd) : List Span :=
  let (op, o) := c.fields
  if op = 0x0A ∨ op = 0x0B then (localRange (sreg c.stg 0)).span u
  else ((operandsOf op o c.stg c.index).filter (fun k => k.rd)).map (fun k => unread c (s.spanOf u k) k)

/-- The ranges that a command writes (R263). -/
def State.writeSpans (s : State) (u : Nat) (c : CCmd) : List Span :=
  let (op, o) := c.fields
  if op = 0x0A ∨ op = 0x0B then (localRange (sreg c.stg 1)).span u
  else ((operandsOf op o c.stg c.index).filter (fun k => k.wr)).map (fun k => unread c (s.spanOf u k) k)

/-- A started command has read its last source byte (R81, R263). -/
def CCmd.readDone (c : CCmd) : Bool :=
  (c.phase == .moved || (c.phase == .started && c.runs.all (fun r => r.src.isNone))) && c.fields.1 != 0x06

/-! ### Errors -/

/-- The sticky bits of CSTAT (R271). -/
def csPrefDrop : Nat := 3
def csPeer : Nat := 2
def csErr : Nat := 1

/-- CSTAT with an error recorded (R252, R270, R271). -/
def cstatError (w : Word) (bit code tag : Nat) : Word :=
  setBit (setField (setField w 16 (BitVec.ofNat 8 code)) 8 (BitVec.ofNat 6 tag)) bit

/-- The destination units of the pieces that a command could not obtain (R252). -/
def CCmd.lostUnits (c : CCmd) : List (Place × Nat) :=
  c.lost.filterMap (fun i => c.runs[i]?.map (fun r => (r.dst.place, r.dst.addr / 64)))

/-! ### Suspension -/

/-- A piece that lands in DRAM. -/
def Run.toDram (r : Run) : Bool := r.dst.place == .dram

/-- The start of the slot of a request. -/
def CCmd.slotOf (c : CCmd) (i : Nat) : Option Nat := (c.reqs[i]?).bind (·.slot)

/-- A piece is of a destination unit of which the command could not obtain some data, so that it is not written (R252). -/
def CCmd.unwritten (c : CCmd) (r : Run) : Bool := c.lostUnits.contains (r.dst.place, r.dst.addr / 64)

/-- When the write of a piece has landed, by the slot of its request (R410). -/
def CCmd.wroteAt (c : CCmd) (r : Run) : Option Nat := (r.wreq.bind c.slotOf).map (· + ns 64)

/-- A piece of a copy has come to its end at a time: it has arrived, and what lands in DRAM may land (R253, R410). -/
def CCmd.pieceDone (now : Nat) (c : CCmd) (i : Nat) : Bool :=
  match c.runs[i]? with
  | none => true
  | some r =>
    r.wrote || ((c.got.any (fun g => g.1 == i) || c.lost.contains i) &&
      (!r.toDram || c.unwritten r || (match c.wroteAt r with | some t => decide (t ≤ now) | none => false)))

/-- Bytes of the destination sequence before a piece (R253). -/
def CCmd.lengthTo (c : CCmd) (n : Nat) : Nat := (c.runs.take n).foldl (fun a r => a + r.len) 0

/-- The piece before which a suspension stops a copy: the first at or after the next 4 KiB boundary of its destination
sequence (R253). -/
def CCmd.stopAt (now : Nat) (c : CCmd) : Nat :=
  let p := ((List.range c.runs.length).takeWhile (c.pieceDone now)).length
  let want := (c.lengthTo p + 4095) / 4096 * 4096
  ((List.range c.runs.length).find? (fun n => decide (p ≤ n) && decide (want ≤ c.lengthTo n))).getD c.runs.length

/-- The last request that the pieces before `n` use, reads or writes. -/
def CCmd.lastReq (c : CCmd) (n : Nat) (write : Bool) : Option Nat :=
  ((c.runs.take n).filterMap (fun r => if write then r.wreq else r.req)).foldl
    (fun (m : Option Nat) i => some (max i (m.getD 0))) none

/-- A started copy is to stop at its 4 KiB boundary: requests beyond it that have not been served give their slots up
(R253). -/
def CCmd.suspend (now : Nat) (c : CCmd) : CCmd :=
  if (c.phase ≠ .started ∧ c.phase ≠ .moved) ∨ c.runs.isEmpty ∨ c.stop.isSome then c
  else
    let n := c.stopAt now
    let beyond (i : Nat) (r : Req) : Bool :=
      match c.lastReq n r.write with
      | none => true
      | some m => decide (m < i)
    let served (r : Req) : Bool :=
      match r.slot with
      | none => false
      | some t => decide (t + ns (if r.write then 64 else 288) ≤ now)
    { c with
      stop := some n
      reqs := (List.range c.reqs.length).filterMap (fun i => (c.reqs[i]?).map (fun r =>
        if beyond i r && !(served r) then { r with slot := none, held := true } else r)) }

/-- A suspended copy goes on, and its requests that gave their slots up take new ones (R253). -/
def CCmd.revive (now : Nat) (c : CCmd) : CCmd :=
  { c with
    stop := none
    reqs := c.reqs.map (fun r => if r.held then { r with held := false, ready := max now r.ready } else r) }

/-- A copy has come to the boundary at which it stops. -/
def CCmd.stopped (now : Nat) (c : CCmd) : Bool :=
  match c.stop with
  | none => true
  | some n => (List.range n).all (c.pieceDone now)

/-- No matrix command of the unit has started and not completed (R242, R296). -/
def Unit.matrixStill (x : Unit) : Bool := x.mq.all (fun m => m.started.isNone)

/-- Every started copy of a unit is to stop (R253). -/
def Unit.suspendCopies (now : Nat) (x : Unit) : Unit :=
  { x with q0 := x.q0.map (CCmd.suspend now), q1 := x.q1.map (CCmd.suspend now) }

/-- The copies of a frozen or halted unit stop once its started matrix commands have completed (R296, R301). -/
def Unit.stopCopies (now : Nat) (x : Unit) : Unit :=
  if (x.run = .frozen ∨ x.run = .halted) ∧ x.matrixStill then x.suspendCopies now else x

end Sys2Proof.Machine
end

