-- ==== Sys2Proof/Machine/Regions.lean ====
section
/-!
DEFINITION. Region tables and ownership (R86 to R91, R163): which copies, transfers and atomic operations a
unit's state admits, and the change that an `XFER` makes.
-/
namespace Sys2Proof.Machine

/-- An entry covers an address of a space (R86). -/
def Region.covers (r : Region) (seg : Bool) (aspace a : Nat) : Bool :=
  r.seg == seg && r.aspace == aspace && decide (r.base ≤ a) && decide (a < r.base + 64 * r.units)

/-- The state of the 64-byte unit at an address in a cluster's table; `none` where it is unlisted (R86). -/
def State.regionAt (s : State) (k : Nat) (seg : Bool) (aspace a : Nat) : Option Region :=
  (s.cluster k).regions.find? (fun r => r.covers seg aspace a)

/-- What a table does with an access. -/
inductive Verdict
  | allowed | refused | waits
deriving DecidableEq, Repr

/-- A copy of a unit of team `node` and member `m`, with serial `n`, against a region state (R86, R89). -/
def Region.verdict (r : Region) (node : Option Nat) (m n : Nat) (write : Bool) : Verdict :=
  match r.st with
  | .owned o => if r.node = node ∧ o = m then .allowed else .refused
  | .transfer src dst since =>
    if r.node ≠ node then .refused
    else if src = m ∧ n < since then .allowed
    else if dst = m then .waits
    else .refused
  | .frozen => if write then .refused else .allowed
  | .atomic => .refused
  | .host => .refused

/-- A copy of unit `u` with serial `n` against the 64 KiB unit of a tile buffer that holds an offset (R86,
R89). -/
def State.bufVerdict (s : State) (u v : Nat) (b : Buf) (a n : Nat) : Verdict :=
  let x := s.unit u
  let y := s.unit v
  match tget (.owned y.member) y.own (ownIndex b a) with
  | .owned m => if m = x.member then .allowed else .refused
  | .transfer m since =>
    if u = v ∧ n < since then .allowed else if m = x.member then .waits else .refused

/-- A copy of tile `u` with serial `n` against the unit at an address of a space (R86, R88). -/
def State.copyVerdict (s : State) (u n : Nat) (sp : Space) (write : Bool) (a : Nat) : Verdict :=
  let x := s.unit u
  match sp with
  | .buf v b => s.bufVerdict u v b a n
  | sp =>
    match s.regionAt (clusterOf u) (sp == .seg) x.card.aspace a with
    | none => .refused
    | some r => r.verdict x.team x.member n write

/-- The word at a segment address lies in an ATOMIC region of the table that unit `u` meets: its cluster's, or
that of the word's home cluster for a service or root sequencer (R91, R165). -/
def State.atomicAt (s : State) (u home a : Nat) : Bool :=
  let k := match unitKind u with
    | .tile => clusterOf u
    | .comm => clusterOf u
    | _ => home
  match s.regionAt k true (s.unit u).card.aspace a with
  | none => false
  | some r => r.st == .atomic

/-! ### XFER -/

/-- What the address register of an `XFER` names (R163). -/
inductive XTarget
  | space (seg : Bool) (a : Nat)
  | buf (b : Buf) (a : Nat)
deriving DecidableEq, Repr

/-- The address register of an `XFER`, `none` where a bit that must be zero is set or SPACE is 11 (R163). -/
def xferTarget (w : Word) : Option XTarget :=
  if field w 52 10 ≠ 0 then none
  else match (field w 62 2).toNat with
    | 0 => some (.space false (field w 0 52).toNat)
    | 1 => if field w 40 12 = 0 then some (.space true (field w 0 40).toNat) else none
    | 2 => if field w 22 30 = 0 then some (.buf (bufOf (field w 20 2).toNat) (field w 0 20).toNat) else none
    | _ => none

/-- TRAPVAL of a refused region address: the address in its space (R163). -/
def XTarget.addr : XTarget → Nat
  | .space _ a => a
  | .buf _ a => a

/-- The faults of an `XFER`, in the order of R163.  That TRAPVAL of LOCAL_BOUNDS and OWNERSHIP is the offset or address alone,
without the operand's other fields, is the model's choice (DESIGN CHOICE, log entry 112). -/
def State.xferTrap (s : State) (u : Nat) (x : Unit) (a b : Word) : Option (Cause × Word) :=
  match xferTarget a with
  | none => some (.illegalOperand, a)
  | some t =>
    if x.teamSize ≤ b.toNat then some (.illegalOperand, b)
    else match t with
      | .buf bf off =>
        if bufSize u bf ≤ off then some (.localBounds, BitVec.ofNat 64 off)
        else if x.owns u bf off then none
        else some (.ownership, BitVec.ofNat 64 off)
      | .space seg ad =>
        match s.regionAt (clusterOf u) seg x.card.aspace ad with
        | none => some (.ownership, BitVec.ofNat 64 ad)
        | some r =>
          if r.st = .owned x.member ∧ r.node = x.team then none else some (.ownership, BitVec.ofNat 64 ad)

/-- The region list with the entry that covers an address replaced. -/
def regionMap (f : Region → Region) (seg : Bool) (aspace a : Nat) : List Region → List Region
  | [] => []
  | r :: rs => if r.covers seg aspace a then f r :: rs else r :: regionMap f seg aspace a rs

/-- The module with a region handed over by unit `u` to member `m`: IN TRANSFER from the command serial on
(R89); no effect where the target is the owner. -/
def State.xfer (s : State) (u : Nat) (t : XTarget) (m : Nat) : State :=
  let x := s.unit u
  if m = x.member then s
  else match t with
    | .buf b a => s.modUnit u (fun x => { x with own := tput x.own (ownIndex b a) (.transfer m x.serial) })
    | .space seg a =>
      let k := clusterOf u
      let c := s.cluster k
      s.setCluster k { c with regions := regionMap (fun r => { r with st := .transfer x.member m x.serial }) seg
                                x.card.aspace a c.regions }

end Sys2Proof.Machine
end

