-- ==== Sys2Proof/Machine/LocalOps.lean ====
section
/-!
DEFINITION. Local accesses: the bytes that a scalar or vector load or store and a stream instruction touch, the
checks of R155 and R200, and the gated-store entries that a store needs (R201, R293).
-/
namespace Sys2Proof.Machine

/-! ### Scalar accesses -/

/-- Size of a scalar access, the effective offset and its buffer (R155). -/
structure SAccess where
  buf : Buf
  size : Nat
  ea : Int
deriving DecidableEq, Repr

/-- The access of `LD`, `LDSP` and `ST` (R155). -/
def Unit.scalarAccess (x : Unit) (buf : Buf) (f : BitVec 3) (o : SR) : SAccess :=
  let s := 2 ^ (field f 0 2).toNat
  { buf := buf, size := s, ea := ((x.sreg o.a).v.toNat : Int) + o.b.toInt * s }

/-- The first condition of R155 that holds, with its TRAPVAL: of an exact address that needs more than 64 bits, the low
64 (DESIGN CHOICE, log entry 84). -/
def SAccess.trap (u : Nat) (x : Unit) (a : SAccess) : Option (Cause × Word) :=
  let size := bufSize u a.buf
  if a.ea % a.size ≠ 0 then some (.misalign, BitVec.ofInt 64 a.ea)
  else if a.ea < 0 then some (.localBounds, BitVec.ofInt 64 a.ea)
  else if (size : Int) < a.ea + a.size then some (.localBounds, BitVec.ofInt 64 (max size a.ea))
  else if !(x.owns u a.buf a.ea.toNat) then some (.ownership, BitVec.ofInt 64 a.ea)
  else none

/-- The bytes that a scalar access touches, as a range. -/
def SAccess.span (u : Nat) (a : SAccess) : Span :=
  { space := .buf u a.buf, lo := a.ea, hi := a.ea + a.size - 1 }

/-! ### Vector accesses -/

/-- One element of a vector access: its index, its lane, its first byte and its size (R203). -/
structure VElem where
  e : Nat
  lane : Nat
  addr : Int
  size : Nat
deriving DecidableEq, Repr

/-- What a buffer instruction or stream instruction touches: its buffer, its governed elements, the alignment
each must have, and for `VLD` and `VST` the one address that is checked. -/
structure VAccess where
  buf : Buf
  elems : List VElem
  align : Nat
  ea : Option Int
deriving DecidableEq, Repr

/-- sext of a 12-bit immediate {vc, vb} and of a 6-bit immediate vc (R202). -/
def imm12 (o : VOps) : Int := (o.vc ++ o.vb : BitVec 12).toInt

/-- Lane 0 of a register as an unsigned base (R199). -/
def VSrc.base (s : VSrc) : Int := laneAt s.lo 0

/-- The governed elements of width `w` with their addresses (R203). -/
def governed (gov : Mask) (w : Nat) (addr : Nat → Int) (size : Nat) : List VElem :=
  (lanes.filter (bitOf gov)).flatMap (fun l =>
    (List.range (perLane w)).map (fun k =>
      let e := perLane w * l + k
      { e := e, lane := l, addr := addr e, size := size }))

/-- The buffer that fn[47:46] selects (R199). -/
def vbufOf (o : VOps) : Buf := bufOf (o.fn.toNat / 8)

/-- Element `e` of a register read as an index: an unsigned element of the width, a lane for `.d64` (R203). -/
def indexAt (v : VReg) (w e : Nat) : Nat :=
  if w = 64 then laneAt v e else v.toNat / 2 ^ (w * e) % 2 ^ w

/-- The access of a buffer instruction, opcodes 0x40 to 0x47 (R199, R202, R203, R205).  Bytes that a `VSTB` does not write, for
their enable bit or their lane, count neither in its checks nor in its bounding range (DEDUCED, log entry 96). -/
def Unit.vaccess (x : Unit) (c : Cluster) (op : Nat) (o : VOps) : VAccess :=
  let g := (x.gov c o).1
  let b := (x.vsrc c o.va).base
  let vb := (x.vsrc c o.vb).lo
  let w := intWidth o.ty
  let s := w / 8
  let buf := vbufOf o
  match op with
  | 0x40 | 0x41 =>
    let ea := b + 256 * imm12 o
    { buf := buf, elems := governed g 32 (fun e => ea + 4 * e) 4, align := 1, ea := some ea }
  | 0x42 => { buf := buf, elems := governed g 32 (fun e => b + o.vc.toInt + 4 * e) 4, align := 1, ea := none }
  | 0x43 =>
    let es := (governed g 8 (fun e => b + o.vc.toInt + e) 1).filter (fun t => bitOf vb t.e)
    { buf := buf, elems := es, align := 1, ea := none }
  | 0x44 | 0x45 =>
    let sg : Int := (BitVec.ofNat 32 (laneAt vb 0)).toInt
    { buf := buf, elems := governed g w (fun e => b + e * sg) s, align := s, ea := none }
  | _ => { buf := buf, elems := governed g w (fun e => b + s * indexAt vb w e) s, align := s, ea := none }

/-- The stream that fn[44:43] selects (R213). -/
def streamOf (o : VOps) : Nat := o.fn.toNat % 4

/-- SB offset of word `p` of a stream (R212). -/
def streamWord (q : Nat) (t : Stream) (p : Nat) : Nat := 0x8000 * q + 4 * ((t.head + p) % 8192)

/-- How many lanes a mask governs. -/
def laneCount (g : Mask) : Nat := (lanes.filter (bitOf g)).length

/-- Words of a stream as elements. -/
def streamElems (q : Nat) (t : Stream) (from_ n : Nat) : List VElem :=
  (List.range n).map (fun i => { e := i, lane := i, addr := streamWord q t (from_ + i), size := 4 })

/-- Words that `SBAL` pads a stream of count `c` with (R214). -/
def sbalPad (c : Nat) : Nat := (64 - c % 64) % 64

/-- The access of a stream instruction (R214). -/
def Unit.streamAccess (x : Unit) (c : Cluster) (op : Nat) (o : VOps) : VAccess :=
  let g := (x.gov c o).1
  let q := streamOf o
  let t := tget {} x.regs.streams q
  let u := if o.ty = 3 then 2 else 1
  let es : List VElem :=
    match op with
    | 0x4E => streamElems q t t.count (u * laneCount g)
    | 0x4F => streamElems q t 0 (u * min (laneCount g) (t.count / u))
    | 0x50 => streamElems q t t.count (sbalPad t.count)
    | _ => []
  { buf := .sb, elems := es, align := 4, ea := none }

/-- Words that a push adds to a stream beyond its 8,192 (R214). -/
def Unit.streamFull (x : Unit) (c : Cluster) (op : Nat) (o : VOps) : Option Word :=
  let q := streamOf o
  let t := tget {} x.regs.streams q
  let n := (x.streamAccess c op o).elems.length
  if (op = 0x4E ∨ op = 0x50) ∧ 8192 < t.count + n then some (BitVec.ofNat 64 (0x8000 * q + 4 * t.head)) else none

/-- Slot bit numbers of the marked registers that a buffer instruction or `SPUSH` reads as address, stride,
index, byte enable or store data (R200, condition 1). -/
def Unit.markedFields (x : Unit) (c : Cluster) (op : Nat) (o : VOps) : List Nat :=
  let p := o.ty == 3
  let data := need 8 (!(x.vop c p o.vd).d)
  let a := need 14 (!(x.vsrc c o.va).d)
  let b := need 20 (!(x.vsrc c o.vb).d)
  match op with
  | 0x40 | 0x42 => a
  | 0x41 => data ++ a
  | 0x43 => data ++ a ++ b
  | 0x44 | 0x46 => a ++ b
  | 0x45 | 0x47 => data ++ a ++ b
  | 0x4E => need 14 (!(x.vop c p o.va).d)
  | _ => []

/-- Offset of the first byte of an element outside its buffer (R200). -/
def VElem.outside (size : Nat) (t : VElem) : Option Word :=
  if t.addr < 0 then some (BitVec.ofInt 64 t.addr)
  else if (size : Int) < t.addr + t.size then some (BitVec.ofInt 64 (max size t.addr))
  else none

/-- First byte of an element in a 64 KiB unit that the tile does not own (R200). -/
def VElem.foreign (u : Nat) (x : Unit) (buf : Buf) (t : VElem) : Option Word :=
  (x.unowned u buf [(t.addr.toNat, t.size)]).map (BitVec.ofNat 64)

/-- Conditions 2 to 4 of R200, with the LOCAL_BOUNDS of a full stream among the bounds (R214). -/
def VAccess.trap (u : Nat) (x : Unit) (full : Option Word) (a : VAccess) : Option (Cause × Word) :=
  let size := bufSize u a.buf
  let mis : Option Word :=
    match a.ea with
    | some ea => if !a.elems.isEmpty ∧ ea % 256 ≠ 0 then some (BitVec.ofInt 64 ea) else none
    | none => firstSome (fun (t : VElem) =>
        if t.addr % a.align = 0 then none else some (BitVec.ofInt 64 t.addr)) a.elems
  firstSome id [mis.map (fun w => (Cause.misalign, w)), full.map (fun w => (Cause.localBounds, w)),
    (firstSome (VElem.outside size) a.elems).map (fun w => (Cause.localBounds, w)),
    (firstSome (VElem.foreign u x a.buf) a.elems).map (fun w => (Cause.ownership, w))]

/-- The bounding range of an access; none where it touches no byte (R80, R201). -/
def VAccess.spans (u : Nat) (a : VAccess) : List Span :=
  match a.elems with
  | [] => []
  | t :: ts => [{ space := .buf u a.buf
                  lo := ts.foldl (fun m e => min m e.addr) t.addr
                  hi := ts.foldl (fun m e => max m (e.addr + e.size - 1)) (t.addr + t.size - 1) }]

/-- Value of the bytes of one element, little-endian (R2, R204). -/
def Unit.readElem (x : Unit) (buf : Buf) (t : VElem) : Nat := natOfBytes (x.bread buf t.addr.toNat t.size)

/-- Data of one element of a store: the bytes of element `e` of the data register (R205). -/
def storeBytes (d : VSrc) (w : Nat) (t : VElem) : List (Nat × Byte) :=
  placed t.addr.toNat (toBytes (BitVec.ofNat 64 (d.el w t.lane (t.e % perLane w))) t.size)

/-- The bytes of a list split by the aligned 256-byte block they lie in, blocks in ascending order: one
gated-store entry each (R201). -/
def byBlock (bs : List (Nat × Byte)) : List (List (Nat × Byte)) :=
  let blocks := (bs.map (fun b => b.1 / 256)).foldl (fun (acc : List Nat) k =>
    if acc.contains k then acc else acc ++ [k]) []
  blocks.map (fun k => bs.filter (fun b => b.1 / 256 == k))

/-- The bytes that a vector store writes, in ascending element order (R205). -/
def Unit.vstoreBytes (x : Unit) (c : Cluster) (op : Nat) (o : VOps) : List (Nat × Byte) :=
  let a := x.vaccess c op o
  let w := match op with | 0x41 => 32 | 0x43 => 8 | _ => intWidth o.ty
  let d := x.vop c (o.ty == 3 && (op == 0x45 || op == 0x47)) o.vd
  a.elems.flatMap (storeBytes d w)

/-- The words that `SPUSH` pushes, in order (R214). -/
def Unit.pushWords (x : Unit) (c : Cluster) (o : VOps) : List Nat :=
  let g := (x.gov c o).1
  let v := x.vop c (o.ty == 3) o.va
  (lanes.filter (bitOf g)).flatMap (fun l =>
    if o.ty = 3 then [laneAt v.lo l, laneAt v.hi l] else [laneAt v.lo l])

/-- Bytes of words written to stream words (R214). -/
def streamBytes (es : List VElem) (ws : List Nat) : List (Nat × Byte) :=
  (es.zip ws).flatMap (fun p => placed p.1.addr.toNat (toBytes (BitVec.ofNat 32 p.2) 4))

/-- How many gated-store entries a slot needs; none in handler mode (R201, R293). -/
def Unit.gateNeed (x : Unit) (i : Instr) : Nat :=
  if x.handler || !x.executes i then 0
  else match i with
    | .st _ _ _ => 1
    | .vst c o => (byBlock (x.vstoreBytes c 0x41 o)).length
    | .vstb c o => (byBlock (x.vstoreBytes c 0x43 o)).length
    | .vsts c o => (byBlock (x.vstoreBytes c 0x45 o)).length
    | .vstx c o => (byBlock (x.vstoreBytes c 0x47 o)).length
    | .spush c o => (byBlock (streamBytes (x.streamAccess c 0x4E o).elems (x.pushWords c o))).length
    | .sbal c o =>
      let a := x.streamAccess c 0x50 o
      (byBlock (streamBytes a.elems (a.elems.map (fun _ => 0)))).length
    | _ => 0

/-- The ranges of its own buffers that a slot reads and writes at issue (R81, R201, R261). -/
def localSpans (u : Nat) (x : Unit) (i : Instr) : List Span × List Span :=
  match i with
  | .ld b f o => ([(x.scalarAccess b f o).span u], [])
  | .ldsp b f o =>
    if (x.sreg o.a).d ∨ ((x.scalarAccess b f o).trap u x).isSome then ([], [])
    else ([(x.scalarAccess b f o).span u], [])
  | .st b f o => ([], [(x.scalarAccess b f o).span u])
  | .scld _ o =>
    if o.from < 4 then
      let off := (field (sreg (x.block o) 0) 0 20).toNat
      ([{ space := .buf u (bufOf o.from), lo := off, hi := off + 1023 }], [])
    else ([], [])
  | i =>
    match vectorOf i with
    | none => ([], [])
    | some (op, c, o) =>
      if op = 0x40 ∨ op = 0x42 ∨ op = 0x44 ∨ op = 0x46 then ((x.vaccess c op o).spans u, [])
      else if op = 0x41 ∨ op = 0x43 ∨ op = 0x45 ∨ op = 0x47 then ([], (x.vaccess c op o).spans u)
      else if op = 0x4F then ((x.streamAccess c op o).spans u, [])
      else if op = 0x4E ∨ op = 0x50 then ([], (x.streamAccess c op o).spans u)
      else ([], [])

end Sys2Proof.Machine
end

