-- ==== Sys2Proof/Machine/Checks.lean ====
section
/-!
DEFINITION. Check 7 of R111 for every slot: deferred bits (R131, R200, R283), alignment, bounds, ownership and
the other issue checks; and the step of one slot instruction, which makes checks 3 to 7 and then either traps or
takes effect.
-/
namespace Sys2Proof.Machine

/-! ### Deferred bits -/

/-- Slot bit numbers of the scalar operands of an instruction that may not carry D (R131, R283). -/
def Unit.markedScalars (x : Unit) : Instr → List Nat
  | .st _ _ o => need 6 (!(x.sreg o.d).d) ++ need 12 (!(x.sreg o.a).d)
  | .ld _ _ o | .br o | .ret o | .stg o | .waitcMask o | .wrsys o | .sld o => need 12 (!(x.sreg o.a).d)
  | .loop o => need 12 (!(x.sreg o.a).d)
  | .xfer o | .sst o => need 12 (!(x.sreg o.a).d) ++ need 18 (!(x.sreg o.b).d)
  | .atomAdd _ o | .atomAnd _ o | .atomOr _ o | .atomXor _ o | .atomMin _ o | .atomMax _ o
  | .atomMins _ o | .atomMaxs _ o | .atomXchg _ o => need 12 (!(x.sreg o.a).d) ++ need 18 (!(x.sreg o.b).d)
  | .atomCas _ o => need 6 (!(x.sreg o.d).d) ++ need 12 (!(x.sreg o.a).d) ++ need 18 (!(x.sreg o.b).d)
  | _ => []

/-! ### Loops -/

/-- The loop stack that a unit uses: the handler's single entry or the task's stack, top first (R152).  That a sequencer's trap
handler has the single entry too is the model's choice (DESIGN CHOICE, log entry 113). -/
def Unit.loopStack (x : Unit) : List LoopEntry :=
  if x.handler then x.hloop.toList else x.regs.loops

/-- The TRAPVAL of a `LOOP` that finds no free entry (R150, R152). -/
def Unit.loopFull (x : Unit) : Option Word :=
  if x.handler then (if x.hloop.isSome then some 1 else none)
  else if 4 ≤ x.regs.loops.length then some 4 else none

/-! ### Atomics -/

/-- The width in bytes and the fields of an `ATOM` (R164). -/
def atomOf : Instr → Option (AOp × Bool × SR)
  | .atomAdd d o => some (.add, d, o)
  | .atomAnd d o => some (.and, d, o)
  | .atomOr d o => some (.or, d, o)
  | .atomXor d o => some (.xor, d, o)
  | .atomMin d o => some (.min, d, o)
  | .atomMax d o => some (.max, d, o)
  | .atomMins d o => some (.mins, d, o)
  | .atomMaxs d o => some (.maxs, d, o)
  | .atomXchg d o => some (.xchg, d, o)
  | .atomCas d o => some (.cas, d, o)
  | _ => none

/-- Bytes of an `ATOM`'s word (R164). -/
def atomBytes (dbl : Bool) : Nat := if dbl then 8 else 4

/-- The faults of an `ATOM`, in the order of R165. -/
def State.atomTrap (s : State) (u : Nat) (x : Unit) (dbl : Bool) (a : Word) : Option (Cause × Word) :=
  if field a 40 24 ≠ 0 then some (.atomicFault, a)
  else if a.toNat % atomBytes dbl ≠ 0 then some (.misalign, a)
  else
    match s.walkSegment x.card.aspace a.toNat with
    | none => some (.atomicFault, a)
    | some t =>
      let home := match t.place with | .sram k => k | _ => 0
      if s.atomicAt u home a.toNat then none else some (.atomicFault, a)

/-! ### Barrier -/

/-- The members of the team of unit `u`, as units of its cluster (R13). -/
def State.teamUnits (s : State) (u : Nat) : List Nat :=
  match (s.unit u).team with
  | none => [u]
  | some t => ((List.range 16).map (fun i => u / 16 * 16 + i)).filter (fun v => (s.unit v).team == some t)

/-- The lowest member index of the team that has ended as faulted (R162). -/
def State.brokenBy (s : State) (u : Nat) : Option Nat :=
  match ((s.teamUnits u).filter (fun v => v != u && (s.unit v).run == .faulted)).map (fun v => (s.unit v).member) with
  | [] => none
  | m :: ms => some (ms.foldl min m)

/-! ### Check 7 -/

/-- The value that `WRSYS` of a register refuses (R60, R277). -/
def wrsysRefused (n : Nat) (w : Word) : Bool :=
  if n = 0x000 then field w 0 3 == 7
  else if n = 0x006 ∨ n = 0x008 then decide (w.toNat % 32 ≠ 0) || decide (2 ^ 17 ≤ w.toNat)
  else false

/-- Check 7 of a scalar slot that executes, apart from deferred bits (R149, R150, R155, R162, R163, R165, R277,
R282). -/
def State.scalarTrap (s : State) (u : Nat) (x : Unit) (i : Instr) : Option (Cause × Word) :=
  match i with
  | .ld b f o => (x.scalarAccess b f o).trap u x
  | .st b f o => (x.scalarAccess b f o).trap u x
  | .br o | .ret o =>
    let t := (x.sreg o.a).v
    if t.toNat % 32 = 0 then none else some (.misalign, t)
  | .loop o =>
    if field (x.sreg o.a).v 0 32 = 0 then none else x.loopFull.map (fun w => (Cause.illegalOperand, w))
  | .bar _ => (s.brokenBy u).map (fun m => (Cause.barrierBroken, BitVec.ofNat 64 m))
  | .xfer o => s.xferTrap u x (x.sreg o.a).v (x.sreg o.b).v
  | .wrsys o =>
    let w := (x.sreg o.a).v
    if wrsysRefused (numBD o) w then some (.illegalOperand, w) else none
  | .sld o | .sst o =>
    let a := (x.sreg o.a).v
    if a.toNat % 8 ≠ 0 then some (.misalign, a)
    else if field a 40 24 ≠ 0 ∨ (cregOf a.toNat).isNone then some (.localBounds, a)
    else none
  | i =>
    match atomOf i with
    | some (_, dbl, o) => s.atomTrap u x dbl (x.sreg o.a).v
    | none => none

/-- The staging snapshot of a matrix command: the registers from mg s on (R221). -/
def Unit.matrixStaging (x : Unit) (var : Nat) (o : MOps) : List Word :=
  (x.mgs.drop o.set.toNat).take (stagingCount var o.acc)

/-- Check 7 of a vector slot (R200, R214). -/
def vectorTrap (u : Nat) (x : Unit) (k op : Nat) (c : Cluster) (o : VOps) : Option (Cause × Word) :=
  match x.markedFields c op o with
  | b :: bs => some (.deferredStore, fieldVal k (leastOf 0 (b :: bs)))
  | [] =>
    if 0x40 ≤ op ∧ op ≤ 0x47 then (x.vaccess c op o).trap u x none
    else if 0x4E ≤ op ∧ op ≤ 0x50 then (x.streamAccess c op o).trap u x (x.streamFull c op o)
    else none

/-- Check 7 of one slot of unit `u`, whose sources `x` gives; a slot that does not execute has none beyond the
deferred bit of its predicate (R111, R129, R131). A marked predicate is named before a marked field of a lower bit
(DESIGN CHOICE, log entry 83). -/
def State.slotTrap (s : State) (u : Nat) (x : Unit) (i : Instr) : Option (Cause × Word) :=
  let k := slotOf i
  if x.predMarked i then some (.deferredStore, fieldVal k (predBit i))
  else if !x.executes i then none
  else match vectorOf i with
    | some (op, c, o) => vectorTrap u x k op c o
    | none =>
      match matrixOf i with
      | some (var, o) => matrixTrap u x var o (x.matrixStaging var o)
      | none =>
        match copyOf i with
        | some (op, _, o) => copyTrap u x k op o
        | none =>
          match x.markedScalars i with
          | b :: bs => some (.deferredStore, fieldVal k (leastOf 0 (b :: bs)))
          | [] => s.scalarTrap u x i

/-- GATE_OVERFLOW of a slot: entries held before it, entries that it needs, and the entries of the whole bundle
for TRAPVAL (R201, R293). -/
def gateTrap (held need_ total : Nat) : Option (Cause × Word) :=
  if 0 < need_ ∧ 64 < held + need_ then some (.gateOverflow, BitVec.ofNat 64 total) else none

/-! ### One slot -/

/-- The first fault of checks 3 to 7 of R111 for one slot of unit `u` alone. -/
def State.slotFault (s : State) (u : Nat) (i : Instr) : Option (Cause × Word) :=
  let x := s.unit u
  let k := slotOf i
  let at_ (c : Cause) : List Nat → Option (Cause × Word)
    | [] => none
    | b :: bs => some (c, fieldVal k (leastOf 0 (b :: bs)))
  let held := x.gated.length
  firstSome id [at_ .illegalEncoding (profileFaults (unitKind u) i), at_ .illegalEncoding (encodingFaults i),
    at_ .privilege (privilegeFaults (modeOf u x) i), at_ .illegalOperand (operandFaults i),
    s.slotTrap u x i, gateTrap held (x.gateNeed i) (held + x.gateNeed i)]

/-- A slot instruction on the unit that issues.  Within a bundle in issue, whose checks are made, only its
effect happens, where its predicate holds (R38, R129); alone, it makes checks 3 to 7 first and traps on the first
that fails. -/
def State.slotStep (s : State) (i : Instr) (eff : State → State) : Host.Outcome State Fault Refusal :=
  if unitCount ≤ s.focus then .fault (.noSuchPart s.focus)
  else if s.issue.snap.isSome then .next (if s.src.executes i then eff s else s)
  else
    match s.slotFault s.focus i with
    | some t => .next (s.modCur (fun x => x.syncTrap s.focus t.1 t.2))
    | none => .next (if s.src.executes i then eff s else s)

end Sys2Proof.Machine
end

