-- ==== Sys2Proof/Machine/Scoreboard.lean ====
section
/-!
DEFINITION. The scoreboard of a unit (R79 to R83): the ranges that its queued commands hold, when a later access
must wait, and the bytes that a command reads as they were before its own bundle's writes.
-/
namespace Sys2Proof.Machine

/-- A queued command on the scoreboard: its place in issue order, its bundle, and the ranges that it has still to
read and to write. -/
structure Entry where
  serial : Nat
  bundle : Nat
  reads : List Span
  writes : List Span
deriving DecidableEq, Repr

/-- The number of a matrix variant (R122). -/
def MVar.num : MVar → Nat
  | .mm => 0
  | .mms24 => 1
  | .mms48 => 2
  | .mmt => 3
  | .azero => 4
  | .ascl => 5
  | .acvt => 6

/-- The bounding range of a matrix operand (R80, R240). -/
def MOperand.span (u : Nat) (d : MOperand) : Span :=
  let as := (List.range d.rows).map (rowBase d)
  { space := .buf u d.buf, lo := (as.foldl min (as.headD 0) : Nat), hi := ((as.foldl max 0 : Nat) : Int) + d.len - 1 }

/-- The operands of a queued matrix command that lie in buffers (R240). -/
def MCmd.operands (m : MCmd) : List MOperand := (matrixOperands m.var.num m.o m.stg).filter MOperand.addresses

/-- A, B and metadata, which are released when the last operand byte is read (R240). -/
def MOperand.early (d : MOperand) : Bool := d.kind == .rows false

/-- What a matrix command reads and has not finished with (R240). -/
def MCmd.reads (u : Nat) (m : MCmd) : List Span :=
  ((m.operands).filter (fun d =>
    if d.early then !m.opsRead else d.kind != .rows true && m.var != .azero)).map (MOperand.span u)

/-- What a matrix command writes (R240). -/
def MCmd.writes (u : Nat) (m : MCmd) : List Span :=
  ((m.operands).filter (fun d => if m.var = .acvt then d.kind == .rows true else d.kind == .acc)).map (MOperand.span u)

/-- A matrix command on the scoreboard. -/
def MCmd.entry (u : Nat) (m : MCmd) : Entry :=
  { serial := m.serial, bundle := m.bundle, reads := m.reads u, writes := m.writes u }

/-- A copy-slot command on the scoreboard. -/
def State.copyEntry (s : State) (u : Nat) (c : CCmd) : Entry :=
  { serial := c.serial, bundle := c.bundle, reads := if c.readDone then [] else s.readSpans u c, writes := s.writeSpans u c }

/-- Every queued command of a unit on the scoreboard. -/
def State.entries (s : State) (u : Nat) : List Entry :=
  let x := s.unit u
  (x.q0 ++ x.q1).map (s.copyEntry u) ++ x.mq.map (MCmd.entry u)

/-- An earlier command makes an access wait (R81). Between two commands of one bundle the reads come before the
writes, so that the earlier one's write does not hold the later one's read (R79). -/
def Entry.blocks (e : Entry) (serial : Nat) (bundle : Option Nat) (reads writes : List Span) : Bool :=
  decide (e.serial < serial) &&
    (spansMeet e.writes writes || spansMeet e.reads writes || (bundle != some e.bundle && spansMeet e.writes reads))

/-- No earlier command makes the access wait (R81). -/
def State.clearFor (s : State) (u serial : Nat) (bundle : Option Nat) (reads writes : List Span) : Bool :=
  !((s.entries u).any (fun e => e.blocks serial bundle reads writes))

/-- A queued copy-slot command has no conflict left (R81, R82). -/
def State.copyClear (s : State) (u : Nat) (c : CCmd) : Bool :=
  s.clearFor u c.serial (some c.bundle) (s.readSpans u c) (s.writeSpans u c)

/-- A queued matrix command has no conflict left; a follow-on reads after its copy's writes (R79, R81). -/
def State.matrixClear (s : State) (u : Nat) (m : MCmd) : Bool :=
  s.clearFor u m.serial (if m.follow then none else some m.bundle) (m.reads u) (m.writes u)

/-- The local accesses of a slot have no conflict left (R81, R201). -/
def State.localClear (s : State) (u : Nat) (i : Instr) : Bool :=
  let x := s.unit u
  if !x.executes i then true
  else
    let a := localSpans u x i
    s.clearFor u x.serial none a.1 a.2

/-! ### Bytes before the bundle's writes -/

/-- The bytes of its own buffers that a slot stores at issue (R158, R205, R214). -/
def Unit.storedBytes (x : Unit) (i : Instr) : List (Buf × Nat) :=
  if !x.executes i then []
  else match i with
    | .st b f o =>
      let a := x.scalarAccess b f o
      (List.range a.size).map (fun k => (b, a.ea.toNat + k))
    | .vst c o => (x.vstoreBytes c 0x41 o).map (fun p => (vbufOf o, p.1))
    | .vstb c o => (x.vstoreBytes c 0x43 o).map (fun p => (vbufOf o, p.1))
    | .vsts c o => (x.vstoreBytes c 0x45 o).map (fun p => (vbufOf o, p.1))
    | .vstx c o => (x.vstoreBytes c 0x47 o).map (fun p => (vbufOf o, p.1))
    | .spush c o =>
      (streamBytes (x.streamAccess c 0x4E o).elems (x.pushWords c o)).map (fun p => (Buf.sb, p.1))
    | .sbal c o =>
      let es := (x.streamAccess c 0x50 o).elems
      (streamBytes es (es.map (fun _ => 0))).map (fun p => (Buf.sb, p.1))
    | _ => []

/-- The bytes that the bundle in issue stores over, as they were before it (R79). -/
def State.bundleOld (s : State) : List (Loc × Byte) :=
  (s.issue.slots.flatMap s.src.storedBytes).map (fun p =>
    ({ place := .buf s.focus p.1, addr := p.2 }, s.src.bget p.1 p.2))

/-- The kept byte of a place, if any. -/
def oldByte (old : List (Loc × Byte)) (l : Loc) : Option Byte := (old.find? (fun p => p.1 == l)).map (·.2)

/-- Bytes of a place as a command reads them, its kept bytes first (R79). -/
def State.locReadOld (s : State) (old : List (Loc × Byte)) (l : Loc) (n : Nat) : List Byte :=
  (List.range n).map (fun i =>
    let a : Loc := { l with addr := l.addr + i }
    (oldByte old a).getD (s.locGet a))

/-- A buffer of a unit as a command reads it: gated stores included, those that a rollback discarded and the bytes kept for
the command over it (R79, R84, R249). -/
def Unit.bufferFor (u : Nat) (x : Unit) (gate : List Gated) (old : List (Loc × Byte)) (b : Buf) : Memory :=
  mwriteEach (({ x with gated := x.gated ++ gate } : Unit).commitGated.buf b) (old.filterMap (fun p =>
    if p.1.place = .buf u b then some (p.1.addr, p.2) else none))

/-- Bytes of a place as a copy-slot command of unit `u` reads them (R79, R84, R249). -/
def State.locReadFor (s : State) (u : Nat) (c : CCmd) (l : Loc) (n : Nat) : List Byte :=
  (List.range n).map (fun i =>
    let a : Loc := { l with addr := l.addr + i }
    let kept : Option Byte := match l.place with
      | .buf v b => if v = u then gatedByte c.gate b a.addr else none
      | _ => none
    (oldByte c.old a).getD (kept.getD (s.locGet a)))

/-- The list with a byte kept, unless one is already. -/
def addOld (old : List (Loc × Byte)) (l : Loc) (b : Byte) : List (Loc × Byte) :=
  if (oldByte old l).isSome then old else old ++ [(l, b)]

/-- The byte that a command reads at a place of unit `u` where memory holds `b`: a discarded gated store stands over it. -/
def gatedOver (u : Nat) (gate : List Gated) (l : Loc) (b : Byte) : Byte :=
  match l.place with
  | .buf v f => if v = u then (gatedByte gate f l.addr).getD b else b
  | _ => b

/-- A command of unit `u`, of bundle `b`, is about to write over the bytes `bs`: the commands of the same bundle that
have not read yet keep them (R79). -/
def State.keepBytes (s : State) (u serial b : Nat) (l : Loc) (bs : List Byte) : State :=
  let keep (gate : List Gated) (old : List (Loc × Byte)) : List (Loc × Byte) :=
    (List.range bs.length).foldl (fun old i =>
      let a : Loc := { l with addr := l.addr + i }
      addOld old a (gatedOver u gate a (bs.getD i 0))) old
  let copy (c : CCmd) : CCmd :=
    if c.bundle = b ∧ c.serial ≠ serial ∧ !c.readDone then { c with old := keep c.gate c.old } else c
  let mat (m : MCmd) : MCmd :=
    if m.bundle = b ∧ m.serial ≠ serial ∧ m.started.isNone ∧ !m.follow then { m with old := keep m.gate m.old } else m
  s.modUnit u (fun x => { x with q0 := x.q0.map copy, q1 := x.q1.map copy, mq := x.mq.map mat })

/-- The bytes at a place are kept before a write (R79). -/
def State.keepOld (s : State) (u serial b : Nat) (l : Loc) (n : Nat) : State :=
  s.keepBytes u serial b l (s.locRead l n)

/-- Bytes that a command writes in a place (R79, R84). -/
def State.engineWrite (s : State) (u serial b : Nat) (l : Loc) (bs : List Byte) : State :=
  (s.keepOld u serial b l bs.length).locWrite l bs

/-- The key of a page in the table of stays (R405). -/
def pageKey (aspace page : Nat) : Nat := aspace * 2 ^ 52 + page

/-- A command that completes gives back its busy counts and counts toward the stays of the pages that
it touched (R400, R405). -/
def State.release (s : State) (counted : List Nat) (xs : List Xlat) : State :=
  let keys := ((xs.filter (fun x => !x.seg)).map (fun x => pageKey x.aspace x.page)).foldl
    (fun l k => if l.contains k then l else l ++ [k]) []
  let s := s.busyDown counted
  { s with stays := s.stays.map (fun p => if keys.contains p.1 then (p.1, p.2 + 1) else p) }

/-- A trap that an engine command raises after its issue (R232, R252, R266). -/
def Pend.delayed (p : Pend) : Bool :=
  p.cause == .fidelityReplayLimit || p.cause == .collectiveFault || (p.cause == .copyAccess && !p.rollback)

/-- A delayed trap of an engine command becomes ready; an ended member is reported with it instead (R232, R286). -/
def Unit.postPend (x : Unit) (p : Pend) : Unit :=
  if x.run = .ending ∨ x.run = .faulting then
    { x with run := .faulting, trapCause := if x.run = .faulting then x.trapCause else p.cause.word }
  else if (x.run = .frozen ∨ x.run = .halted) ∧ (x.was = .ending ∨ x.was = .faulting) then
    { x with was := .faulting, trapCause := if x.was = .faulting then x.trapCause else p.cause.word }
  else { x with pend := x.pend ++ [{ p with late := x.waiting && !p.rollback }] }

/-- The unit with a data error of a command recorded, and its COPY_ACCESS ready (R252). -/
def Unit.copyError (now : Nat) (x : Unit) (c : CCmd) (code : Nat) : Unit :=
  ({ x with cstat := cstatError x.cstat csErr code c.tag } : Unit).postPend
    { cause := .copyAccess, resume := none, rollback := false, handler := c.handler, tag := c.tag, arose := now
      val := BitVec.ofNat 64 (c.pc % 2 ^ 32 * 2 ^ 32 + code * 256 + c.tag % 64) }

/-- The unit has no command left to complete. -/
def Unit.quiet (x : Unit) : Bool :=
  x.q0.isEmpty && x.q1.isEmpty && x.mq.isEmpty && x.sclds.isEmpty && x.mail.isEmpty

/-- A member that has executed `END` is reported when its last command has completed (R26, R154). -/
def Unit.settle (x : Unit) : Unit :=
  if x.run = .ending ∧ x.quiet then { x with run := .ended }
  else if x.run = .faulting ∧ x.quiet then { x with run := .faulted }
  else x

end Sys2Proof.Machine
end

