-- ==== Sys2Proof/Machine/CollOps.lean ====
section
/-!
DEFINITION. Collective and repartition records and what they mean (R323 to R344): fields and checks, iterations and
peers, the combines of a reduction, and the owners and places of repartitioned records.
-/
namespace Sys2Proof.Machine

/-! ### Records -/

/-- The number in `n` bytes of a record at an offset, little-endian (R2). -/
def recNat (r : List Byte) (off n : Nat) : Nat := natOfBytes ((r.drop off).take n)

/-- The signed 32-bit number of a record at an offset. -/
def recInt (r : List Byte) (off : Nat) : Int := (BitVec.ofNat 32 (recNat r off 4)).toInt

/-- NMEM of either record (R324, R340). -/
def recMembers (r : List Byte) : Nat := recNat r 0x04 2
/-- GROUP of either record. -/
def recGroup (r : List Byte) : Nat := recNat r 0x08 4
/-- OP of either record. -/
def recOp (r : List Byte) : Nat := recNat r 0x01 1
/-- MEMTAB of either record. -/
def recMemtab (r : List Byte) : Nat := recNat r 0x20 8
/-- CWORD of either record. -/
def recCword (r : List Byte) : Nat := recNat r 0x28 8
/-- PATIENCE of either record, in milliseconds. -/
def recPatience (r : List Byte) : Nat := recNat r 0x0E 2
/-- The chunk size of a collective record in bytes (R324). -/
def recChunk (r : List Byte) : Nat := 64 * recNat r 0x06 2
/-- How many levels of a collective record are in use (R324). -/
def recLevels (r : List Byte) : Nat := recNat r 0x03 1 % 4 + 1
/-- RSZ of a repartition record (R340). -/
def recSize (r : List Byte) : Nat := 8 * recNat r 0x03 1
/-- A repartition record is BALANCED (R340). -/
def recBalanced (r : List Byte) : Bool := recNat r 0x02 1 == 1

/-- A level of the nest: BOUND, PC, DS and SS (R326). -/
structure Level where
  bound : Nat
  pc : Int
  ds : Int
  ss : Int
deriving DecidableEq, Repr

/-- Level `l` of a collective record (R326). -/
def recLevel (r : List Byte) (l : Nat) : Level :=
  let o := 0x30 + 16 * l
  { bound := recNat r (o + 12) 4, pc := recInt r (o + 8), ds := recInt r (o + 4), ss := recInt r o }

/-- The levels in use, innermost first. -/
def recNest (r : List Byte) : List Level := (List.range (recLevels r)).map (recLevel r)

/-- The row size of an attention-triple chunk (R338). -/
def tripleRow (r : List Byte) : Nat :=
  let w := if recNat r 0x02 1 = 0 then 4 else 2
  64 * ((8 + w * recNat r 0x70 2 + 63) / 64)

/-- Every byte of a range of a record is zero. -/
def recZero (r : List Byte) (off n : Nat) : Bool := recNat r off n == 0

/-- Order 3 of R327 for a collective record: codes, limits and zero fields (R324 to R326). -/
def collRecordOk (r : List Byte) : Bool :=
  let op := recOp r
  let ctrl := recNat r 0x03 1
  let et := recNat r 0x02 1
  let nmem := recMembers r
  let stride := recInt r 0x1C
  let used (l : Nat) : Bool :=
    let v := recLevel r l
    if l < recLevels r then decide (1 ≤ v.bound) && v.ds % 64 == 0 && v.ss % 64 == 0 else recZero r (0x30 + 16 * l) 16
  decide (op ≤ 4) &&
    (recNat r 0 1 != 1 || (ctrl / 16 % 4 == 0 && op != 3)) &&
    (match op with
      | 1 => decide (et ≤ 4)
      | 2 => decide (et ≤ 4)
      | 3 => decide (et ≤ 1)
      | _ => et == 0) &&
    ctrl / 64 == 0 && ctrl / 4 % 4 == 0 && decide (ctrl / 16 % 4 ≤ 1) &&
    decide (2 ≤ nmem) && decide (nmem ≤ 1024) &&
    decide (1 ≤ recNat r 0x06 2) && decide (recNat r 0x06 2 ≤ 1024) && recGroup r != 0 &&
    decide (1 ≤ recNat r 0x0C 2) && decide (recNat r 0x0C 2 ≤ 64) &&
    decide (1 ≤ recNat r 0x18 4) && decide (recNat r 0x18 4 ≤ nmem) &&
    stride % 64 == 0 && (op == 4 || stride == 0) &&
    recMemtab r % 8 == 0 && recCword r % 16 == 0 && (List.range 4).all used &&
    (if op = 3 then decide (1 ≤ recNat r 0x70 2) && decide (recNat r 0x70 2 ≤ 256) else recNat r 0x70 2 == 0) &&
    recZero r 0x72 14

/-- Order 3 of R327 for a repartition record (R340). -/
def repartRecordOk (r : List Byte) : Bool :=
  let nmem := recMembers r
  let rsize := recNat r 0x03 1
  recOp r == 5 && decide (recNat r 0x02 1 ≤ 1) && decide (1 ≤ rsize) && decide (rsize ≤ 32) &&
    decide (2 ≤ nmem) && decide (nmem ≤ 1024) && decide (recNat r 0x06 1 < rsize) && decide (recNat r 0x07 1 ≤ 52) &&
    recGroup r != 0 && recZero r 0x0C 2 && recZero r 0x18 8 && recMemtab r % 8 == 0 && recCword r % 16 == 0 &&
    recNat r 0x30 8 % 8 == 0 && (recBalanced r || recNat r 0x38 8 == 0) && recNat r 0x40 8 % 64 == 0 &&
    recNat r 0x48 8 % 4 == 0 && recZero r 0x50 48

/-- Order 4 of R327: the reductions name no peer (R327). -/
def reductionOk (r : List Byte) : Bool :=
  recOp r == 0 || recOp r == 4 ||
    (recInt r 0x14 == 0 && (recNest r).all (fun l => l.pc == 0) && recInt r 0x1C == 0 && recNat r 0x18 4 == 1)

/-! ### Iterations -/

/-- How many iterations the nest has (R330). -/
def recCount (r : List Byte) : Nat := (recNest r).foldl (fun n l => n * l.bound) 1

/-- The index of every level in iteration `t`, level 0 fastest (R330). -/
def indices : List Level → Nat → List Nat
  | [], _ => []
  | l :: ls, t => t % l.bound :: indices ls (t / l.bound)

/-- The sum of index times coefficient (R330). -/
def nestSum (f : Level → Int) (r : List Byte) (t : Nat) : Int :=
  (((recNest r).zip (indices (recNest r) t)).map (fun p => f p.1 * p.2)).foldl (· + ·) 0

/-- src(t) (R330). -/
def recSrc (r : List Byte) (t : Nat) : Int := nestSum Level.ss r t
/-- dst(t) (R330). -/
def recDst (r : List Byte) (t : Nat) : Int := nestSum Level.ds r t
/-- peer(m, t) (R330). -/
def recPeer (r : List Byte) (m t : Nat) : Nat :=
  (((m : Int) + recInt r 0x14 + nestSum Level.pc r t) % (recNat r 0x18 4 : Int)).toNat

/-- The lowest and the highest value of a sum of index times coefficient. -/
def nestSpan (f : Level → Int) (r : List Byte) : Int × Int :=
  (recNest r).foldl (fun (a : Int × Int) l =>
    let e := f l * ((l.bound : Int) - 1)
    (a.1 + min 0 e, a.2 + max 0 e)) (0, 0)

/-- Order 5 of R327: every source range lies in LOCAL_IN, and every destination range that lands on member `m` in its
LOCAL_OUT. -/
def collRangesOk (r : List Byte) (m lin lout : Nat) : Bool :=
  let c : Int := recChunk r
  let a := nestSpan Level.ss r
  let b := nestSpan Level.ds r
  let s := if recOp r = 4 then recInt r 0x1C * ((recMembers r : Int) - 1) else 0
  let lands := recOp r != 0 || decide (m < recNat r 0x18 4)
  decide (0 ≤ a.1) && decide (a.2 + c ≤ lin) &&
    (!lands || (decide (0 ≤ b.1 + min 0 s) && decide (b.2 + max 0 s + c ≤ lout)))

/-- A reduction: sum, max or attention-triple (R335). -/
def isReduction (r : List Byte) : Bool := recOp r == 1 || recOp r == 2 || recOp r == 3

/-- The members to which member `m` sends its chunk of iteration `t` (R331, R335). -/
def recTargets (r : List Byte) (m t : Nat) : List Nat :=
  if recOp r = 0 then [recPeer r m t] else List.range (recMembers r)

/-- The offset in LOCAL_OUT at which the chunk of member `f` and iteration `t` lands (R331). -/
def recLands (r : List Byte) (f t : Nat) : Int :=
  recDst r t + (if recOp r = 4 then recInt r 0x1C * f else 0)

/-- The iterations whose chunk member `f` sends to member `m`, in order (R331). -/
def recExpected (r : List Byte) (f m : Nat) : List Nat :=
  (List.range (recCount r)).filter (fun t => (recTargets r f t).contains m)

/-! ### Combines -/

/-- Elements of `w` bytes of a chunk. -/
def elems (w : Nat) (bs : List Byte) : List Nat := (List.range (bs.length / w)).map (elemAt bs w)

/-- The context of a combine: RNE, canonical NaNs, nothing flushed (R336). -/
def combineCtx : FCtx := { dn := true }

/-- One element of a sum (R336). -/
def sumElem (et a b : Nat) : Nat :=
  match et with
  | 0 => (Fmt.add .f32 combineCtx 0 a b).code
  | 1 => (Fmt.add .bf16 combineCtx 0 a b).code
  | 2 => (Fmt.add .f16 combineCtx 0 a b).code
  | _ => (a + b) % 2 ^ 32

/-- One element of a maximum (R336). -/
def maxElem (et a b : Nat) : Nat :=
  match et with
  | 0 => (Fmt.minMax .f32 combineCtx true a b).code
  | 1 => (Fmt.minMax .bf16 combineCtx true a b).code
  | 2 => (Fmt.minMax .f16 combineCtx true a b).code
  | 3 => if (BitVec.ofNat 32 a).toInt < (BitVec.ofNat 32 b).toInt then b else a
  | _ => max a b

/-- Bytes of an element of a sum or maximum (R325). -/
def elemBytes (et : Nat) : Nat := if et = 1 ∨ et = 2 then 2 else 4

/-- Two chunks combined element by element. -/
def combineElems (w : Nat) (f : Nat → Nat → Nat) (a b : List Byte) : List Byte :=
  ((elems w a).zip (elems w b)).flatMap (fun p => natBytes w (f p.1 p.2))

/-- Two rows of an attention triple merged, padding zero (R338, R339). -/
def mergeRow (et d row : Nat) (a b : List Byte) : List Byte :=
  let m1 := elemAt a 4 0
  let m2 := elemAt b 4 0
  let s := (trimX m1 m2 (elemAt a 4 1) (elemAt b 4 1)).code
  let v (i : Nat) : List Byte :=
    if et = 0 then natBytes 4 (trimX m1 m2 (elemAt (a.drop 8) 4 i) (elemAt (b.drop 8) 4 i)).code
    else natBytes 2 ((trimXb m1 m2 (elemAt (a.drop 8) 2 i) (elemAt (b.drop 8) 2 i)).code % 65536)
  (natBytes 4 (trimMax m1 m2).code ++ natBytes 4 s ++ (List.range d).flatMap v ++ List.replicate row 0).take row

/-- Two chunks of a reduction combined (R336, R339). -/
def combine (r : List Byte) (a b : List Byte) : List Byte :=
  let et := recNat r 0x02 1
  match recOp r with
  | 1 => combineElems (elemBytes et) (sumElem et) a b
  | 2 => combineElems (elemBytes et) (maxElem et) a b
  | _ =>
    let row := tripleRow r
    (List.range (a.length / row)).flatMap (fun i =>
      mergeRow et (recNat r 0x70 2) row ((a.drop (row * i)).take row) ((b.drop (row * i)).take row))

/-- The largest power of two below `n`, for `n` above 1 (R335). -/
def halfSplit (n : Nat) : Nat := 2 ^ (n - 1).log2

/-- The node of the binary tree over a list of chunks (R335). -/
def binaryTree (r : List Byte) : Nat → List (List Byte) → List Byte
  | 0, cs => cs.headD []
  | fuel + 1, cs =>
    if cs.length ≤ 1 then cs.headD []
    else
      let h := halfSplit cs.length
      combine r (binaryTree r fuel (cs.take h)) (binaryTree r fuel (cs.drop h))

/-- The root result over the chunks of members 0 on (R335). -/
def reduceChunks (r : List Byte) (cs : List (List Byte)) : List Byte :=
  if recNat r 0x03 1 / 16 % 4 = 1 then
    match cs with
    | [] => []
    | c :: ds => ds.foldl (combine r) c
  else binaryTree r cs.length cs

/-! ### Repartition -/

/-- The key of a record of a repartition (R340). -/
def recordKey (r : List Byte) (bs : List Byte) : Nat := recNat bs (8 * recNat r 0x06 1) 8

/-- The owner of a key under FIXED splitters (R342). -/
def fixedOwner (splits : List Nat) (k : Nat) : Nat := (splits.filter (fun s => decide (s ≤ k))).length

/-- The summed histograms (R342). -/
def sumHists (hs : List (List Nat)) : List Nat :=
  (List.range 4096).map (fun b => hs.foldl (fun n h => n + h.getD b 0) 0)

/-- Running sums of a list, beginning with zero: entry b is P(b − 1) (R342). -/
def runningSums : Nat → List Nat → List Nat
  | a, [] => [a]
  | a, x :: xs => a :: runningSums (a + x) xs

/-- The bucket splitters B_1 to B_(n − 1) of a summed histogram (R342). -/
def bucketSplitters (n : Nat) (h : List Nat) : List Nat :=
  let ps := runningSums 0 h
  let total := ps.getLastD 0
  (List.range (n - 1)).map (fun i =>
    let want := ((i + 1) * total + n - 1) / n
    ((List.range 4097).find? (fun b => decide (want ≤ ps.getD b 0))).getD 4096)

/-- The owner of a key under bucket splitters (R342). -/
def balancedOwner (shift : Nat) (splits : List Nat) (k : Nat) : Nat :=
  let b := min (k / 2 ^ shift) 4095
  (splits.filter (fun s => decide (s ≤ b))).length

/-- How many records each member owns, and the receiving capacity CAP and PCAP, of one member's records (R343). -/
def ownerCounts (n : Nat) (owners : List Nat) (cap pcap : Nat) : List Nat :=
  (List.range n).map (fun m => (owners.filter (· == m)).length) ++ [cap, pcap]

/-- The place of a record in its receiver's order: the `k`-th of sender `f` for receiver `m` (R343). -/
def placeOf (counts : List (List Nat)) (f m k : Nat) : Nat :=
  (List.range f).foldl (fun n g => n + (counts.getD g []).getD m 0) 0 + k

/-- CAP of a receiver (R341). -/
def capOf (counts : List (List Nat)) (n m : Nat) : Nat := (counts.getD m []).getD n 0
/-- PCAP of a receiver (R343). -/
def pcapOf (counts : List (List Nat)) (n m : Nat) : Nat := (counts.getD m []).getD (n + 1) 0

/-- LOCAL_IN indices of sender `f` that its receivers bounce, in the order (receiver, record) (R343). -/
def bouncedOf (counts : List (List Nat)) (n f : Nat) (owners : List Nat) : List Nat :=
  (List.range n).flatMap (fun m =>
    let mine := (List.range owners.length).filter (fun i => owners.getD i 0 == m)
    (List.range mine.length).filterMap (fun k =>
      if capOf counts n m + pcapOf counts n m ≤ placeOf counts f m k then mine[k]? else none))

end Sys2Proof.Machine
end

