-- ==== Sys2Proof/Machine/Coll.lean ====
section
/-!
DEFINITION. Collectives and repartition as the comm masters run them (R265, R266, R268, R323 to R347): dispatch with
its checks and reservations, credits, chunks and their application, the exchange of a repartition, waits on dark
peers, and the completion word.
-/
namespace Sys2Proof.Machine

/-! ### Contexts and commands -/

/-- The saved context of a unit for a team, if that team is not resident (R296). -/
def savedOf (t : Tbl Unit) (u : Nat) : Option Unit := (t.find? (fun p => p.1 == u)).map (·.2)

/-- The context of a team's member: the unit's own, or the saved one. -/
def State.contextOf (s : State) (node : Option Nat) (u : Nat) : Unit :=
  match node with
  | none => s.unit u
  | some n => (savedOf (tget [] s.saved n) u).getD (s.unit u)

/-- The module with the context of a team's member changed, wherever it lies. -/
def State.modContext (s : State) (node : Option Nat) (u : Nat) (f : Unit → Unit) : State :=
  match node with
  | none => s.modUnit u f
  | some n =>
    match savedOf (tget [] s.saved n) u with
    | none => if (s.unit u).team = some n then s.modUnit u f else s
    | some x => { s with saved := tput s.saved n (tput (tget [] s.saved n) u (f x)) }

/-- The buffers of the issuing tile are at hand: its context is not saved (R268). -/
def State.present (s : State) (c : Coll) : Bool :=
  (match c.node with
    | none => true
    | some n => (savedOf (tget [] s.saved n) c.unit).isNone) &&
  (s.unit c.unit).run != .frozen && (s.unit c.unit).run != .halted

/-- The comm master of a cluster: the one of its two comm sequencers that is appointed (R454). -/
def State.masterOf (s : State) (k : Nat) : Nat := 512 + 2 * k + tget 0 s.leads k % 2

/-- The comm masters of a unit's die are at rest: in Dusk, or on a die that is shed or quiesced (R419, R428, R466, R467). -/
def State.masterDark (s : State) (u : Nat) : Bool :=
  !s.noon || s.dieHeld (dieOf u) || s.dusk.shedding == some (dieOf u)

/-- The comm master of a unit's cluster runs: it is not at rest, its core region is on, and it has not halted (R419, R428, R454,
R466, R473). -/
def State.mastersRun (s : State) (u : Nat) : Bool :=
  !(s.masterDark u) && s.coreOn (clusterOf u) && (s.unit (s.masterOf (clusterOf u))).run != .seqHalted

/-- What the hub answers for a comm master at rest: TWILIGHT, or PEER_DARK in Dusk (R345, R428). -/
def State.darkCode (s : State) : Nat := if s.noon then 4 else 3

/-- A request of class 1 to 3 wakes the module from its power state and waits for the exit (R483); in Dusk it is answered
(R419). -/
def State.fabricWaits (s : State) : Bool := s.noon && !s.serving

/-- The collective that a command of a unit became. -/
def State.collOf (s : State) (u serial : Nat) : Option Coll :=
  s.colls.find? (fun c => c.unit == u && c.serial == serial)

/-- The answer to a message, for its GROUP and STEP, to the module that it came from. -/
def State.answer (s : State) (p : Peer) (code : Nat) (closed : Bool) : State :=
  s.send (.status p.mod p.group p.step code closed)

/-- The module with one collective replaced. -/
def State.setColl (s : State) (c : Coll) : State :=
  { s with colls := s.colls.map (fun d => if d.unit = c.unit ∧ d.serial = c.serial then c else d) }

/-- GROUP of a collective. -/
def Coll.group (c : Coll) : Nat := recGroup c.rcd
/-- NMEM of a collective. -/
def Coll.nmem (c : Coll) : Nat := recMembers c.rcd
/-- The module of a member. -/
def Coll.modOf (c : Coll) (m : Nat) : Nat := (c.mems.getD m (0, 0)).1
/-- A message belongs to a command: its GROUP and STEP are the command's, and its member lies on the module that it comes from, as
far as the command's record and its member table could be read. -/
def Coll.isFor (c : Coll) (p : Peer) : Bool :=
  c.rcd.isEmpty || (c.group == p.group && c.step == p.step && (c.mems.isEmpty || c.modOf p.member == p.mod))

/-- The command of a unit that a message is for. -/
def State.collFor (s : State) (u serial : Nat) (p : Peer) : Option Coll := (s.collOf u serial).filter (fun c => c.isFor p)

/-- The command of a member of the same group and step on this module. -/
def State.localMember (s : State) (c : Coll) (m : Nat) : Option Coll :=
  if c.modOf m = s.modnum then
    s.colls.find? (fun d => d.group == c.group && d.step == c.step && d.member == m && d.ended.isNone)
  else none

/-- STATUS bits of the completion word, as bits of its byte (R266). -/
def stResumed : Nat := 128
def stWaited : Nat := 64
def stBounced : Nat := 32
def stOverflow : Nat := 16
def stEdge : Nat := 8

/-- The collective with a STATUS bit set. -/
def Coll.setStatus (c : Coll) (b : Nat) : Coll := { c with status := c.status ||| b }

/-! ### Dispatch -/

/-- The record address, the record's needs of translation: address, length and whether it is written (R327). -/
def collNeeds (repart : Bool) (r : List Byte) (m : Nat) : List (Nat × Nat × Bool) :=
  let n := recMembers r
  (recMemtab r, 8 * n, false) :: (recCword r + 16 * m, 16, true) ::
    (if repart then
      [if recBalanced r then (recNat r 0x30 8, 4 * (n - 1), true) else (recNat r 0x30 8, 8 * (n - 1), false),
       (recNat r 0x40 8 + 64 * m, 64, true), (recNat r 0x48 8 + 4 * recNat r 0x14 4 * m, 4 * recNat r 0x14 4, true)] ++
      (if recBalanced r then [(recNat r 0x38 8 + 16384 * m, 16384, false)] else [])
    else [])

/-- The member table as pairs of module number and TILEID[10:0] (R323). -/
def memberTable (bs : List Byte) (n : Nat) : List (Nat × Nat) :=
  (List.range n).map (fun i => (elemAt bs 8 i / 2 ^ 32 % 2 ^ 16, elemAt bs 8 i % 2 ^ 11))

/-- Every entry of a member table has KIND = 00 and no other bit set than those of R323. -/
def memberTableOk (bs : List Byte) (n : Nat) : Bool :=
  (List.range n).all (fun i => elemAt bs 8 i / 2 ^ 48 == 0 && elemAt bs 8 i / 2 ^ 9 % 2 ^ 23 == 0)

/-- The one index of a tile in a member table (R323). -/
def memberIndex (mems : List (Nat × Nat)) (mod u : Nat) : Option Nat :=
  match (List.range mems.length).filter (fun i => mems.getD i (0, 0) == (mod, u)) with
  | [m] => some m
  | _ => none

/-- Record version `v` is negotiated with a module; nothing is known against one that no port was trained with
(R327, R440). -/
def State.negotiated (s : State) (mod v : Nat) : Bool :=
  match s.versions.find? (fun e => e.1 == mod) with
  | none => true
  | some (_, vs) => decide (v ≤ vs.getD 2 0)

/-- The keys of the frames and granules of a range, for busy counts (R400). -/
def rangeKeys (a n : Nat) (xs : List Xlat) : List Nat :=
  ((pageParts a n).zip xs).filterMap (fun p => (p.2.loc p.1.1).busyKey)

/-- A range waits: a unit of it is under HOLD (R400). -/
def State.rangeWaits (s : State) (a n : Nat) (xs : List Xlat) : Bool :=
  ((pageParts a n).zip xs).any (fun p => s.mustWait (p.2.loc p.1.1))

/-- Bytes of the storage tier: eight devices of 512 GB (R1, log entry 40). -/
def tierBytes : Nat := 4096000000000

/-- Bytes of the pool: what the hibernation areas leave of the tier (R423). -/
def State.poolBytes (s : State) : Nat := tierBytes - 2 * s.cfield (dcb + 0x18) 0 12 * 1000000000

/-- Pool bytes in use (R328, R344). -/
def State.poolUsed (s : State) : Nat :=
  s.colls.foldl (fun n c => n + c.pool) 0 + s.poolKept.foldl (fun n p => n + p.bytes) 0

/-- Staging bytes in use in a cluster (R328). -/
def State.stagingUsed (s : State) (k : Nat) : Nat :=
  s.colls.foldl (fun n c => if clusterOf c.unit = k then n + c.slots else n) 0

/-- Free entries of a cluster's region table, those that collectives have reserved taken (R86, R328). -/
def State.freeEntries (s : State) (k : Nat) : Nat :=
  256 - ((s.cluster k).regions.length + (s.colls.filter (fun c => c.entry && clusterOf c.unit == k)).length)

/-- Staging bytes, pool bytes and a table entry that a record reserves (R328, R340). -/
def recReserve (repart : Bool) (r : List Byte) : Nat × Nat × Bool :=
  if repart then (4096 * recMembers r, 4096 * recNat r 0x10 4, recNat r 0x10 4 != 0)
  else (recNat r 0x0C 2 * recChunk r, recNat r 0x10 4 * recChunk r, false)

/-- A range of an address space is refused to a member by its cluster's region table (R86, R88). -/
def State.dataRefused (s : State) (u serial : Nat) (a n : Nat) (write : Bool) : Bool :=
  n != 0 && (List.range ((a + n - 1) / 64 + 1 - a / 64)).any (fun i =>
    s.copyVerdict u serial .dram write ((a / 64 + i) * 64) == .refused)

/-- A local range is refused by the states of the tile's buffer units (R86). -/
def State.localRefused (s : State) (u serial : Nat) (r : LocalRange) : Bool :=
  (List.range (r.len / 64)).any (fun i => s.bufVerdict u u r.buf (r.off + 64 * i) serial == .refused)

/-- A range of a command lies in a region that is IN TRANSFER to its member: the command waits (R89). -/
def State.handoverWaits (s : State) (u serial : Nat) (rs : List (Nat × Nat)) (ls : List LocalRange) : Bool :=
  rs.any (fun p => p.2 != 0 && (List.range ((p.1 + p.2 - 1) / 64 + 1 - p.1 / 64)).any (fun i =>
    s.copyVerdict u serial .dram true ((p.1 / 64 + i) * 64) == .waits)) ||
  ls.any (fun r => (List.range (r.len / 64)).any (fun i =>
    s.bufVerdict u u r.buf (r.off + 64 * i) serial == .waits))

/-- How many records LOCAL_IN of a repartition holds (R341). -/
def recordCount (bytes : List Byte) : Nat := recNat bytes 0 4

/-- The FIXED splitters of a repartition. -/
def splitters (k n : Nat) (bs : List Byte) : List Nat := (List.range (n - 1)).map (elemAt bs k)

/-- A list of numbers never falls. -/
def nondecreasing : List Nat → Bool
  | [] => true
  | [_] => true
  | a :: b :: l => decide (a ≤ b) && nondecreasing (b :: l)

/-- Orders 2 to 7 of R327, and the conditions of R88 and R341, for a record that is translated; `tab` is the member table,
`split` the splitter table and `bytes` what LOCAL_IN holds. -/
def State.recordOutcome (s : State) (u : Nat) (c : Coll) (tab split : List Byte) (m : Option Nat) (bytes : List Byte) :
    Option Nat :=
  let r := c.rcd
  let v := recNat r 0 1
  let lin := localRange c.win
  let lout := localRange c.wout
  let ranges : List (Nat × Nat × Bool) := if c.repart then (collNeeds true r (m.getD 0)).drop 2 else []
  if (v ≠ 1 ∧ v ≠ 2) ∨ c.mems.any (fun e => e.1 != s.modnum && !(s.negotiated e.1 v)) then some 0x11
  else if !(if c.repart then repartRecordOk r else collRecordOk r) ∨ !(memberTableOk tab (recMembers r)) ∨ m.isNone ∨
      !lin.valid ∨ !lout.valid
  then some 0x10
  else if !c.repart ∧ !(reductionOk r) then some 0x10
  else if !c.repart ∧ !(collRangesOk r (m.getD 0) lin.len lout.len) then some 0x10
  else if c.repart ∧ lin.len < 64 + recordCount bytes * recSize r then some 0x10
  else if c.repart ∧ !(recBalanced r) ∧ !(nondecreasing (splitters 8 (recMembers r) split)) then some 0x10
  else if !c.repart ∧ recOp r = 3 ∧ recChunk r % tripleRow r ≠ 0 then some 0x10
  else if s.colls.any (fun d => d.unit == u && d.node == c.node && d.group == c.group && d.step == c.step &&
      d.serial != c.serial) then some 0x10
  else if s.localRefused u c.serial lin ∨ s.localRefused u c.serial lout ∨
      ranges.any (fun p => s.dataRefused u c.serial p.1 p.2.1 p.2.2) then some 0x14
  else none

/-- The chunks of LOCAL_IN by iteration, or the records of a repartition by index (R330, R341). -/
def chunksOf (repart : Bool) (r bytes : List Byte) : Tbl (List Byte) :=
  if repart then
    (List.range (recordCount bytes)).map (fun k => (k, (bytes.drop (64 + recSize r * k)).take (recSize r)))
  else (List.range (recCount r)).map (fun t => (t, (bytes.drop (recSrc r t).toNat).take (recChunk r)))

/-- Chunks that a member may hold: its slots and its pool (R328). -/
def Coll.capacity (c : Coll) : Nat :=
  if c.repart then c.nmem + recNat c.rcd 0x10 4 else recNat c.rcd 0x0C 2 + recNat c.rcd 0x10 4

/-- The command is a reduction, whose chunks the hub combines and whose results are what members hold (R335). -/
def Coll.reduces (c : Coll) : Bool := !c.repart && isReduction c.rcd

/-- What a member's slots and pool hold. -/
def Coll.held (c : Coll) : List Chunk := c.inSlots ++ c.inPool

/-- The iterations of a reduction that a sender has been given credit for and that have no result yet. -/
def Coll.opened (c : Coll) (f : Nat) : Nat := tget 0 c.granted f + (c.parts.filter (fun h => h.sender == f)).length

/-- Chunks that a member holds or has given credit for; a result takes one place for all its senders (R332, R335). -/
def Coll.promised (c : Coll) : Nat :=
  c.held.length + (if c.reduces then (List.range c.nmem).foldl (fun n f => max n (c.opened f)) 0
    else c.granted.foldl (fun n p => n + p.2) 0)

/-- A member has room to give sender `f` one more credit (R332). -/
def Coll.roomFor (c : Coll) (f : Nat) : Bool :=
  if c.reduces then decide (c.held.length + c.opened f < c.capacity) else decide (c.promised < c.capacity)

/-- Records that member `f` sends to member `m` and that are not bounced (R343). -/
def Coll.recordsFor (c : Coll) (f m : Nat) : Nat :=
  let n := c.nmem
  let own := (c.counts.getD f []).getD m 0
  ((List.range own).filter (fun k => decide (placeOf c.counts f m k < capOf c.counts n m + pcapOf c.counts n m))).length

/-- How many chunks of member `f`, or records, member `c` has still to apply. -/
def Coll.awaits (c : Coll) (f : Nat) : Nat :=
  let total := if c.repart then (if c.counts.isEmpty then 0 else c.recordsFor f c.member)
    else (recExpected c.rcd f c.member).length
  total - (c.applied.filter (fun p => p.1 == f)).length

/-- Records of a repartition, or one chunk, that a held chunk is. -/
def Coll.weight (c : Coll) (h : Chunk) : Nat := if c.repart then h.data.length / max 1 (recSize c.rcd) else 1

/-- How many chunks of member `f`, or records, have still to arrive. -/
def Coll.due (c : Coll) (f : Nat) : Nat :=
  let mine := if c.reduces then c.held ++ c.parts.filter (fun h => h.sender == f)
    else c.held.filter (fun h => h.sender == f)
  c.awaits f - mine.foldl (fun n h => n + c.weight h) 0

/-- A receiver gives one credit to each sender that it awaits and that has none, while it has room (R332); a chunk that it had to
turn away it asks for in place of the credit. -/
def State.grantFrom (s : State) (c : Coll) : List Nat → State × Coll
  | [] => (s, c)
  | f :: fs =>
    if c.roomFor f ∧ tget 0 c.granted f = 0 ∧ c.due f ≠ 0 then
      match c.turned.find? (fun p => p.1 == f) with
      | none => (s.send (.credit (c.modOf f) c.group c.step f c.member)).grantFrom { c with granted := tput c.granted f 1 } fs
      | some p => (s.send (.request (c.modOf f) c.group c.step f c.member p.2)).grantFrom
          { c with granted := tput c.granted f 1, turned := c.turned.erase p } fs
    else s.grantFrom c fs

/-- The module with a collective stored after its receiver has given what credits it can. -/
def State.giveCredits (s : State) (c : Coll) : State :=
  let r := s.grantFrom c (List.range c.nmem)
  r.1.setColl r.2

/-- An earlier `CFENCE` of the unit has not completed (R262). -/
def Unit.fenced (x : Unit) (serial : Nat) : Bool :=
  (x.q0 ++ x.q1).any (fun d => decide (d.serial < serial) && (match d.op with | .cfence _ _ => true | _ => false))

/-- The unit with a queued command of either engine changed. -/
def Unit.modQueued (x : Unit) (serial : Nat) (f : CCmd → CCmd) : Unit :=
  let g (c : CCmd) : CCmd := if c.serial = serial then f c else c
  { x with q0 := x.q0.map g, q1 := x.q1.map g }

/-- The command that a comm master receives, before its record is read. -/
def newColl (u : Nat) (x : Unit) (q : CCmd) : Coll :=
  { unit := u, serial := q.serial, pc := q.pc, tag := q.tag, handler := q.handler, node := x.team,
    repart := q.fields.1 == 0x0B, rcd := [], step := (field (sreg q.stg 2) 0 32).toNat, member := 0, mems := [],
    win := sreg q.stg 0, wout := sreg q.stg 1, aspace := x.card.aspace, xlat := [], counted := [] }

/-- The translation of an address by the walker of a unit's comm master: from its TLB, else from the tables (R399). -/
def State.walkerXlat (s : State) (u aspace a : Nat) : Option Xlat :=
  match findXlat (s.unit (s.masterOf (clusterOf u))).tlbw false aspace a with
  | some x => some x
  | none => s.walk false aspace a

/-- The walker's TLB with the translations that a command took filled in (R399). -/
def State.fillWalker (s : State) (u : Nat) (xs : List Xlat) : State :=
  s.modUnit (s.masterOf (clusterOf u)) (fun x => { x with
    tlbw := xs.foldl (fun l y => if l.contains y then l else tlbFill l y) x.tlbw })

/-- A port holds the key of the domain that GROUP names: its DOMTAB has an entry of it (R439, R441). -/
def State.holdsKey (s : State) (group p : Nat) : Bool :=
  (List.range 64).any (fun i => group != 0 && s.cfield (fabAddr p + 0x800 + 8 * i) 32 32 == group)

/-- The domain that GROUP names is sealed: the DOMTAB of some port holds it (R439, R441). -/
def State.isSealed (s : State) (group : Nat) : Bool := (List.range 16).any (s.holdsKey group)

/-- The hop of this module towards another does not hold the key of a domain (R337, R439). -/
def State.hopKeyless (s : State) (group mod : Nat) : Bool :=
  match s.portFor mod with
  | none => false
  | some p => !(s.holdsKey group p)

/-- The combines of a reduction run at the edge (R337, R439): its domain is sealed, a member lies on another module, and some
placement lies on a hop without the domain's key: one of this module's own hops towards a member, or, as `keyless` says, one that
this module's registers do not tell of; the members of one operation here agree. -/
def State.edgeOf (s : State) (c : Coll) (keyless : Bool) : Bool :=
  c.reduces && (match s.colls.find? (fun d => d.group == c.group && d.step == c.step) with
    | some d => d.edge
    | none =>
      let others := (c.mems.map (·.1)).filter (fun m => m != s.modnum)
      s.isSealed c.group && !others.isEmpty && (keyless || others.any (s.hopKeyless c.group)))

/-- A command with its record and its member table as the comm master reads them.  A tile that the table does not name once has
no index, and stands as member NMEM, which none is (R323, R327). -/
def State.readRecord (s : State) (u : Nat) (x : Unit) (q : CCmd) : Coll × Option Nat :=
  let c := newColl u x q
  let look := s.walkerXlat u c.aspace
  let readAt (a n : Nat) : Option (List Byte) := (rangeVia look a n false).bind (s.readParts a n)
  let r := (readAt (x.card.coll.getD (field q.fields.2.flags 0 2).toNat 0) 128).getD []
  let mems := ((readAt (recMemtab r) (8 * recMembers r)).map (fun tab => memberTable tab (recMembers r))).getD []
  let m := memberIndex mems s.modnum u
  ({ c with rcd := r, mems := mems, member := m.getD (recMembers r) }, m)

/-- The start of a command whose LOCAL_IN and LOCAL_OUT are clear: the record is read and checked, reservations are
taken and LOCAL_IN is read (R265, R327, R328); `none` where a unit that it needs is under HOLD or IN TRANSFER to its member
(R89, R400). -/
def State.startColl (s : State) (u : Nat) (x : Unit) (q : CCmd) (keyless : Bool) : Option State :=
  let (c, m) := s.readRecord u x q
  let a := x.card.coll.getD (field q.fields.2.flags 0 2).toNat 0
  let lin := localRange c.win
  let bytes := s.locReadFor u q { place := .buf u lin.buf, addr := lin.off } lin.len
  let look := s.walkerXlat u c.aspace
  let readAt (a n : Nat) : List Byte := ((rangeVia look a n false).bind (s.readParts a n)).getD []
  let take (s : State) (c : Coll) : Option State :=
    some { (s.modUnit u (fun x => x.modQueued q.serial (fun d => { d with phase := .moved }))) with
             colls := s.colls ++ [c] }
  match rangeVia look a 128 false with
  | none => take s { c with noWord := true, ended := some 0x13 }
  | some _ =>
    let r := c.rcd
    let tab := readAt (recMemtab r) (8 * recMembers r)
    let reparts := c.repart && recOp r == 5
    let own := collNeeds reparts r (m.getD 0)
    let needs := (a, 128, false) :: (if m.isNone then own.take 1 ++ (own.drop 2).take 1 else own)
    let xs := needs.map (fun n => (n, rangeVia look n.1 n.2.1 n.2.2))
    let word := rangeVia look (recCword r + 16 * m.getD 0) 16 true
    let data := if reparts && m.isSome then (own.drop 2).map (fun n => (n.1, n.2.1)) else []
    if xs.any (fun p => s.rangeWaits p.1.1 p.1.2.1 (p.2.getD [])) ∨
        s.handoverWaits u q.serial data [lin, localRange c.wout] then none
    else
      let keys := (xs.flatMap (fun p => rangeKeys p.1.1 p.1.2.1 (p.2.getD []))).foldl
        (fun l k => if l.contains k then l else l ++ [k]) []
      let s := (keys.foldl State.busyUp s).fillWalker u (xs.flatMap (fun p => p.2.getD []))
      let c := { c with xlat := xs.flatMap (fun p => p.2.getD []), counted := keys, noWord := m.isNone || word.isNone }
      if xs.any (fun p => p.2.isNone) then take s { c with ended := some 0x13 }
      else
        let split := if reparts && !(recBalanced r) then readAt (recNat r 0x30 8) (8 * (recMembers r - 1)) else []
        match s.recordOutcome u c tab split m bytes with
        | some e => take s { c with ended := some e }
        | none =>
          let k := clusterOf u
          let (sl, pl, en) := recReserve c.repart r
          if s.stagingGrans * 65536 < s.stagingUsed k + sl ∨ s.poolBytes < s.poolUsed + pl ∨ (en && s.freeEntries k == 0)
          then take s { c with ended := some 0x12 }
          else
            let edge := s.edgeOf c keyless
            (take s { c with
              slots := sl, pool := pl, entry := en, kept := chunksOf c.repart r bytes, edge := edge
              status := if edge then stEdge else 0 }).map (fun s =>
                match s.collOf u q.serial with
                | none => s
                | some d => if c.repart then s else s.giveCredits d)

/-! ### Waits on peers -/

/-- The records of a member that one receiver takes, in order (R343). -/
def Coll.recordsTo (c : Coll) (m : Nat) : List Nat :=
  ((List.range c.owners.length).filter (fun i => c.owners.getD i 0 == m)).take (c.recordsFor c.member m)

/-- Records in one chunk of a repartition, whose slots are 4 KiB (R340). -/
def Coll.batch (c : Coll) : Nat := 4096 / max 1 (recSize c.rcd)

/-- A member owes another one chunks, or their application there (R334). -/
def Coll.owes (c : Coll) (m : Nat) : Bool :=
  if c.repart then
    decide ((c.acks.filter (fun p => p.1 == m)).length < ((c.recordsTo m).length + c.batch - 1) / c.batch)
  else (List.range (recCount c.rcd)).any (fun t => (recTargets c.rcd c.member t).contains m && !(c.acks.contains (m, t)))

/-- The progress of a command needs another member: what that one has still to contribute, or what it takes (R345, R499). -/
def Coll.needs (c : Coll) (f : Nat) : Bool :=
  f != c.member && (if c.repart && c.counts.isEmpty then true else c.due f != 0 || c.owes f)

/-- What this module itself knows of a member's being out of reach: TWILIGHT on a shed or quiesced die of its own, PEER_DARK of a
module that is dark or that no route reaches (R345, R437, R467). -/
def State.memberStatus (s : State) (c : Coll) (f : Nat) : Option Nat :=
  if c.modOf f = s.modnum then guarded (s.dieHeld (dieOf (c.mems.getD f (0, 0)).2)) 4
  else guarded (!(s.reachable (c.modOf f))) 3

/-- A command that has, or ended with, a member's index; one without an index is known by its tile (R323). -/
def Coll.isMember (c : Coll) (mod f member n unit : Nat) : Bool :=
  member == f || (decide (n ≤ member) && c.mems.getD f (0, 0) == (mod, unit))

/-- A member on this module has applied a chunk of a command, even if it has ended since. -/
def State.appliedAt (s : State) (c : Coll) (m t : Nat) : Bool :=
  c.modOf m == s.modnum &&
    (s.colls.any (fun d => d.group == c.group && d.step == c.step && d.member == m && d.applied.contains (c.member, t)) ||
     s.endedColls.any (fun e => e.group == c.group && e.step == c.step && e.member == m && e.applied.contains (c.member, t)))

/-- A command that knows which of its chunks members on this module have applied. -/
def State.learned (s : State) (c : Coll) : Coll :=
  { c with acks := c.acks ++ c.sent.filter (fun p => !(c.acks.contains p) && s.appliedAt c p.1 p.2) }

/-- A member on this module ended its command with an outcome other than OK, or its tile ended as faulted without one
(R267, R499). -/
def State.memberEnd (s : State) (c : Coll) (f : Nat) : Option Nat :=
  if c.modOf f ≠ s.modnum then none
  else
    match s.colls.find? (fun d => d.group == c.group && d.step == c.step &&
        c.isMember s.modnum f d.member d.mems.length d.unit) with
    | some d => d.ended.filter (· != 0)
    | none =>
      match s.endedColls.find? (fun e => e.group == c.group && e.step == c.step &&
          c.isMember s.modnum f e.member e.mods.length e.unit) with
      | some e => guarded (e.outcome != 0) e.outcome
      | none => guarded ((s.unit (c.mems.getD f (0, 0)).2).run == .faulted) 0x15

/-- The collective once no peer holds it up: the wait is added up (R345). -/
def Coll.answered (now : Nat) (c : Coll) : Coll :=
  match c.waitFrom with
  | none => c
  | some t => { c with waitFrom := none, waited := c.waited + (now - t) }

/-- A command waits on a peer that answers a status; with PATIENCE 0 it ends with it at once (R345). -/
def Coll.waitFor (now code : Nat) (c : Coll) : Coll :=
  if recPatience c.rcd = 0 then { c with ended := some code }
  else { (c.setStatus stWaited) with waitFrom := some (c.waitFrom.getD now), waitCode := code }

/-- The outcome with which a command ends that needs a member whose command ended: MEMBER_FAULTED, and for one that resumed
PEER_DARK or TWILIGHT as its peer's (R346, R499). -/
def Coll.follow (c : Coll) (e : Nat) : Coll :=
  { c with ended := some (if (e = 3 ∨ e = 4) ∧ stResumed ≤ c.status then e else 0x15) }

/-- What a command makes of the members that it needs: it ends as one of them has ended, waits on one that is dark or shed, or
goes on (R345, R346, R499). -/
def State.reviewColl (s : State) (c : Coll) : Coll :=
  if c.ended.isSome ∨ !(s.mastersRun c.unit) then c
  else
    let need := (List.range c.nmem).filter (s.learned c).needs
    match firstSome (s.memberEnd c) need with
    | some e => c.follow e
    | none =>
      let known : List PeerWord := need.filterMap (fun f => (s.memberStatus c f).map (fun e => ⟨f, e, true⟩))
      let kept := c.waitOn.filter (fun w => need.contains w.member && (!w.own || known.contains w))
      let said := kept ++ known.filter (fun w => !(kept.contains w))
      match said.getLast? with
      | none => { (c.answered s.now) with waitOn := [] }
      | some w => { (c.waitFor s.now w.code) with waitOn := said }

/-- Every command looks at its peers again, as often as one that ends lets others end. -/
def State.reviewBy (s : State) : Nat → State
  | 0 => s
  | n + 1 =>
    let t : State := { s with colls := s.colls.map s.reviewColl }
    if t.colls = s.colls then s else t.reviewBy n

/-- Every command has looked at its peers. -/
def State.review (s : State) : State := s.reviewBy (s.colls.length + 1)

/-- A member has been heard of: it no longer counts as out of reach (R345). -/
def Coll.heard (c : Coll) (f : Nat) : Coll := { c with waitOn := c.waitOn.filter (fun w => w.member != f || w.own) }

/-- COLL_DISPATCH (R265, R327, R328): the comm master of the cluster receives a command whose local ranges are clear.
`keyless` says whether some placement of its combines lies on a hop without the domain's key (R337). -/
def execCollDispatch (u id : Nat) (keyless : Bool) (s : State) : Host.Outcome State Fault Refusal :=
  if 512 ≤ u then .fault (.noSuchPart u)
  else
    let x := s.unit u
    match (x.q0 ++ x.q1).find? (fun c => c.serial == id && (c.fields.1 == 0x0A || c.fields.1 == 0x0B)) with
    | none => .next s
    | some q =>
      if q.phase ≠ .queued ∨ !(s.copyClear u q) ∨ x.fenced id ∨ !(s.mastersRun u) ∨ x.run = .frozen ∨ x.run = .halted
      then .next s
      else .next (((s.startColl u x q keyless).map State.review).getD s)

/-- PEER_STATUS_REPLY (R345, R346, R499): a member on another module answers PEER_DARK or TWILIGHT, and the command waits; or
it answers the outcome with which its command ended (`closed`), which ends one that needs it. -/
def execPeerStatusReply (u id : Nat) (reply : PeerReply) (s : State) : Host.Outcome State Fault Refusal :=
  if 512 ≤ u then .fault (.noSuchPart u)
  else
    match s.collOf u id with
    | none => .next s
    | some c =>
      if c.ended.isSome ∨ c.nmem ≤ reply.member ∨ c.modOf reply.member = s.modnum ∨ !(s.mastersRun u) ∨ s.fabricWaits then .next s
      else if reply.closed then
        .next (if reply.code ≠ 0 ∧ c.needs reply.member then
            (s.setColl { c.follow reply.code with barred := decide (0x10 ≤ reply.code ∧ reply.code ≤ 0x15) }).review
          else s)
      else if reply.code = 3 ∨ reply.code = 4 then
        .next (s.setColl { c with waitOn := (c.heard reply.member).waitOn ++ [⟨reply.member, reply.code, false⟩] }).review
      else .next s

/-- PATIENCE_EXPIRY (R345): the waits of a command exceed PATIENCE, and it ends with the most recent reply. -/
def execPatienceExpiry (u id : Nat) (s : State) : Host.Outcome State Fault Refusal :=
  if 512 ≤ u then .fault (.noSuchPart u)
  else
    match s.collOf u id with
    | none => .next s
    | some c =>
      match c.waitFrom with
      | none => .next s
      | some t =>
        if c.ended.isSome ∨ !(s.mastersRun u) ∨ (c.waited + (s.now - t) ≤ us 1000 * recPatience c.rcd) then .next s
        else .next (s.setColl { c with ended := some c.waitCode }).review

/-- The record of a command of a unit that has ended. -/
def State.endedOf (s : State) (u serial : Nat) : Option EndedColl :=
  s.endedColls.find? (fun e => e.unit == u && e.serial == serial)

/-- The ended command of a unit that a message is for. -/
def State.endedFor (s : State) (u serial : Nat) (p : Peer) : Option EndedColl :=
  (s.endedOf u serial).filter (fun e => e.group == p.group && e.step == p.step)

/-- What is answered for a member that has no command at work for a message: its outcome, where the command has ended and that is
not OK (R345, R347, R499); a status, where the member's comm master is at rest, whether or not its tile has issued the command
or its team is resident (R345, R428, R467). -/
def State.answerEnded (s : State) (u serial : Nat) (p : Peer) : State :=
  match s.endedFor u serial p with
  | some e => if e.outcome = 0 then s else s.answer p e.outcome true
  | none => if s.masterDark u && !s.dusk.midnight then s.answer p s.darkCode false else s

/-- What is answered to a chunk for such a member: where it had been applied, its report again, which may have been lost (R333,
R346, R347). -/
def State.answerChunk (s : State) (u serial : Nat) (p : Peer) (t : Nat) : State :=
  (match s.endedFor u serial p with
    | some e =>
      if e.applied.contains (p.member, t) then s.send (.applied p.mod p.group p.step p.member e.member t) else s
    | none => s).answerEnded u serial p

/-! ### Sending -/

/-- The next chunk that a member sends to a receiver, with its bytes: the first iteration, or the first batch of
records, not sent yet (R331, R343). -/
def Coll.nextFor (c : Coll) (m : Nat) : Option (Nat × List Byte) :=
  if c.repart then
    let rs := c.recordsTo m
    let k := (c.sent.filter (fun p => p.1 == m)).length * c.batch
    if rs.length ≤ k then none
    else some (k, ((rs.drop k).take c.batch).flatMap (fun i => tget [] c.kept i))
  else
    ((recExpected c.rcd c.member m).find? (fun t => !(c.sent.contains (m, t)))).map (fun t => (t, tget [] c.kept t))

/-- The bytes of a chunk that was sent, read again from the kept copy (R333). -/
def Coll.keptChunk (c : Coll) (m t : Nat) : List Byte :=
  if c.repart then (((c.recordsTo m).drop t).take c.batch).flatMap (fun i => tget [] c.kept i) else tget [] c.kept t

/-- Where a chunk of a member lands in its receiver's LOCAL_OUT. -/
def Coll.landsFrom (c : Coll) (f t : Nat) : Nat := if c.repart then 0 else (recLands c.rcd f t).toNat

/-- Where a chunk lands in its receiver's LOCAL_OUT, as the message carries it. -/
def Coll.landing (c : Coll) (t : Nat) : Nat := c.landsFrom c.member t

/-- The die of a member, 4 for one on another module, which the hub reaches (R458). -/
def State.dieOfMember (s : State) (c : Coll) (m : Nat) : Nat :=
  if c.modOf m = s.modnum then dieOf (c.mems.getD m (0, 0)).2 else 4

/-- A chunk may leave for a receiver: links towards it are open (R460). -/
def State.chunkWay (s : State) (c : Coll) (m t : Nat) : Bool := s.wayOpen (dieOf c.unit) (s.dieOfMember c m) (c.landing t)

/-- A chunk goes to a receiver, and a credit of it is spent (R332). -/
def State.sendChunk (s : State) (c : Coll) (m t : Nat) (bs : List Byte) : State :=
  (s.send (.chunk (c.modOf m) c.group c.step c.member m t (c.landing t) bs)).setColl
    { c with credits := tmod 0 c.credits m (· - 1), sent := c.sent ++ [(m, t)] }

/-- A member sends its next chunk to a receiver against a credit, once links towards it are open (R332, R460). -/
def State.sendNext (s : State) (c : Coll) (m : Nat) : State :=
  match c.nextFor m with
  | none => s.setColl c
  | some (t, bs) => if tget 0 c.credits m = 0 ∨ !(s.chunkWay c m t) then s.setColl c else s.sendChunk c m t bs

/-- A member sends what the credits that it holds allow (R332). -/
def State.sendHeld (s : State) (u serial : Nat) : State :=
  match s.collOf u serial with
  | none => s
  | some c => (List.range c.nmem).foldl (fun (s : State) m => ((s.collOf u serial).map (fun c => s.sendNext c m)).getD s) s

/-- A chunk that a member has applied or holds already, or holds the result of (R333, R346). -/
def Coll.knows (c : Coll) (f t : Nat) : Bool :=
  c.applied.contains (f, t) || c.parts.any (fun h => h.sender == f && h.t == t) ||
    c.held.any (fun h => h.t == t && (c.reduces || h.sender == f))

/-- Chunks sent to a local receiver that it has neither applied nor holds. -/
def inFlightTo (c d : Coll) : Nat := (c.sent.filter (fun p => p.1 == d.member && !(d.knows c.member p.2))).length

/-- A receiver on this module has given a credit that its sender has not had yet; those of other modules are theirs. -/
def State.creditGiven (s : State) (c : Coll) (m : Nat) : Bool :=
  c.modOf m != s.modnum ||
    (match s.localMember c m with
      | none => false
      | some d => decide (tget 0 c.credits m + inFlightTo c d < tget 0 d.granted c.member))

/-- CREDIT (R332): a receiver's credit lets the sender move one chunk.  One that finds the comm master at rest is answered with a
status, and kept (R346, R428); one that comes in a power state, or before the comm master runs again, waits (R473, R483). -/
def execCredit (u id : Nat) (peer : Peer) (s : State) : Host.Outcome State Fault Refusal :=
  if 512 ≤ u then .fault (.noSuchPart u)
  else if s.fabricWaits then .next s
  else
    match s.collFor u id peer with
    | none => .next (s.answerEnded u id peer)
    | some c =>
      let m := peer.member
      let d := { c with credits := tmod 0 c.credits m (· + 1) }
      if let some e := c.ended then .next (s.answer peer e true)
      else if c.nmem ≤ m ∨ !(s.creditGiven c m) then .next s
      else if s.masterDark u then .next ((s.answer peer s.darkCode false).setColl d)
      else if !(s.mastersRun u) then .next s
      else .next (s.sendNext (d.heard m) m).review

/-- A member asks the senders of a chunk that it has lost for it again, and gives them the credit back; a result is formed
again from every member's chunk (R333). -/
def State.reclaim (s : State) (c : Coll) (h : Chunk) : State :=
  let fs := if c.reduces then List.range c.nmem else [h.sender]
  let d := { c with inSlots := c.inSlots.filter (· != h), inPool := c.inPool.filter (· != h),
                    granted := fs.foldl (fun g f => tmod 0 g f (· + 1)) c.granted }
  (fs.foldl (fun (s : State) f => s.send (.request (c.modOf f) c.group c.step f c.member h.t)) s).setColl d

/-- CHUNK_REQUEST (R333, R346): a receiver asks again for a chunk, which is resent from the kept copy; the next chunk, not sent
yet, it asks for as with a credit, which a Dusk may have lost.  A command that has ended answers with its outcome (R345, R499).
Where the chunk is its own (`mine`), the member has lost the chunk of that member and iteration to an uncorrectable error in
its slots or pool, and asks for it again. -/
def execChunkRequest (u id : Nat) (peer : Peer) (ask : ChunkAsk) (s : State) : Host.Outcome State Fault Refusal :=
  if 512 ≤ u then .fault (.noSuchPart u)
  else if s.fabricWaits then .next s
  else
    match s.collFor u id peer with
    | none => .next (if ask.mine then s else s.answerEnded u id peer)
    | some c =>
      let m := peer.member
      match c.ended with
      | some e => .next (if ask.mine then s else s.answer peer e true)
      | none =>
        if ask.mine then
          match c.held.find? (fun h => h.sender == m && h.t == ask.t) with
          | none => .next s
          | some h => .next (if s.mastersRun u then s.reclaim c h else s)
        else if s.masterDark u then .next (s.answer peer s.darkCode false)
        else if !(s.mastersRun u) then .next s
        else if c.sent.contains (m, ask.t) then
          .next (if !(s.chunkWay c m ask.t) then s else s.send (.chunk (c.modOf m) c.group c.step c.member m ask.t (c.landing ask.t) (c.keptChunk m ask.t)))
        else if c.nmem ≤ m ∨ !(s.creditGiven c m) ∨ (c.nextFor m).map (·.1) ≠ some ask.t then .next s
        else .next (s.sendNext { (c.heard m) with credits := tmod 0 c.credits m (max 1) } m).review

/-- Every receiver of a chunk has reported it applied. -/
def Coll.ackedAll (c : Coll) (t : Nat) : Bool :=
  (recTargets c.rcd c.member t).all (fun m => c.acks.contains (m, t))

/-- CHUNK_APPLIED (R333): a receiver reports a chunk applied; once every receiver has, the kept copy is released. -/
def execChunkApplied (u id byMember t : Nat) (s : State) : Host.Outcome State Fault Refusal :=
  if 512 ≤ u then .fault (.noSuchPart u)
  else
    match s.collOf u id with
    | none => .next s
    | some c =>
      if !(s.mastersRun u) ∨ s.fabricWaits ∨ !(c.sent.contains (byMember, t)) ∨ c.acks.contains (byMember, t) ∨
          (c.modOf byMember = s.modnum ∧ !(s.appliedAt c byMember t)) then .next s
      else
        let c := { (c.heard byMember) with acks := c.acks ++ [(byMember, t)] }
        .next (s.setColl (if !c.repart && c.ackedAll t then { c with kept := tdel c.kept t } else c)).review

/-! ### Receiving -/

/-- The next chunk of a sender, or result, that a receiver may apply (R331, R332); in a repartition every record has its own
place. -/
def Coll.isNext (c : Coll) (h : Chunk) : Bool :=
  if c.repart then true
  else if c.reduces then (List.range (recCount c.rcd)).find? (fun t => !(c.applied.contains (c.member, t))) == some h.t
  else (recExpected c.rcd h.sender c.member).find? (fun t => !(c.applied.contains (h.sender, t))) == some h.t

/-- A record of a repartition put in its place: LOCAL_OUT or the pool (R343). -/
def State.placeRecord (s : State) (c : Coll) (f k : Nat) (bs : List Byte) : State × Coll :=
  let p := placeOf c.counts f c.member k
  let cap := capOf c.counts c.nmem c.member
  let lout := localRange c.wout
  let c := { c with applied := c.applied ++ [(f, k)] }
  if p < cap then
    (s.locWrite { place := .buf c.unit lout.buf, addr := lout.off + recSize c.rcd * p } bs,
     { c with delivered := c.delivered + 1 })
  else (s, { (c.setStatus stOverflow) with poolRecs := tput c.poolRecs (p - cap) bs, overflow := c.overflow + 1 })

/-- Records of a chunk put in their places, one after another. -/
def State.placeRecords (s : State) (c : Coll) (f : Nat) : List (Nat × List Byte) → State × Coll
  | [] => (s, c)
  | (k, bs) :: rest =>
    let r := s.placeRecord c f k bs
    r.1.placeRecords r.2 f rest

/-- The records of a chunk with their ordinals. -/
def Coll.recordsIn (c : Coll) (h : Chunk) : List (Nat × List Byte) :=
  let z := max 1 (recSize c.rcd)
  (List.range (h.data.length / z)).map (fun i => (h.t + i, (h.data.drop (z * i)).take z))

/-- A chunk applied to LOCAL_OUT, and reported to its sender; a result counts for every member and is reported to each (R331,
R333, R335). -/
def State.applyChunk (s : State) (c : Coll) (h : Chunk) : State × Coll :=
  let fs := if c.reduces then List.range c.nmem else [h.sender]
  let r := if c.repart then s.placeRecords c h.sender (c.recordsIn h)
    else
      let lout := localRange c.wout
      (s.locWrite { place := .buf c.unit lout.buf, addr := lout.off + (recLands c.rcd h.sender h.t).toNat } h.data,
       { c with applied := c.applied ++ fs.map (fun f => (f, h.t)), delivered := c.delivered + 1 })
  (fs.foldl (fun (s : State) f => s.send (.applied (c.modOf f) c.group c.step f c.member h.t)) r.1, r.2)

/-- Held chunks that may be applied now, one after another (R331, R332). -/
def State.drainChunks (s : State) (c : Coll) : Nat → State × Coll
  | 0 => (s, c)
  | fuel + 1 =>
    match c.held.find? c.isNext with
    | none => (s, c)
    | some h =>
      let c := { c with inSlots := c.inSlots.filter (· != h), inPool := c.inPool.filter (· != h) }
      let r := s.applyChunk c h
      r.1.drainChunks r.2 fuel

/-- A chunk that has arrived takes a slot, or spills to the pool where the slots are full, which counts as overflow but for
the records of a repartition, whose overflow is that of R343 (R332). -/
def Coll.hold (c : Coll) (h : Chunk) : Coll :=
  if c.inSlots.length < (if c.repart then c.nmem else recNat c.rcd 0x0C 2) then { c with inSlots := c.inSlots ++ [h] }
  else
    let d := { c with inPool := c.inPool ++ [h] }
    if c.repart then d else { (d.setStatus stOverflow) with overflow := c.overflow + 1 }

/-- The hub combines an iteration of a reduction once it has every member's chunk, and the result arrives at the member as a
chunk of its own (R333 to R335). -/
def Coll.combineAt (c : Coll) (t : Nat) : Coll :=
  let cs := (List.range c.nmem).map (fun m => c.parts.find? (fun h => h.sender == m && h.t == t))
  if cs.any Option.isNone then c
  else
    let data : List (List Byte) := (cs.filterMap id).map (·.data)
    { c with parts := c.parts.filter (fun h => h.t != t) }.hold
      { sender := c.member, t := t, data := reduceChunks c.rcd data }

/-- What a member holds is applied, where its tile's buffers are at hand, and new credits are given (R268, R332). -/
def State.settleColl (s : State) (c : Coll) : State :=
  if !(s.present c) then s.setColl c
  else
    let r := s.drainChunks c c.held.length
    r.1.giveCredits r.2

/-- The bytes of a chunk that a sender on this module has sent, else those that came over the fabric (R96). -/
def State.chunkBytes (s : State) (c : Coll) (f t : Nat) (data : List Byte) : Option (List Byte) :=
  if c.modOf f = s.modnum then
    firstSome (fun (m : Msg) =>
      match m with
      | .chunk _ g st sd d' t' _ bs =>
        if g = c.group ∧ st = c.step ∧ sd = f ∧ d' = c.member ∧ t' = t then some bs else none
      | _ => none) s.out
  else if c.repart then guarded (data.length % max 1 (recSize c.rcd) == 0 && !data.isEmpty) data
  else guarded (data.length == recChunk c.rcd) data

/-- A chunk that a member takes: one of its own group's senders, for it, and in its place. -/
def Coll.takes (c : Coll) (f t : Nat) (data : List Byte) : Bool :=
  decide (f < c.nmem) &&
    (if c.repart then !c.counts.isEmpty && decide (t + data.length / max 1 (recSize c.rcd) ≤ c.recordsFor f c.member)
     else (recExpected c.rcd f c.member).contains t)

/-- CHUNK (R331 to R335, R343): a received chunk is taken into a slot, or spilled to the pool where the slots are
full, and everything that is next in order is applied; a chunk that is known already is discarded, and one that comes without a
credit and finds no room is asked for again when there is some.  A command that has ended answers with its outcome, and a comm
master at rest with a status (R345, R347, R428, R499); in a power state, or before the comm master runs again, a chunk waits
(R473, R483), as it does while no link towards the receiver is open (R460). -/
def execChunk (u id : Nat) (peer : Peer) (t : Nat) (data : List Byte) (s : State) : Host.Outcome State Fault Refusal :=
  if 512 ≤ u then .fault (.noSuchPart u)
  else if s.fabricWaits then .next s
  else
    match s.collFor u id peer with
    | none => .next (s.answerChunk u id peer t)
    | some c =>
      match c.ended with
      | some e => .next (s.answer peer e true)
      | none =>
        let m := peer.member
        if s.masterDark u then .next (s.answer peer s.darkCode false)
        else if !(s.mastersRun u) ∨ !(s.wayOpen (s.dieOfMember c m) (dieOf u) (c.landsFrom m t)) then .next s
        else
          match s.chunkBytes c m t data with
          | none => .next s
          | some bs =>
            if c.knows m t then
              .next (if c.applied.contains (m, t) then s.send (.applied (c.modOf m) c.group c.step m c.member t) else s)
            else if !(c.takes m t bs) then .next s
            else if tget 0 c.granted m = 0 ∧ !(c.roomFor m) then
              .next (s.setColl { c with turned := c.turned.filter (· != (m, t)) ++ [(m, t)] })
            else
              let h : Chunk := { sender := m, t := t, data := bs }
              let c := { (c.heard m) with granted := tmod 0 c.granted m (· - 1), turned := c.turned.filter (· != (m, t)) }
              let c := if c.reduces then { c with parts := c.parts ++ [h] }.combineAt t else c.hold h
              .next ((s.setColl c).settleColl c).review

/-! ### Repartition -/

/-- Bytes that a command reads under the translations that it holds (R499). -/
def State.heldRead (s : State) (c : Coll) (a n : Nat) : List Byte :=
  ((rangeVia (findXlat c.xlat false c.aspace) a n false).bind (s.readParts a n)).getD []

/-- Bytes that a command writes under the translations that it holds (R499). -/
def State.heldWrite (s : State) (c : Coll) (a : Nat) (bs : List Byte) : State :=
  ((rangeVia (findXlat c.xlat false c.aspace) a bs.length true).map (s.writeParts a bs)).getD s

/-- The histogram of a member of this module (R340). -/
def State.histOf (s : State) (c : Coll) : List Nat :=
  let bs := s.heldRead c (recNat c.rcd 0x38 8 + 16384 * c.member) 16384
  (List.range 4096).map (elemAt bs 4)

/-- The owners of a member's records (R342). -/
def Coll.ownersBy (c : Coll) (splits : List Nat) : List Nat :=
  c.kept.map (fun p =>
    let k := recordKey c.rcd p.2
    if recBalanced c.rcd then balancedOwner (recNat c.rcd 0x07 1) splits k else fixedOwner splits k)

/-- CAP and PCAP of a member (R341, R343). -/
def Coll.caps (c : Coll) : Nat × Nat :=
  let z := max 1 (recSize c.rcd)
  ((localRange c.wout).len / z, 4096 * recNat c.rcd 0x10 4 / z)

/-- A member of this module with the exchange: a BALANCED command's splitters are written, its records get their owners, and
it gives credits, and sends against those that came before (R329, R342, R343). -/
def State.takeCounts (s : State) (splits : List Nat) (rows : List (List Nat)) (c : Coll) : State :=
  let s := if recBalanced c.rcd then s.heldWrite c (recNat c.rcd 0x30 8) (splits.flatMap (natBytes 4)) else s
  let owners := c.ownersBy splits
  let bounced := bouncedOf rows c.nmem c.member owners
  let c := { c with counts := rows, owners := owners, bounced := bounced }
  (s.giveCredits (if bounced.isEmpty then c else c.setStatus stBounced)).sendHeld c.unit c.serial

/-- REPART_COUNTS (R342, R343): the members have exchanged histograms, per-owner counts and their capacities, once every member
of this module has started; a BALANCED command writes the splitters.  Row `m` of `counts` is the counts of member `m` by
owner, then its CAP and PCAP; rows of members on this module are their own. -/
def execRepartCounts (u id : Nat) (hists counts : List (List Nat)) (s : State) : Host.Outcome State Fault Refusal :=
  if 512 ≤ u then .fault (.noSuchPart u)
  else
    match s.collOf u id with
    | none => .next s
    | some c =>
      let n := c.nmem
      let here := (List.range n).filter (fun m => c.modOf m == s.modnum)
      let mine := here.filterMap (s.localMember c)
      if c.ended.isSome ∨ !c.repart ∨ !c.counts.isEmpty ∨ mine.length ≠ here.length ∨
          mine.any (fun d => !(s.mastersRun d.unit)) then .next s
      else
        let hs := (List.range n).map (fun m =>
          match s.localMember c m with
          | some d => s.histOf d
          | none => hists.getD m [])
        let splits := if recBalanced c.rcd then bucketSplitters n (sumHists hs)
          else splitters 8 n (s.heldRead c (recNat c.rcd 0x30 8) (8 * (n - 1)))
        let rows := (List.range n).map (fun m =>
          match s.localMember c m with
          | some d => ownerCounts n (d.ownersBy splits) d.caps.1 d.caps.2
          | none => (List.range (n + 2)).map (fun i => (counts.getD m []).getD i 0))
        .next (mine.foldl (fun (s : State) d => s.takeCounts splits rows d) s).review

/-! ### Completion -/

/-- Every chunk that a member sends has been applied, and every chunk or result for it (R334). -/
def Coll.finished (c : Coll) : Bool :=
  if c.repart then
    !c.counts.isEmpty && (List.range c.nmem).all (fun m =>
      let need := ((c.recordsTo m).length + c.batch - 1) / c.batch
      c.awaits m == 0 && (c.acks.filter (fun p => p.1 == m)).length == need)
  else
    (List.range c.nmem).all (fun f => c.awaits f == 0) && (List.range (recCount c.rcd)).all c.ackedAll

/-- The completion word (R266). -/
def completionWord (step outcome status overflow delivered : Nat) : List Byte :=
  natBytes 8 (step % 2 ^ 32 * 2 ^ 32 + outcome * 2 ^ 16 + status * 2 ^ 8) ++
    natBytes 8 (overflow % 2 ^ 32 * 2 ^ 32 + delivered % 2 ^ 32)

/-- The overflow descriptor (R344). -/
def overflowDescriptor (addr ocount bcount lost : Nat) : List Byte :=
  natBytes 8 (if ocount = 0 then 0 else addr) ++ natBytes 4 ocount ++ natBytes 4 bcount ++ natBytes 4 lost ++
    List.replicate 44 0

/-- Bytes of the overflow records, OCOUNT of RSZ bytes each from ADDR (R343, R368). -/
def Coll.poolEnd (c : Coll) : Nat := recSize c.rcd * c.overflow

/-- The overflow records in their order.  Where the end of a command leaves some behind, those that are there stand side by side
(R344, R368, log entry 45). -/
def Coll.poolBytes (c : Coll) : List Byte :=
  (List.range (c.poolRecs.foldl (fun n p => max n (p.1 + 1)) 0)).flatMap (fun i => tget [] c.poolRecs i)

/-- A comm master may choose an address for its overflow records: it is not zero, it is translated, and neither an entry of a
cluster's region table covers a unit of it nor do overflow records that are kept lie there (R344, R368). -/
def State.poolFits (s : State) (c : Coll) (pool : Nat) : Bool :=
  let meets (base size : Nat) : Bool := decide (base < pool + c.poolEnd) && decide (pool / 64 * 64 < base + size)
  c.overflow == 0 ||
  (pool != 0 && (s.rangeXlat false c.aspace pool c.poolEnd true).isSome &&
    !(s.clusters.any (fun k => k.2.regions.any (fun r => !r.seg && r.aspace == c.aspace && meets r.base (64 * r.units)))) &&
    !(s.poolKept.any (fun p => p.aspace == c.aspace && meets p.base p.size)))

/-- The places of the overflow records are under HOLD, or in a unit whose busy count is full, so that their translation waits
(R400). -/
def State.poolWaits (s : State) (c : Coll) (pool : Nat) : Bool :=
  c.overflow != 0 && ((s.rangeXlat false c.aspace pool c.poolEnd true).map (s.rangeWaits pool c.poolEnd)).getD false

/-- Bounce list, pool records and descriptor of a repartition; the pool range is entered FROZEN in the region table of the tile's
cluster, and its reservation stays with the node (R343, R344, R368).  The busy counts of the pool range rise and fall within the
step (R400). -/
def State.finishRepart (s : State) (c : Coll) (pool : Nat) : State :=
  let r := c.rcd
  let cap := recNat r 0x14 4
  let listed := c.bounced.take cap
  let s := s.heldWrite c (recNat r 0x48 8 + 4 * cap * c.member) (listed.flatMap (natBytes 4))
  let s := (s.vwrite false c.aspace pool c.poolBytes).getD s
  let d := overflowDescriptor pool c.overflow listed.length (c.bounced.length - listed.length)
  let s := s.heldWrite c (recNat r 0x40 8 + 64 * c.member) d
  if c.overflow = 0 then s
  else
    let k := clusterOf c.unit
    let cl := s.cluster k
    let base := pool / 64 * 64
    let g : Region := { seg := false, aspace := c.aspace, base := base,
                        units := (pool + c.poolEnd - base + 63) / 64, st := .frozen, node := c.node }
    { (s.setCluster k { cl with regions := cl.regions ++ [g] }) with
        poolKept := s.poolKept ++
          [{ node := c.node.getD 0, bytes := c.pool, aspace := c.aspace, base := pool, size := c.poolEnd }] }

/-- An outcome of the checks of R327 or of R328, after which no member writes a descriptor (R499). -/
def checkFailed (e : Nat) : Bool := decide (0x10 ≤ e) && decide (e ≤ 0x14)

/-- A member of the operation ended at its checks or POOL_REFUSED, as far as any command of this module knows (R499). -/
def State.barredOf (s : State) (c : Coll) : Bool :=
  c.barred ||
    s.colls.any (fun d => d.group == c.group && d.step == c.step && (d.barred || (d.ended.map checkFailed).getD false)) ||
    s.endedColls.any (fun e => e.group == c.group && e.step == c.step && (e.barred || checkFailed e.outcome))

/-- A repartition writes its descriptor: it has exchanged its counts, or it had started and no member failed its checks (R344,
R499). -/
def State.describes (s : State) (c : Coll) (outcome : Nat) : Bool :=
  c.repart && (!c.counts.isEmpty || (!(checkFailed outcome) && !(s.barredOf c)))

/-- A command leaves its tile: its tag completes, its queue place and mailbox entry are freed, and an outcome other
than OK becomes COLLECTIVE_FAULT (R266). -/
def Unit.endColl (now : Nat) (x : Unit) (c : Coll) (outcome : Nat) : Unit :=
  let y : Unit := { x.tagDone c.tag with
    q0 := x.q0.filter (fun d => d.serial != c.serial)
    q1 := x.q1.filter (fun d => d.serial != c.serial)
    mail := x.mail.filter (fun d => d.serial != c.serial) }
  if outcome = 0 then y.settle
  else (y.postPend { cause := .collectiveFault, resume := none,
                     val := BitVec.ofNat 64 (c.pc % 2 ^ 32 * 2 ^ 32 + outcome * 2 ^ 16 + c.tag % 64),
                     rollback := false, handler := c.handler, tag := c.tag, arose := now }).settle

/-- The outcomes that strike a command from outside: an uncorrectable error, a die in reset, and the loss of the link to a
member that it needs and that no other route reaches (R267, R437). -/
def State.outsideOutcome (s : State) (c : Coll) (e : Byte) : Bool :=
  e == 0x01 || e == 0x02 ||
    (e == 0x06 && (List.range c.nmem).any (fun f =>
      c.needs f && c.modOf f != s.modnum && (s.portTowards (c.modOf f)).isNone &&
        (c.applied.any (fun p => p.1 == f) || c.sent.any (fun p => p.1 == f))))

/-- Translations of the pool range that the overflow records of a repartition touch; none where it writes none (R343, R405). -/
def State.poolXlat (s : State) (c : Coll) (outcome pool : Nat) : List Xlat :=
  if s.describes c outcome ∧ c.overflow ≠ 0 then (s.rangeXlat false c.aspace pool c.poolEnd true).getD [] else []

/-- A command ends: the descriptor and the completion word are written, its reservations and counts are released and
its outcome is kept for later requests (R266, R328, R344, R345). -/
def State.endCommand (s : State) (c : Coll) (outcome pool : Nat) : State :=
  let lost := c.bounced.length - recNat c.rcd 0x14 4
  let outcome := if outcome = 0 ∧ c.repart ∧ lost ≠ 0 then 0x16 else outcome
  let more := s.poolXlat c outcome pool
  let s := if s.describes c outcome then s.finishRepart c pool else s
  let w := completionWord c.step outcome c.status c.overflow c.delivered
  let s := if c.noWord then s else s.heldWrite c (recCword c.rcd + 16 * c.member) w
  let s := ((s.release c.counted (c.xlat ++ more)).modContext c.node c.unit (fun x => x.endColl s.now c outcome)).stir
  let e : EndedColl := { unit := c.unit, serial := c.serial, group := c.group, step := c.step, member := c.member,
                         outcome := outcome, applied := c.applied, mods := c.mems.map (·.1), barred := s.barredOf c }
  State.review { s with
    colls := s.colls.filter (fun d => !(d.unit == c.unit && d.serial == c.serial))
    endedColls := e :: s.endedColls }

/-- COMPLETION_WORD (R266, R334, R344, R419): a command that has ended, whose chunks are all applied, or that an error from
outside strikes, ends.  `pool` is the address that the comm master chose for overflow records. -/
def execCompletionWord (u id : Nat) (err : Option Byte) (pool : Nat) (s : State) : Host.Outcome State Fault Refusal :=
  if 512 ≤ u then .fault (.noSuchPart u)
  else
    let s := s.review
    match s.collOf u id with
    | none => .next s
    | some c =>
      if !(s.mastersRun u) ∨ (c.repart && (!(s.poolFits c pool) || s.poolWaits c pool)) then .next s
      else match c.ended with
      | some e => .next (s.endCommand c e pool)
      | none =>
        match err with
        | some e => .next (if s.outsideOutcome c e then s.endCommand c e.toNat pool else s)
        | none => .next (if c.finished then s.endCommand c 0 pool else s)

/-- The chunks of member `f` that a member has still to apply, by iteration or first record (R346). -/
def Coll.missing (c : Coll) (f : Nat) : List Nat :=
  let ts := if c.repart then
      (if c.counts.isEmpty then []
       else (List.range ((c.recordsFor f c.member + c.batch - 1) / c.batch)).map (fun i => i * c.batch))
    else recExpected c.rcd f c.member
  ts.filter (fun t => !(c.knows f t))

/-- A receiver on this module asks the senders on a module for every chunk not yet applied (R346). -/
def State.requestMissing (s : State) (mod : Nat) (c : Coll) : State :=
  if c.ended.isSome then s
  else (List.range c.nmem).foldl (fun (s : State) f =>
    if c.modOf f = mod then
      (c.missing f).foldl (fun (s : State) t => s.send (.request mod c.group c.step f c.member t)) s
    else s) s

/-- The chunks sent that members on other modules have not reported applied. -/
def State.unreported (s : State) (c : Coll) : List (Nat × Nat) :=
  c.sent.filter (fun p => !(c.acks.contains p) && c.modOf p.1 != s.modnum)

/-- A sender sends the chunks that members on other modules have not reported applied once more, as the reports may have been lost
(R333, R346). -/
def State.resendKept (s : State) (c : Coll) : State :=
  (s.unreported c).foldl (fun (s : State) p =>
    s.send (.chunk (c.modOf p.1) c.group c.step c.member p.1 p.2 (c.landing p.2) (c.keptChunk p.1 p.2))) s

/-- The modules of a command's members, each once. -/
def Coll.modules (c : Coll) : List Nat := c.mems.foldl (fun l m => if l.contains m.1 then l else l ++ [m.1]) []

/-- A collective takes up what it owes once its comm master runs: it asks modules for what it is missing, sends again what was not
reported applied, and spends the credits that it holds (R332, R333, R346, R473). -/
def State.pickUp (s : State) (u serial : Nat) : State :=
  match s.collOf u serial with
  | none => s
  | some c =>
    if c.ended.isSome ∨ !(s.mastersRun c.unit) then s
    else
      let ready := c.toResend && (s.unreported c).all (fun p => s.chunkWay c p.1 p.2)
      let d := { c with toAsk := [], toResend := c.toResend && !ready }
      let s := c.toAsk.foldl (fun (s : State) m => s.requestMissing m d) (s.setColl d)
      (if ready then s.resendKept d else s).sendHeld u serial

/-- Every collective whose comm master runs takes up what it owes. -/
def State.pickUpAll (s : State) : State :=
  ((s.colls.map (fun c => (c.unit, c.serial))).foldl (fun (s : State) p => s.pickUp p.1 p.2) s).review

/-- Some collectives resume: their completion words will say so, and each asks for every chunk that it has not applied and sends
again what was not reported applied, once its comm master runs (R346, R473). -/
def State.resumeColls (s : State) (p : Coll → Bool) : State :=
  State.pickUpAll { s with colls := s.colls.map (fun c =>
    if p c && c.ended.isNone then { (c.setStatus stResumed) with toAsk := c.modules, toResend := true } else c) }

/-- Every receiver asks the senders on a module for the chunks that it has not applied, once its comm master runs (R333, R346). -/
def State.askModule (s : State) (mod : Nat) : State :=
  State.pickUpAll { s with colls := s.colls.map (fun c =>
    if c.ended.isNone && c.modules.contains mod && !(c.toAsk.contains mod) then { c with toAsk := c.toAsk ++ [mod] } else c) }

end Sys2Proof.Machine
end

