-- ==== Sys2Proof/Machine/ScalarFlow.lean ====
section
/-!
DEFINITION. Control flow of the scalar slot (R147 to R154).  A taken branch, a skipped loop body and `END`
take effect when their bundle ends (`Bundle.lean`).
-/
namespace Sys2Proof.Machine

/-- The code-store offset of the bundle in issue (R148). -/
def State.offset (s : State) : Nat := s.src.pc

/-- An offset relative to the bundle in issue, modulo 2^64 (R149). -/
def State.target (s : State) (k : Int) : Nat := (((s.offset : Int) + 32 * k) % 2 ^ 64).toNat

/-- The entries that stay on a loop stack when a branch goes to a target: those from the first whose body holds
it (R151). -/
def popTo (t : Nat) : List LoopEntry → List LoopEntry
  | [] => []
  | e :: es => if e.start ≤ t ∧ t ≤ e.last then e :: es else popTo t es

/-- The unit with the loop stack it uses replaced (R152). -/
def Unit.setLoops (x : Unit) (l : List LoopEntry) : Unit :=
  if x.handler then { x with hloop := l.head? } else { x with regs := { x.regs with loops := l } }

/-- A taken branch to a target; BRI, BR and CHK leave the loops whose body does not hold it (R148, R151). -/
def State.branchTo (s : State) (t : Nat) (pops : Bool) : State :=
  let s := { s with issue := { s.issue with branch := some t } }
  if pops then s.modCur (fun x => x.setLoops (popTo t x.loopStack)) else s

/-- NOP (R147). -/
def execNop (s : State) : Host.Outcome State Fault Refusal := s.slotStep .nop (fun s => s)

/-- BRI (R148). -/
def execBri (o : SB) (s : State) : Host.Outcome State Fault Refusal :=
  s.slotStep (.bri o) (fun s => s.branchTo (s.target o.off20.toInt) true)

/-- CALL (R148): s55 takes o + 32; the loop stack stays (R151). -/
def execCall (o : SB) (s : State) : Host.Outcome State Fault Refusal :=
  s.slotStep (.call o) (fun s =>
    (s.deliverS false (.sreg 55) 1 { v := BitVec.ofNat 64 (s.offset + 32), d := false }).branchTo
      (s.target o.off20.toInt) false)

/-- BR (R148). -/
def execBr (o : SR) (s : State) : Host.Outcome State Fault Refusal :=
  s.slotStep (.br o) (fun s => s.branchTo (s.src.sreg o.a).v.toNat true)

/-- RET (R148); the loop stack stays (R151). -/
def execRet (o : SR) (s : State) : Host.Outcome State Fault Refusal :=
  s.slotStep (.ret o) (fun s => s.branchTo (s.src.sreg o.a).v.toNat false)

/-- LOOP (R150, R152). -/
def execLoop (o : SI) (s : State) : Host.Outcome State Fault Refusal :=
  s.slotStep (.loop o) (fun s =>
    let c := (field (s.src.sreg o.a).v 0 32).toNat
    let last := s.offset + 32 * o.imm9.toNat
    if c = 0 then { s with issue := { s.issue with skip := some (last + 32) } }
    else s.modCur (fun x => x.setLoops ({ start := s.offset + 32, last := last, remaining := c } :: x.loopStack)))

/-- CHK (R153): a taken branch when sA carries D. -/
def execChk (o : SI) (s : State) : Host.Outcome State Fault Refusal :=
  s.slotStep (.chk o) (fun s =>
    if (s.src.sreg o.a).d then s.branchTo (s.target o.imm9.toInt) true else s)

/-- END (R26, R154): issue stops when the bundle ends. -/
def execEndTask (s : State) : Host.Outcome State Fault Refusal :=
  s.slotStep .endTask (fun s => { s with issue := { s.issue with after := some .endTask } })

end Sys2Proof.Machine
end

