-- ==== Sys2Proof/Machine/ScalarMem.lean ====
section
/-!
DEFINITION. Local loads and stores, crossing and staging, tags, the barrier, ownership transfer and atomics of the
scalar slot (R155 to R165).
-/
namespace Sys2Proof.Machine

/-- The value that a load delivers: zero-extended, or sign-extended when F[2] is 1 (R156). -/
def loadValue (f : BitVec 3) (bs : List Byte) : Word :=
  let w := 8 * bs.length
  let v : Word := BitVec.ofNat 64 (natOfBytes bs)
  if bitOf f 2 then (v <<< (64 - w)).sshiftRight (64 - w) else v

/-- The bytes that a scalar access reads at issue, gated stores included (R84, R156). -/
def Unit.loadBytes (x : Unit) (a : SAccess) : List Byte := x.bread a.buf a.ea.toNat a.size

/-- LD (R156). -/
def execLd (buf : Buf) (f : BitVec 3) (o : SR) (s : State) : Host.Outcome State Fault Refusal :=
  s.slotStep (.ld buf f o) (fun s =>
    s.deliverS o.nw (.sreg o.d.toNat) 4
      { v := loadValue f (s.src.loadBytes (s.src.scalarAccess buf f o)), d := false })

/-- LDSP (R157): where LD would trap, or sA is marked, 0 with D set. -/
def execLdsp (buf : Buf) (f : BitVec 3) (o : SR) (s : State) : Host.Outcome State Fault Refusal :=
  s.slotStep (.ldsp buf f o) (fun s =>
    let a := s.src.scalarAccess buf f o
    let bad := (s.src.sreg o.a).d || (a.trap s.focus s.src).isSome
    s.deliverS o.nw (.sreg o.d.toNat) 4
      { v := if bad then 0 else loadValue f (s.src.loadBytes a), d := bad })

/-- ST (R158). -/
def execSt (buf : Buf) (f : BitVec 3) (o : SR) (s : State) : Host.Outcome State Fault Refusal :=
  s.slotStep (.st buf f o) (fun s =>
    let a := s.src.scalarAccess buf f o
    let v := (s.src.sreg o.d).v
    s.modCur (fun x => x.store buf [placed a.ea.toNat (toBytes v a.size)]))

/-- XEXT (R159): lane B of the register that A names in the file F[0] selects; forms .w, .w.s and .d. -/
def execXext (f : BitVec 3) (o : SR) (s : State) : Host.Outcome State Fault Refusal :=
  s.slotStep (.xext f o) (fun s =>
    let c : Cluster := if bitOf f 0 then .vb else .va
    let v := s.src.vop c (field f 1 2 == 2) o.a
    let l := o.b.toNat
    let r : Word :=
      match (field f 1 2).toNat with
      | 0 => BitVec.ofNat 64 (laneAt v.lo l)
      | 1 => (BitVec.ofNat 32 (laneAt v.lo l)).signExtend 64
      | _ => BitVec.ofNat 64 (v.el 64 l 0)
    s.deliverS o.nw (.sreg o.d.toNat) 2 { v := r, d := v.d })

/-- STG (R160): latency 1, no latch. -/
def execStg (o : SR) (s : State) : Host.Outcome State Fault Refusal :=
  s.slotStep (.stg o) (fun s =>
    let pc := s.src.pc
    let v := (s.src.sreg o.a).v
    s.modCur (fun x => x.issueResult
      { dest := .staging o.d.toNat, group := none, nw := false, lo := v.setWidth 2048, hi := 0,
        gov := BitVec.allOnes 64, d := false, flags := 0, en := 0, k := 1, pc := pc }))

/-- The tags that a `WAITC` waits for (R161). -/
def Unit.waitTags (x : Unit) : Instr → List Nat
  | .waitcTag o => [o.b.toNat]
  | .waitcMask o => (List.range 64).filter (bitOf (x.sreg o.a).v)
  | _ => []

/-- WAITC, one tag (R161): its bundle has waited; it has no other effect. -/
def execWaitcTag (o : SR) (s : State) : Host.Outcome State Fault Refusal := s.slotStep (.waitcTag o) (fun s => s)

/-- WAITC, a mask of tags (R161): its bundle has waited; it has no other effect. -/
def execWaitcMask (o : SR) (s : State) : Host.Outcome State Fault Refusal := s.slotStep (.waitcMask o) (fun s => s)

/-! ### Barrier -/

/-- The arrival of a unit at its next barrier instance, counted once while it waits there (R30, R162). -/
def Unit.arrive (x : Unit) : Unit :=
  if x.barWaiting then x else { x with barIssued := x.barIssued + 1, barWaiting := true }

/-- Every member of the team has arrived at the instance at which unit `u` waits; a member that has executed
`END` in task mode counts as arrived (R162). -/
def State.allArrived (s : State) (u : Nat) : Bool :=
  let n := (s.unit u).barIssued
  (s.teamUnits u).all (fun v =>
    let y := s.unit v
    decide (n ≤ y.barIssued) || y.pastEnd)

/-- BAR (R162): the arrival, and the end of the wait once every member has arrived. -/
def execBar (o : SR) (s : State) : Host.Outcome State Fault Refusal :=
  s.slotStep (.bar o) (fun s =>
    let s := s.modCur Unit.arrive
    if s.allArrived s.focus then s.modCur (fun x => { x with barWaiting := false }) else s)

/-- XFER (R89, R163). -/
def execXfer (o : SR) (s : State) : Host.Outcome State Fault Refusal :=
  s.slotStep (.xfer o) (fun s =>
    match xferTarget (s.src.sreg o.a).v with
    | none => s
    | some t => s.xfer s.focus t (s.src.sreg o.b).v.toNat)

/-! ### Atomics -/

/-- The requester number of a unit at the engine of cluster `home`: 0 to 15 its tiles, 16 its comm sequencers, 17
its remote port (R91, R92, R165). -/
def requesterAt (home u : Nat) : Nat :=
  match unitKind u with
  | .tile => if clusterOf u = home then u % 16 else 17
  | .comm => if clusterOf u = home then 16 else 17
  | _ => 17

/-- An `ATOM` sends its request to the engine of the word's home cluster; with NW = 0 its register is pending
until the reply (R91, R92, R165). -/
def atomIssue (s : State) (i : Instr) (op : AOp) (dbl : Bool) (o : SR) : Host.Outcome State Fault Refusal :=
  s.slotStep i (fun s =>
    let u := s.focus
    let a := (s.src.sreg o.a).v.toNat
    let b := (s.src.sreg o.b).v
    let c := (s.src.sreg o.d).v
    match s.walkSegment s.src.card.aspace a with
    | none => s
    | some t =>
      match t.place with
      | .sram home =>
        let id := s.cur.serial
        let req : AtomReq :=
          { requester := requesterAt home u, unit := u, node := s.src.team, held := s.dieHeld (home / 8),
            id := if o.nw then none else some id, op := op,
            bytes := atomBytes dbl, addr := (t.loc a).addr, cs := t.cs, v := b, cmp := c }
        let k := s.cluster home
        let s := s.setCluster home { k with reqs := k.reqs ++ [req] }
        s.modCur (fun x => { x with
          serial := x.serial + 1
          atoms := if o.nw then x.atoms
                   else x.atoms ++ [{ reg := o.d.toNat, id := id, serial := id, handler := x.handler }] })
      | _ => s)

/-- ATOM add (R164): new m is m + v modulo 2^width. -/
def execAtomAdd (dbl : Bool) (o : SR) (s : State) : Host.Outcome State Fault Refusal :=
  atomIssue s (.atomAdd dbl o) .add dbl o

/-- ATOM and (R164): new m is m AND v. -/
def execAtomAnd (dbl : Bool) (o : SR) (s : State) : Host.Outcome State Fault Refusal :=
  atomIssue s (.atomAnd dbl o) .and dbl o

/-- ATOM or (R164): new m is m OR v. -/
def execAtomOr (dbl : Bool) (o : SR) (s : State) : Host.Outcome State Fault Refusal :=
  atomIssue s (.atomOr dbl o) .or dbl o

/-- ATOM xor (R164): new m is m XOR v. -/
def execAtomXor (dbl : Bool) (o : SR) (s : State) : Host.Outcome State Fault Refusal :=
  atomIssue s (.atomXor dbl o) .xor dbl o

/-- ATOM min (R164): new m is unsigned minimum. -/
def execAtomMin (dbl : Bool) (o : SR) (s : State) : Host.Outcome State Fault Refusal :=
  atomIssue s (.atomMin dbl o) .min dbl o

/-- ATOM max (R164): new m is unsigned maximum. -/
def execAtomMax (dbl : Bool) (o : SR) (s : State) : Host.Outcome State Fault Refusal :=
  atomIssue s (.atomMax dbl o) .max dbl o

/-- ATOM mins (R164): new m is signed minimum. -/
def execAtomMins (dbl : Bool) (o : SR) (s : State) : Host.Outcome State Fault Refusal :=
  atomIssue s (.atomMins dbl o) .mins dbl o

/-- ATOM maxs (R164): new m is signed maximum. -/
def execAtomMaxs (dbl : Bool) (o : SR) (s : State) : Host.Outcome State Fault Refusal :=
  atomIssue s (.atomMaxs dbl o) .maxs dbl o

/-- ATOM xchg (R164): new m is v. -/
def execAtomXchg (dbl : Bool) (o : SR) (s : State) : Host.Outcome State Fault Refusal :=
  atomIssue s (.atomXchg dbl o) .xchg dbl o

/-- ATOM cas (R164): new m is v when m is the comparand, else m. -/
def execAtomCas (dbl : Bool) (o : SR) (s : State) : Host.Outcome State Fault Refusal :=
  atomIssue s (.atomCas dbl o) .cas dbl o

end Sys2Proof.Machine
end

