-- ==== Sys2Proof/Machine/Atomic.lean ====
section
/-!
DEFINITION. The atomic engines (R91 to R95, R164, R165) and the hand-over of a region in transfer (R89).
-/
namespace Sys2Proof.Machine

/-! ### Atomic engines -/

/-- The new word of an operation on `m` with operand `v` and comparand `c`, in `w` bits (R164). -/
def AOp.apply (op : AOp) (w : Nat) (m v c : BitVec w) : BitVec w :=
  match op with
  | .add => m + v
  | .and => m &&& v
  | .or => m ||| v
  | .xor => m ^^^ v
  | .min => if m.ult v then m else v
  | .max => if m.ult v then v else m
  | .mins => if m.slt v then m else v
  | .maxs => if m.slt v then v else m
  | .xchg => v
  | .cas => if m = c then v else m

/-- The line that holds an address, in the engine's store of 256 lines: fetched where it is absent, and an older line
written back to make room (R91). -/
def State.holdLine (s : State) (k a : Nat) : State :=
  if (s.lineOf k a).isSome then s
  else
    let c := s.cluster k
    let bytes := mread (s.sramOf k) (a / 64 * 64) 64
    match c.lines with
    | (l, bs) :: rest =>
      if c.lines.length < 256 then s.setCluster k { c with lines := tput c.lines (a / 64) bytes }
      else
        let s := { s with sram := tput s.sram k (mwrite (s.sramOf k) (64 * l) bs) }
        s.setCluster k { c with lines := tput rest (a / 64) bytes }
    | [] => s.setCluster k { c with lines := [(a / 64, bytes)] }

/-- Every line that an engine holds is written back, and its store is empty (R87, R91). -/
def State.writeBackLines (s : State) (k : Nat) : State :=
  let c := s.cluster k
  let m := c.lines.foldl (fun (m : Memory) l => mwrite m (64 * l.1) l.2) (s.sramOf k)
  { s with sram := tput s.sram k m }.setCluster k { c with lines := [] }

/-- The reply to a request carries the prior word; a request with suppressed write-back has none (R93). -/
def State.atomReply (s : State) (k : Nat) (r : AtomReq) (old : Word) : State :=
  let c := s.cluster k
  s.setCluster k { c with
    replies := match r.id with
      | none => c.replies
      | some id => c.replies ++ [{ unit := r.unit, node := r.node, id := id, v := old, addr := r.addr }] }

/-- One request applied to its line at one instant; the reply carries the prior word (R92, R93).  A block that is stored
compressed is demoted first; one that does not expand stays as it is (R101, R102, log entry 74). -/
def State.applyAtom (s : State) (k : Nat) (r : AtomReq) : State :=
  match s.demote { place := .sram k, addr := r.addr } r.cs false with
  | none =>
    { s.atomReply k r ((Config.unexpandedWord r.addr s.free).setWidth (8 * r.bytes) |>.setWidth 64) with free := s.free + 1 }
  | some s =>
    let s := s.holdLine k r.addr
    let line := (s.lineOf k r.addr).getD []
    let o := r.addr % 64
    let old := natOfBytes ((line.drop o).take r.bytes)
    let w := 8 * r.bytes
    let new := r.op.apply w (BitVec.ofNat w old) (r.v.setWidth w) (r.cmp.setWidth w)
    let bs := natBytes r.bytes new.toNat
    let c := s.cluster k
    (s.setCluster k { c with
      lines := tput c.lines (r.addr / 64) ((line.take o ++ bs ++ line.drop (o + r.bytes)).take 64) }).atomReply k r
        (BitVec.ofNat 64 old)

/-- The first request of a requester that the engine may grant (R92); one that is held keeps those after it. -/
def ClusterSt.firstReq (c : ClusterSt) (requester : Nat) : Option AtomReq :=
  (c.reqs.find? (fun r => r.requester == requester)).filter (fun r => !r.held)

/-- The requester that the engine grants next: round-robin from its starting point (R92). -/
def ClusterSt.granted (c : ClusterSt) : Option Nat :=
  ((List.range 18).map (fun i => (c.grantFrom + i) % 18)).find? (fun q => (c.firstReq q).isSome)

/-- ATOM_APPLY (R91 to R93, R419, R428, R460, R467): the engine of cluster `k` grants the requester whose turn it is; in a
drain it has stopped. -/
def execAtomApply (k requester : Nat) (s : State) : Host.Outcome State Fault Refusal :=
  if 32 ≤ k then .fault (.noSuchPart k)
  else
    let c := s.cluster k
    if c.granted ≠ some requester ∨ 1 < s.duskPhase ∨ s.isShed (k / 8) ∨ 2 < s.diePhase (k / 8) then .next s
    else
      match c.firstReq requester with
      | none => .next s
      | some r =>
        if !(s.wayOpen (dieAt r.unit) (k / 8) r.addr) then .next s
        else
          let s := s.setCluster k { c with reqs := c.reqs.erase r, grantFrom := (requester + 1) % 18 }
          .next (s.applyAtom k r)

/-- The unit with an atomic reply: its register takes the prior word, or, while a handler runs, the word waits for the
task in its bank (R93, R165, R289). What a reply does to the shadow of a mark: log entry 71. -/
def Unit.takeReply (x : Unit) (id : Nat) (v : Word) : Unit :=
  match x.atoms.find? (fun a => a.id == id) with
  | none => x
  | some a =>
    match x.bank with
    | some b =>
      if x.handler ∧ !a.handler then { x with bank := some { b with replies := b.replies ++ [(a.reg, v)] } }
      else { x.writeReply a.reg a.serial v with atoms := x.atoms.filter (fun p => p.id != id) }
    | none => { x.writeReply a.reg a.serial v with atoms := x.atoms.filter (fun p => p.id != id) }

/-- ATOM_REPLY (R93, R95, R165, R460): a reply arrives, in the register or in the saved context, once links from its engine are
open. -/
def execAtomReply (u id : Nat) (s : State) : Host.Outcome State Fault Refusal :=
  if unitCount ≤ u then .fault (.noSuchPart u)
  else
    match (List.range 32).find? (fun k => (s.cluster k).replies.any (fun r => r.unit == u && r.id == id)) with
    | none => .next s
    | some k =>
      let c := s.cluster k
      match c.replies.find? (fun r => r.unit == u && r.id == id) with
      | none => .next s
      | some r =>
        if !(s.wayOpen (k / 8) (dieAt u) r.addr) then .next s
        else
        let s := s.setCluster k { c with replies := c.replies.erase r }
        .next (s.modContext r.node u (fun x => x.takeReply id r.v))

/-! ### Hand-over -/

/-- The buffer and first offset of a 64 KiB ownership unit, numbered as R86 counts the 32 of a tile. -/
def bufUnit (n : Nat) : Buf × Nat :=
  if n < 16 then (.wb, 65536 * n) else if n < 26 then (.ab, 65536 * (n - 16))
  else if n < 30 then (.cb, 65536 * (n - 26)) else (.sb, 65536 * (n - 30))

/-- The DRAM ranges that a `COLL` or `REPART` touches by its record: as it was read, or as it stands where the command is still
queued (R89, R327). -/
def State.recordSpans (s : State) (u : Nat) (x : Unit) (c : CCmd) : List Span :=
  if c.fields.1 ≠ 0x0A ∧ c.fields.1 ≠ 0x0B then []
  else
    let a := x.card.coll.getD (field c.fields.2.flags 0 2).toNat 0
    let (r, m) := match s.collOf u c.serial with
      | some d => (d.rcd, d.member)
      | none =>
        let r := (s.vread false x.card.aspace a 128).getD []
        let tab := (s.vread false x.card.aspace (recMemtab r) (8 * recMembers r)).getD []
        (r, (memberIndex (memberTable tab (recMembers r)) s.modnum u).getD 0)
    (collNeeds (c.fields.1 == 0x0B) r m).filterMap (fun n =>
      guarded (n.2.1 != 0) { space := .dram, lo := n.1, hi := (n.1 : Int) + n.2.1 - 1 })

/-- Every range that a unit's copy commands issued before a command serial, and its matrix commands, touch (R89, R240, R263).
A matrix command in the bundle of an `XFER` is checked on the state before that bundle (R111, R127) and so counts as earlier;
after that bundle none that touches the region passes its check (DEDUCED, log entry 105). -/
def State.commandSpans (s : State) (u : Nat) (x : Unit) (since : Nat) : List Span :=
  ((x.q0 ++ x.q1).filter (fun c => decide (c.serial < since))).flatMap (fun c =>
    s.readSpans u c ++ s.writeSpans u c ++ s.recordSpans u x c) ++
  x.mq.flatMap (fun m => m.operands.map (MOperand.span u))

/-- XFER_HANDOVER (R89): a region in transfer becomes the target's once every earlier command of its owner that touches
it has completed.  `x` numbers the owner's 32 buffer units, then the entries of its cluster's region table. -/
def execXferHandover (owner x : Nat) (s : State) : Host.Outcome State Fault Refusal :=
  if 512 ≤ owner then .fault (.noSuchPart owner)
  else if x < 32 then
    let y := s.unit owner
    match tget (.owned y.member) y.own x with
    | .owned _ => .next s
    | .transfer m since =>
      let (b, o) := bufUnit x
      let sp : Span := { space := .buf owner b, lo := o, hi := o + 65535 }
      if spansMeet [sp] (s.commandSpans owner y since) then .next s
      else .next (s.setUnit owner { y with own := tput y.own x (.owned m) })
  else
    let k := clusterOf owner
    let c := s.cluster k
    match c.regions[x - 32]? with
    | none => .next s
    | some r =>
      match r.st with
      | .transfer src dst since =>
        let y := s.contextOf r.node owner
        let sp : Span := { space := if r.seg then .seg else .dram, lo := r.base, hi := (r.base : Int) + 64 * r.units - 1 }
        if y.team ≠ r.node ∨ y.member ≠ src ∨ spansMeet [sp] (s.commandSpans owner y since) then .next s
        else .next (s.setCluster k { c with regions := c.regions.set (x - 32) { r with st := .owned dst } })
      | _ => .next s

end Sys2Proof.Machine
end

