-- ==== Sys2Proof/Machine/Matrix.lean ====
section
/-!
DEFINITION. The matrix slot and the matrix engine: issue of the seven commands (R221, R229, R233 to R235), their
start, the reading of their operands and their completion or replay (R230 to R232, R239 to R242, R311 to R321).
-/
namespace Sys2Proof.Machine

/-! ### Issue -/

/-- A matrix command enters the matrix queue with its snapshots and its tag (R82, R126, R221, R241). -/
def State.matrixPush (s : State) (var : MVar) (o : MOps) (stg : List Word) (after : Option Nat) : State :=
  let x := s.src
  let old := s.bundleOld
  s.modCur (fun y =>
    { y.tagIssue o.tag.toNat with
      serial := y.serial + 1
      mq := y.mq ++ [{ serial := y.serial, pc := x.pc, var := var, o := o, stg := stg, fcsr := x.regs.fcsr,
                       scales := x.scales, scaleSer := x.scaleSer, bundle := x.serial,
                       old := if after.isSome then [] else old, after := after, follow := after.isSome,
                       handler := x.handler, started := none, opsRead := false, level := 0, replays := 0,
                       record := none }] })

/-- Issue of a command in the M slot. -/
def matrixIssue (s : State) (i : Instr) (var : MVar) (o : MOps) : Host.Outcome State Fault Refusal :=
  s.slotStep i (fun s => s.matrixPush var o (s.src.matrixStaging var.num o) none)

/-- MM (R229). -/
def execMm (o : MOps) (s : State) : Host.Outcome State Fault Refusal := matrixIssue s (.mm o) .mm o

/-- MMS 2:4 (R227, R229). -/
def execMmsN24 (o : MOps) (s : State) : Host.Outcome State Fault Refusal := matrixIssue s (.mmsN24 o) .mms24 o

/-- MMS 4:8 (R227, R229). -/
def execMmsN48 (o : MOps) (s : State) : Host.Outcome State Fault Refusal := matrixIssue s (.mmsN48 o) .mms48 o

/-- MMT (R229). -/
def execMmt (o : MOps) (s : State) : Host.Outcome State Fault Refusal := matrixIssue s (.mmt o) .mmt o

/-- AZERO (R233). -/
def execAzero (o : MOps) (s : State) : Host.Outcome State Fault Refusal := matrixIssue s (.azero o) .azero o

/-- ASCL (R234). -/
def execAscl (o : MOps) (s : State) : Host.Outcome State Fault Refusal := matrixIssue s (.ascl o) .ascl o

/-- ACVT (R235). -/
def execAcvt (o : MOps) (s : State) : Host.Outcome State Fault Refusal := matrixIssue s (.acvt o) .acvt o

/-! ### Start -/

/-- The duration D of a command in clocks (R239). -/
def matrixClocks (var : MVar) (shape : BitVec 3) : Nat :=
  let i := min shape.toNat 4
  match var with
  | .mm | .mmt => 64 * 2 ^ i
  | .mms24 | .mms48 => 32 * 2 ^ i
  | _ => 8 * 2 ^ i

/-- The tile registers that a command reads as A (R224). -/
def MCmd.tileRegs (m : MCmd) : List Nat :=
  if m.o.asrc then
    let t := (field (sreg m.stg 0) 0 2).toNat
    if shapeM m.o.shape = 128 then [t, t + 1] else [t]
  else []

/-- A `TWR` to one of the tile registers has not landed; those banked by a trap count, and one of the
command's own bundle too (R218; the last is a DESIGN CHOICE, log entry 85). -/
def Unit.rowsPending (x : Unit) (ts : List Nat) : Bool :=
  (x.flight ++ (match x.bank with | some b => b.flight | none => [])).any (fun r =>
    match r.dest with
    | .row t _ => ts.contains t
    | _ => false)

/-- The scale registers that a command reads (R226). -/
def MCmd.scaleReads (m : MCmd) : List Nat :=
  if m.var.num ≤ 3 then (List.range (scaleCount m.var.num m.o)).map (m.o.base.toNat + ·) else []

/-- The scale registers that a command writes (R236). -/
def MCmd.scaleWrites (m : MCmd) : List Nat :=
  if m.var = .acvt then (List.range (scaleCount 6 m.o)).map (m.o.base.toNat + ·) else []

/-- The command runs floating groups at a fidelity level (R230). -/
def MCmd.floating (m : MCmd) : Bool := decide (m.var.num ≤ 3) && !matrixInt m.o.fa

/-- The oldest command that has not started. -/
def Unit.nextMatrix (x : Unit) : Option MCmd := x.mq.find? (fun m => m.started.isNone)

/-- The conditions under which a command starts (R218, R239, R241, R256). -/
def State.matrixMayStart (s : State) (u : Nat) (m : MCmd) : Bool :=
  let x := s.unit u
  let begun := x.mq.filter (fun n => n.started.isSome)
  s.powered u && x.run != .frozen && x.run != .halted && m.after.isNone && begun.all (fun n => n.opsRead) && decide (begun.length < 2) &&
    decide (s.shadeOf (clusterOf u) < 3) && s.matrixClear u m && !(x.rowsPending m.tileRegs) &&
    !(x.mq.any (fun n => decide (n.serial < m.serial) && n.scaleWrites.any (fun r => m.scaleReads.contains r)))

/-- The fidelity limit of a cluster (R316). -/
def State.fidlimOf (s : State) (k : Nat) : Nat := (field (s.cget (fidlimAddr k)) 0 2).toNat

/-- FIDSTAT when a floating command starts: LAST, LIMIT and CAPPED (R312, R313). -/
def fidstatStart (w : Word) (level limit fidmax : Nat) : Word :=
  let w := setField (setField w 14 (BitVec.ofNat 2 level)) 12 (BitVec.ofNat 2 limit)
  if level < fidmax then setBit w 8 else w

/-- The record that the engine keeps from the start on (R231). -/
def Unit.matrixRecord (u : Nat) (x : Unit) (m : MCmd) : MRecord :=
  { ab := x.bufferFor u m.gate m.old .ab, wb := x.bufferFor u m.gate m.old .wb, cb := x.bufferFor u m.gate m.old .cb,
    tx := x.regs.tx, scales := m.scales }

/-- MATRIX_COMMAND_START (R230, R231, R239). -/
def execMatrixCommandStart (u : Nat) (s : State) : Host.Outcome State Fault Refusal :=
  if 512 ≤ u then .fault (.noSuchPart u)
  else
    let x := s.unit u
    match x.nextMatrix with
    | none => .next s
    | some m =>
      if !(s.matrixMayStart u m) then .next s
      else
        let limit := s.fidlimOf (clusterOf u)
        let level := if m.floating then min x.card.fidmax limit else 0
        let m' : MCmd := { m with started := some s.now, level := level, record := some (x.matrixRecord u m) }
        .next (s.setUnit u { x with
          fidstat := if m.floating then fidstatStart x.fidstat level limit x.card.fidmax else x.fidstat
          mq := x.mq.map (fun n => if n.serial = m.serial then m' else n) })

/-! ### Operands read -/

/-- MATRIX_OPERANDS_READ: D clocks after its start the oldest started command that still reads has read its last A
and B byte (R239, R240). -/
def execMatrixOperandsRead (u : Nat) (s : State) : Host.Outcome State Fault Refusal :=
  if 512 ≤ u then .fault (.noSuchPart u)
  else
    let x := s.unit u
    match x.mq.find? (fun m => m.started.isSome && !m.opsRead) with
    | none => .next s
    | some m =>
      if s.now < m.started.getD 0 + 25 * matrixClocks m.var m.o.shape ∨ !(s.powered u) then .next s
      else .next (s.setUnit u { x with
        mq := x.mq.map (fun n => if n.serial = m.serial then { n with opsRead := true } else n) })

/-! ### Completion -/

/-- What one run of a command leaves: bytes of CB and of AB, scale pairs, MSTAT bits and what the groups
accumulated. -/
structure MOut where
  cb : List (Nat × Byte) := []
  ab : List (Nat × Byte) := []
  pairs : List (Nat × Nat) := []
  mstat : Word := 0
  run : MRun := {}
deriving DecidableEq, Repr, Inhabited

/-- The run of a started command from its record (R229 to R236). -/
def Unit.matrixRun (x : Unit) (m : MCmd) (r : MRecord) : MOut :=
  match m.var with
  | .azero => { cb := runAzero m.o m.stg, run := { number := x.injCount } }
  | .ascl =>
    let y := runAscl m.o m.stg m.fcsr r
    { cb := y.1, mstat := y.2, run := { number := x.injCount } }
  | .acvt =>
    let y := runAcvt m.o m.stg m.fcsr r
    { ab := y.1, pairs := y.2.1, mstat := y.2.2, run := { number := x.injCount } }
  | _ =>
    let env : MEnv := { level := m.level, daz := bitOf m.fcsr 4, ftz := bitOf m.fcsr 3, inj := x.fidinj }
    let y := runProduct env m.var.num m.o m.stg r x.injCount
    { cb := y.1, mstat := y.2.mstat, run := y.2 }

/-- The detections of a run of a floating command: those of the hardware and those that FIDINJ forced; an integer
command and the other commands carry no residue check (R230, R321). -/
def MCmd.detections (m : MCmd) (o : MOut) (detected : List Detection) : List Detection :=
  if m.floating then
    (detected.filter (fun d => decide (d.col < 64) && decide (d.slice < 4) && d.count != 0)) ++ o.run.forced
  else []

/-- A count of a COLERR register with a number added, saturating (R315). -/
def colerrAdd (w : Word) (slice n : Nat) : Word :=
  let lo := if slice = 0 then 0 else 27
  setField w lo (BitVec.ofNat 27 (min (2 ^ 27 - 1) ((field w lo 27).toNat + n)))

/-- The unit with the detections of a run counted in its columns (R314, R320). -/
def Unit.countColumns (x : Unit) (ds : List Detection) : Unit :=
  ds.foldl (fun x d =>
    if d.slice < 2 then { x with colerr := tput x.colerr d.col (colerrAdd (tget 0 x.colerr d.col) d.slice d.count) }
    else x) x

/-- FIDSTAT.OBS with a number added, saturating (R312). -/
def obsAdd (w : Word) (n : Nat) : Word :=
  setField w 32 (BitVec.ofNat 32 (min (2 ^ 32 - 1) ((field w 32 32).toNat + n)))

/-- How many errors a list of detections holds. -/
def detectionCount (ds : List Detection) : Nat := ds.foldl (fun n d => n + d.count) 0

/-- The unit with one run accounted: column counts, OBS, group sums run and the injection number (R313 to R315,
R320, R321). -/
def Unit.accountRun (x : Unit) (m : MCmd) (o : MOut) (ds : List Detection) : Unit :=
  let x := x.countColumns ds
  { x with
    fidstat := obsAdd x.fidstat (detectionCount (ds.filter (fun d => decide (d.slice < m.level))))
    gsum1 := if m.level = 1 then x.gsum1 + BitVec.ofNat 64 o.run.gsums else x.gsum1
    gsum2 := if m.level = 2 then x.gsum2 + BitVec.ofNat 64 o.run.gsums else x.gsum2
    injCount := o.run.number }

/-- The serial of the latest write of a scale pair: of its register by an `SCLD`, or of the pair by an `ACVT`
(R261). -/
def scaleSerial (ser : Tbl Nat) (reg pair : Nat) : Nat := max (tget 0 ser reg) (tget 0 ser (16 + 512 * reg + pair))

/-- A scale register file with a pair written, unless a later-issued write stands in it (R261). -/
def scalePut (sc : Tbl ScaleReg) (ser : Tbl Nat) (serial base : Nat) (p : Nat × Nat) : Tbl ScaleReg × Tbl Nat :=
  let reg := base + p.1 / 512
  let k := p.1 % 512
  if serial < scaleSerial ser reg k then (sc, ser)
  else (tput sc reg (setField (tget 0 sc reg) (16 * k) (BitVec.ofNat 16 p.2)), tput ser (16 + 512 * reg + k) serial)

/-- A list of pairs written. -/
def scalePuts (sc : Tbl ScaleReg) (ser : Tbl Nat) (serial base : Nat) (ps : List (Nat × Nat)) :
    Tbl ScaleReg × Tbl Nat :=
  ps.foldl (fun a p => scalePut a.1 a.2 serial base p) (sc, ser)

/-- The unit with the scale pairs of an `ACVT` written, in the snapshots of the commands issued after it too
(R241). -/
def Unit.acvtPairs (x : Unit) (m : MCmd) (ps : List (Nat × Nat)) : Unit :=
  let f (sc : Tbl ScaleReg) (ser : Tbl Nat) := scalePuts sc ser m.serial m.o.base.toNat ps
  let r := f x.scales x.scaleSer
  { x with
    scales := r.1
    scaleSer := r.2
    mq := x.mq.map (fun n =>
      if n.serial ≤ m.serial then n
      else
        let t := f n.scales n.scaleSer
        { n with scales := t.1, scaleSer := t.2 }) }

/-- MSTAT.REPLAYS with one added, saturating (R231, R237). -/
def replaysUp (w : Word) : Word := setField w 32 (BitVec.ofNat 16 (min 0xFFFF ((field w 32 16).toNat + 1)))

/-- TRAPVAL of a delayed trap of a command: its bundle's offset and its tag (R232). -/
def delayedVal (pc tag : Nat) : Word := BitVec.ofNat 64 (pc % 2 ^ 32 * 2 ^ 32 + tag % 64)

/-- The unit without a matrix command whose tag completes. -/
def Unit.matrixLeave (x : Unit) (m : MCmd) : Unit :=
  { x.tagDone m.o.tag.toNat with mq := x.mq.filter (fun n => n.serial != m.serial) }

/-- Bytes of a buffer as maximal writes, one byte each, through the scoreboard's kept bytes (R79, R84). -/
def State.matrixWrite (s : State) (u : Nat) (m : MCmd) (b : Buf) (bs : List (Nat × Byte)) : State :=
  bs.foldl (fun s p => s.engineWrite u m.serial m.bundle { place := .buf u b, addr := p.1 } [p.2]) s

/-- What the engine writes back at the replay limit: every byte of C as the record holds it from before the command (R231,
R232). -/
def MCmd.writeBack (m : MCmd) (o : MOut) : List (Nat × Byte) :=
  match m.record with
  | none => []
  | some r => o.cb.flatMap (fun p => (mread r.cb p.1 1).map (fun v => (p.1, v)))

/-- MATRIX_COMMAND_COMPLETE: D + 64 clocks after its start and D more for each replay, the oldest command ends a run: a
detection in a nominal slice calls for a replay, the fourth for FIDELITY_REPLAY_LIMIT, and a run without one completes the
command (R231, R232, R239, R320).  At the replay limit C is written back, and META and LIMIT of MSTAT are set, and NV and OF of
the discarded result are not (DESIGN CHOICE, log entries 89 and 98). -/
def execMatrixCommandComplete (u : Nat) (detected : List Detection) (s : State) :
    Host.Outcome State Fault Refusal :=
  if 512 ≤ u then .fault (.noSuchPart u)
  else
    let x := s.unit u
    match x.mq with
    | [] => .next s
    | m :: _ =>
      match m.record with
      | none => .next s
      | some r =>
        let due := m.started.getD 0 + 25 * (matrixClocks m.var m.o.shape * (1 + m.replays) + 64)
        if !m.opsRead ∨ s.now < due ∨ !(s.powered u) then .next s
        else
          let o := x.matrixRun m r
          let ds := m.detections o detected
          let x := x.accountRun m o ds
          if !(ds.any (fun d => decide (m.level ≤ d.slice))) then
            let s := ((s.setUnit u x).matrixWrite u m .cb o.cb).matrixWrite u m .ab o.ab
            .next (s.modUnit u (fun x =>
              ((({ x with mstat := x.mstat ||| o.mstat }.acvtPairs m o.pairs).matrixLeave m).settle).stopCopies s.now))
          else if m.replays < 3 then
            .next (s.setUnit u { x with
              mstat := replaysUp x.mstat
              mq := x.mq.map (fun n => if n.serial = m.serial then { n with replays := n.replays + 1 } else n) })
          else
            let s := (s.setUnit u x).matrixWrite u m .cb (m.writeBack o)
            .next (s.modUnit u (fun x => ((({ x with mstat := setBit (x.mstat ||| (o.mstat &&& setBit 0 msMeta)) msLimit }.matrixLeave m).postPend
              { cause := .fidelityReplayLimit, resume := none, val := delayedVal m.pc m.o.tag.toNat,
                rollback := false, handler := m.handler, tag := m.o.tag.toNat, arose := s.now }).settle).stopCopies s.now))

end Sys2Proof.Machine
end

