-- ==== Sys2Proof/Machine/Copy.lean ====
section
/-!
DEFINITION. Issue of the copy slots' commands (R244, R254 to R262, R265, R269, R270): each enters its engine's queue
with its staging snapshot and its tag.
-/
namespace Sys2Proof.Machine

/-- The unit with a command added to its engine's queue (R244). -/
def Unit.enqueue (x : Unit) (c : CCmd) : Unit :=
  match c.engine with
  | .c0 => { x with q0 := x.q0 ++ [c] }
  | .c1 => { x with q1 := x.q1 ++ [c] }

/-- A new command of the unit as the bundle in issue makes it (R79, R126, R244). -/
def State.newCommand (s : State) (i : Instr) (e : Engine) (o : COps) : CCmd :=
  let x := s.src
  { serial := s.cur.serial, pc := x.pc, engine := e, op := i, tag := o.tag.toNat, stg := x.block o,
    handler := x.handler, bundle := x.serial, old := s.bundleOld, left := 8 }

/-- A command takes its place in its engine's queue and counts toward its tag (R126, R244). -/
def State.copyPush (s : State) (c : CCmd) : State :=
  s.modCur (fun y => ({ y.tagIssue c.tag with serial := y.serial + 1 }).enqueue c)

/-- Issue of a copy-slot command that enters its queue (R244, R246). -/
def copyIssue (s : State) (i : Instr) (e : Engine) (o : COps) : Host.Outcome State Fault Refusal :=
  s.slotStep i (fun s => s.copyPush (s.newCommand i e o))

/-- CPY (R254). -/
def execCpy (e : Engine) (o : COps) (s : State) : Host.Outcome State Fault Refusal := copyIssue s (.cpy e o) e o

/-- CPYM (R256): the copy, and directly after it its follow-on in a place of the matrix queue. -/
def execCpym (e : Engine) (o : COps) (s : State) : Host.Outcome State Fault Refusal :=
  s.slotStep (.cpym e o) (fun s =>
    let c := s.newCommand (.cpym e o) e o
    let t := s.copyPush c
    let follow (var : MVar) (m : MOps) : State :=
      t.matrixPush var m ((s.src.mgs.drop m.set.toNat).take (stagingCount var.num m.acc)) (some c.serial)
    match followOn c.stg with
    | .ok (.mm m) => follow .mm m
    | .ok (.mmsN24 m) => follow .mms24 m
    | .ok (.mmsN48 m) => follow .mms48 m
    | .ok (.mmt m) => follow .mmt m
    | _ => t)

/-- GATH (R257). -/
def execGath (e : Engine) (o : COps) (s : State) : Host.Outcome State Fault Refusal := copyIssue s (.gath e o) e o

/-- SCAT (R257). -/
def execScat (e : Engine) (o : COps) (s : State) : Host.Outcome State Fault Refusal := copyIssue s (.scat e o) e o

/-- FILL (R258). -/
def execFill (e : Engine) (o : COps) (s : State) : Host.Outcome State Fault Refusal := copyIssue s (.fill e o) e o

/-- CMPR (R259). -/
def execCmpr (e : Engine) (o : COps) (s : State) : Host.Outcome State Fault Refusal := copyIssue s (.cmpr e o) e o

/-- PREF (R260). -/
def execPref (e : Engine) (o : COps) (s : State) : Host.Outcome State Fault Refusal := copyIssue s (.pref e o) e o

/-- CFENCE (R262). -/
def execCfence (e : Engine) (o : COps) (s : State) : Host.Outcome State Fault Refusal :=
  copyIssue s (.cfence e o) e o

/-- The scale register that flag [21:18] of an `SCLD` names (R261). -/
def scldReg (o : COps) : Nat := (field o.flags 0 4).toNat

/-- SCLD (R261): from a tile buffer it reads at issue and takes no place, else it is queued. -/
def execScld (e : Engine) (o : COps) (s : State) : Host.Outcome State Fault Refusal :=
  s.slotStep (.scld e o) (fun s =>
    let c := s.newCommand (.scld e o) e o
    if o.from < 4 then
      let b := bufOf o.from
      let off := (field (sreg c.stg 0) 0 20).toNat
      let d : CCmd := { c with
        phase := .moved, old := []
        got := [(0, s.src.bread b off 1024)] }
      s.modCur (fun y => { y.tagIssue c.tag with serial := y.serial + 1, sclds := y.sclds ++ [d] })
    else s.copyPush c)

/-- COLL and REPART take a mailbox entry beside their queue place (R265). -/
def mailIssue (s : State) (i : Instr) (e : Engine) (o : COps) : Host.Outcome State Fault Refusal :=
  s.slotStep i (fun s =>
    let c := s.newCommand i e o
    let m : MailEntry := { serial := c.serial, pc := c.pc, tag := c.tag, coll := (field o.flags 0 2).toNat }
    (s.copyPush c).modCur (fun y => { y with mail := y.mail ++ [m] }))

/-- COLL (R265). -/
def execColl (e : Engine) (o : COps) (s : State) : Host.Outcome State Fault Refusal := mailIssue s (.coll e o) e o

/-- REPART (R265). -/
def execRepart (e : Engine) (o : COps) (s : State) : Host.Outcome State Fault Refusal := mailIssue s (.repart e o) e o

/-- WALK (R269). -/
def execWalk (e : Engine) (o : COps) (s : State) : Host.Outcome State Fault Refusal := copyIssue s (.walk e o) e o

/-- FSEND (R270). -/
def execFsend (e : Engine) (o : COps) (s : State) : Host.Outcome State Fault Refusal := copyIssue s (.fsend e o) e o

/-- FFETCH (R270). -/
def execFfetch (e : Engine) (o : COps) (s : State) : Host.Outcome State Fault Refusal := copyIssue s (.ffetch e o) e o

end Sys2Proof.Machine
end

