-- ==== Sys2Proof/Machine/Bundle.lean ====
section
/-!
DEFINITION. Issue of a bundle: fetch and the checks of R111, stalls (R36), restart marks (R291), landing of results
(R5), entry into the trap handler (R289) and what happens when the bundle ends (R33, R34, R148 to R151, R278 to
R280).
-/
namespace Sys2Proof.Machine

/-! ### Boundaries -/

/-- Unit `u` takes its first ready trap; commands that a rollback discards release their busy counts (R249, R285,
R400). -/
def State.takeTrap (s : State) (u : Nat) : Option State :=
  let x := s.unit u
  match x.takeReady u with
  | none => none
  | some y =>
    let kept := y.q0 ++ y.q1
    let gone := (x.q0 ++ x.q1).filter (fun c => !(kept.any (fun k => k.serial == c.serial)))
    some ((s.busyDown (gone.flatMap (·.counted))).setUnit u y.settle)

/-- An `SCLD` whose bytes have arrived may land: at least 8 bundles after its issue, or once the member issues no
more (R261). -/
def Unit.scldReady (x : Unit) (c : CCmd) : Bool :=
  c.phase == .moved && (c.left == 0 || x.run == .ending || x.run == .faulting)

/-- The scale register of an `SCLD` and the bytes that it holds. -/
def CCmd.scaleBytes (c : CCmd) : Nat × List Byte := (scldReg c.fields.2, c.got.flatMap (·.2))

/-- The pairs of a scale register that an `SCLD` could not obtain: those of its lost 64-byte units (R252). -/
def CCmd.lostPairs (c : CCmd) : List Nat :=
  (List.range 512).filter (fun k => c.lostUnits.any (fun p => p.2 == k / 32))

/-- The scale register with an `SCLD` landed over the value it holds: each piece at its place. -/
def CCmd.scaleOver (c : CCmd) (old : ScaleReg) : ScaleReg :=
  if c.lost.isEmpty then ofBytes 8192 c.scaleBytes.2
  else ofBytes 8192 (c.got.foldl (fun (bs : List Byte) p =>
    let o := ((c.runs[p.1]?).map (fun r => r.dst.addr)).getD 0
    bs.take o ++ p.2 ++ bs.drop (o + p.2.length)) (toBytes old 1024))

/-- The landing of an `SCLD`: each pair takes the load unless a later-issued write stands in it or its data could not be
obtained, the tag completes, and an error is recorded (R252, R261). -/
def Unit.landScld (now : Nat) (x : Unit) (c : CCmd) : Unit :=
  let (r, _) := c.scaleBytes
  let old := tget 0 x.scales r
  let kept := c.lostPairs ++ (List.range 512).filter (fun k => decide (c.serial < scaleSerial x.scaleSer r k))
  let w := kept.foldl (fun (w : ScaleReg) k => setField w (16 * k) (field old (16 * k) 16)) (c.scaleOver old)
  let y : Unit := { x.tagDone c.tag with
    scales := tput x.scales r w
    scaleSer := tput x.scaleSer r (max c.serial (tget 0 x.scaleSer r))
    sclds := x.sclds.filter (fun d => d.serial != c.serial)
    q0 := x.q0.filter (fun d => d.serial != c.serial)
    q1 := x.q1.filter (fun d => d.serial != c.serial) }
  match c.err with
  | none => y
  | some code => y.copyError now c code.toNat

/-- An `SCLD`. -/
def CCmd.isScld (c : CCmd) : Bool :=
  match c.op with
  | .scld _ _ => true
  | _ => false

/-- Every `SCLD` that is due at this boundary lands, in issue order (R261). -/
def Unit.landSclds (now : Nat) (x : Unit) : Unit :=
  ((x.sclds ++ x.q0 ++ x.q1).filter (fun c => c.isScld && x.scldReady c)).foldl (Unit.landScld now) x

/-- A unit at a boundary: results that raise an enabled exception leave the flight, and an `SCLD` that is due lands and gives
back its counts (R63, R261, R400). -/
def State.approach (s : State) (u : Nat) : State :=
  let x := (s.unit u).collectFp
  let y := x.landSclds s.now
  let gone := (x.q0 ++ x.q1).filter (fun c => !((y.q0 ++ y.q1).any (fun d => d.serial == c.serial)))
  gone.foldl (fun (s : State) c => s.release c.counted c.xlat) (s.setUnit u y)

/-- The unit issues bundles. -/
def Unit.issues (x : Unit) : Bool := x.run == .running

/-- What comes about in the bundle that unit `u` has in issue, before its slots read: the unit and what the slots see of it
take it together (R5, R31, R291). -/
def State.inIssue (s : State) (u : Nat) (f : Unit → Unit) : State :=
  match s.issue.snap with
  | none => s
  | some y => if s.focus = u then { s.modUnit u f with issue := { s.issue with snap := some (f y) } } else s

/-- RESULT_LANDING: the results due for the bundle that has issued land before it reads (R5, R32, R297). -/
def execResultLanding (u : Nat) (s : State) : Host.Outcome State Fault Refusal :=
  if unitCount ≤ u then .fault (.noSuchPart u) else .next (s.inIssue u Unit.landDue)

/-- A unit is at a bundle boundary: it issues, the sub-bundles of its last bundle are through, and it has its clock and supply
(R36, R40, R473). -/
def State.atEdge (s : State) (u : Nat) : Bool :=
  (s.unit u).issues && decide ((s.unit u).nextIssue ≤ s.now) && s.powered u

/-- TRAP_ENTRY (R40, R285 to R289, R294): at a bundle boundary. -/
def execTrapEntry (u : Nat) (s : State) : Host.Outcome State Fault Refusal :=
  if unitCount ≤ u then .fault (.noSuchPart u)
  else if !(s.atEdge u) then .next s
  else .next ((s.takeTrap u).getD s)

/-! ### Checks 1 to 6 -/

/-- The bundle at the program counter (R106). -/
def Unit.fetch (x : Unit) : Bundle := bundleOf (mword 256 x.code x.pc)

/-- The instruction that a slot names, its fields unchecked. -/
def nameSlot (b : Bundle) (k : Nat) : Option Instr :=
  match k with
  | 0 => (match scalarName b.s with | .ok i => some i | .bad _ => none)
  | 4 => copyName (field b.c0 0 6).toNat .c0 (copsOf b.c0)
  | 5 => copyName (field b.c1 0 6).toNat .c1 (copsOf b.c1)
  | _ => none

/-- The number of the lowest one bit among the low `n` bits of a number. -/
def lowBit (n a : Nat) : Nat := ((List.range n).find? (fun i => a.testBit i)).getD 0

/-- The six slots, in the order of R111. -/
def slotNumbers : List Nat := List.range 6

/-- Check 3: header faults before slot faults, and among them the lowest bit (R43, R107, R111, R112). -/
def headerTrap (u : Nat) (b : Bundle) : Option (Cause × Word) :=
  let kind := unitKind u
  let bad (i : Nat) : Bool := if i < 8 then kind != .tile && b.valid i else bitOf b.header i
  let head := firstSome (fun (i : Nat) => if bad i then some (headerVal i) else none) ([1, 2, 3] ++ (List.range 8).map (· + 8))
  let slot (k : Nat) : Option Word :=
    if !b.valid k then
      (if b.slotBits k = 0 then none else some (fieldVal k (lowBit 48 (b.slotBits k))))
    else
      match (nameSlot b k).map (profileFaults kind) with
      | some (f :: fs) => some (fieldVal k (leastOf 0 (f :: fs)))
      | _ => none
  (firstSome id [head, firstSome slot slotNumbers]).map (fun w => (Cause.illegalEncoding, w))

/-- The vector slot `k` converts between two element formats (R184, R215), not in a raw form. -/
def convertsIn (b : Bundle) (k : Nat) : Bool :=
  let o := vopsOf (BitVec.ofNat 48 (b.slotBits k))
  let op := b.slotBits k % 256
  (k == 1 || k == 2) && (op == 0x27 || ((op == 0x52 || op == 0x53 || op == 0x54) && o.fn.toNat / 4 != 7))

/-- TRAPVAL of check 4 for a field at slot bit `f` of slot `k`: its bit in the bundle (R112), but 39 and 45 themselves for the
destination and source codes of a conversion, as R184 states them (R215; DEDUCED, log entry 93). -/
def encodingVal (b : Bundle) (k f : Nat) : Word :=
  if convertsIn b k && (f == 39 || f == 45) then BitVec.ofNat 64 (f * 256 + k) else fieldVal k f

/-- Check 4 (R110). -/
def encodingTrap (b : Bundle) : Option (Cause × Word) :=
  firstSome (fun (k : Nat) =>
    if !b.valid k then none
    else match b.decodeSlot k with
      | .ok _ => none
      | .bad f => some (Cause.illegalEncoding, encodingVal b k f)) slotNumbers

/-- The decoded slots of a bundle, lowest first, with their numbers. -/
def instrsOf (b : Bundle) : List (Nat × Instr) :=
  slotNumbers.filterMap (fun k =>
    if b.valid k then (match b.decodeSlot k with | .ok i => some (k, i) | .bad _ => none) else none)

/-- The stream that an instruction names (R213). -/
def streamNamed (i : Instr) : Option Nat :=
  match vectorOf i with
  | some (op, _, o) => if 0x4E ≤ op ∧ op ≤ 0x51 then some (streamOf o) else none
  | none => none

/-- Both V slots name one stream, a fault of the VB slot (R213). -/
def streamClash (is : List (Nat × Instr)) : Bool :=
  let at_ (k : Nat) : Option Nat := ((is.find? (fun p => p.1 == k)).map (fun p => streamNamed p.2)).getD none
  (at_ 1).isSome && at_ 1 == at_ 2

/-- Checks 5 and 6 (R42, R113 to R115, R213). -/
def modeTrap (m : Mode) (is : List (Nat × Instr)) : Option (Cause × Word) :=
  let first (c : Cause) (f : Nat × Instr → List Nat) : Option (Cause × Word) :=
    firstSome (fun (p : Nat × Instr) =>
      match f p with
      | [] => none
      | b :: bs => some (c, fieldVal p.1 (leastOf 0 (b :: bs)))) is
  firstSome id [first .privilege (fun p => privilegeFaults m p.2),
    first .illegalOperand (fun p => operandFaults p.2 ++ need 43 (!(p.1 == 2 && streamClash is)))]

/-- Checks 1 to 6 of a bundle at the boundary; a sequencer in its handler is in service mode (R42, R109, R111). -/
def Unit.bundleTrap (u : Nat) (x : Unit) : Option (Cause × Word) :=
  let b := x.fetch
  if x.codeLen ≤ x.pc then some (.illegalEncoding, BitVec.ofNat 64 x.pc)
  else if b.brk ∧ modeOf u x ≠ .handler ∧ !x.afterEret then some (.breakpoint, 0x10000)
  else firstSome id [headerTrap u b, encodingTrap b, modeTrap (modeOf u x) (instrsOf b)]

/-! ### Check 7 -/

/-- The mark of the bundle commits here: MARK outside a handler (R291). -/
def Unit.marks (x : Unit) (b : Bundle) : Bool := b.mark && !x.handler && !x.markDone

/-- Check 7 slot by slot, with the gated-store entries that the slots before it need (R201, R293). -/
def State.slotTraps (s : State) (u : Nat) (x : Unit) (total : Nat) : Nat → List (Nat × Instr) → Option (Cause × Word)
  | _, [] => none
  | held, (_, i) :: is =>
    match s.slotTrap u x i with
    | some t => some t
    | none =>
      match gateTrap held (x.gateNeed i) total with
      | some t => some t
      | none => s.slotTraps u x total (held + x.gateNeed i) is

/-- Check 7 of a bundle (R111). -/
def State.issueTrap (s : State) (u : Nat) (x : Unit) (b : Bundle) : Option (Cause × Word) :=
  let is := (instrsOf b)
  let held := if x.marks b then 0 else x.gated.length
  s.slotTraps u x (is.foldl (fun n p => n + x.gateNeed p.2) held) held is

/-! ### Stalls -/

/-- NW of a scalar slot is 1 (R116, R130). -/
def suppressed (i : Instr) : Bool :=
  match i with
  | .movi _ | .movh _ | .bri _ | .call _ => false
  | i => ((encodeScalar i).map (fun w => bitOf w 28)).getD false

/-- The scalar registers that a slot reads, and those that it writes where it executes with NW = 0 (R36, R129, R130). -/
def Unit.scalarRegs (x : Unit) (i : Instr) : List Nat :=
  let writes := x.executes i && !(suppressed i)
  let fs := (scalarFields i).filterMap (fun f =>
    match f.role with
    | .src | .rmw => if f.code.toNat < 56 then some f.code.toNat else none
    | .dst => if writes ∧ f.code.toNat < 56 then some f.code.toNat else none
    | _ => none)
  match i with
  | .call _ => if writes then 55 :: fs else fs
  | .xbc _ o => if o.va.toNat < 56 then o.va.toNat :: fs else fs
  | _ => fs

/-- A register of the bundle awaits an atomic reply; the handler does not wait for the task's (R36, R94, R289). -/
def Unit.atomStall (x : Unit) (is : List (Nat × Instr)) : Bool :=
  x.atoms.any (fun a => (!x.handler || a.handler) && is.any (fun p => (x.scalarRegs p.2).contains a.reg))

/-- `END` in task mode waits as a mark does (R26). -/
def Unit.ends (x : Unit) (is : List (Nat × Instr)) : Bool := !x.handler && is.any (fun p => p.2 == .endTask)

/-- Matrix-queue places that a slot takes (R82, R256). -/
def matrixPlaces (x : Unit) (i : Instr) : Nat :=
  match i with
  | .cpym _ _ => if x.executes i then 1 else 0
  | i => if (matrixOf i).isSome then 1 else 0

/-- A slot takes a place in a copy engine's queue (R244). -/
def takesPlace (x : Unit) (e : Engine) (i : Instr) : Bool :=
  match copyOf i with
  | some (op, f, o) => f == e && x.executes i && !(op == 0x07 && decide (o.from < 4))
  | none => false

/-- A slot takes a mailbox entry (R265). -/
def takesMail (x : Unit) (i : Instr) : Bool :=
  match i with
  | .coll _ _ => x.executes i
  | .repart _ _ => x.executes i
  | _ => false

/-- Mailbox entries of a tile in use: those of its task and those of the teams swapped out of it, which stay with the comm
master (R265, R268). -/
def State.mailOf (s : State) (u : Nat) (x : Unit) : Nat :=
  s.saved.foldl (fun n t => t.2.foldl (fun n p => if p.1 = u then n + p.2.mail.length else n) n) x.mail.length

/-- A `TWR` waits for a queued matrix command that has not read its tile register (R218). -/
def Unit.rowStall (x : Unit) (i : Instr) : Bool :=
  match i with
  | .twr _ o => x.mq.any (fun m => !m.opsRead && m.tileRegs.contains (streamOf o))
  | _ => false

/-- An access of a sequencer to a register may start: links towards the register's die are open (R282, R460). -/
def State.registerWay (s : State) (u : Nat) (x : Unit) (i : Instr) : Bool :=
  let way (a : Nat) : Bool := (cregOf a).all (fun r => s.wayOpen (dieAt u) (r.die.getD 4) a)
  match i with
  | .sld o => way (x.sreg o.a).v.toNat
  | .sst o => way (x.sreg o.a).v.toNat
  | _ => true

/-- The bundle waits for something other than its `BAR` (R36), or for a link that carries its register access (R460). -/
def State.stalled (s : State) (u : Nat) (x : Unit) (b : Bundle) : Bool :=
  let is := (instrsOf b).map (·.2)
  ((x.marks b || x.ends (instrsOf b)) && !x.copiesPassed) ||
  is.any (fun i => !(s.localClear u i)) ||
  is.any (fun i => x.executes i && !(s.registerWay u x i)) ||
  is.any (fun i => x.executes i && (x.waitTags i).any (fun t => !(x.tagComplete t))) ||
  is.any x.rowStall ||
  decide (4 < x.mq.length + is.foldl (fun n i => n + matrixPlaces x i) 0) && is.any (fun i => matrixPlaces x i != 0) ||
  (decide (16 ≤ x.q0.length) && is.any (takesPlace x .c0)) ||
  (decide (16 ≤ x.q1.length) && is.any (takesPlace x .c1)) ||
  (is.any (takesMail x) && decide (8 < s.mailOf u x + (is.filter (takesMail x)).length)) ||
  (b.valid 3 && isTile u && decide (3 ≤ s.shadeOf (clusterOf u)))

/-- A `BAR` of the bundle executes. -/
def Unit.bars (x : Unit) (b : Bundle) : Bool :=
  (instrsOf b).any (fun p => match p.2 with | .bar _ => x.executes p.2 | _ => false)

/-! ### Issue -/

/-- Sub-bundles of the shade level in force; sequencers issue at SHADE0 (R37, R39). -/
def State.subBundles (s : State) (u : Nat) : Nat :=
  if isTile u then (match s.shadeOf (clusterOf u) with | 0 => 1 | 1 => 2 | _ => 3) else 1

/-- The unit halts at a boundary for its budget, or because 20 µs have passed since the warning (R301). -/
def Unit.outOfBudget (x : Unit) (now : Nat) : Bool :=
  match x.duskDeadline with
  | none => false
  | some t => x.budget == 0 || decide (t ≤ now)

/-- Every DUSK and TWILIGHT_SHED that is handled or held is served, and the tile halts with its context as it stands
(R296, R301); its copies go on to where they stop (R253). -/
def Unit.haltTile (now : Nat) (overrun : Bool) (x : Unit) : Unit :=
  { x with
    run := .halted
    was := if x.run = .running then .running else x.was
    pend := x.pend.filter (fun p => p.cause != .dusk && p.cause != .twilightShed)
    duskTaken := false
    duskDeadline := none
    hstat := if overrun then setBit x.hstat hsOverrun else x.hstat : Unit }.stopCopies now

/-- A tile halts for its budget or the time; in a Dusk, DSTAT.OVERRUN is set (R301, R416). -/
def State.haltOverrun (s : State) (u : Nat) : State :=
  let s := s.modUnit u (Unit.haltTile s.now true)
  if s.noon then s else s.csetField (dcb + 0x30) 17 1 1

/-- The bundle issues: the unit as its slots read it is kept, and what comes about in it is listed: its mark commits, with the
results due for it still in flight (R297), these land, and its slots take effect (R5, R31, R38, R291); `RDSYS` of BCOUNT reads
the bundles issued before its own (R277, log entry 22). -/
def State.openBundle (s : State) (u : Nat) (x : Unit) (b : Bundle) : State :=
  let y : Unit := { x with
    bcount := x.bcount + 1
    afterEret := false
    waiting := false
    nextIssue := s.now + period u * s.subBundles u }
  let s := s.setUnit u y
  let events : List Instr := (if x.marks b then [.restartMark u] else []) ++ [.resultLanding u]
  { s with
    focus := u
    issue := { snap := some { y with bcount := x.bcount }, slots := events ++ (instrsOf b).map (·.2) } }

/-- A bundle with a `BAR` waits for its team: the arrival is made, and the wait lasts until every member has arrived (R162). -/
def State.barWaits (s : State) (u : Nat) (x : Unit) (b : Bundle) : Bool := x.bars b && !(s.setUnit u x.arrive).allArrived u

/-- The boundary before a unit's next bundle, and whether the bundle there issues (R36, R111, R285).  Its checks see the results
that are due there, which land once it issues; where it traps or stalls it has not issued, and they stay in flight with offset 0
(R40, R289, R297).  A stall holds the bundle before issue, so check 7 is made once no stall holds it (log entry 20). -/
def State.atBoundary (s : State) (u : Nat) : State × Bool :=
  if (s.unit u).outOfBudget s.now then (s.haltOverrun u, false)
  else
    match s.takeTrap u with
    | some t => (t, false)
    | none =>
      let s := s.approach u
      let x := s.unit u
      let t := s.modUnit u Unit.landDue
      let y := t.unit u
      let traps (c : Cause × Word) : State × Bool := (s.setUnit u (x.syncTrap u c.1 c.2).settle, false)
      let waits (x : Unit) : State × Bool := (s.setUnit u { x with waiting := true }, false)
      match y.bundleTrap u with
      | some c => traps c
      | none =>
        if y.atomStall (instrsOf y.fetch) || t.stalled u y y.fetch then waits x
        else
          match t.issueTrap u y y.fetch with
          | some c => traps c
          | none => if t.barWaits u y y.fetch then waits x.arrive else (s, true)

/-- BUNDLE_ISSUE (R31, R36 to R40, R111): at the boundary a ready trap is taken, or the bundle is checked; it traps, stalls, or
issues.  What is due in it then comes about, its slots take effect one by one and the bundle ends. -/
def execBundleIssue (u : Nat) (s : State) : Host.Outcome State Fault Refusal :=
  if unitCount ≤ u then .fault (.noSuchPart u)
  else
    let s := { s with focus := u }
    if !(s.atEdge u) then .next s
    else
      let r := s.atBoundary u
      let t := r.1
      if !r.2 then .next t
      else
        let x := t.unit u
        .next (t.openBundle u (if x.landDue.bars x.fetch then x.arrive else x) x.fetch)

/-- RESTART_MARK (R108, R291): the bundle that has issued commits its mark before its slots take effect. -/
def execRestartMark (u : Nat) (s : State) : Host.Outcome State Fault Refusal :=
  if unitCount ≤ u then .fault (.noSuchPart u)
  else .next (if (s.unit u).marks (s.unit u).fetch then s.inIssue u Unit.commitMark else s)

/-! ### The end of a bundle -/

/-- The back-edge step: the loop stack and, where it goes round, the next offset (R151). -/
def backEdge (o : Nat) : List LoopEntry → List LoopEntry × Option Nat
  | [] => ([], none)
  | e :: es =>
    if e.last ≠ o then (e :: es, none)
    else if 1 < e.remaining then ({ e with remaining := e.remaining - 1 } :: es, some e.start)
    else backEdge o es

/-- Latch 1 to 3 take latch 0 to 2, and latch 0 is empty until a result lands (R33). -/
def shiftLatches {α : Type} (z : α) (l : List α) : List α := (z :: l).take 4

/-- Results in flight and `SCLD`s are one bundle nearer to their landing, and a Dusk budget is one bundle smaller
(R5, R261, R301). -/
def Unit.countBundle (x : Unit) : Unit :=
  let near (c : CCmd) : CCmd := { c with left := c.left - 1 }
  let x : Unit := { x with
    pend := x.pend.map (fun (p : Pend) => { p with late := false })
    flight := x.flight.map (fun (r : InFlight) => ({ r with k := r.k - 1 } : InFlight))
    sl := shiftLatches (default : SVal) x.sl
    la := shiftLatches (default : VVal) x.la
    lb := shiftLatches (default : VVal) x.lb
    sclds := x.sclds.map near
    q0 := x.q0.map near
    q1 := x.q1.map near
    markDone := false }
  if x.duskDeadline.isSome then x.setBudget (x.budget - 1) else x

/-- A taken branch clears every latch (R34). -/
def Unit.clearLatches (x : Unit) : Unit := { x with sl := [], la := [], lb := [] }

/-- The next program counter: a taken branch, a loop's back edge, a skipped loop body or the next bundle (R148, R150,
R151). A `LOOP` of count 0 in the last bundle of an open loop leaves the back edge to win (DESIGN CHOICE, log entry
23). -/
def Unit.advance (x : Unit) (branch skip : Option Nat) : Unit :=
  match branch with
  | some t => ({ x.clearLatches with pc := t } : Unit)
  | none =>
    let (l, back) := backEdge x.pc x.loopStack
    let x := x.setLoops l
    { x with pc := (back.getD (skip.getD (x.pc + 32))) }

/-- `END`: the task holds its commands and is then reported as ended, or as faulted from a handler or with a delayed trap that
arose meanwhile; the loop stack is empty then (R26, R151, R154, R232).  A sequencer stops, its gated stores as they stand
(DESIGN CHOICE, log entry 90). -/
def Unit.endIssue (u : Nat) (x : Unit) : Unit :=
  if !isTile u then { x with run := .seqHalted }
  else if x.handler then (x.endFaulted x.trapCause x.trapVal).settle
  else
    let y : Unit := { x.commitGated with run := .ending, pastEnd := true, regs := { x.regs with loops := [] } }
    match firstPend (x.pend.filter Pend.delayed) with
    | some p => (y.postPend p).settle
    | none => y.settle

/-- What the bundle's system instruction does to the unit once the bundle has ended (R26, R278 to R280). -/
def Unit.afterBundle (u now : Nat) (x : Unit) : After → Unit
  | .trap n => { x with pend := x.pend ++ [{ cause := .breakpoint, resume := none, val := BitVec.ofNat 64 n,
                                             rollback := false, handler := x.handler }] }
  | .eret => ({ x.leaveTrap with duskTaken := false } : Unit)
  | .duskdone =>
    if x.duskTaken ∨ x.pend.any (fun p => p.cause == .dusk || p.cause == .twilightShed) then x.haltTile now false else x
  | .endTask => x.endIssue u
  | .sst _ _ => x
  | .hoack _ => x

/-- The bundle in issue ends. -/
def State.endBundle (s : State) : State :=
  match s.issue.snap with
  | none => s
  | some _ =>
    let i := s.issue
    let x := (s.cur.countBundle).advance i.branch i.skip
    let x := match i.after with
      | none => x
      | some a => x.afterBundle s.focus s.now a
    { (s.setUnit s.focus x) with issue := {} }

end Sys2Proof.Machine
end

