-- ==== Sys2Proof/Machine/Calendar.lean ====
section
/-!
DEFINITION. The memory calendar (R408 to R414): slots and their owners, the placing of a copy engine's DRAM requests,
and alert and refresh rotations.
-/
namespace Sys2Proof.Machine

/-- A slot of 1.6 ns, in units of 1/90 ns (R409). -/
def slotTime : Nat := 144
/-- A rotation of 64 slots (R409). -/
def rotationTime : Nat := 9216
/-- How many pseudo-channels the module has (R408). -/
def channelCount : Nat := 1536

/-- The stored table register of a pseudo-channel that holds position `p` (R408). -/
def calReg (chan p : Nat) : Nat := calAddr (chan / 64) (chan % 64) + 8 * (p / 4)

/-- The word of a table register in force in a rotation: a write counts from the next rotation on (R408). -/
def State.calWord (s : State) (a rotation : Nat) : Word :=
  match s.calPend.find? (fun e => e.1 == a) with
  | some (_, from_, old) => if rotation < from_ then old else s.cget a
  | none => s.cget a

/-- The unit that owns a slot, by its number since the first rotation (R408). -/
def State.slotOwner (s : State) (chan n : Nat) : Option Nat :=
  let w := s.calWord (calReg chan (n % 64)) (n / 64)
  let e := field w (16 * (n % 4)) 16
  let o := (field e 0 9).toNat
  match (field e 14 2).toNat with
  | 1 => some o
  | 2 => if o % 16 < 2 then some (512 + 2 * (o / 16) + o % 16) else none
  | _ => none

/-- The state of a pseudo-channel. -/
def State.pc (s : State) (chan : Nat) : PcSt := tget {} s.pcs chan

/-- The rotations of a pseudo-channel that have no slots: those taken, and those called for (R411 to R413). -/
def PcSt.dark (p : PcSt) : List Nat := p.blocked ++ p.alerts ++ p.refreshes

/-- The first rotation from `r` on that is neither taken nor called for (R411, R412). -/
def PcSt.freeFrom (p : PcSt) (r : Nat) : Nat :=
  (((List.range (p.dark.length + 1)).map (· + r)).find? (fun n => !(p.dark.contains n))).getD r

/-- The first number from `n` on, among `fuel` of them, that meets a condition. -/
def firstNat (p : Nat → Bool) : Nat → Nat → Option Nat
  | 0, _ => none
  | fuel + 1, n => if p n then some n else firstNat p fuel (n + 1)

/-- The first slot of a unit on a pseudo-channel that starts at a time or later, and that is not in use (R409). -/
def State.slotFrom (s : State) (u chan t : Nat) (used : List (Nat × Nat)) : Option Nat :=
  let dark := (s.pc chan).dark
  let mine := used.filter (fun p => p.1 == chan)
  (firstNat (fun i => s.slotOwner chan i == some u && !(dark.contains (i / 64)) && !(mine.contains (chan, i * slotTime)))
    (64 * (2 + dark.length + mine.length)) ((t + slotTime - 1) / slotTime)).map (· * slotTime)

/-- The slot that a request takes, none that has begun: where its tile had none, the first after a later write of the tables
(R408, R409). -/
def State.nextSlot (s : State) (u chan t : Nat) (used : List (Nat × Nat)) : Option Nat :=
  (s.slotFrom u chan (max t s.now) used).orElse (fun _ => s.slotFrom u chan (max t ((s.now / rotationTime + 1) * rotationTime)) used)

/-- The time from which a request of a command is ready, where the command's requests before it are `done`: a write waits for
the delivery of its read (R409, R410). -/
def Req.readyAt (done : List Req) (r : Req) : Nat :=
  match r.after.bind (fun i => (done[i]?).bind (·.slot)) with
  | none => r.ready
  | some t => max r.ready (t + ns 288)

/-- The requests of one command take their slots one after another, each later than the one before (R409): those placed so
far, and the slot of the last. -/
def State.placeReqs (s : State) (u : Nat) (used : List (Nat × Nat)) : List Req → Option Nat → List Req → List Req × Option Nat
  | done, last, [] => (done, last)
  | done, last, r :: rs =>
    match r.slot with
    | some t => s.placeReqs u used (done ++ [r]) (some (max t (last.getD 0))) rs
    | none =>
      if r.held then s.placeReqs u used (done ++ [r]) last rs
      else
        let from_ := max (r.readyAt done) (match last with | some t => t + 1 | none => 0)
        match s.nextSlot u r.chan from_ used with
        | none => (done ++ r :: rs, last)
        | some t => s.placeReqs u used (done ++ [{ r with slot := some t }]) (some t) rs

/-- The slot of the engine's previous request (R409). -/
def Unit.lastSlot (x : Unit) : Engine → Option Nat
  | .c0 => x.lastSlot0
  | .c1 => x.lastSlot1

/-- The unit with the slot of an engine's previous request set. -/
def Unit.setLastSlot (x : Unit) (e : Engine) (t : Option Nat) : Unit :=
  match e with
  | .c0 => { x with lastSlot0 := t }
  | .c1 => { x with lastSlot1 := t }

/-- An engine's queue. -/
def Unit.queueOf (x : Unit) : Engine → List CCmd
  | .c0 => x.q0
  | .c1 => x.q1

/-- The unit with an engine's queue replaced. -/
def Unit.setQueue (x : Unit) (e : Engine) (q : List CCmd) : Unit :=
  match e with
  | .c0 => { x with q0 := q }
  | .c1 => { x with q1 := q }

/-- The unit with `f` applied to one command of an engine. -/
def Unit.modCmd (x : Unit) (e : Engine) (serial : Nat) (f : CCmd → CCmd) : Unit :=
  x.setQueue e ((x.queueOf e).map (fun c => if c.serial = serial then f c else c))

/-- The other copy engine. -/
def otherEngine : Engine → Engine
  | .c0 => .c1
  | .c1 => .c0

/-- The slots that the commands of a queue have taken, by pseudo-channel. -/
def usedSlots (q : List CCmd) : List (Nat × Nat) :=
  q.flatMap (fun c => c.reqs.filterMap (fun r => r.slot.map (fun t => (r.chan, t))))

/-- Every piece for DRAM has its write request, but for those that are not written. -/
def CCmd.asked (c : CCmd) : Bool := c.runs.all (fun r => !r.toDram || r.wreq.isSome || c.unwritten r)

/-- A command has DRAM requests still to come, or to place: writes of what comes from host memory or another module are known when
it has arrived (R264, R410). -/
def CCmd.unplaced (c : CCmd) : Bool :=
  (c.phase == .started && !c.asked) || c.reqs.any (fun r => r.slot.isNone)

/-- The requests of an engine's commands take their slots, command by command in the order of pre-translation (R409). -/
def State.placeQueue (s : State) (u : Nat) (used : List (Nat × Nat)) : Option Nat → List CCmd → List CCmd × Option Nat
  | last, [] => ([], last)
  | last, c :: cs =>
    let r := s.placeReqs u used [] last c.reqs
    let d := { c with reqs := r.1 }
    if d.unplaced then (d :: cs, r.2)
    else
      let rest := s.placeQueue u used r.2 cs
      (d :: rest.1, rest.2)

/-- The requests of an engine take their slots (R409). -/
def State.placeEngine (s : State) (u : Nat) (e : Engine) : State :=
  let x := s.unit u
  let r := s.placeQueue u (usedSlots (x.queueOf (otherEngine e))) (x.lastSlot e) (x.queueOf e)
  s.setUnit u ((x.setQueue e r.1).setLastSlot e r.2)

/-! ### Rotations without slots -/

/-- A request of an engine with its command and its place there. -/
structure Placed where
  serial : Nat
  idx : Nat
  slot : Nat
  req : Req
deriving DecidableEq, Repr

/-- `p` put into a list that is in slot order. -/
def insertPlaced (p : Placed) : List Placed → List Placed
  | [] => [p]
  | q :: qs => if p.slot < q.slot then p :: q :: qs else q :: insertPlaced p qs

/-- The placed requests of an engine, in slot order. -/
def placedReqs (q : List CCmd) : List Placed :=
  let all : List Placed := q.flatMap (fun c =>
    (List.range c.reqs.length).filterMap (fun i =>
      match c.reqs[i]? with
      | none => none
      | some r => r.slot.map (fun t => { serial := c.serial, idx := i, slot := t, req := r })))
  all.foldl (fun l p => insertPlaced p l) []

/-- The delivery of the read that a placed write waits for, by the slots of those placed before it (R409, R410). -/
def Placed.readyAt (done : List Placed) (p : Placed) : Nat :=
  match done.find? (fun q => q.serial == p.serial && some q.idx == p.req.after) with
  | none => p.req.ready
  | some q => max p.req.ready (q.slot + ns 288)

/-- The same position in the first rotation after a slot's own that has slots, with how many alert and refresh rotations lie
between (R413). -/
def PcSt.later (p : PcSt) (alert : Bool) : Nat → Nat → Nat × Nat × Nat
  | 0, t => (t, 0, 0)
  | fuel + 1, t =>
    let t := t + rotationTime
    let hit : Nat × Nat := if alert then (1, 0) else (0, 1)
    if p.dark.contains (t / rotationTime) then
      let r := p.later (p.alerts.contains (t / rotationTime)) fuel t
      (r.1, r.2.1 + hit.1, r.2.2 + hit.2)
    else (t, hit)

/-- The slots of an engine once a rotation of a pseudo-channel is called for, and how often its requests slipped by an alert and
by a refresh rotation (R413); a later request of the engine follows those before it by R409, each of its rotations by the kind
that it follows. -/
def State.slipped (s : State) (u chan start : Nat) (alert : Bool) (used : List (Nat × Nat)) :
    List Placed → List Placed → List Placed × Nat × Nat
  | done, [] => (done, 0, 0)
  | done, p :: ps =>
    let st := s.pc chan
    let own := if p.req.chan = chan ∧ start ≤ p.slot then st.later alert (st.dark.length + 1) p.slot else (p.slot, 0, 0)
    let first := max (p.readyAt done) ((done.getLast?.map (fun q => q.slot + 1)).getD 0)
    let t := if first ≤ own.1 then own.1 else (s.nextSlot u p.req.chan first used).getD (own.1 + rotationTime)
    let hit : Nat × Nat := if t = own.1 ∨ own.2 ≠ (0, 0) then own.2 else if alert then (1, 0) else (0, 1)
    let rest := s.slipped u chan start alert used (done ++ [{ p with slot := t }]) ps
    (rest.1, rest.2.1 + hit.1, rest.2.2 + hit.2)

/-- An engine's commands with new slots. -/
def reslot (q : List CCmd) (ps : List Placed) : List CCmd :=
  q.map (fun c =>
    { c with reqs := (List.range c.reqs.length).filterMap (fun i =>
        match c.reqs[i]? with
        | none => none
        | some r =>
          some (match ps.find? (fun p => p.serial == c.serial && p.idx == i) with
            | none => r
            | some p => { r with slot := some p.slot })) })

/-- A slip counter with a number added, saturating (R414). -/
def calcntAdd (w : Word) (alert : Bool) (n : Nat) : Word :=
  let lo := if alert then 32 else 0
  setField w lo (BitVec.ofNat 32 (min (2 ^ 32 - 1) ((field w lo 32).toNat + n)))

/-- The key under which the increments of a tile's CALCNT are kept in mind (R493). -/
def calcntKey (u : Nat) : Nat := 2 ^ 60 + u

/-- One engine of a unit once a rotation is called for (R413). -/
def State.slipEngine (s : State) (u chan start : Nat) (alert : Bool) (e : Engine) : State :=
  let x := s.unit u
  let r := s.slipped u chan start alert (usedSlots (x.queueOf (otherEngine e))) [] (placedReqs (x.queueOf e))
  let last := r.1.foldl (fun (l : Option Nat) p => some (max p.slot (l.getD 0))) (x.lastSlot e)
  if r.2 = (0, 0) ∧ r.1 = placedReqs (x.queueOf e) then s
  else ((s.noteBump (calcntKey u) 32 r.2.1).noteBump (calcntKey u) 0 r.2.2).setUnit u (({ x.setQueue e (reslot (x.queueOf e) r.1) with
      calcnt := calcntAdd (calcntAdd x.calcnt true r.2.1) false r.2.2 }).setLastSlot e last)

/-- The module with `f` applied to the state of a pseudo-channel. -/
def State.modPc (s : State) (chan : Nat) (f : PcSt → PcSt) : State := { s with pcs := tput s.pcs chan (f (s.pc chan)) }

/-- Rotation `r` of a pseudo-channel has no slots from now on, and every request in it or later slips (R413). -/
def State.slipFrom (s : State) (chan r : Nat) (alert : Bool) : State :=
  (s.units.map (·.1)).foldl (fun s u =>
    (s.slipEngine u chan (r * rotationTime) alert .c0).slipEngine u chan (r * rotationTime) alert .c1) s

/-- A refresh unit calls for the first rotation from `r` on that is neither taken nor called for (R412, R413). -/
def State.callRefresh (s : State) (chan r : Nat) : State :=
  let n := (s.pc chan).freeFrom r
  (s.modPc chan (fun p => { p with refreshes := p.refreshes ++ [n] })).slipFrom chan n false

/-- An alert raised in rotation `r` calls for the next one, which serves every alert of the rotation before it; a refresh unit
that had that one takes the rotation after the owed alerts (R411 to R413). -/
def State.callAlert (s : State) (chan r : Nat) : State :=
  let p := s.pc chan
  if p.alerts.contains (r + 1) then s
  else
    let t := s.modPc chan (fun p => { p with alerts := p.alerts ++ [r + 1] })
    if p.refreshes.contains (r + 1) then
      let n := (t.pc chan).freeFrom (r + 1)
      (t.modPc chan (fun p => { p with refreshes := p.refreshes.map (fun k => if k = r + 1 then n else k) })).slipFrom chan n true
    else t.slipFrom chan (r + 1) true

/-- PCCFG.AT of a pseudo-channel (R411, R414). -/
def State.rowLimit (s : State) (chan : Nat) : Nat := s.cfield (calAddr (chan / 64) (chan % 64) + 0x80) 0 16

/-- ALERT (R411): a row is precharged, and its count of activations updated; where it has come to PCCFG.AT and no alert of the
row is owed, the stack raises one.  Which units of memory a row holds is the stack's (log entry 75). -/
def execAlert (act : RowCount) (s : State) : Host.Outcome State Fault Refusal :=
  if channelCount ≤ act.chan then .fault (.noSuchPart act.chan)
  else if s.selfRefresh then .next s
  else
    let n := tget 0 (s.pc act.chan).rows act.row + act.count
    let s := s.modPc act.chan (fun p => { p with rows := tput p.rows act.row n })
    let r := s.now / rotationTime
    if n < s.rowLimit act.chan ∨ (s.pc act.chan).alerting.any (fun p => p.1 == act.row) then .next s
    else .next ((s.modPc act.chan (fun p => { p with alerting := p.alerting ++ [(act.row, r + 1)] })).callAlert act.chan r)

/-- A rotation that was called for comes: it is taken, and PCSTAT counts it (R411 to R414). -/
def State.takeRotation (s : State) (chan r : Nat) (alert : Bool) : State :=
  let s := s.modPc chan (fun p => { p with
    alerts := p.alerts.filter (fun n => n != r)
    refreshes := p.refreshes.filter (fun n => n != r)
    blocked := p.blocked ++ [r] })
  let a := calAddr (chan / 64) (chan % 64) + 0x88
  if alert then s.cbump a 32 32 1 else s.cbump a 8 24 1

/-- ALERT_ROTATION (R411): the rows whose alert was raised in the rotation before are served, and their counts are reset; there is
none in self-refresh (R482). -/
def execAlertRotation (pc : Nat) (s : State) : Host.Outcome State Fault Refusal :=
  if channelCount ≤ pc then .fault (.noSuchPart pc)
  else
    match (s.pc pc).alerts with
    | [] => .next s
    | r :: _ =>
      if s.now < r * rotationTime ∨ s.selfRefresh then .next s
      else .next ((s.takeRotation pc r true).modPc pc (fun p => { p with
        rows := (p.alerting.filter (fun a => a.2 == r)).foldl (fun t a => tdel t a.1) p.rows
        alerting := p.alerting.filter (fun a => a.2 != r) }))

/-- Refresh units fall due from now on; refresh rotations that were called for before are not owed any more (R412, R482). -/
def State.freshDue (s : State) : State :=
  { s with
    dueBase := s.now / (38 * rotationTime)
    pcs := s.pcs.map (fun p => (p.1, { p.2 with refreshes := [] })) }

/-- Stacks that had no power: their rows count from zero again, and no alert is owed (log entry 75). -/
def State.coldRows (s : State) : State :=
  { s with pcs := s.pcs.map (fun p => (p.1, { p.2 with alerts := [], rows := [], alerting := [] })) }

/-- PCSTAT.ALLOW of a pseudo-channel (R412). -/
def State.allowance (s : State) (chan : Nat) : Nat := s.cfield (calAddr (chan / 64) (chan % 64) + 0x88) 0 4

/-- The module with the allowance of a pseudo-channel set. -/
def State.setAllowance (s : State) (chan n : Nat) : State :=
  s.csetField (calAddr (chan / 64) (chan % 64) + 0x88) 0 4 n

/-- The number of the refresh unit of a pseudo-channel that falls due next; none fell due in self-refresh or in Midnight. -/
def State.nextDue (s : State) (chan : Nat) : Nat := max (s.pc chan).due s.dueBase + 1

/-- REFRESH_UNIT_DUE (R412): every 38 rotations a unit takes from the allowance or calls for a refresh rotation, the next that
is free when it falls due; the stacks refresh themselves in PL3 (R482). -/
def execRefreshUnitDue (pc : Nat) (s : State) : Host.Outcome State Fault Refusal :=
  if channelCount ≤ pc then .fault (.noSuchPart pc)
  else if s.now < 38 * rotationTime * s.nextDue pc ∨ s.selfRefresh then .next s
  else
    let n := s.nextDue pc
    let s := s.modPc pc (fun p => { p with due := n })
    if s.allowance pc = 0 then .next (s.callRefresh pc (max (38 * n) ((s.now + rotationTime - 1) / rotationTime)))
    else .next (s.setAllowance pc (s.allowance pc - 1))

/-- A request waits for a slot of a pseudo-channel (R412). -/
def State.slotWanted (s : State) (chan : Nat) : Bool :=
  s.units.any (fun p => (p.2.q0 ++ p.2.q1).any (fun c => c.reqs.any (fun r =>
    r.chan == chan && (match r.slot with | none => true | some t => decide (s.now ≤ t)))))

/-- Every tile that owns a slot of a pseudo-channel is idle or runs a task with PHASE 0 (R17, R412). -/
def State.ownersCompute (s : State) (chan : Nat) : Bool :=
  (List.range 64).all (fun p =>
    match s.slotOwner chan (64 * (s.now / rotationTime) + p) with
    | none => true
    | some u => !isTile u || (s.unit u).run == .idle || !(s.unit u).card.phase)

/-- REFRESH_ROTATION (R412): the rotation of a unit that is due comes, or, at a rotation boundary, an idle rotation raises the
allowance. -/
def execRefreshRotation (pc : Nat) (s : State) : Host.Outcome State Fault Refusal :=
  if channelCount ≤ pc then .fault (.noSuchPart pc)
  else if s.selfRefresh then .next s
  else
    let p := s.pc pc
    let n := s.now / rotationTime
    match p.refreshes.find? (fun r => decide (r * rotationTime ≤ s.now)) with
    | some r => .next (s.takeRotation pc r false)
    | none =>
      if decide (s.now % rotationTime = 0) && !(p.dark.contains n) && decide (s.allowance pc < 8) &&
          !(s.slotWanted pc) && s.ownersCompute pc then
        .next ((s.takeRotation pc n false).setAllowance pc (s.allowance pc + 1))
      else .next s

/-! ### Register writes -/

/-- A table word as it is stored: KIND 11 is kept as 00 and bits [13:9] as zero (R408). -/
def calStored (v : Word) : Word :=
  (List.range 4).foldl (fun (w : Word) i =>
    let e := (field v (16 * i) 16) &&& 0xC1FF
    setField w (16 * i) (if field e 14 2 = 3 then e &&& 0x3FFF else e)) 0

/-- The pseudo-channel of a table register (R408). -/
def calChan (a : Nat) : Nat :=
  let o := a - calAddr 0 0
  64 * (o / 0x10000) + o % 0x10000 / 0x100

/-- The requests of an engine take new slots from the first one of a pseudo-channel on that lies at a time or later; one that
has found no slot may find one now (R408, R409). -/
def State.replace (s : State) (u chan t : Nat) (e : Engine) : State :=
  let x := s.unit u
  let ps := placedReqs (x.queueOf e)
  match ps.find? (fun p => p.req.chan == chan && decide (t ≤ p.slot)) with
  | none => s.placeEngine u e
  | some f =>
    let q := (x.queueOf e).map (fun c => { c with reqs := c.reqs.map (fun r =>
      match r.slot with
      | some w => if f.slot ≤ w then { r with slot := none } else r
      | none => r) })
    let last := (ps.filter (fun p => decide (p.slot < f.slot))).foldl (fun n p => max n p.slot) (t - 1)
    (s.setUnit u ((x.setQueue e q).setLastSlot e (some last))).placeEngine u e

/-- A write of a table register, in force from the next rotation, where the requests that lie there take new slots (R408). -/
def State.writeCal (s : State) (a : Nat) (v : Word) : State :=
  let r := s.now / rotationTime
  let old := s.calWord a r
  let s := { (s.cset a (calStored v)) with calPend := tput s.calPend a (r + 1, old) }
  let t := (r + 1) * rotationTime
  (s.units.map (·.1)).foldl (fun s u => (s.replace u (calChan a) t .c0).replace u (calChan a) t .c1) s

/-- A write of PCCFG (R414). -/
def State.writePccfg (s : State) (a : Nat) (v : Word) : State :=
  let at_ := (field v 0 16).toNat
  s.cset a (BitVec.ofNat 64 (if 256 ≤ at_ ∧ at_ ≤ 16384 then at_ else 4096))

/-- A write of PCSTAT: a counter field written as zero is cleared (R414). -/
def State.writePcstat (s : State) (a : Nat) (v : Word) : State :=
  let s := if field v 32 32 = 0 then s.cclear a 32 32 else s
  if field v 8 24 = 0 then s.cclear a 8 24 else s

end Sys2Proof.Machine
end

