-- ==== Sys2Proof/Machine/Queues.lean ====
section
/-!
DEFINITION. Work-queue registers (R371 to R373, R387, R388): what a write of each stores.
-/
namespace Sys2Proof.Machine

/-- How many work queues the module has (R371). -/
def queueCount : Nat := 65536

/-- LOG2N of a queue; other values than 4 to 15 are stored as 4 (R371). -/
def State.qLog (s : State) (q : Nat) : Nat := s.cfield (qAddr q 0) 56 4
/-- RING of a queue (R371). -/
def State.qRing (s : State) (q : Nat) : Nat := s.cfield (qAddr q 0) 12 40 * 4096
/-- ASPACE of a queue (R371). -/
def State.qAspace (s : State) (q : Nat) : Nat := s.cfield (qAddr q 8) 48 16
/-- WEIGHT of a queue; 0 is stored as 1 (R371). -/
def State.qWeight (s : State) (q : Nat) : Nat := max 1 (s.cfield (qAddr q 8) 40 8)
/-- PFLOOR of a queue (R371). -/
def State.qFloor (s : State) (q : Nat) : Nat := s.cfield (qAddr q 8) 38 2
/-- EN of a queue (R371). -/
def State.qEn (s : State) (q : Nat) : Bool := bitOf (s.cget (qAddr q 8)) 37
/-- CLMASK of a queue (R371). -/
def State.qMask (s : State) (q : Nat) : Nat := s.cfield (qAddr q 8) 0 32
/-- TAIL of a queue (R371). -/
def State.qTail (s : State) (q : Nat) : Nat := s.cfield (qAddr q 0x10) 0 32
/-- HEAD of a queue (R371). -/
def State.qHead (s : State) (q : Nat) : Nat := s.cfield (qAddr q 0x18) 0 32

/-- The module with a queue stopped by an error: EN 0, QERR set and vector 0 raised (R372, R445). -/
def State.stopQueue (s : State) (q err : Nat) : State :=
  ((s.csetField (qAddr q 8) 37 1 0).csetField (qAddr q 0x18) 32 8 err).raiseVector 0

/-- A TAIL write to an enabled queue wakes a module in PL1 to PL3 (R483). -/
def State.rouse (s : State) (q : Nat) : State := { s with woken := s.woken || (s.qEn q && !s.awake) }

/-- A write of TAIL, with the event of its doorbell (R372, R389, R452, R483). -/
def State.writeTail (s : State) (q tail : Nat) : State :=
  let s := s.rouse q
  if 2 ^ s.qLog q < (tail + 2 ^ 32 - s.qHead q) % 2 ^ 32 then s.stopQueue q 1
  else (s.csetField (qAddr q 0x10) 0 32 tail).postNotice 0 q

/-- A write of QRING (R371). -/
def State.writeRing (s : State) (q : Nat) (v : Word) : State :=
  if s.qEn q then s
  else
    let n := (field v 56 4).toNat
    s.cset (qAddr q 0) (BitVec.ofNat 64 ((if n < 4 then 4 else n) * 2 ^ 56 + (field v 12 40).toNat * 4096))

/-- A write of QCFG: while EN is 1 only EN is written, and writing EN 1 clears QERR (R371, R372). -/
def State.writeQcfg (s : State) (q : Nat) (v : Word) : State :=
  let en := bitOf v 37
  let w : Word :=
    if s.qEn q then setField (s.cget (qAddr q 8)) 37 (ofBool 1 en)
    else
      let weight := (field v 40 8).toNat
      setField (v &&& 0xFFFFFFE0FFFFFFFF) 40 (BitVec.ofNat 8 (if weight = 0 then 1 else weight))
  let s := s.cset (qAddr q 8) w
  if en then s.csetField (qAddr q 0x18) 32 8 0 else s

end Sys2Proof.Machine
end

