-- ==== Sys2Proof/Machine/CopyRun.lean ====
section
/-!
DEFINITION. The copy engines (R82, R248 to R264): pre-translation with its checks, the start of a command, delivery of
DRAM reads, the landing of its bytes with the codec, and completion.
-/
namespace Sys2Proof.Machine

/-! ### What a command touches -/

/-- One side of a command: the operand that names it, the ranges of its addresses, and whether they are read and written. -/
structure Side where
  operand : COperand
  ranges : List (Nat × Nat)
  read : Bool
  write : Bool
deriving DecidableEq, Repr

/-- The opcodes that have a source side. -/
def hasSource (op : Nat) : Bool := op != 0x05 && op != 0x12 && op != 0x09 && op != 0x0A && op != 0x0B
/-- The opcodes that have a destination side; `CMPR` checks its one range as written. -/
def hasDest (op : Nat) : Bool :=
  op == 0x01 || op == 0x02 || op == 0x03 || op == 0x04 || op == 0x05 || op == 0x12

/-- The operand of a staging register. -/
def operandAt (ops : List COperand) (reg : Nat) : Option COperand := ops.find? (fun c => c.reg == reg)

/-- The destination register of an opcode. -/
def destReg (op : Nat) : Nat := if op = 0x12 then 0 else 1

/-- The sides of a command: its source, then its destination (R248). -/
def CCmd.sides (u : Nat) (c : CCmd) : List Side :=
  let f := c.fields
  let ops := operandsOf f.1 f.2 c.stg c.index
  let rs := copyRuns u f.1 f.2 c.stg c.index
  let src := if hasSource f.1 then
      (operandAt ops 0).toList.map (fun k =>
        ({ operand := k, ranges := rs.map (fun r => (r.src, r.len)), read := true, write := f.1 == 0x06 } : Side)) else []
  let ix := (operandAt ops 4).toList.map (fun k =>
    ({ operand := k, ranges := [(k.base u, (k.hi + 1).toNat)], read := true, write := false } : Side))
  let dst := if hasDest f.1 then
      (operandAt ops (destReg f.1)).toList.map (fun k =>
        ({ operand := k, ranges := rs.map (fun r => (r.dst, r.len)), read := false, write := true } : Side)) else []
  src ++ (if f.1 = 0x03 ∨ f.1 = 0x04 then ix else []) ++ dst

/-- The numbers of the `g`-byte units that ranges touch, ascending. -/
def touched (g : Nat) (rs : List (Nat × Nat)) : List Nat :=
  match (rs.filter (fun r => r.2 != 0)).map (fun r => (r.1 / g, (r.1 + r.2 - 1) / g)) with
  | [] => []
  | p :: ps =>
    let lo := ps.foldl (fun n q => min n q.1) p.1
    let hi := ps.foldl (fun n q => max n q.2) p.2
    ((List.range (hi + 1 - lo)).map (· + lo)).filter (fun k =>
      (p :: ps).any (fun q => decide (q.1 ≤ k) && decide (k ≤ q.2)))

/-- The first address from `lo` on that ranges touch in a unit. -/
def firstFrom (g k lo : Nat) (rs : List (Nat × Nat)) : Option Nat :=
  let from_ := max lo (k * g)
  match (rs.filter (fun r => decide (from_ < r.1 + r.2) && decide (r.1 < (k + 1) * g) && decide (lo < (k + 1) * g))).map
      (fun r => max r.1 from_) with
  | [] => none
  | a :: as => some (as.foldl min a)

/-- The first address of a unit that ranges touch. -/
def firstIn (g k : Nat) (rs : List (Nat × Nat)) : Nat := (firstFrom g k 0 rs).getD (k * g)

/-! ### Pre-translation -/

/-- How far a pre-translation comes: through, waiting on a unit, or a fault with its value (R248, R400). -/
inductive PreEnd
  | done
  | waits
  | faults (c : Cause) (val : Nat)
deriving DecidableEq, Repr

/-- The TLB of an engine (R399). -/
def Unit.tlb (x : Unit) : Engine → List Xlat
  | .c0 => x.tlb0
  | .c1 => x.tlb1

/-- The unit with a translation filled into the TLB of an engine (R399). -/
def Unit.fillTlb (x : Unit) (e : Engine) (t : Xlat) : Unit :=
  match e with
  | .c0 => { x with tlb0 := tlbFill x.tlb0 t }
  | .c1 => { x with tlb1 := tlbFill x.tlb1 t }

/-- An entry admits an access: its permissions, and through a doorbell page the writing of exactly 8 bytes, 8-byte aligned,
and no other command that touches the page (R373, R395). -/
def Xlat.admits (t : Xlat) (sd : Side) : Bool :=
  (!sd.write || t.w) && (!sd.read || t.r) &&
  (!t.db || (sd.write && !sd.read &&
    (match sd.ranges.filter (fun r => decide (r.1 < t.page + t.size) && decide (t.page < r.1 + r.2)) with
      | [r] => r.1 % 8 == 0 && r.2 == 8
      | _ => false)))

/-- The lowest address that ranges touch in a 64 KiB unit and that the entry of its page refuses (R248, R395). -/
def Xlat.refusal (t : Xlat) (sd : Side) (k : Nat) : Option Nat :=
  if !(t.admits sd) then some (firstIn 65536 k sd.ranges)
  else if t.place != .dram then none
  else firstFrom 65536 k (t.page + (96000000000 - t.base % 2 ^ 37)) sd.ranges

/-- The 64 KiB units of one side translated in ascending order, each counted when it is reached (R248, R399, R400);
`PREF` pins nothing, and asks for a page that is not in module DRAM (R260). -/
def State.translateSide (s : State) (u : Nat) (e : Engine) (c : CCmd) (sd : Side) : List Nat → State × CCmd × PreEnd
  | [] => (s, c, .done)
  | k :: ks =>
    let x := s.unit u
    let seg := sd.operand.code == 4
    let a := firstIn 65536 k sd.ranges
    let known := findXlat c.xlat seg x.card.aspace a
    let hit := if known.isSome then known else findXlat (x.tlb e) seg x.card.aspace a
    let t := if hit.isSome then hit else s.walk seg x.card.aspace a
    match t with
    | none => (s, c, .faults .copyTranslation a)
    | some t =>
      match t.refusal sd k with
      | some b => (s, c, .faults .copyTranslation b)
      | none =>
        let l := t.loc a
        let held := match l.busyKey with
          | none => true
          | some key => c.counted.contains key
        if !held && s.mustWait l then (s, c, .waits)
        else
          let count := !held && c.fields.1 != 0x08
          let s := if count then (match l.busyKey with | some key => s.busyUp key | none => s) else s
          let s := if hit.isSome then s else s.modUnit u (fun x => x.fillTlb e t)
          let s := if c.fields.1 = 0x08 ∧ t.place = .host then s.send (.prefetch x.card.aspace t.page) else s
          let c := { c with
            xlat := if known.isSome then c.xlat else c.xlat ++ [t]
            counted := if count then c.counted ++ l.busyKey.toList else c.counted }
          s.translateSide u e c sd ks

/-- Every side translated, the source before the destination (R248). -/
def State.translateAll (s : State) (u : Nat) (e : Engine) (c : CCmd) : List Side → State × CCmd × PreEnd
  | [] => (s, c, .done)
  | sd :: sds =>
    if sd.operand.code < 4 then s.translateAll u e c sds
    else
      let r := s.translateSide u e c sd (touched 65536 sd.ranges)
      match r.2.2 with
      | .done => r.1.translateAll u e r.2.1 sds
      | _ => r

/-- The place of a 64-byte unit of a side, once translated. -/
def State.unitLoc (s : State) (u : Nat) (c : CCmd) (sd : Side) (a : Nat) : Option Loc :=
  match s.spaceOf u sd.operand with
  | .buf v b => some { place := .buf v b, addr := a }
  | .seg => (findXlat c.xlat true (s.unit u).card.aspace a).map (fun t => t.loc a)
  | .dram => (findXlat c.xlat false (s.unit u).card.aspace a).map (fun t => t.loc a)

/-- Condition 2 of R248: the first unit that the region states do not admit, source first. -/
def State.ownershipEnd (s : State) (u : Nat) (c : CCmd) (sds : List Side) : PreEnd :=
  let all := sds.flatMap (fun sd => (touched 64 sd.ranges).map (fun k => (sd, firstIn 64 k sd.ranges)))
  let verdicts := all.map (fun p => (s.copyVerdict u c.serial (s.spaceOf u p.1.operand) p.1.write p.2, p.2))
  match verdicts.find? (fun v => v.1 != .allowed) with
  | some (.refused, a) => .faults .ownership a
  | some (.waits, _) => .waits
  | _ => .done

/-- The first addresses of the distinct pages and granules that a command touches, in order (R248). -/
def CCmd.pageStarts (u : Nat) (aspace : Nat) (c : CCmd) : List (Nat × Nat) :=
  ((c.sides u).filter (fun sd => decide (4 ≤ sd.operand.code))).foldl (fun (l : List (Nat × Nat)) sd =>
    (touched 65536 sd.ranges).foldl (fun (l : List (Nat × Nat)) k =>
      let a := firstIn 65536 k sd.ranges
      match findXlat c.xlat (sd.operand.code == 4) aspace a with
      | none => l
      | some t =>
        let key := 2 * t.page + (if t.seg then 1 else 0)
        if l.any (fun p => p.1 == key) then l else l ++ [(key, a)]) l) []

/-- Condition 4 of R248: the lowest destination address of a unit that is also a source. -/
def State.overlapEnd (s : State) (u : Nat) (c : CCmd) (sds : List Side) : PreEnd :=
  let unit_ (l : Loc) : Place × Nat := (l.place, l.addr / 64)
  let locs (sd : Side) : List (Nat × Option (Place × Nat)) :=
    (touched 64 sd.ranges).map (fun k =>
      let a := firstIn 64 k sd.ranges
      (a, (s.unitLoc u c sd a).map unit_))
  let src := (sds.filter (fun sd => !sd.write)).flatMap (fun sd => (locs sd).filterMap (·.2))
  let dst := (sds.filter (fun sd => sd.write)).flatMap locs
  match dst.find? (fun p => match p.2 with | some l => src.contains l | none => false) with
  | some p => .faults .copyAccess p.1
  | none => .done

/-- Where a run would put the first byte of the block at `b`, which it touches. -/
def VRun.blockAt (r : VRun) (b : Nat) : Int := (r.dst : Int) + b - r.src

/-- A copy between memories moves the compressed block at a source address unchanged: each run that touches it puts its bytes in
a whole block of the same scheme, all of which the runs that do so give (R100). -/
def blockMoved (u : Nat) (c : CCmd) (aspace b cs : Nat) (dseg : Bool) : Bool :=
  let f := c.fields
  let rs := (copyRuns u f.1 f.2 c.stg c.index).filter (fun r => decide (r.src < b + 4096) && decide (b < r.src + r.len))
  rs.all (fun r =>
    let d := r.blockAt b
    let same := rs.filter (fun q => q.blockAt b == d)
    d % 4096 == 0 && decide (0 ≤ d) &&
    (List.range 4096).all (fun i => same.any (fun q => decide (q.src ≤ b + i) && decide (b + i < q.src + q.len))) &&
    (match findXlat c.xlat dseg aspace d.toNat with
      | some t => t.cs == cs
      | none => false))

/-- The block of a place is stored compressed as a command finds it: as it stood before the commands of its own bundle (R79). -/
def State.packedFor (s : State) (c : CCmd) (l : Loc) : Bool :=
  match c.oldBlocks.find? (fun k => k.src == l.block) with
  | some k => k.packed
  | none => s.isCompressed l

/-- Condition 5 of R248: the first source block that R100 refuses. -/
def State.blockEnd (s : State) (u : Nat) (c : CCmd) : PreEnd :=
  let f := c.fields
  let x := s.unit u
  if (f.1 ≠ 0x01) ∨ f.2.from < 4 ∨ f.2.to < 4 then .done
  else
    match (c.sides u).head? with
    | none => .done
    | some sd =>
      match (touched 4096 sd.ranges).find? (fun k =>
        match findXlat c.xlat (sd.operand.code == 4) x.card.aspace (k * 4096) with
        | none => false
        | some t =>
          t.cs != 0 && s.packedFor c (t.loc (k * 4096)) &&
            !(blockMoved u c x.card.aspace (k * 4096) t.cs (f.2.to == 4))) with
      | some k => .faults .copyAccess (k * 4096)
      | none => .done

/-- The conditions of R248 in their order, once every unit is translated; `PREF` may cover more than 256 units
(R260) and `CMPR` reads and writes one range (R259). -/
def State.preChecks (s : State) (u : Nat) (c : CCmd) : PreEnd :=
  let op := c.fields.1
  let sds := c.sides u
  let own := if isTile u then s.ownershipEnd u c sds else .done
  if own ≠ .done then own
  else
    let ps := c.pageStarts u (s.unit u).card.aspace
    if 256 < ps.length ∧ op ≠ 0x08 then .faults .copyAccess ((ps.getD 256 (0, 0)).2)
    else
      let four := if op = 0x06 then .done else s.overlapEnd u c sds
      if four ≠ .done then four else s.blockEnd u c

/-- The index list of `GATH` and `SCAT` may be read (R248), and what it holds (R257). -/
def State.readIndex (s : State) (u : Nat) (c : CCmd) : Option CCmd :=
  let f := c.fields
  if (f.1 ≠ 0x03 ∧ f.1 ≠ 0x04) ∨ !c.index.isEmpty then some c
  else
    match operandAt (operandsOf f.1 f.2 c.stg []) 4 with
    | none => some c
    | some k =>
      if !(s.clearFor u c.serial (some c.bundle) [s.spanOf u k] []) then none
      else
        let w := 4 * 2 ^ f.2.width
        let l : Loc := match s.spaceOf u k with
          | .buf v b => { place := .buf v b, addr := k.base u }
          | _ => { place := .buf u .sb, addr := k.base u }
        let count := (field (sreg c.stg 2) 32 32).toNat
        let bs := s.locReadFor u c l (count * w)
        some { c with index := (List.range count).map (elemAt bs w) }

/-- The far side of a `GATH` or `SCAT` lies in its space or its buffer (R77, R246, R257); known only once the indices are
read, so that the condition faults as those of R248 do (log entry 76). -/
def farSpaceEnd (u : Nat) (c : CCmd) : PreEnd :=
  let f := c.fields
  if f.1 = 0x03 ∨ f.1 = 0x04 then
    let ops := operandsOf f.1 f.2 c.stg c.index
    match firstSome beyondSpace ops with
    | some a => .faults .copyAccess a.toNat
    | none =>
      match firstSome (beyondOperand u) ops with
      | some a => .faults .localBounds a.toNat
      | none => .done
  else .done

/-- A command that faults in pre-translation: `PREF` stops and sets PREFDROP (R260); any other gives its counts back, and
the rollback trap is ready at the next boundary, or, in a handler, which ends by it, the command is dropped (R248,
R249, R288). -/
def State.preFault (s : State) (u : Nat) (e : Engine) (c : CCmd) (cause : Cause) (val : Nat) : State :=
  if c.fields.1 = 0x08 then
    s.modUnit u (fun x => ({ x with cstat := setBit x.cstat csPrefDrop }).modCmd e c.serial (fun _ => { c with phase := .moved }))
  else
    let s := s.busyDown c.counted
    let d := { c with counted := [], xlat := [], index := [], refused := true }
    let p : Pend := { cause := cause, resume := none, val := BitVec.ofNat 64 val, rollback := true, handler := c.handler, tag := c.tag, arose := s.now }
    s.modUnit u (fun x =>
      let x := (x.modCmd e c.serial (fun _ => d)).postPend p
      if c.handler ∨ x.run = .faulting then
        (({ x.tagDone c.tag with
          q0 := x.q0.filter (fun q => q.serial != c.serial)
          q1 := x.q1.filter (fun q => q.serial != c.serial) } : Unit)).settle
      else x)

/-- The unit's engines work: its context is in place and it is not halted (R253, R296, R301). -/
def Unit.engines (x : Unit) : Bool := x.run != .frozen && x.run != .halted && x.run != .idle

/-- COPY_PRETRANSLATION (R248 to R250, R399, R400): the engine pre-translates its first command that needs it; one that faulted
waits for the rollback that discards it, and those behind it go on. -/
def execCopyPretranslation (u : Nat) (e : Engine) (s : State) : Host.Outcome State Fault Refusal :=
  if unitCount ≤ u then .fault (.noSuchPart u)
  else
    let x := s.unit u
    match (x.queueOf e).find? (fun c => c.phase == .queued && !c.untranslated && !c.refused) with
    | none => .next s
    | some c =>
      if !x.engines ∨ !(s.powered u) then .next s
      else
        match s.readIndex u c with
        | none => .next s
        | some c =>
          let far := farSpaceEnd u c
          let r := match far with
            | .done => s.translateAll u e c (c.sides u)
            | _ => (s, c, far)
          let keep (s : State) (c : CCmd) : State := s.modUnit u (fun x => x.modCmd e c.serial (fun _ => c))
          let end_ := match r.2.2 with
            | .done => r.1.preChecks u r.2.1
            | o => o
          match end_ with
          | .done =>
            .next (keep r.1 { r.2.1 with phase := if c.fields.1 = 0x08 then .moved else .translated })
          | .waits => .next (keep r.1 r.2.1)
          | .faults cause val => .next (r.1.preFault u e r.2.1 cause val)

/-! ### Pieces -/

/-- The length of the first piece of a run that begins at a place of the destination sequence: to the next 64-byte boundary of
either end, or 4 KiB boundary of the sequence (R253). -/
def pieceLen (seq : Nat) (r : VRun) : Nat :=
  min (min r.len (4096 - seq % 4096)) (min (64 - r.src % 64) (64 - r.dst % 64))

/-- A run cut into its pieces. -/
def cutRun : Nat → Nat → VRun → List VRun
  | 0, _, _ => []
  | fuel + 1, seq, r =>
    if r.len = 0 then []
    else
      let n := pieceLen seq r
      { r with len := n } :: cutRun fuel (seq + n) { src := r.src + n, dst := r.dst + n, len := r.len - n }

/-- Runs cut into their pieces, one after another in the destination sequence. -/
def cutRuns : Nat → List VRun → List VRun
  | _, [] => []
  | seq, r :: rs => cutRun r.len seq r ++ cutRuns (seq + r.len) rs

/-- A place with the scheme and metadata place of its block. -/
structure Ploc where
  loc : Loc
  cs : Nat := 0
  mp : Bool := false
deriving DecidableEq, Repr

/-- Where an address of an operand lies (R250). -/
def State.placeOf (s : State) (u : Nat) (c : CCmd) (k : COperand) (a : Nat) : Option Ploc :=
  let via (seg : Bool) : Option Ploc :=
    (findXlat c.xlat seg (s.unit u).card.aspace a).map (fun t => { loc := t.loc a, cs := t.cs, mp := t.mp })
  match s.spaceOf u k with
  | .buf v b => some { loc := { place := .buf v b, addr := a } }
  | .seg => via true
  | .dram => via false

/-- A place for bytes that a command holds for itself: an `SCLD` or an `FSEND`. -/
def heldLoc (r a : Nat) : Loc := { place := .scale r, addr := a }

/-- The pieces of a command, in the order of its rule (R254, R257, R258). -/
def State.pieces (s : State) (u : Nat) (c : CCmd) : List Run :=
  let f := c.fields
  let ops := operandsOf f.1 f.2 c.stg c.index
  let cuts := cutRuns 0 (copyRuns u f.1 f.2 c.stg c.index)
  let src := operandAt ops 0
  let dst := if f.1 = 0x06 then src else operandAt ops (destReg f.1)
  cuts.filterMap (fun v =>
    let a := if hasSource f.1 then src.bind (fun k => s.placeOf u c k v.src) else none
    let b : Option Ploc :=
      if f.1 = 0x07 then some { loc := heldLoc (scldReg f.2) v.dst }
      else if f.1 = 0x11 then some { loc := heldLoc 0 v.dst }
      else dst.bind (fun k => s.placeOf u c k v.dst)
    b.map (fun b =>
      { src := a.map (·.loc), dst := b.loc, len := v.len
        lit := if f.1 = 0x05 then (List.range v.len).map (fun i =>
            fillByte f.2 c.stg (v.dst + i - ((operandAt ops 1).map (fun k => k.base u)).getD 0)) else []
        scs := (a.map (·.cs)).getD 0, smp := (a.map (·.mp)).getD false, dcs := b.cs, dmp := b.mp }))

/-- Neither end of a command is a tile buffer, and it writes no pattern: blocks move as they are stored (R100). -/
def CCmd.betweenMemories (c : CCmd) : Bool :=
  let f := c.fields
  (f.1 == 0x01) && decide (4 ≤ f.2.from) && decide (4 ≤ f.2.to)

/-- The DSIZE bytes of a command (R244); that one without the field declares whole blocks is the model's choice (DESIGN CHOICE,
log entry 107). -/
def CCmd.dsize (c : CCmd) : Nat :=
  let op := c.fields.1
  if op = 0x07 ∨ op = 0x11 ∨ op = 0x12 then 4096 else dsizeBytes (field (sreg c.stg 3) 16 3).toNat

/-- The block of a destination. -/
def Run.dblock (r : Run) : Loc := r.dst.block

/-- The pieces write every byte of a block (R255). -/
def coversBlock (b : Loc) (rs : List Run) : Bool :=
  (List.range 4096).all (fun i => rs.any (fun r =>
    decide (r.dst.addr ≤ b.addr + i) && decide (b.addr + i < r.dst.addr + r.len)))

/-- The one source block that the pieces of a destination block move whole, if they do (R100). -/
def movedFrom (b : Loc) (rs : List Run) : Option Loc :=
  match rs.head?.bind (fun r => r.src) with
  | none => none
  | some l =>
    let sb := l.block
    if coversBlock b rs ∧ rs.all (fun r => match r.src with
        | some k => k.place == sb.place && decide (sb.addr ≤ k.addr) && decide (k.addr - sb.addr = r.dst.addr - b.addr)
        | none => false) then some sb
    else none

/-- A piece is part of a block that moves whole to one of the same scheme, so that its bytes move as they are stored (R100). -/
def CCmd.movesStored (c : CCmd) (r : Run) : Bool :=
  c.betweenMemories && r.scs != 0 && r.scs == r.dcs && (movedFrom r.dblock (c.runs.filter (fun q => q.dblock == r.dblock))).isSome

/-- The block of a place has been read compressed, to move as it is stored (R100). -/
def CCmd.packed (c : CCmd) (l : Loc) : Bool := c.blocks.any (fun k => k.src == l.block && k.packed)

/-- The source block of a piece that moves whole to a block of the same scheme is read with its first piece, as it stood before
the commands of its own bundle: its state bit, its record and what it stores (R79, R100). -/
def State.readBlock (s : State) (c : CCmd) (r : Run) : CCmd :=
  match r.src with
  | none => c
  | some l =>
    if !(c.movesStored r) ∨ c.blocks.any (fun k => k.src == l.block) then c
    else { c with blocks := c.blocks ++ [(c.oldBlocks.find? (fun k => k.src == l.block)).getD (s.takeBlock l r.smp)] }

/-- The bytes of a piece at its source: as stored where the block moves unchanged, else its data; `none` on CODEC (R98, R100,
R102, R255).  That a block which becomes compressed after pre-translation has passed it (condition 5 of R248), and which does not
move whole, is expanded here is the model's choice (DESIGN CHOICE, log entry 106). -/
def State.pieceData (s : State) (u : Nat) (c : CCmd) (r : Run) : Option (List Byte) :=
  match r.src with
  | none => some r.lit
  | some l =>
    if r.scs = 0 ∨ c.packed l then some (s.locReadFor u c l r.len)
    else
      (s.logical l r.scs r.smp r.len).map (fun bs =>
        (List.range r.len).map (fun i => (oldByte c.old { l with addr := l.addr + i }).getD (bs.getD i 0)))

/-- A piece with a read request pending on DRAM. -/
def Run.fromDram (r : Run) : Bool := match r.src with | some l => l.place == .dram | none => false
/-- A piece whose source is host memory. -/
def Run.fromHost (r : Run) : Bool := match r.src with | some l => l.place == .host | none => false

/-- The channels of the requests that fetch or store a block (R264, R407). -/
def State.blockChans (s : State) (l : Loc) (bytes : Nat) : List Nat :=
  (List.range (bytes / 64)).map (fun i => channelOf (s.readAt (l.block.addr + 64 * i)))

/-- The read requests of a list of pieces: one for each unit touched, or the whole stored block of a block under a
scheme, consecutive pieces of one unit or block sharing them; and how many blocks were stored beyond their DSIZE
(R264). -/
def State.readReqs (s : State) (dsize : Nat) : List Run → Nat → Option (Bool × Nat) → List Run × List Req × Nat
  | [], _, _ => ([], [], 0)
  | r :: rs, n, last =>
    match r.src with
    | none =>
      let t := s.readReqs dsize rs n last
      (r :: t.1, t.2)
    | some l =>
      if l.place ≠ .dram then
        let t := s.readReqs dsize rs n last
        (r :: t.1, t.2)
      else
        let key := if r.scs = 0 then (false, l.addr / 64) else (true, l.addr / 4096)
        if last = some key then
          let t := s.readReqs dsize rs n last
          ({ r with req := some (n - 1) } :: t.1, t.2)
        else
          let chans := if r.scs = 0 then [channelOf (s.readAt l.addr)]
            else s.blockChans l (max dsize (s.storedSize l r.smp))
          let new : List Req := chans.map (fun ch => { chan := ch, slot := none, ready := s.now, write := false })
          let wide := if r.scs != 0 && decide (dsize < s.storedSize l r.smp) then 1 else 0
          let t := s.readReqs dsize rs (n + new.length) (some key)
          ({ r with req := some (n + new.length - 1) } :: t.1, new ++ t.2.1, wide + t.2.2)

/-- The last read request that the pieces of one destination unit or block wait for. -/
def lastRead (rs : List Run) : Option Nat :=
  (rs.filterMap (fun r => r.req)).foldl (fun (m : Option Nat) i => some (max i (m.getD 0))) none

/-- The write requests of a list of pieces, added to the requests of the command: one for each DRAM unit, or the whole block of
a block under a scheme as `t` stores it, each ready when its reads have delivered (R264, R409).  `seen` holds the last
request of the units and blocks that have theirs. -/
def State.writeReqs (s t : State) (c : CCmd) : List Run → List Req → Tbl Nat → List Run × List Req
  | [], qs, _ => ([], qs)
  | r :: rs, qs, seen =>
    if !r.toDram ∨ c.unwritten r then
      let z := s.writeReqs t c rs qs seen
      (r :: z.1, z.2)
    else
      let key := if r.dcs = 0 then 2 * (r.dst.addr / 64) else 2 * (r.dst.addr / 4096) + 1
      match seen.find? (fun p => p.1 == key) with
      | some p =>
        let z := s.writeReqs t c rs qs seen
        ({ r with wreq := some p.2 } :: z.1, z.2)
      | none =>
        let same := c.runs.filter (fun q => q.toDram && (q.dcs == 0) == (r.dcs == 0) &&
          (if r.dcs = 0 then q.dst.addr / 64 == r.dst.addr / 64 else q.dst.addr / 4096 == r.dst.addr / 4096))
        let chans := if r.dcs = 0 then [channelOf (s.readAt r.dst.addr)]
          else s.blockChans r.dst (max c.dsize (t.storedSize r.dst r.dmp))
        let new : List Req := chans.map (fun ch =>
          { chan := ch, slot := none, write := true, after := lastRead same
            ready := if (lastRead same).isSome && same.all Run.fromDram then 0 else s.now })
        let i := qs.length + new.length - 1
        let z := s.writeReqs t c rs (qs ++ new) (tput seen key i)
        ({ r with wreq := some i } :: z.1, z.2)

/-- CSTAT with a 16-bit count raised, saturating (R271). -/
def cstatAdd (w : Word) (lo n : Nat) : Word :=
  setField w lo (BitVec.ofNat 16 (min 0xFFFF ((field w lo 16).toNat + n)))

/-! ### Landing -/

/-- Two pieces land together: those of one block under a scheme (R255), and those of one doorbell write (R373). -/
def Run.landsWith (r q : Run) : Bool :=
  (r.dcs != 0 && q.dcs != 0 && r.dblock == q.dblock) ||
    (r.dst.place == .doorbell && q.dst.place == .doorbell && r.dst.addr / 8 == q.dst.addr / 8)

/-- Two pieces write a byte in common. -/
def Run.meets (r q : Run) : Bool :=
  r.dst.place == q.dst.place && decide (r.dst.addr < q.dst.addr + q.len) && decide (q.dst.addr < r.dst.addr + r.len)

/-- The pieces of a command with their numbers. -/
def CCmd.numbered (c : CCmd) : List (Nat × Run) :=
  (List.range c.runs.length).filterMap (fun i => (c.runs[i]?).map (fun r => (i, r)))

/-- A piece could land at a time: it is done, with those that land with it, and stands before the place where a suspension stops
the command (R253). -/
def CCmd.pieceReady (now : Nat) (c : CCmd) (i : Nat) (r : Run) : Bool :=
  let fit (k : Nat) : Bool := c.stop.all (fun n => decide (k < n)) && c.pieceDone now k
  fit i && (!(r.landsWith r) || c.numbered.all (fun q => !(r.landsWith q.2) || fit q.1))

/-- The pieces that land at a time, in order: no piece does while an earlier one that writes a byte of it does not (R254). -/
def CCmd.landing (now : Nat) (c : CCmd) : List (Nat × Run) :=
  (c.numbered.foldl (fun (a : List (Nat × Run) × List Run) p =>
    if p.2.wrote then a
    else if c.pieceReady now p.1 p.2 && !(a.2.any p.2.meets) then (a.1 ++ [p], a.2)
    else (a.1, a.2 ++ [p.2])) ([], [])).1

/-- The bytes of pieces that a command writes; no unit whose data it could not obtain (R252). -/
def CCmd.bytesOf (c : CCmd) (is : List (Nat × Run)) : List (Run × List Byte) :=
  (is.filter (fun p => !(c.unwritten p.2))).map (fun p => (p.2, tget [] c.got p.1))

/-- A command whose pieces of some numbers have landed. -/
def CCmd.wroteOf (c : CCmd) (is : List Nat) : CCmd :=
  { c with runs := c.numbered.map (fun p => if is.contains p.1 then { p.2 with wrote := true } else p.2) }

/-- Bytes of a block with pieces laid over them in order. -/
def overlay (b : Loc) (data : List Byte) (ws : List (Run × List Byte)) : List Byte :=
  ws.foldl (fun (d : List Byte) w =>
    let o := w.1.dst.addr - b.addr
    d.take o ++ w.2 ++ d.drop (o + w.2.length)) data

/-- Where bytes land that a copy engine writes: an 8-byte write of a doorbell page sets TAIL (R373, R396), a write of
host memory goes out at the bridge, or to it (R444), and a copy keeps what it holds for itself. -/
def State.landBytes (s : State) (u serial bundle : Nat) (l : Loc) (bs : List Byte) : State :=
  match l.place with
  | .doorbell => s.writeTail (8192 * (l.addr / 65536 % 8) + l.addr % 65536 / 8) (natOfBytes (bs.take 4))
  | .host => (s.locWrite l bs).hostWrites false l.addr bs
  | .scale _ => s
  | _ => s.engineWrite u serial bundle l bs

/-- The pieces of each doorbell write, which may have been cut at its source, as the one write of 8 bytes that they are (R373,
R396). -/
def joinDoor (ws : List (Run × List Byte)) : List (Run × List Byte) :=
  let door (w : Run × List Byte) : Bool := w.1.dst.place == .doorbell
  ws.filter (fun w => !(door w)) ++
    (ws.filter door).foldl (fun (l : List (Run × List Byte)) w =>
      match l.getLast? with
      | none => [w]
      | some v => if v.2.length < 8 then l.dropLast ++ [(v.1, v.2 ++ w.2)] else l ++ [w]) []

/-- What the landing of a command comes to: the module, the blocks counted in RAWCNT, and whether a block that it writes in part
does not expand (R100 to R102). -/
structure Landed where
  s : State
  raw : Nat := 0
  codec : Bool := false

/-- Bytes written to part of a block under a scheme, which is demoted first (R101, R102). -/
def State.landPart (s : State) (b : Loc) (cs : Nat) (mp : Bool) (ws : List (Run × List Byte)) : Landed :=
  match s.demote b cs mp with
  | none => { s := s, codec := true }
  | some t => { s := ws.foldl (fun (s : State) v => s.locWrite v.1.dst v.2) t }

/-- A command is about to write over a block under a scheme: the copy-slot commands of the same bundle that have not read yet keep
the block as it is stored (R79, R100). -/
def State.keepBlock (s : State) (u : Nat) (c : CCmd) (b : Loc) (mp : Bool) : State :=
  let k := s.takeBlock b mp
  let keep (d : CCmd) : CCmd :=
    if d.bundle = c.bundle ∧ d.serial ≠ c.serial ∧ !d.readDone ∧ !(d.oldBlocks.any (fun o => o.src == k.src)) then
      { d with oldBlocks := d.oldBlocks ++ [k] }
    else d
  s.modUnit u (fun x => { x with q0 := x.q0.map keep, q1 := x.q1.map keep })

/-- One destination block under a scheme (R100, R101, R255); the codec stands before tile buffers, a sequencer's SB and the blocks
of a `CMPR` (DEDUCED, log entry 108).  Between memories a block that raw pieces of a block not aligned to it fill is written as
one in part, and is not counted (DESIGN CHOICE, log entry 77). -/
def State.landBlock (s : State) (u : Nat) (c : CCmd) (b : Loc) (ws : List (Run × List Byte)) : Landed :=
  match ws with
  | [] => { s := s }
  | w :: _ =>
    let cs := w.1.dcs
    let mp := w.1.dmp
    let old := (s.logical b cs mp 4096).getD (s.locRead b 4096)
    let s := (s.keepBytes u c.serial c.bundle b old).keepBlock u c b mp
    let raw : Landed := { s := (s.locWrite b (overlay b old ws)).setCompressed b false, raw := 1 }
    if c.betweenMemories then
      match movedFrom b (ws.map (·.1)) with
      | some sb =>
        match c.blocks.find? (fun k => k.src == sb && k.packed) with
        | some k => { s := s.putBlock k b mp }
        | none => raw
      | none => s.landPart b cs mp ws
    else if !(coversBlock b (ws.map (·.1))) then s.landPart b cs mp ws
    else
      let t := s.writeBlock b cs mp c.dsize (overlay b old ws)
      { s := t.1, raw := if t.2 then 1 else 0 }

/-- The distinct destination blocks under a scheme, in order of their first piece. -/
def schemeBlocks (ws : List (Run × List Byte)) : List Loc :=
  ws.foldl (fun (l : List Loc) w => if w.1.dcs = 0 ∨ l.contains w.1.dblock then l else l ++ [w.1.dblock]) []

/-- Pieces with their bytes land, in their order (R254, R255). -/
def State.landWrites (s : State) (u : Nat) (c : CCmd) (ws : List (Run × List Byte)) : Landed :=
  let s := (joinDoor (ws.filter (fun w => w.1.dcs == 0))).foldl (fun (s : State) w =>
    s.landBytes u c.serial c.bundle w.1.dst w.2) s
  (schemeBlocks ws).foldl (fun (a : Landed) b =>
    let r := a.s.landBlock u c b (ws.filter (fun w => w.1.dcs != 0 && w.1.dblock == b))
    { s := r.s, raw := a.raw + r.raw, codec := a.codec || r.codec }) { s := s }

/-- The remote module, space and address of `FSEND` and `FFETCH` (R270). -/
def CCmd.remote (c : CCmd) : Nat × Bool × Nat :=
  ((field (sreg c.stg 2) 0 16).toNat, field (sreg c.stg 1) 52 3 == 4, (field (sreg c.stg 1) 0 52).toNat)

/-- Adjacent writes joined into one, in order. -/
def joinWrites (l : List (Nat × List Byte)) : List (Nat × List Byte) :=
  l.foldl (fun (acc : List (Nat × List Byte)) w =>
    match acc.getLast? with
    | none => [w]
    | some p => if p.1 + p.2.length = w.1 then acc.dropLast ++ [(p.1, p.2 ++ w.2)] else acc ++ [w]) []

/-- What an `FSEND` writes at its peer: each unit at its own place, adjacent ones together (R252, R270). -/
def CCmd.sends (c : CCmd) : List Msg :=
  let (m, seg, a) := c.remote
  (joinWrites ((c.bytesOf c.numbered).map (fun w => (w.1.dst.addr, w.2)))).map (fun w =>
    .write m seg (a + w.1) w.2)

/-- Every piece of a command has arrived or is lost. -/
def CCmd.arrived (c : CCmd) : Bool :=
  (List.range c.runs.length).all (fun i => c.got.any (fun g => g.1 == i) || c.lost.contains i)

/-- Granules that a command touches lie on a shed die, so that its data transfers wait (R428). -/
def State.shedWait (s : State) (c : CCmd) : Bool :=
  c.runs.any (fun r => (r.src.toList ++ [r.dst]).any (fun l =>
    match l.homeDie with
    | some d => s.isShed d
    | none => false))

/-- An access of a die, where 4 is the hub, to DRAM may start: its own stacks and those the hub reaches need no link, another
die's are reached over the ring or through the hub (R428, R458, R460). -/
def State.dramWay (s : State) (a addr : Nat) : Bool :=
  a == 4 || stackDie addr == a || s.ringWay a (stackDie addr) addr (s.hubWay a addr)

/-- What goes between a unit and a place may start: the place is its own die's, or links towards it are open (R428, R460). -/
def State.wayTo (s : State) (u : Nat) (l : Loc) : Bool :=
  let a := dieAt u
  match l.place with
  | .buf v _ => s.wayOpen a (dieOf v) l.addr
  | .sram k => s.wayOpen a (k / 8) l.addr
  | .dram => s.dramWay a l.addr
  | .host => s.wayOpen a 4 l.addr
  | .doorbell => s.wayOpen a 4 l.addr
  | .scale _ => true

/-- No link is open towards a place that a command touches, or for a transfer with another module, so that its flits wait
(R460). -/
def State.linkWait (s : State) (u : Nat) (c : CCmd) : Bool :=
  ((c.fields.1 == 0x11 || c.fields.1 == 0x12) && !(s.wayOpen (dieAt u) 4 c.remote.2.2)) ||
  c.runs.any (fun r => (r.src.toList ++ [r.dst]).any (fun l => !(s.wayTo u l)))

/-- A piece whose granule lies on a die in warm reset, and that die (R467). -/
def State.resetDie (s : State) (r : Run) : Option Nat :=
  firstSome (fun (l : Loc) => l.homeDie.bind (fun d => guarded (s.dieResetting d) d)) (r.src.toList ++ [r.dst])

/-- A command with a piece whose data it cannot obtain, and why (R252). -/
def CCmd.lose (c : CCmd) (i : Nat) (code : Byte) : CCmd :=
  if c.lost.contains i then c else { c with lost := c.lost ++ [i], err := some (c.err.getD code) }

/-- The pieces whose data is lost with a piece: all those of its block where that moves as it is stored, since no unit of a
compressed block has its data without the others (R102, R252). -/
def State.lostWith (s : State) (c : CCmd) (i : Nat) : List Nat :=
  match c.runs[i]? with
  | none => []
  | some r =>
    let whole : Bool := c.movesStored r && (match r.src with
      | none => false
      | some l => if c.blocks.any (fun k => k.src == l.block) then c.packed l else s.packedFor c l)
    if whole then (List.range c.runs.length).filter (fun k => (c.runs[k]?).map Run.dblock == some r.dblock) else [i]

/-- A command that cannot obtain the data of a piece (R252). -/
def State.losePiece (s : State) (c : CCmd) (i : Nat) (code : Byte) : CCmd :=
  (s.lostWith c i).foldl (fun (c : CCmd) k => c.lose k code) c

/-- The command with pieces lost to warm resets, of those that have not landed; each such die's STRAYS is raised once for the
command (R252, R467). -/
def State.strays (s : State) (c : CCmd) : State × CCmd :=
  let hit := (c.numbered.filter (fun p => !p.2.wrote)).filterMap (fun p => (s.resetDie p.2).map (fun d => (p.1, d)))
  let dies := (List.range 4).filter (fun d => hit.any (fun p => p.2 == d) && !(c.strayed.contains d))
  (dies.foldl (fun (s : State) d => s.cbump (drbAddr d + 8) 32 16 1) s,
   hit.foldl (fun (c : CCmd) p => s.losePiece c p.1 2) { c with strayed := c.strayed ++ dies })

/-- A piece is read, with its block where that moves as it is stored, or lost to the codec (R100, R252). -/
def State.readPiece (s : State) (u : Nat) (c : CCmd) (i : Nat) (r : Run) : CCmd :=
  let c := s.readBlock c r
  match s.pieceData u c r with
  | some bs => { c with got := tput c.got i bs }
  | none => s.losePiece c i 5

/-- A command of a unit replaced in its queue. -/
def State.putCmd (s : State) (u : Nat) (e : Engine) (c : CCmd) : State :=
  s.modUnit u (fun x => x.modCmd e c.serial (fun _ => c))

/-- The module after a landing: RAWCNT counts its blocks, and a block that did not expand is the command's error (R102, R252,
R271). -/
def Landed.close (r : Landed) (u : Nat) (e : Engine) (c : CCmd) : State × CCmd :=
  let c := if r.codec then { c with err := some (c.err.getD 5) } else c
  ((r.s.modUnit u (fun x => { x with cstat := cstatAdd x.cstat 48 r.raw })).putCmd u e c, c)

/-- A `CMPR` reads its blocks as they stand when it writes them, since it holds every other write to them between (R259). -/
def State.refresh (s : State) (u : Nat) (c : CCmd) (is : List (Nat × Run)) : CCmd :=
  if c.fields.1 ≠ 0x06 then c
  else is.foldl (fun (c : CCmd) p => if c.lost.contains p.1 then c else s.readPiece u c p.1 p.2) c

/-- The flits of a command wait: a die that it touches is shed, or no link is open towards a place of it (R428, R460). -/
def State.heldUp (s : State) (u : Nat) (c : CCmd) : Bool := s.shedWait c || s.linkWait u c

/-- The pieces of a command that are due land in their order: those for tile buffers, segment space, host memory and doorbells
when they arrive, those for DRAM 64 ns after the start of their slot (R254, R255, R410). -/
def State.landDue (s : State) (u : Nat) (e : Engine) (c : CCmd) : State × CCmd :=
  let is := c.landing s.now
  if is.isEmpty ∨ s.heldUp u c then (s.putCmd u e c, c)
  else
    let c := s.refresh u c is
    (s.landWrites u c (c.bytesOf is)).close u e (c.wroteOf (is.map (·.1)))

/-- The write requests of a command join its requests (R264, R409): of blocks under a scheme as many as the blocks take that its
pieces leave, as their sources stand now (log entry 109). -/
def State.askWrites (s : State) (u : Nat) (c : CCmd) : CCmd :=
  let left := c.numbered.filter (fun p => p.2.toDram)
  let after :=
    if left.any (fun p => p.2.dcs != 0) then
      let d := left.foldl (fun (d : CCmd) p =>
        if d.got.any (fun g => g.1 == p.1) || d.lost.contains p.1 then d else s.readPiece u d p.1 p.2) c
      (s.landWrites u d (d.bytesOf left)).s
    else s
  let q := s.writeReqs after c c.runs c.reqs []
  { c with runs := q.1, reqs := q.2 }

/-- A command goes on with the pieces that have arrived: those that are due land, and once all have arrived write requests that it
could not ask for before take their slots (R254, R264, R409, R410); an `FSEND` goes out (R270), and the bytes of an `SCLD` wait
for a boundary (R261). -/
def State.finishCopy (s : State) (u : Nat) (e : Engine) (c : CCmd) : State :=
  let op := c.fields.1
  if s.heldUp u c then s.putCmd u e c
  else
    let r := s.strays c
    let s := r.1
    let c := r.2
    if !c.arrived then (s.landDue u e c).1
    else if op = 0x07 then s.putCmd u e { c with phase := .moved }
    else if op = 0x11 then
      (c.sends.foldl State.send s).putCmd u e { c with phase := .moved, got := [] }
    else
      let r := s.landDue u e { c with phase := .moved }
      if r.2.asked then (r.1.putCmd u e { r.2 with old := [] }).placeEngine u e
      else (r.1.putCmd u e { (r.1.askWrites u r.2) with old := [] }).placeEngine u e

/-! ### Start, delivery and completion -/

/-- The data errors that strike a command from outside: an uncorrectable error and a link that is lost; the model itself finds
those of a die in warm reset and of the codec (R252, R267). -/
def dataError (e : Byte) : Bool := e == 1 || e == 6

/-- The command with the pieces that are at hand read, and its requests, the reads before the writes: those of what comes from
host memory or another module are not known yet (R254, R264, R409). -/
def State.gatherPieces (s : State) (u : Nat) (c : CCmd) (lost : List (Nat × Byte)) : CCmd × Nat :=
  let c := lost.foldl (fun (c : CCmd) p =>
    if p.1 < c.runs.length ∧ dataError p.2 then s.losePiece c p.1 p.2 else c) c
  let q := s.readReqs c.dsize c.runs 0 none
  let c := { c with runs := q.1, reqs := q.2.1 }
  let c := (List.range c.runs.length).foldl (fun (c : CCmd) i =>
    match c.runs[i]? with
    | none => c
    | some r =>
      if r.fromDram ∨ r.fromHost ∨ c.lost.contains i then c else s.readPiece u c i r) c
  (if c.runs.any Run.fromHost then c else s.askWrites u c, q.2.2)

/-- Reads of host memory that a command awaits go out at the bridge, or to it (R444). -/
def State.askHost (s : State) (u : Nat) (node : Option Nat) (c : CCmd) : State :=
  (List.range c.runs.length).foldl (fun (s : State) i =>
    match c.runs[i]? with
    | none => s
    | some r =>
      match r.src with
      | none => s
      | some l =>
        if l.place = .host ∧ !(c.lost.contains i) ∧ !(c.got.any (fun g => g.1 == i)) then
          { s.hostReadsAt false s.nextPcie l.addr r.len with
            pcie := s.pcie ++ [{ id := s.nextPcie, unit := u, node := node, serial := c.serial, piece := i, len := r.len }]
            nextPcie := s.nextPcie + 1 }
        else s) s

/-- The iterations that a `WALK` emits (R269). -/
def walkRange (c : CCmd) (total : Nat) : List Nat :=
  let start := (field (sreg c.stg 1) 0 32).toNat
  let count := (field (sreg c.stg 2) 0 32).toNat
  let stop := if count = 0 then total else min total (start + count)
  (List.range (stop - start)).map (· + start)

/-- The collectives of a comm sequencer's cluster that a `WALK` carries: those of its record's GROUP and of its STEP
(R269). -/
def State.walked (s : State) (u : Nat) (c : CCmd) : List Coll :=
  let r := (s.vread false (s.unit u).card.aspace (sreg c.stg 0).toNat 128).getD []
  let step := (field (sreg c.stg 3) 0 32).toNat
  s.colls.filter (fun d => clusterOf d.unit == clusterOf u && !d.repart && d.group == recGroup r && d.step == step &&
    d.ended.isNone)

/-- The transfers of a `WALK` in the order of its iterations, for one collective: those that a credit allows and that were not
sent before (R269, R332); a collective whose comm master is at rest is suspended (R466). -/
def State.emitFor (s : State) (d : Coll) (ts : List Nat) : State :=
  if !(s.mastersRun d.unit) then s
  else ts.foldl (fun (s : State) t =>
    (recTargets d.rcd d.member t).foldl (fun (s : State) m =>
      match s.collOf d.unit d.serial with
      | none => s
      | some d =>
        if tget 0 d.credits m = 0 ∨ d.sent.contains (m, t) ∨ !(s.chunkWay d m t) then s else s.sendChunk d m t (d.keptChunk m t)) s) s

/-- The iterations of a `WALK` that a collective has still to look at: from its position, where it has walked from the same START
before (R269). -/
def Coll.walkLeft (d : Coll) (c : CCmd) : List Nat :=
  let start := (field (sreg c.stg 1) 0 32).toNat
  (walkRange c (recCount d.rcd)).filter (fun t => decide (d.walk.1 ≠ start) || decide (d.walk.2 ≤ t))

/-- A collective with the position of a `WALK`: the first iteration of which some transfer is still to be emitted, else the end of
its range (R269, R346). -/
def Coll.walkTo (d : Coll) (c : CCmd) : Coll :=
  let start := (field (sreg c.stg 1) 0 32).toNat
  let ts := d.walkLeft c
  let left (t : Nat) : Bool := (recTargets d.rcd d.member t).any (fun m => !(d.sent.contains (m, t)))
  let done := ts.foldl (fun n t => max n (t + 1)) (if d.walk.1 = start then d.walk.2 else start)
  { d with walk := (start, (ts.find? left).getD done) }

/-- The walker goes on from its position in each collective: it emits what it can, and the position, which is the collective's,
follows (R269). -/
def State.walkOn (s : State) (u : Nat) (e : Engine) (c : CCmd) : State :=
  let s := (s.walked u c).foldl (fun (s : State) d => s.emitFor d (d.walkLeft c)) s
  (((s.walked u c).map (fun d => d.walkTo c)).foldl State.setColl s).putCmd u e c

/-- Every transfer that a `WALK` emits is visible at its peer: its iterations are none, or the collective that it walks is there
or has ended, and every chunk has been applied (R269). -/
def State.walkDone (s : State) (u : Nat) (c : CCmd) : Bool :=
  let r := (s.vread false (s.unit u).card.aspace (sreg c.stg 0).toNat 128).getD []
  let step := (field (sreg c.stg 3) 0 32).toNat
  let ds := s.walked u c
  (walkRange c (recCount r)).isEmpty ||
  ((!ds.isEmpty || s.endedColls.any (fun e => clusterOf e.unit == clusterOf u && e.group == recGroup r && e.step == step)) &&
    ds.all (fun d => (walkRange c (recCount d.rcd)).all (fun t => d.ackedAll t)))

/-- A command whose conflicts are clear starts: its sources are read as they come to hand, its DRAM requests take their
slots (R82, R254, R264, R269, R270). -/
def State.startCopy (s : State) (u : Nat) (e : Engine) (c : CCmd) (lost : List (Nat × Byte)) : State :=
  let op := c.fields.1
  if op = 0x10 then s.walkOn u e { c with phase := .started }
  else if (op = 0x11 ∨ op = 0x12) ∧ !(s.reachable c.remote.1) then s.putCmd u e { c with phase := .moved, err := some 3, peer := true }
  else
    let c := { c with runs := s.pieces u c }
    if s.shedWait c then s
    else if op = 0x12 then
      let (m, seg, a) := c.remote
      (s.send (.read m seg a (field (sreg c.stg 3) 0 32).toNat)).putCmd u e { c with phase := .started }
    else
      let r := s.strays c
      let g := r.1.gatherPieces u { r.2 with phase := .started } lost
      let s := (r.1.modUnit u (fun x => { x with cstat := cstatAdd x.cstat 32 g.2 })).askHost u (s.unit u).team g.1
      let s := (s.putCmd u e g.1).placeEngine u e
      match ((s.unit u).queueOf e).find? (fun d => d.serial == c.serial) with
      | none => s
      | some d => s.finishCopy u e d

/-- A command may start: it has passed translation and no conflict, fence, shed die or closed link holds it (R82, R262, R428,
R460). -/
def State.mayStart (s : State) (u : Nat) (c : CCmd) : Bool :=
  c.phase == .translated && s.copyClear u c && !((s.unit u).fenced c.serial) &&
    (let d : CCmd := { c with runs := s.pieces u c }
     !(s.shedWait d) && !(s.linkWait u d))

/-- COPY_COMMAND_START (R82, R254, R262, R264): commands of one engine that can start do so in the order of their
pre-translation, in which they issue their DRAM requests (R409).  `lost` names pieces whose source data cannot be
obtained, each with its error code (R252). -/
def execCopyCommandStart (u : Nat) (e : Engine) (id : Nat) (lost : List (Nat × Byte)) (s : State) :
    Host.Outcome State Fault Refusal :=
  if unitCount ≤ u then .fault (.noSuchPart u)
  else
    let x := s.unit u
    match (x.queueOf e).find? (fun c => c.serial == id) with
    | none => .next s
    | some c =>
      if !x.engines ∨ !(s.powered u) ∨ !(s.mayStart u c) ∨ (x.queueOf e).any (fun d => decide (d.serial < id) && s.mayStart u d) then .next s
      else .next (s.startCopy u e c lost)

/-- The next piece of a command that waits for DRAM. -/
def CCmd.nextDram (c : CCmd) : Option Nat :=
  (List.range c.runs.length).find? (fun i =>
    !(c.got.any (fun g => g.1 == i)) && !(c.lost.contains i) &&
    (match c.runs[i]? with | some r => r.fromDram | none => false))

/-- The pieces that one request carries are read, or lost with an error (R252, R410). -/
def State.deliver (s : State) (u : Nat) (c : CCmd) (req : Nat) (err : Option Byte) : CCmd :=
  (List.range c.runs.length).foldl (fun (c : CCmd) i =>
    match c.runs[i]? with
    | none => c
    | some r =>
      if r.req ≠ some req ∨ c.lost.contains i then c
      else
        match err with
        | some x => s.losePiece c i x
        | none => s.readPiece u c i r) c

/-- A command's transfers go on: its unit works, or it is frozen or halted and its started matrix commands have not completed,
or the command is on its way to the place where a suspension stops it (R253, R296, R301). -/
def Unit.moves (x : Unit) (c : CCmd) (i : Nat) : Bool :=
  match c.stop with
  | none => x.engines || !x.matrixStill
  | some n => decide (i < n)

/-- The slot of the request that the next piece of a command waits for. -/
def CCmd.nextSlot (c : CCmd) : Option Nat :=
  c.nextDram.bind (fun i => ((c.runs[i]?).bind (·.req)).bind c.slotOf)

/-- No request of an engine in an earlier slot has still to deliver (R409, R415). -/
def Unit.firstRead (x : Unit) (e : Engine) (t : Nat) : Bool :=
  (x.queueOf e).all (fun d => d.phase != .started || (match d.nextSlot with | some k => decide (t ≤ k) | none => true))

/-- DRAM_READ_DELIVERY (R409, R410, R415): the next read request of a command, the first of its engine to do so, delivers 288
ns after the start of its slot. -/
def execDramReadDelivery (u : Nat) (e : Engine) (id : Nat) (err : Option Byte) (s : State) :
    Host.Outcome State Fault Refusal :=
  if unitCount ≤ u then .fault (.noSuchPart u)
  else
    let s := s.placeEngine u e
    let x := s.unit u
    match (x.queueOf e).find? (fun c => c.serial == id) with
    | none => .next s
    | some c =>
      match c.nextDram with
      | none => .next s
      | some i =>
        match (c.runs[i]?).bind (·.req) with
        | none => .next s
        | some req =>
          match c.reqs[req]? with
          | none => .next s
          | some q =>
            match q.slot with
            | none => .next s
            | some t =>
              if c.phase ≠ .started ∨ !(x.moves c i) ∨ s.now < t + ns 288 ∨ !(err.all dataError) ∨ !(x.firstRead e t) ∨
                  !(s.powered u) then .next s
              else .next (s.finishCopy u e (s.deliver u c req err))

/-- The unit once a copy has completed: its queue place and tag; a follow-on may then start, or, after an error,
completes without a start (R83, R126, R252, R256). -/
def Unit.copyDone (x : Unit) (e : Engine) (c : CCmd) : Unit :=
  let y := (x.tagDone c.tag).setQueue e ((x.queueOf e).filter (fun d => d.serial != c.serial))
  if c.err.isNone then { y with mq := y.mq.map (fun m => if m.after = some c.serial then { m with after := none } else m) }
  else
    let gone := y.mq.filter (fun m => m.after = some c.serial)
    let y := gone.foldl (fun (y : Unit) m => y.tagDone m.o.tag.toNat) y
    { y with mq := y.mq.filter (fun m => m.after ≠ some c.serial) }

/-- The codes that end an `FSEND` or `FFETCH` from outside: those of R267 that CSTAT holds, and 0x13 (log entry 61). -/
def peerCode (e : Byte) : Bool := (decide (1 ≤ e.toNat) && decide (e.toNat ≤ 6)) || e == 0x13

/-- A command that ends on a code from outside: a status reply of its peer, or a lost link, which is a data error (R252, R270). -/
def CCmd.answered (c : CCmd) (code : Byte) : CCmd := { c with err := some code, peer := code != 6 }

/-- A copy-slot command completes (R83, R126, R252, R270, R400). -/
def State.completeCopy (s : State) (u : Nat) (e : Engine) (c : CCmd) : State :=
  let s := s.release c.counted c.xlat
  match c.err with
  | none => s.modUnit u (fun x => (x.copyDone e c).settle)
  | some code =>
    if c.peer then
      s.modUnit u (fun x =>
        ({ (x.copyDone e c) with cstat := cstatError x.cstat csPeer code.toNat c.tag } : Unit).settle)
    else s.modUnit u (fun x => ((x.copyDone e c).copyError s.now c code.toNat).settle)

/-- The bytes that an `FFETCH` brings, put into its pieces in order (R270). -/
def fillPieces : List Run → Nat → List Byte → Tbl (List Byte)
  | [], _, _ => []
  | r :: rs, i, bs => (i, bs.take r.len) :: fillPieces rs (i + 1) (bs.drop r.len)

/-- Every write of a command has landed (R410). -/
def CCmd.writesLanded (c : CCmd) (now : Nat) : Bool :=
  c.reqs.all (fun r => !r.write || (match r.slot with | some t => decide (t + ns 64 ≤ now) | none => false))

/-- A command completes once everything that it writes has landed (R83, R410). -/
def State.closeCopy (s : State) (u : Nat) (e : Engine) (c : CCmd) : State :=
  let r := s.landDue u e c
  if r.2.runs.all Run.wrote then r.1.completeCopy u e r.2 else r.1

/-- The writes of a command that have landed by now are there (R410). -/
def State.landSoFar (s : State) (u : Nat) (e : Engine) (c : CCmd) : State :=
  if c.phase ≠ .started ∧ c.phase ≠ .moved then s else (s.landDue u e c).1

/-- When the first write of a command that is still to land does so (R410). -/
def State.landsAt (s : State) (u : Nat) (c : CCmd) : Option Nat :=
  if (c.phase ≠ .started ∧ c.phase ≠ .moved) ∨ s.heldUp u c then none
  else if !(c.landing s.now).isEmpty then some s.now
  else
    let ts := (c.runs.filter (fun r => !r.wrote && r.toDram)).filterMap (fun r =>
      (c.wroteAt r).filter (fun t => decide (s.now < t)))
    match ts with
    | [] => none
    | t :: ts => some (ts.foldl min t)

/-- When the next read of a command delivers (R410); not while its unit is off, or it stands where a suspension stops it. -/
def State.readsAt (s : State) (u : Nat) (c : CCmd) : Option Nat :=
  if c.phase ≠ .started ∨ !(s.powered u) ∨ !(c.nextDram.all ((s.unit u).moves c)) then none else c.nextSlot.map (· + ns 288)

/-- The commands of the copy engines, with unit and engine. -/
def State.copies (s : State) : List (Nat × Engine × CCmd) :=
  s.units.flatMap (fun p => p.2.q0.map (fun c => (p.1, .c0, c)) ++ p.2.q1.map (fun c => (p.1, .c1, c)))

/-- Something done for each command of the copy engines, as it stands when its turn comes. -/
def State.eachCopy (s : State) (f : State → Nat → Engine → CCmd → State) : State :=
  s.copies.foldl (fun (s : State) p =>
    match ((s.unit p.1).queueOf p.2.1).find? (fun c => c.serial == p.2.2.serial) with
    | none => s
    | some c => f s p.1 p.2.1 c) s

/-- The first time up to `t` at which a write lands, or before it at which a read delivers: what happens at `t` itself may
still find an error in a read (R252, R410). -/
def State.nextMemory (s : State) (t : Nat) : Option Nat :=
  let ts := s.copies.flatMap (fun p =>
    ((s.landsAt p.1 p.2.2).toList.filter (fun k => decide (k ≤ t))) ++ ((s.readsAt p.1 p.2.2).toList.filter (fun k => decide (k < t))))
  match ts with
  | [] => none
  | k :: ks => some (ks.foldl min k)

/-- Writes land and reads deliver at one time, engine by engine in slot order (R409, R410). -/
def State.memoryAt (s : State) (t : Nat) : State :=
  let s := { s with now := max s.now t }
  let s := s.eachCopy State.landSoFar
  s.eachCopy (fun s u e c =>
    match (s.readsAt u c).filter (fun k => decide (k ≤ t)), c.nextDram.bind (fun i => (c.runs[i]?).bind (·.req)) with
    | some _, some q => s.finishCopy u e (s.deliver u c q none)
    | _, _ => s)

/-- Time goes on to `t`, through at most `fuel` times at which memory is read or written. -/
def State.goOn : Nat → Nat → State → State
  | 0, t, s => { s with now := max s.now t }
  | fuel + 1, t, s =>
    match s.nextMemory t with
    | none => { s with now := max s.now t }
    | some k => (s.memoryAt k).goOn fuel t

/-- Time goes on: each write of a copy engine lands 64 ns and each read delivers 288 ns after the start of its slot (R410). -/
def State.advance (s : State) (t : Nat) : State :=
  s.goOn (s.copies.foldl (fun n p => n + 3 * p.2.2.runs.length) 0) (max s.now t)

/-- COPY_COMMAND_COMPLETE (R83, R252, R270): a command completes when its writes have landed.  `err` and `data` are what
the peer of an `FSEND` or `FFETCH` answers. -/
def execCopyCommandComplete (u : Nat) (e : Engine) (id : Nat) (err : Option Byte) (data : List Byte) (s : State) :
    Host.Outcome State Fault Refusal :=
  if unitCount ≤ u then .fault (.noSuchPart u)
  else
    let s := s.placeEngine u e
    let x := s.unit u
    match (x.queueOf e).find? (fun c => c.serial == id) with
    | none => .next s
    | some c =>
      let op := c.fields.1
      if !x.engines ∨ !(s.powered u) ∨ !(err.all peerCode) then .next s
      else if op = 0x10 then
        .next (if c.phase ≠ .started then s else if s.walkDone u c then s.completeCopy u e c else s.walkOn u e c)
      else if op = 0x12 ∧ c.phase = .started ∧ !c.arrived then
        match err with
        | some x => .next (s.completeCopy u e (c.answered x))
        | none =>
          if data.length ≠ (field (sreg c.stg 3) 0 32).toNat then .next s
          else .next (s.finishCopy u e { c with got := fillPieces c.runs 0 data })
      else if c.phase = .started ∧ c.arrived then .next (s.finishCopy u e c)
      else if c.phase ≠ .moved ∨ op = 0x07 ∨ !(c.writesLanded s.now) then .next s
      else if op = 0x11 ∧ c.err.isNone then
        .next (s.completeCopy u e (match err with | some x => c.answered x | none => c))
      else if op = 0x12 ∧ !c.arrived then .next (s.completeCopy u e c)
      else .next (s.closeCopy u e c)

/-- SCLD_LANDING (R261): a scale register whose bytes have arrived lands at a boundary at least 8 bundles after its
issue. -/
def execScldLanding (u id : Nat) (s : State) : Host.Outcome State Fault Refusal :=
  if 512 ≤ u then .fault (.noSuchPart u)
  else
    let x := s.unit u
    match (x.sclds ++ x.q0 ++ x.q1).find? (fun c => c.serial == id && c.isScld) with
    | none => .next s
    | some c =>
      if !(x.scldReady c) ∨ !x.engines ∨ !(s.powered u) then .next s
      else .next ((s.release c.counted c.xlat).setUnit u (x.landScld s.now c).settle)

/-- CFENCE_START (R262): a `CFENCE` starts, and its tag completes, when every earlier copy-slot command of both engines
has completed. -/
def execCfenceStart (u id : Nat) (s : State) : Host.Outcome State Fault Refusal :=
  if unitCount ≤ u then .fault (.noSuchPart u)
  else
    let x := s.unit u
    match (x.q0 ++ x.q1).find? (fun c => c.serial == id && (match c.op with | .cfence _ _ => true | _ => false)) with
    | none => .next s
    | some c =>
      if (x.q0 ++ x.q1 ++ x.sclds).any (fun d => decide (d.serial < id)) ∨ !x.engines ∨ !(s.powered u) then .next s
      else .next (s.setUnit u (x.copyDone c.engine c).settle)

end Sys2Proof.Machine
end

