-- ==== Sys2Proof/Machine/Parts.lean ====
section
/-!
DEFINITION. The bytes of the parts of a drain to which the spec gives no layout, as opaque functions of what they hold.
-/
namespace Sys2Proof.Config

open Sys2Proof.Machine

/-- The bytes in which a drain writes the system state: R420 names its parts and no layout (log entry 56). -/
opaque sysEncoding : SysImage → List Byte

/-- The bytes in which a drain writes a team's context, member by member: R421 names its parts and no layout (log entry 56). -/
opaque teamEncoding : Tbl Machine.Unit → List Byte

end Sys2Proof.Config
end

