-- ==== Sys2Proof/Machine/Migrate.lean ====
section
/-!
DEFINITION. The migrators (R401 to R406) and the invalidation of TLBs (R391, R399).
-/
namespace Sys2Proof.Machine

/-! ### Leaves and pages -/

/-- The address of the leaf entry of a DRAM virtual address, from a level on (R393). -/
def State.leafFrom (s : State) (va table : Nat) : Nat → Nat → Nat
  | _, 0 => table
  | level, fuel + 1 =>
    let a := table + 8 * levelIndex level va
    let w := s.dword a
    if bitOf w 1 then a else s.leafFrom va ((field w 8 34).toNat * 256) (level + 1) fuel

/-- The page that maps a DRAM virtual address, with the address of its leaf; a doorbell page has no frame to move. -/
def State.pageOf (s : State) (aspace va : Nat) : Option (Xlat × Nat) :=
  match s.walkPage aspace va with
  | none => none
  | some x =>
    if x.db then none
    else (rootTable (s.spaceRoots aspace).1 14).map (fun t => (x, s.leafFrom va t 0 4))

/-- The keys of the frames of a page; a host page has none (R400). -/
def Xlat.frames (x : Xlat) : List Nat :=
  if x.place = .dram then (List.range (x.size / 65536)).map (fun i => x.base / 65536 + i) else []

/-- The page of a translation in the table of stays (R405). -/
def Xlat.stayKey (x : Xlat) : Nat := pageKey x.aspace x.page

/-- A leaf word that names a frame, local or of host memory (R394, R403, R404). -/
def leafWith (w : Word) (host : Bool) (frame : Nat) : Word :=
  if host then
    let w := setField (setField w 16 (BitVec.ofNat 40 frame)) 5 (0 : BitVec 3)
    setField (setField w 8 (0 : BitVec 1)) 9 (1 : BitVec 1)
  else setField (setField w 16 (BitVec.ofNat 40 (frame % 2 ^ 26))) 9 (0 : BitVec 1)

/-- The module with the entry at a physical address written. -/
def State.putEntry (s : State) (a : Nat) (w : Word) : State := s.dwrite a (toBytes w 8)

/-- Every TLB entry of the module that satisfies a condition is dropped (R399). -/
def State.dropTlb (s : State) (p : Xlat → Bool) : State :=
  { s with units := s.units.map (fun e => (e.1, ({ e.2 with
      tlb0 := e.2.tlb0.filter (fun x => !(p x)), tlb1 := e.2.tlb1.filter (fun x => !(p x))
      tlbw := e.2.tlbw.filter (fun x => !(p x)) } : Unit))) }

/-- One block of a page moved to a local frame as it stands, or expanded to host memory (R404); what crosses to or from host
memory goes by the bridge, as a migrator's traffic (R435, R444). -/
def State.carryBlock (s : State) (x : Xlat) (src dst : Loc) : State :=
  let s := if src.place = .host then { s.hostReadsAt true s.nextPcie src.addr 4096 with nextPcie := s.nextPcie + 1 } else s
  if dst.place = .dram then
    if x.cs ≠ 0 ∧ s.isCompressed src then s.moveBlock src x.mp dst x.mp
    else (s.locWrite dst (s.locRead src 4096)).setCompressed dst false
  else
    let bs := (s.blockData src x.cs x.mp).getD (s.locRead src 4096)
    (s.locWrite dst bs).hostWrites true dst.addr bs

/-- The bytes of a page carried to a target, block by block (R403, R404). -/
def State.carryPage (s : State) (x : Xlat) (place : Place) (base : Nat) : State :=
  (List.range (x.size / 4096)).foldl (fun (s : State) i =>
    s.carryBlock x { place := x.place, addr := x.base + 4096 * i } { place := place, addr := base + 4096 * i }) s

/-- A page carried to a target frame, its leaf bound to it and its TLB entries dropped (R403, R404, R406). -/
def State.movePage (s : State) (x : Xlat) (host : Bool) (frame : Nat) : State :=
  match s.pageOf x.aspace x.page with
  | none => s
  | some (_, a) =>
    let w := s.dword a
    let s := s.carryPage x (if host then .host else .dram) (frame * 65536)
    (s.putEntry a (leafWith w host frame)).dropTlb (fun y => y.maps false x.aspace x.page)

/-! ### Requests -/

/-- The state of a migrator. -/
def State.migrator (s : State) (d : Nat) : Migrator := tget {} s.migrators d

/-- The module with a migrator replaced. -/
def State.setMigrator (s : State) (d : Nat) (m : Migrator) : State := { s with migrators := tput s.migrators d m }

/-- ASPACE and virtual address of MVA (R401). -/
def State.mva (s : State) (d : Nat) : Nat × Nat :=
  (s.cfield (migAddr d) 48 16, s.cfield (migAddr d) 0 36 * 65536)

/-- MDST.HOST (R401). -/
def State.mdstHost (s : State) (d : Nat) : Bool := bitOf (s.cget (migAddr d + 8)) 9

/-- The target frame of a request, aligned to the size of the page (R401). -/
def State.mdstFrame (s : State) (d : Nat) (x : Xlat) : Nat :=
  let n := x.size / 65536
  s.cfield (migAddr d + 8) 16 40 / n * n

/-- MRES.BUSY of a migrator (R401). -/
def State.migBusy (s : State) (d : Nat) : Bool := (s.migrator d).page.isSome

/-- A request ends with a result, which raises an event, and its migrator is free (R402, R452). -/
def State.endRequest (s : State) (d result : Nat) : State :=
  let m := s.migrator d
  (((s.setMigrator d { m with page := none, hold := [], copying := false }).csetField (migAddr d + 0x18) 0 8 result).postNotice
    2 d).stir

/-- A page is pinned by stage-in (R23). -/
def State.pinned (s : State) (key : Nat) : Bool := s.sched.nodes.any (fun n => n.2.pinned.contains key)

/-- A page is within its stay (R405). -/
def State.staying (s : State) (key : Nat) : Bool := s.stays.any (fun p => p.1 == key && decide (p.2 < 16))

/-- Another migrator's request for the page is in progress (R405). -/
def State.pageBusy (s : State) (d key : Nat) : Bool :=
  s.migrators.any (fun m => m.1 != d && (match m.2.page with | some x => x.stayKey == key | none => false))

/-- Step 1 of R403: the page, with its leaf, or the result that ends the request. -/
def State.requestPage (s : State) (d : Nat) : Xlat ⊕ Nat :=
  let (asp, va) := s.mva d
  match s.pageOf asp va with
  | none => .inr 0x05
  | some (x, _) =>
    if !(s.mdstHost d) && !(populated (s.mdstFrame d x * 65536)) then .inr 0x05
    else if s.pinned x.stayKey then .inr 0x03
    else if s.staying x.stayKey then .inr 0x04
    else if s.pageBusy d x.stayKey then .inr 0x02
    else .inl x

/-- A GO in PL1 to PL3 wakes the module, and waits for that; so does one during the exit (R483). -/
def State.askMigrator (s : State) (d : Nat) : State := s.setMigrator d { s.migrator d with asked := true }

/-- A request for a migration to a local frame: the checks of step 1, then HOLD on the frames of the page (R403). -/
def State.startMigration (s : State) (d : Nat) : State :=
  match s.requestPage d with
  | .inr r => s.endRequest d r
  | .inl x =>
    let m := s.migrator d
    let s := s.setMigrator d { m with page := some x, hold := x.frames, since := s.now, late := false, target := s.mdstFrame d x }
    { s with held := s.held ++ x.frames }

/-- A GO while BUSY starts nothing; one for the page of the request in progress reads MIGRATION_BUSY until that ends (R401, R405,
log entry 78). -/
def State.busyGo (s : State) (d : Nat) : State :=
  match (s.migrator d).page with
  | none => s
  | some x => if x.maps false (s.mva d).1 (s.mva d).2 then s.csetField (migAddr d + 0x18) 0 8 2 else s

/-- A GO at migrator `d` for a migration or an eviction, as MDST.HOST says: without effect in Dusk, kept while the module sleeps
(R401, R419, R483). -/
def State.mayGo (s : State) (d : Nat) (host : Bool) : Bool := s.mdstHost d == host && s.noon

/-- MIGRATE_GO (R401, R403, R405, R483). -/
def execMigrateGo (d : Nat) (s : State) : Host.Outcome State Fault Refusal :=
  if 4 ≤ d then .fault (.noSuchPart d)
  else if !(s.mayGo d false) then .next s
  else .next (if s.migBusy d then s.busyGo d else if s.serving then s.startMigration d else s.askMigrator d)

/-- A command, of a resident or a saved context or at a comm master, holds a translation of a page of host memory, which would
leave it behind (R250). -/
def State.hostHeld (s : State) (x : Xlat) : Bool :=
  x.place == .host &&
    (let has (e : Nat × Unit) : Bool := (e.2.q0 ++ e.2.q1 ++ e.2.sclds).any (fun c =>
      c.xlat.any (fun y => y.maps false x.aspace x.page))
    s.colls.any (fun c => c.xlat.any (fun y => y.maps false x.aspace x.page)) ||
      s.units.any has || s.saved.any (fun t => t.2.any has))

/-- The busy counts of a page are zero (R403, R406). -/
def State.countsZero (s : State) (x : Xlat) : Bool := x.frames.all (fun k => s.busyOf k == 0) && !(s.hostHeld x)

/-- A request for an eviction: the page moves to host memory at once, or the request ends SKIPPED (R404, R406). -/
def State.startEviction (s : State) (d : Nat) : State :=
  match s.requestPage d with
  | .inr r => s.endRequest d r
  | .inl x =>
    if !(s.countsZero x) then s.endRequest d 0x07
    else
      let s := s.movePage x true (s.mdstFrame d x)
      { (s.endRequest d 0x00) with stays := tput s.stays x.stayKey 0 }

/-- EVICT_GO (R404, R406, R483). -/
def execEvictGo (d : Nat) (s : State) : Host.Outcome State Fault Refusal :=
  if 4 ≤ d then .fault (.noSuchPart d)
  else if !(s.mayGo d true) then .next s
  else .next (if s.migBusy d then s.busyGo d else if s.serving then s.startEviction d else s.askMigrator d)

/-- HOLD is cleared on the frames that a migrator holds (R403). -/
def State.unhold (s : State) (d : Nat) : State :=
  let m := s.migrator d
  { (s.setMigrator d { m with hold := [] }) with held := s.held.filter (fun k => !(m.hold.contains k)) }

/-- Time goes on past the 50 µs of a migration: what its counts are then decides how it ends (R403). -/
def State.countsAt (s : State) (t : Nat) : State :=
  { s with migrators := s.migrators.map (fun p => (p.1,
      match p.2.page with
      | none => p.2
      | some x =>
        if s.now < p.2.since + us 50 ∧ p.2.since + us 50 ≤ t then ({ p.2 with late := !(s.countsZero x) } : Migrator) else p.2)) }

/-- MIGRATION_COUNTS_ZERO (R403): the counts are zero, and for a page with frames of its own they were so 50 µs after the GO; the
page is copied and rebound, HOLD is cleared and the request ends MOVED. -/
def execMigrationCountsZero (d : Nat) (s : State) : Host.Outcome State Fault Refusal :=
  if 4 ≤ d then .fault (.noSuchPart d)
  else
    let m := s.migrator d
    match m.page with
    | none => .next s
    | some x =>
      if m.copying ∨ !(s.countsZero x) ∨ (x.place = .dram ∧ m.late) then .next s
      else
        let s := (s.unhold d).movePage x false m.target
        .next { (s.endRequest d 0x00) with stays := tput s.stays x.stayKey 0 }

/-- The indirection table of a die with a frame remapped beneath its entry (R403). -/
def remap (t : List Indirect) (old new : Nat) : List Indirect :=
  match t.find? (fun e => e.old == old) with
  | none => t ++ [{ old := old, src := old, new := new, copying := true }]
  | some f => t.map (fun e => if e.old = old then { e with src := f.new, new := new, copying := true } else e)

/-- MIGRATION_FALLBACK (R403): where counts were above zero 50 µs after the GO, indirection entries are taken and the copy begins,
or the request ends INDIR_FULL. -/
def execMigrationFallback (d : Nat) (s : State) : Host.Outcome State Fault Refusal :=
  if 4 ≤ d then .fault (.noSuchPart d)
  else
    let m := s.migrator d
    match m.page with
    | none => .next s
    | some x =>
      if m.copying ∨ !m.late ∨ x.place ≠ .dram then .next s
      else
        let k := stackDie x.base
        let t := tget [] s.indirect k
        let fresh := x.frames.filter (fun f => !(t.any (fun e => e.old == f)))
        let s := s.unhold d
        if 1024 < t.length + fresh.length then .next (s.endRequest d 0x06)
        else
          let t := (List.range x.frames.length).foldl (fun t i => remap t (x.base / 65536 + i) (m.target + i)) t
          .next { (s.setMigrator d { s.migrator d with copying := true }) with indirect := tput s.indirect k t }

/-- The bytes and block states of a frame carried to the frame beneath it, and where its blocks have their metadata in the side
table, their records (R397, R403, R404). -/
def State.carryFrame (mp : Bool) (s : State) (e : Indirect) : State :=
  let bytes := mread s.dram (e.src * 65536) 65536
  let t : State := { s with
    dram := mwrite s.dram (e.new * 65536) bytes
    cbits := (List.range 16).foldl (fun l i => setMember l (16 * e.new + i) (s.cbits.contains (16 * e.src + i))) s.cbits }
  if mp then
    t.locWrite (t.sideRecord (e.new * 65536)) (s.locRead (s.sideRecord (e.src * 65536)) 256)
  else t

/-- MIGRATION_COPY_END (R403): a fallback copy ends; every access goes to the new frame. -/
def execMigrationCopyEnd (d : Nat) (s : State) : Host.Outcome State Fault Refusal :=
  if 4 ≤ d then .fault (.noSuchPart d)
  else
    let m := s.migrator d
    match m.page with
    | none => .next s
    | some x =>
      if !m.copying then .next s
      else
        let k := stackDie x.base
        let t := tget [] s.indirect k
        let mine (e : Indirect) : Bool := e.copying && x.frames.contains e.old
        let s := (t.filter mine).foldl (State.carryFrame x.mp) s
        let s := { s with
          indirect := tput s.indirect k (t.map (fun e => if mine e then { e with copying := false } else e))
          stays := tput s.stays x.stayKey 0 }
        .next (s.endRequest d 0x01)

/-- The old frames of the page in MVA, whose leaf names the new ones, wait for their counts (R403). -/
def State.foldPage (s : State) (d : Nat) : State :=
  let (asp, va) := s.mva d
  match s.pageOf asp va with
  | none => s
  | some (x, _) =>
    let m := s.migrator d
    let olds := ((s.indirect.flatMap (·.2)).filter (fun e => !e.copying && x.frames.contains e.new)).map (·.old)
    let fresh := olds.filter (fun k => !(m.folding.flatten.contains k))
    if fresh.isEmpty then s else s.setMigrator d { m with folding := m.folding ++ [fresh] }

/-- FOLD (R401, R403). -/
def execFold (d : Nat) (s : State) : Host.Outcome State Fault Refusal :=
  if 4 ≤ d then .fault (.noSuchPart d) else .next (s.foldPage d)

/-- FOLD_COMPLETE (R403): pages whose old frames' counts are zero have their entries freed. -/
def execFoldComplete (d : Nat) (s : State) : Host.Outcome State Fault Refusal :=
  if 4 ≤ d then .fault (.noSuchPart d)
  else
    let m := s.migrator d
    let clear := m.folding.filter (fun g => g.all (fun k => s.busyOf k == 0))
    .next { (s.setMigrator d { m with folding := m.folding.filter (fun g => !(clear.contains g)) }) with
      indirect := s.indirect.map (fun t => (t.1, t.2.filter (fun e => !(clear.flatten.contains e.old)))) }

/-- The stay of the page in MVA ends (R405). -/
def State.releasePage (s : State) (d : Nat) : State :=
  let (asp, va) := s.mva d
  match s.pageOf asp va with
  | none => s
  | some (x, _) => { s with stays := tdel s.stays x.stayKey }

/-- REL (R401, R405). -/
def execRel (d : Nat) (s : State) : Host.Outcome State Fault Refusal :=
  if 4 ≤ d then .fault (.noSuchPart d) else .next (s.releasePage d)

/-- STAY_END (R405): the stay of a page, named by its key, has ended with the 16th completion. -/
def execStayEnd (page : Nat) (s : State) : Host.Outcome State Fault Refusal :=
  .next { s with stays := s.stays.filter (fun p => p.1 != page || decide (p.2 < 16)) }

/-! ### Invalidation -/

/-- The scope of an invalidation matches a translation (R391). -/
def invMatches (v : Word) (base : Nat) (x : Xlat) : Bool :=
  let space := x.seg == bitOf v 60
  let asp := x.aspace == (field v 32 16).toNat
  match (field v 61 2).toNat with
  | 0 => true
  | 1 => asp
  | 2 => asp && space && decide (x.page < base + (field v 0 32).toNat * 65536) && decide (base < x.page + x.size)
  | _ => false

/-- The commands of a context that pre-translated through a matching entry, as pairs of unit and serial. -/
def Unit.holders (p : Xlat → Bool) (u : Nat) (x : Unit) : List (Nat × Nat) :=
  ((x.q0 ++ x.q1 ++ x.sclds).filter (fun c => c.xlat.any p)).map (fun c => (u, c.serial))

/-- Every command that holds a matching translation, in resident and saved contexts and at the comm masters. -/
def State.holders (s : State) (p : Xlat → Bool) : List (Nat × Nat) :=
  s.units.flatMap (fun e => e.2.holders p e.1) ++
  s.saved.flatMap (fun t => t.2.flatMap (fun e => e.2.holders p e.1)) ++
  (s.colls.filter (fun c => c.xlat.any p)).map (fun c => (c.unit, c.serial))

/-- A write of TLBINV: the scope is stored; GO drops every matching entry and waits for the commands that hold one.  A write with
GO while BUSY is ignored (R391, R399). -/
def State.writeTlbinv (s : State) (v : Word) : State :=
  if bitOf v 63 ∧ bitOf (s.cget (trb + 0x20)) 0 then s
  else
    let s := s.cset (trb + 0x10) (v &&& 0x7000FFFFFFFFFFFF)
    if !(bitOf v 63) ∨ field v 61 2 = 3 then s
    else
      let p := invMatches v (s.cfield (trb + 0x18) 0 36 * 65536)
      { ((s.dropTlb p).csetField (trb + 0x20) 0 1 1) with invWait := s.holders p }

/-- TLBINV (R391, R399). -/
def execTlbinv (v : Word) (s : State) : Host.Outcome State Fault Refusal := .next (s.writeTlbinv v)

/-- A command is still on the module. -/
def State.commandAlive (s : State) (p : Nat × Nat) : Bool :=
  let has (x : Unit) : Bool := (x.q0 ++ x.q1 ++ x.sclds).any (fun c => c.serial == p.2)
  has (s.unit p.1) || s.saved.any (fun t => t.2.any (fun e => e.1 == p.1 && has e.2)) ||
    s.colls.any (fun c => c.unit == p.1 && c.serial == p.2)

/-- TLB_INVALIDATION_DONE (R399): BUSY clears when every command that used a matching entry has gone. -/
def execTlbInvalidationDone (s : State) : Host.Outcome State Fault Refusal :=
  if s.invWait.any s.commandAlive then .next s
  else .next { (s.csetField (trb + 0x20) 0 1 0).stir with invWait := [] }

end Sys2Proof.Machine
end

