-- ==== Sys2Proof/Machine/VectorInt.lean ====
section
/-!
DEFINITION. Vector integer arithmetic, shifts, comparison and selection, the generators and the space-filling keys
(R173 to R178, R192 to R195): one meaning for each instruction over the shared forms at the head of the file.
-/
namespace Sys2Proof.Machine

/-! ### Shared forms -/

/-- The destination of a vector result: a register, or an even-odd pair (R115, R167). -/
def vdest (c : Cluster) (pair : Bool) (o : VOps) : Dest :=
  if pair then .vpair c o.vd.toNat else .vreg c o.vd.toNat

/-- An element read as signed (R173). -/
def sgn (w a : Nat) : Int := (BitVec.ofNat w a).toInt

/-- An exact integer modulo 2^w (R173). -/
def wrap (w : Nat) (v : Int) : Nat := (v % 2 ^ w).toNat

/-- vd := f va (R173): width, then the element. -/
def vintA (s : State) (i : Instr) (c : Cluster) (o : VOps) (f : Nat → Nat → Nat) :
    Host.Outcome State Fault Refusal :=
  s.slotStep i (fun s =>
    let x := s.src
    let p := o.ty == 3
    let w := intWidth o.ty
    let a := x.vop c p o.va
    let g := x.gov c o
    s.deliverV c o.nw (vdest c p o) g.1 2 (mapElems g.1 w (fun l k => f w (a.el w l k))) (a.d || g.2) 0)

/-- vd := f va vb (R173): width, then the elements. -/
def vintAB (s : State) (i : Instr) (c : Cluster) (o : VOps) (f : Nat → Nat → Nat → Nat) :
    Host.Outcome State Fault Refusal :=
  s.slotStep i (fun s =>
    let x := s.src
    let p := o.ty == 3
    let w := intWidth o.ty
    let a := x.vop c p o.va
    let b := x.vop c p o.vb
    let g := x.gov c o
    s.deliverV c o.nw (vdest c p o) g.1 2 (mapElems g.1 w (fun l k => f w (a.el w l k) (b.el w l k)))
      (a.d || b.d || g.2) 0)

/-- vd := f va n for the shifts: n is the low bits of the element of vb when fn is 0, and fn otherwise (R174). -/
def vshift (s : State) (i : Instr) (c : Cluster) (o : VOps) (f : Nat → Nat → Nat → Nat) :
    Host.Outcome State Fault Refusal :=
  if o.fn = 0 then vintAB s i c o (fun w a b => f w a (b % w)) else vintA s i c o (fun w a => f w a o.fn.toNat)

/-- vd := f va vb n for the funnel shifts, n from vc as `vshift` reads vb (R175). -/
def vfunnel (s : State) (i : Instr) (c : Cluster) (o : VOps) (f : Nat → Nat → Nat → Nat → Nat) :
    Host.Outcome State Fault Refusal :=
  if o.fn = 0 then
    s.slotStep i (fun s =>
      let x := s.src
      let p := o.ty == 3
      let w := intWidth o.ty
      let a := x.vop c p o.va
      let b := x.vop c p o.vb
      let n := x.vop c p o.vc
      let g := x.gov c o
      s.deliverV c o.nw (vdest c p o) g.1 2
        (mapElems g.1 w (fun l k => f w (a.el w l k) (b.el w l k) (n.el w l k % w))) (a.d || b.d || n.d || g.2) 0)
  else vintAB s i c o (fun w a b => f w a b o.fn.toNat)

/-- The smaller or larger of two elements, signed when fn[43] is 1 (R173). -/
def pickElem (signed big : Bool) (w a b : Nat) : Nat :=
  let less : Bool := if signed then decide (sgn w a < sgn w b) else decide (a < b)
  if less != big then a else b

/-- Leading zero bits of an element (R173). -/
def clzElem (w a : Nat) : Nat := if a = 0 then w else w - 1 - a.log2

/-- Number of one bits among the low `n` bits (R173). -/
def popElem : Nat → Nat → Nat
  | 0, _ => 0
  | n + 1, a => a % 2 + popElem n (a / 2)

/-- A condition of `VCMP`: eq, ne, lt, lts, le, les (R145, R176). -/
def cmpElem (cond w a b : Nat) : Bool :=
  match cond with
  | 0 => a == b
  | 1 => a != b
  | 2 => decide (a < b)
  | 3 => decide (sgn w a < sgn w b)
  | 4 => decide (a ≤ b)
  | _ => decide (sgn w a ≤ sgn w b)

/-- A mask from a predicate on lanes. -/
def maskOf (f : Nat → Bool) : Mask :=
  BitVec.ofNat 64 (lanes.foldr (fun l acc => (if f l then 2 ^ l else 0) + acc) 0)

/-- The signed immediate of `VMOVI`, 23 bits (R178). -/
def imm23 (o : VOps) : Int := (o.fn ++ (o.vc ++ (o.vb ++ o.va)) : BitVec 23).toInt

/-! ### Arithmetic and logic -/

/-- VADD (R173): a + b. -/
def execVadd (c : Cluster) (o : VOps) (s : State) : Host.Outcome State Fault Refusal :=
  vintAB s (.vadd c o) c o (fun w a b => (a + b) % 2 ^ w)

/-- VSUB (R173): a − b. -/
def execVsub (c : Cluster) (o : VOps) (s : State) : Host.Outcome State Fault Refusal :=
  vintAB s (.vsub c o) c o (fun w a b => (2 ^ w + a - b) % 2 ^ w)

/-- VMUL (R173): a · b. -/
def execVmul (c : Cluster) (o : VOps) (s : State) : Host.Outcome State Fault Refusal :=
  vintAB s (.vmul c o) c o (fun w a b => a * b % 2 ^ w)

/-- VMULH (R173): the upper half of the product, signed with fn[43]. -/
def execVmulh (c : Cluster) (o : VOps) (s : State) : Host.Outcome State Fault Refusal :=
  vintAB s (.vmulh c o) c o (fun w a b =>
    if o.fn = 1 then wrap w (sgn w a * sgn w b / 2 ^ w) else a * b / 2 ^ w)

/-- VMAD (R173): a · b + c. -/
def execVmad (c : Cluster) (o : VOps) (s : State) : Host.Outcome State Fault Refusal :=
  s.slotStep (.vmad c o) (fun s =>
    let x := s.src
    let w := intWidth o.ty
    let a := x.vsrc c o.va
    let b := x.vsrc c o.vb
    let z := x.vsrc c o.vc
    let g := x.gov c o
    s.deliverV c o.nw (vdest c false o) g.1 2
      (mapElems g.1 w (fun l k => (a.el w l k * b.el w l k + z.el w l k) % 2 ^ w)) (a.d || b.d || z.d || g.2) 0)

/-- VAND (R173). -/
def execVand (c : Cluster) (o : VOps) (s : State) : Host.Outcome State Fault Refusal :=
  vintAB s (.vand c o) c o (fun _ a b => a &&& b)

/-- VOR (R173). -/
def execVor (c : Cluster) (o : VOps) (s : State) : Host.Outcome State Fault Refusal :=
  vintAB s (.vor c o) c o (fun _ a b => a ||| b)

/-- VXOR (R173). -/
def execVxor (c : Cluster) (o : VOps) (s : State) : Host.Outcome State Fault Refusal :=
  vintAB s (.vxor c o) c o (fun _ a b => a ^^^ b)

/-- VANDN (R173): a AND NOT b. -/
def execVandn (c : Cluster) (o : VOps) (s : State) : Host.Outcome State Fault Refusal :=
  vintAB s (.vandn c o) c o (fun w a b => a &&& (2 ^ w - 1 - b))

/-! ### Shifts -/

/-- VSHL (R174). -/
def execVshl (c : Cluster) (o : VOps) (s : State) : Host.Outcome State Fault Refusal :=
  vshift s (.vshl c o) c o (fun w a n => a * 2 ^ n % 2 ^ w)

/-- VSHR (R174): zero-filled. -/
def execVshr (c : Cluster) (o : VOps) (s : State) : Host.Outcome State Fault Refusal :=
  vshift s (.vshr c o) c o (fun _ a n => a / 2 ^ n)

/-- VSAR (R174): sign-filled. -/
def execVsar (c : Cluster) (o : VOps) (s : State) : Host.Outcome State Fault Refusal :=
  vshift s (.vsar c o) c o (fun w a n => wrap w (sgn w a / 2 ^ n))

/-- VROT (R174). -/
def execVrot (c : Cluster) (o : VOps) (s : State) : Host.Outcome State Fault Refusal :=
  vshift s (.vrot c o) c o (fun w a n => (a * 2 ^ n % 2 ^ w) ||| (a / 2 ^ (w - n)))

/-- VFSHL (R175): a shifted left, filled from the top of b. -/
def execVfshl (c : Cluster) (o : VOps) (s : State) : Host.Outcome State Fault Refusal :=
  vfunnel s (.vfshl c o) c o (fun w a b n => (a * 2 ^ w + b) * 2 ^ n / 2 ^ w % 2 ^ w)

/-- VFSHR (R175): a shifted right, filled from the bottom of b. -/
def execVfshr (c : Cluster) (o : VOps) (s : State) : Host.Outcome State Fault Refusal :=
  vfunnel s (.vfshr c o) c o (fun w a b n => (b * 2 ^ w + a) / 2 ^ n % 2 ^ w)

/-! ### Selection and counting -/

/-- VMIN (R173). -/
def execVmin (c : Cluster) (o : VOps) (s : State) : Host.Outcome State Fault Refusal :=
  vintAB s (.vmin c o) c o (pickElem (o.fn == 1) false)

/-- VMAX (R173). -/
def execVmax (c : Cluster) (o : VOps) (s : State) : Host.Outcome State Fault Refusal :=
  vintAB s (.vmax c o) c o (pickElem (o.fn == 1) true)

/-- VABS (R173): the most negative value maps to itself. -/
def execVabs (c : Cluster) (o : VOps) (s : State) : Host.Outcome State Fault Refusal :=
  vintA s (.vabs c o) c o (fun w a => (sgn w a).natAbs % 2 ^ w)

/-- VNEG (R173): 0 − a. -/
def execVneg (c : Cluster) (o : VOps) (s : State) : Host.Outcome State Fault Refusal :=
  vintA s (.vneg c o) c o (fun w a => (2 ^ w - a) % 2 ^ w)

/-- VCMP (R176): every bit of kD, a lane's bit when it is governed and the condition holds for each element. -/
def execVcmp (c : Cluster) (o : VOps) (s : State) : Host.Outcome State Fault Refusal :=
  s.slotStep (.vcmp c o) (fun s =>
    let x := s.src
    let p := o.ty == 3
    let w := intWidth o.ty
    let a := x.vop c p o.va
    let b := x.vop c p o.vb
    let g := x.gov c o
    let m := maskOf (fun l => bitOf g.1 l &&
      (List.range (perLane w)).all (fun k => cmpElem o.fn.toNat w (a.el w l k) (b.el w l k)))
    s.deliverK c o.nw o.vd.toNat (BitVec.allOnes 64) 2 m (a.d || b.d || g.2))

/-- VSEL (R177): every lane of vd, from va where the mask holds and from vb elsewhere. -/
def execVsel (c : Cluster) (o : VOps) (s : State) : Host.Outcome State Fault Refusal :=
  s.slotStep (.vsel c o) (fun s =>
    let x := s.src
    let p := o.ty == 3
    let a := x.vop c p o.va
    let b := x.vop c p o.vb
    let g := x.gov c o
    s.deliverV c o.nw (vdest c p o) (BitVec.allOnes 64) 2
      (lanes.map (fun l => if bitOf g.1 l then a.el 64 l 0 else b.el 64 l 0)) (a.d || b.d || g.2) 0)

/-- VCLZ (R173). -/
def execVclz (c : Cluster) (o : VOps) (s : State) : Host.Outcome State Fault Refusal :=
  vintA s (.vclz c o) c o clzElem

/-- VPOPC (R173). -/
def execVpopc (c : Cluster) (o : VOps) (s : State) : Host.Outcome State Fault Refusal :=
  vintA s (.vpopc c o) c o (fun w a => popElem w a)

/-- VMOVI (R178). -/
def execVmovi (c : Cluster) (o : VOps) (s : State) : Host.Outcome State Fault Refusal :=
  s.slotStep (.vmovi c o) (fun s =>
    let w := intWidth o.ty
    let g := s.src.gov c o
    s.deliverV c o.nw (vdest c (o.ty == 3) o) g.1 2 (mapElems g.1 w (fun _ _ => wrap w (imm23 o))) g.2 0)

/-! ### Generators -/

/-- The state that a reseed from a lane value gives the generator of lane `l` (R192). -/
def genSeed (l v : Nat) : Nat := v * 2 ^ 32 + (0x9E3779B9 ^^^ l)

/-- One step of a generator (R192). -/
def genStep (x : Nat) : Nat :=
  let x := x ^^^ (x * 2 ^ 13 % 2 ^ 64)
  let x := x ^^^ (x / 2 ^ 7)
  x ^^^ (x * 2 ^ 17 % 2 ^ 64)

/-- The random bits that a stepped state gives (R192). -/
def genOut (x : Nat) : Nat := x * 0x2545F4914F6CDD1D % 2 ^ 64 / 2 ^ 32

/-- The generators of a cluster, keyed by lane; a lane that is not listed holds the state of task start (R193). -/
def Regs.gen (g : Regs) (c : Cluster) (l : Nat) : Nat :=
  (tget (BitVec.ofNat 64 (genSeed l 0)) (match c with | .va => g.genA | .vb => g.genB) l).toNat

/-- The registers with the generators of the governed lanes replaced (R192). -/
def Regs.setGen (g : Regs) (c : Cluster) (gov : Mask) (f : Nat → Nat) : Regs :=
  let upd (t : Tbl Word) : Tbl Word :=
    lanes.foldl (fun t l => if bitOf gov l then tput t l (BitVec.ofNat 64 (f l)) else t) t
  match c with
  | .va => { g with genA := upd g.genA }
  | .vb => { g with genB := upd g.genB }

/-- Steps the governed generators from given states and delivers the random bits; the states advance at issue, with
NW = 1 too (R192). -/
def drawRandom (s : State) (c : Cluster) (o : VOps) (g : Mask × Bool) (seed : Nat → Nat) (d : Bool) : State :=
  let s := s.deliverV c o.nw (vdest c false o) g.1 2
    (lanes.map (fun l => if bitOf g.1 l then genOut (genStep (seed l)) else 0)) d 0
  s.modCur (fun x => { x with regs := x.regs.setGen c g.1 (fun l => genStep (seed l)) })

/-- VRND (R192). -/
def execVrnd (c : Cluster) (o : VOps) (s : State) : Host.Outcome State Fault Refusal :=
  s.slotStep (.vrnd c o) (fun s =>
    let x := s.src
    let g := x.gov c o
    drawRandom s c o g (x.regs.gen c) g.2)

/-- VRND with a reseed from va (R192). -/
def execVrndSeed (c : Cluster) (o : VOps) (s : State) : Host.Outcome State Fault Refusal :=
  s.slotStep (.vrndSeed c o) (fun s =>
    let x := s.src
    let g := x.gov c o
    let a := x.vsrc c o.va
    drawRandom s c o g (fun l => genSeed l (laneAt a.lo l)) (a.d || g.2))

/-! ### Space-filling keys -/

/-- The three coordinates' bits interleaved, x highest (R194). -/
def interleave (x y z : Nat) : Nat :=
  (List.range 21).foldl (fun acc i =>
    acc + (x / 2 ^ i % 2 * 4 + y / 2 ^ i % 2 * 2 + z / 2 ^ i % 2) * 8 ^ i) 0

/-- One inner pass of the first loop of R195 for one coordinate: X0 and Xi after it. -/
def hilPass (q x0 xi : Nat) : Nat × Nat :=
  if xi &&& q ≠ 0 then (x0 ^^^ (q - 1), xi)
  else
    let t := (x0 ^^^ xi) &&& (q - 1)
    (x0 ^^^ t, xi ^^^ t)

/-- The first loop of R195, from Q = 2^n down to 2. -/
def hilUndo : Nat → Nat × Nat × Nat → Nat × Nat × Nat
  | 0, x => x
  | n + 1, (x0, x1, x2) =>
    let q := 2 ^ (n + 1)
    let x0 := if x0 &&& q ≠ 0 then x0 ^^^ (q - 1) else x0
    let (x0, x1) := hilPass q x0 x1
    let (x0, x2) := hilPass q x0 x2
    hilUndo n (x0, x1, x2)

/-- The Hilbert key (R195). -/
def hilbert (x y z : Nat) : Nat :=
  let (x0, x1, x2) := hilUndo 20 (x, y, z)
  let x1 := x1 ^^^ x0
  let x2 := x2 ^^^ x1
  let t := (List.range 20).foldl (fun t n => if x2 &&& 2 ^ (n + 1) ≠ 0 then t ^^^ (2 ^ (n + 1) - 1) else t) 0
  interleave (x0 ^^^ t) (x1 ^^^ t) (x2 ^^^ t)

/-- A key of the three coordinates of each governed lane, into a pair (R194). -/
def sfcKey (s : State) (i : Instr) (c : Cluster) (o : VOps) (f : Nat → Nat → Nat → Nat) :
    Host.Outcome State Fault Refusal :=
  s.slotStep i (fun s =>
    let x := s.src
    let a := x.vsrc c o.va
    let b := x.vsrc c o.vb
    let z := x.vsrc c o.vc
    let g := x.gov c o
    let co (v : VSrc) (l : Nat) : Nat := laneAt v.lo l % 2 ^ 21
    s.deliverV c o.nw (vdest c true o) g.1 3
      (lanes.map (fun l => if bitOf g.1 l then f (co a l) (co b l) (co z l) else 0)) (a.d || b.d || z.d || g.2) 0)

/-- VSFCK, Morton key (R194). -/
def execVsfckMor (c : Cluster) (o : VOps) (s : State) : Host.Outcome State Fault Refusal :=
  sfcKey s (.vsfckMor c o) c o interleave

/-- VSFCK, Hilbert key (R195). -/
def execVsfckHil (c : Cluster) (o : VOps) (s : State) : Host.Outcome State Fault Refusal :=
  sfcKey s (.vsfckHil c o) c o hilbert

end Sys2Proof.Machine
end

