-- ==== Sys2Proof/Machine/SchedOps.lean ====
section
/-!
DEFINITION. What the scheduler reads: launch records and their checks (R375, R377), job cards (R17 to R20), the edges of
footprints (R15, R378), HOST ranges of the region tables (R379), the initialiser block (R24), and the order in which ready
teams start (R29, R382 to R384).
-/
namespace Sys2Proof.Machine

/-- Bit `i` of byte `o` of a record. -/
def recBit (r : List Byte) (o i : Nat) : Bool := bitOf (r.getD o 0) i

/-! ### Cards -/

/-- One footprint entry of a card (R18). -/
structure Foot where
  seg : Bool
  mode : Nat
  base : Nat
  units : Nat
deriving DecidableEq, Repr

/-- Team size of a card (R17). -/
def cardTeam (c : List Byte) : Nat := recNat c 2 1
/-- PRIO of a card (R17). -/
def cardPrio (c : List Byte) : Nat := recNat c 1 1 / 2 % 4
/-- CODELEN of a card (R17). -/
def cardCodeLen (c : List Byte) : Nat := recNat c 0x0C 4
/-- CODE of a card (R17). -/
def cardCode (c : List Byte) : Nat := recNat c 0x10 8
/-- INIT of a card; a version 0x01 card reads as 0 (R20). -/
def cardInit (c : List Byte) : Bool := recNat c 0 1 != 1 && recBit c 1 7
/-- SHADELIM of a card; 3 for a version 0x01 card (R20). -/
def cardShade (c : List Byte) : Nat := if recNat c 0 1 = 1 then 3 else recNat c 1 1 / 32 % 4
/-- PHASE of a card; 1 for a version 0x01 card (R20). -/
def cardPhase (c : List Byte) : Bool := recNat c 0 1 == 1 || recBit c 1 0
/-- NFOOT of a card (R17). -/
def cardNfoot (c : List Byte) : Nat := recNat c 0x1A 1
/-- Footprint entry `i` has its STAGEIN bit set (R17). -/
def cardStage (c : List Byte) (i : Nat) : Bool := (recNat c 0x18 2).testBit i

/-- Footprint entry `i` of a card (R18). -/
def cardFoot (c : List Byte) (i : Nat) : Foot :=
  let o := 0x40 + 16 * i
  { seg := recBit c (o + 12) 3, mode := recNat c (o + 12) 1 % 8, base := recNat c o 8, units := recNat c (o + 8) 4 }

/-- The footprints of a card. -/
def cardFeet (c : List Byte) : List Foot := (List.range (cardNfoot c)).map (cardFoot c)

/-- The first failing check of a card, as its reason (R19, R20). -/
def cardReason (mask : Nat) (c : List Byte) : Option Nat :=
  let v := recNat c 0 1
  let zero (o n : Nat) : Bool := recNat c o n == 0
  let entry (i : Nat) : Bool :=
    let f := cardFoot c i
    decide (1 ≤ f.mode) && decide (f.mode ≤ 5) && decide (1 ≤ f.units) && f.base % 64 == 0 &&
      recNat c (0x40 + 16 * i + 12) 4 / 16 == 0
  let n := cardNfoot c
  let len := cardCodeLen c
  firstSome (fun (p : Nat × Bool) => if p.2 then none else some p.1)
    [(1, v == 1 || v == 2),
     (2, zero 0x1B 5 && recNat c 0x18 2 / 4096 == 0 && (v != 1 || recNat c 1 1 &&& 0xE1 == 0)),
     (3, decide (1 ≤ cardTeam c) && decide (cardTeam c ≤ 16) && mask != 0),
     (4, recNat c 1 1 / 8 % 4 != 3),
     (5, len != 0 && len % 32 == 0 && decide (len ≤ 131072)),
     (6, recNat c 4 4 % 32 == 0 && decide (recNat c 4 4 < len) && recNat c 8 4 % 32 == 0 && decide (recNat c 8 4 < len)),
     (7, cardCode c % 32 == 0),
     (8, decide (n ≤ 12) && recNat c 0x18 2 / 2 ^ n == 0 && (List.range n).all (fun i =>
        !(cardStage c i) || [1, 3, 5].contains (cardFoot c i).mode)),
     (9, (List.range 12).all (fun i => if i < n then entry i else zero (0x40 + 16 * i) 16)),
     (10, (List.range 3).all (fun i => recNat c (0x28 + 8 * i) 8 % 128 == 0))]

/-- Two footprint modes form an edge (R15). -/
def modesEdge (a b : Nat) : Bool :=
  let reads (m : Nat) : Bool := m == 1 || m == 5
  !((reads a && reads b) || (a == 4 && b == 4))

/-- Two footprints of one space meet and form an edge (R15). -/
def Foot.edge (a b : Foot) : Bool :=
  a.seg == b.seg && decide (a.base < b.base + 64 * b.units) && decide (b.base < a.base + 64 * a.units) &&
    modesEdge a.mode b.mode

/-! ### HOST ranges -/

/-- Ranges, both given as first address and first address beyond, with one range taken out. -/
def takeOut (lo hi : Nat) (rs : List (Nat × Nat)) : List (Nat × Nat) :=
  rs.flatMap (fun r => ([(r.1, min r.2 lo), (max r.1 hi, r.2)].filter (fun q => decide (q.1 < q.2))))

/-- Every byte of a range is HOST in a region table (R377). -/
def hostCovered (t : List Region) (aspace lo hi : Nat) : Bool :=
  (t.foldl (fun rs r => if r.st = .host ∧ r.aspace = aspace ∧ !r.seg then takeOut r.base (r.base + 64 * r.units) rs
    else rs) [(lo, hi)]).isEmpty

/-- A region table with the HOST units of a range unlisted (R379). -/
def unhost (t : List Region) (aspace lo hi : Nat) : List Region :=
  t.flatMap (fun r =>
    if r.st = .host ∧ r.aspace = aspace ∧ !r.seg then
      (takeOut lo hi [(r.base, r.base + 64 * r.units)]).map (fun q =>
        { r with base := q.1, units := (q.2 - q.1) / 64 })
    else [r])

/-- The clusters that a mask permits (R371). -/
def maskClusters (mask : Nat) : List Nat := (List.range 32).filter (fun k => mask.testBit k)

/-- GRANTs turn HOST units into unlisted ones in the tables of the permitted clusters (R379). -/
def State.applyGrants (s : State) (mask aspace : Nat) (gs : List Grant) : State :=
  (maskClusters mask).foldl (fun (s : State) k =>
    let c := s.cluster k
    s.setCluster k { c with regions := (gs.filter (fun g => !g.take)).foldl (fun t g =>
      unhost t aspace g.base (g.base + 64 * g.len)) c.regions }) s

/-- TAKEs turn units into HOST again; the entries come first in the tables, before any other of the units (R379). -/
def State.applyTakes (s : State) (mask aspace : Nat) (gs : List Grant) : State :=
  let new : List Region := (gs.filter (fun g => g.take)).map (fun g =>
    { seg := false, aspace := aspace, base := g.base, units := g.len, st := .host, node := none })
  if new.isEmpty then s
  else (maskClusters mask).foldl (fun (s : State) k =>
    let c := s.cluster k
    s.setCluster k { c with regions := new ++ c.regions }) s

/-- Every table of the permitted clusters has free entries for the TAKEs of a record (R379). -/
def State.takesFit (s : State) (mask : Nat) (gs : List Grant) : Bool :=
  let n := (gs.filter (fun g => g.take)).length
  n == 0 || (maskClusters mask).all (fun k => decide (n ≤ s.freeEntries k))

/-! ### Launch records -/

/-- FLAGS of a launch record (R375). -/
def lrBegin (r : List Byte) : Bool := recBit r 1 7
def lrEnd (r : List Byte) : Bool := recBit r 1 6
def lrTest (r : List Byte) : Bool := recBit r 1 5
def lrConc (r : List Byte) : Bool := recBit r 1 4
def lrKind (r : List Byte) : Nat := recNat r 1 1 % 16
/-- NEDGE and the explicit edges of a launch record (R375). -/
def lrNedge (r : List Byte) : Nat := recNat r 2 1
def lrEdges (r : List Byte) : List Nat := (List.range (min 8 (lrNedge r))).map (fun i => recNat r (0x20 + 2 * i) 2)
/-- PIN, with the cluster and FIRST, of a launch record (R375). -/
def lrPin (r : List Byte) : Option (Nat × Nat) :=
  let p := recNat r 0x18 2
  if p.testBit 15 then some (p / 1024 % 32, p % 16) else none
/-- ACT of entry `i` of a launch record (R375). -/
def lrAct (r : List Byte) (i : Nat) : Nat := recNat r (0x4C + 16 * i) 1 % 4

/-- The GRANT and TAKE entries of a launch record (R375). -/
def lrGrants (r : List Byte) : List Grant :=
  (List.range 4).filterMap (fun i =>
    if lrAct r i = 1 ∨ lrAct r i = 2 then
      some { base := recNat r (0x40 + 16 * i) 8, len := recNat r (0x48 + 16 * i) 4, take := lrAct r i == 2 }
    else none)

/-- The first reason of R377 to refuse a record; `g` is the queue's open graph, `idx` the node's index and `card` the card
where it can be read. -/
def State.recordReason (s : State) (aspace mask : Nat) (g : Option Graph) (idx : Nat) (r : List Byte)
    (card : Option (List Byte)) : Option Nat :=
  let zero (o n : Nat) : Bool := recNat r o n == 0
  let v := recNat r 0 1
  let node := lrKind r == 0
  let marker := lrKind r == 1
  let four := List.range 4
  let entry (i : Nat) : Bool :=
    let base := recNat r (0x40 + 16 * i) 8
    let len := recNat r (0x48 + 16 * i) 4
    match lrAct r i with
    | 0 => base == 0 && len == 0
    | 1 => len != 0 && (maskClusters mask).all (fun k =>
        hostCovered (s.cluster k).regions aspace base (base + 64 * len))
    | 2 => len != 0
    | _ => false
  firstSome (fun (p : Nat × Bool) => if p.2 then none else some p.1)
    [(1, v == 1 || v == 2),
     (2, (node || marker) && zero 3 5 && recNat r 0x18 2 / 16 % 64 == 0 && zero 0x1A 6 && zero 0x30 16 &&
        (List.range 8).all (fun i => decide (i < lrNedge r) || zero (0x20 + 2 * i) 2) &&
        four.all (fun i => recNat r (0x4C + 16 * i) 4 / 4 == 0) && (v != 1 || zero 0x40 64) &&
        (node || zero 8 8) && (match g with | some g => lrTest r == g.test | none => true)),
     (3, lrBegin r != g.isSome),
     (4, decide (lrNedge r ≤ if marker then 0 else 8) && (lrEdges r).all (fun e => decide (e < idx))),
     (5, recNat r 8 8 % 64 == 0 && recNat r 0x10 8 % 16 == 0 && four.all (fun i => recNat r (0x40 + 16 * i) 8 % 64 == 0) &&
        (!node || !(zero 8 8))),
     (6, match lrPin r with
        | none => true
        | some (k, f) => mask.testBit k && (match card with | some c => decide (f + cardTeam c ≤ 16) | none => true)),
     (7, four.all entry),
     (8, !node || card.isSome)]

/-! ### Graphs -/

/-- A record. -/
def State.node (s : State) (n : Nat) : Node := tget default s.sched.nodes n

/-- The module with a record replaced. -/
def State.setNode (s : State) (n : Nat) (x : Node) : State :=
  { s with sched := { s.sched with nodes := tput s.sched.nodes n x } }

/-- The module with `f` applied to a record. -/
def State.modNode (s : State) (n : Nat) (f : Node → Node) : State := s.setNode n (f (s.node n))

/-- A record is listed. -/
def State.hasNode (s : State) (n : Nat) : Bool := s.sched.nodes.any (fun p => p.1 == n)

/-- The records of a graph. -/
def State.graphNodes (s : State) (g : Nat) : List (Nat × Node) := s.sched.nodes.filter (fun p => p.2.graph == g && g != 0)

/-- A graph has completed (R376). -/
def State.graphDone (s : State) (g : Nat) : Bool :=
  (tget default s.sched.graphs g).closed && (s.graphNodes g).all (fun p => p.2.phase == .done)

/-- R376 permits the nodes of a graph. -/
def State.graphPermitted (s : State) (g : Nat) : Bool :=
  let x := tget default s.sched.graphs g
  x.conc || (match x.prev with | none => true | some p => s.graphDone p)

/-- The record of the node with an index in a graph. -/
def State.nodeAt (s : State) (g idx : Nat) : Option Nat :=
  ((s.graphNodes g).find? (fun p => !p.2.marker && p.2.index == idx)).map (·.1)

/-- One record's passage from waiting: cancelled by an edge from a node that has not ended DONE, or ready (R381, R382). -/
def State.refreshNode (s : State) (n : Nat) : State :=
  let x := s.node n
  if x.phase ≠ .waiting ∨ x.marker then s
  else if x.edges.any (fun e => ((s.node e).phase == .ended || (s.node e).phase == .done) && (s.node e).status != 0) then
    s.setNode n { x with phase := .ended, status := 6, detail := 0 }
  else if s.graphPermitted x.graph && x.edges.all (fun e => (s.node e).phase == .done) then
    s.setNode n { x with phase := .ready, waitFrom := s.now }
  else s

/-- Every waiting record looked at, in record order. -/
def State.refreshNodes (s : State) : State := (s.sched.nodes.map (·.1)).foldl State.refreshNode s

/-! ### Priority and placement -/

/-- QUANT of a level, in the model's units of time (R387). -/
def State.quantum (s : State) (level : Nat) : Nat := us (s.cfield (scb + 8) (16 * min level 3) 16)

/-- The effective priority of a node (R29, R382): a promoted team keeps its higher level until it has received a quantum. -/
def State.levelOf (s : State) (x : Node) : Nat :=
  let own := max (cardPrio x.card) (s.qFloor x.queue)
  let level := own - x.promoted
  if x.phase = .resident ∧ x.quantumFrom + s.quantum level ≤ s.now then own else level

/-- A resident team has received its quantum (R385).  That a promoted team's quantum is the one of the level it was raised to,
at which it runs, and not the one of its own PRIO (R28), is the model's choice (DESIGN CHOICE, log entry 104). -/
def State.quantumUsed (s : State) (x : Node) : Bool :=
  decide (x.quantumFrom + s.quantum (max (cardPrio x.card) (s.qFloor x.queue) - x.promoted) ≤ s.now)

/-- A cluster may take teams: its die is neither shed nor fenced, and the module is at Noon in PL0 (R419, R427, R466). -/
def State.clusterOpen (s : State) (k : Nat) : Bool :=
  s.noon && s.awake && !(s.isShed (k / 8)) && s.diePhase (k / 8) == 0 && !(bitOf (s.cget (drbAddr (k / 8))) 0) && s.coreOn k &&
    s.dusk.shedding != some (k / 8)

/-- The units of a placement. -/
def placeUnits (k f n : Nat) : List Nat := (List.range n).map (fun i => 16 * k + f + i)

/-- A team may be placed on tiles, busy ones included: the queue's clusters, the PIN, the shade level and, for a first
start, the region table permit it (R21, R87, R384). -/
def State.mayPlace (s : State) (x : Node) (k f : Nat) : Bool :=
  decide (k < 32) && decide (f + cardTeam x.card ≤ 16) && s.clusterOpen k &&
    decide (s.shadeOf k ≤ cardShade x.card) &&
    (if x.phase = .swapped then x.cluster == k && x.first == f
     else x.mask.testBit k && (match x.pin with | none => true | some p => p == (k, f)) &&
       decide (cardNfoot x.card ≤ s.freeEntries k))

/-- A tile that no team holds and that may take one. -/
def State.tileFree (s : State) (u : Nat) : Bool := (s.unit u).team.isNone && (s.unit u).run == .idle && s.tileOn u

/-- The tiles of a placement are free. -/
def State.tilesFree (s : State) (k f n : Nat) : Bool := (placeUnits k f n).all s.tileFree

/-- Every place of the module. -/
def allPlaces : List (Nat × Nat) := (List.range 512).map (fun i => (i / 16, i % 16))

/-- The places that a node could take were they free. -/
def State.places (s : State) (x : Node) : List (Nat × Nat) := allPlaces.filter (fun p => s.mayPlace x p.1 p.2)

/-- A node waits for tiles: ready, or swapped out (R28, R29). -/
def Node.waits (x : Node) : Bool := x.phase == .ready || x.phase == .swapped

/-- The units of a node's team where it runs (R384). -/
def Node.units (x : Node) : List Nat := placeUnits x.cluster x.first (cardTeam x.card)

/-- The round of a level. -/
def State.roundOf (s : State) (level : Nat) : Round := tget {} s.sched.rounds level

/-! ### Places for swapped teams -/

/-- The shadow storage of a team's tiles holds no context (R385). -/
def State.shadowFree (s : State) (x : Node) : Bool :=
  !(s.sched.nodes.any (fun p => p.2.place == some SwapPlace.shadow && (p.2.phase == .swapped || p.2.leaving) &&
    p.2.units.any (fun u => x.units.contains u)))

/-- Slots of the swap area in use, one for each member (R28, R387). -/
def State.slotsUsed (s : State) : Nat :=
  s.sched.nodes.foldl (fun n p =>
    if p.2.place = some SwapPlace.area ∧ (p.2.phase = .swapped ∨ p.2.leaving) then n + cardTeam p.2.card else n) 0

/-- Bytes of a slot of the swap area, 2.25 MiB (R387). -/
def swapSlotBytes : Nat := 2359296

/-- The virtual address in ASPACE 0 of a slot of the swap area (R387, R392). -/
def State.slotAddr (s : State) (i : Nat) : Nat := s.cfield (scb + 0x18) 0 52 + swapSlotBytes * i

/-- A slot holds the context of a team that is swapped out to the area. -/
def State.slotTaken (s : State) (i : Nat) : Bool :=
  s.sched.nodes.any (fun p => p.2.place == some SwapPlace.area && (p.2.phase == .swapped || p.2.leaving) && p.2.slots.contains i)

/-- The lowest free slots for a team, where there are enough that ASPACE 0 translates (R385, R392, log entry 79). -/
def State.freeSlots (s : State) (n : Nat) : Option (List Nat) :=
  let is := ((List.range (s.cfield (scb + 0x20) 0 13)).filter (fun i =>
    !(s.slotTaken i) && (s.rangeXlat false 0 (s.slotAddr i) swapSlotBytes true).isSome)).take n
  if is.length = n then some is else none

/-- A free place for a team that is swapped out, with its slots in the swap area (R385). -/
def State.swapPlace (s : State) (x : Node) : Option (SwapPlace × List Nat) :=
  if s.shadowFree x then some (.shadow, []) else (s.freeSlots (cardTeam x.card)).map (fun is => (.area, is))

/-! ### Tiles that a waiting team is about to take -/

/-- A resident team is behind a waiting one: the waiting one's level is higher, or equal with the quantum used (R385). -/
def State.outranked (s : State) (v w : Node) : Bool :=
  decide (s.levelOf w < s.levelOf v) ||
    (s.levelOf w == s.levelOf v && decide (v.quantumFrom + s.quantum (s.levelOf v) ≤ s.now))

/-- A tile is free for a waiting team, or its team leaves it or can be swapped out for that one. -/
def State.clears (s : State) (w : Node) (u : Nat) : Bool :=
  match (s.unit u).team with
  | none => s.tileFree u
  | some t => let v := s.node t
    v.leaving || (s.outranked v w && (s.swapPlace v).isSome)

/-- A waiting team that finds no free tiles is about to take some of a list, at a place that clears for it. -/
def State.claims (s : State) (w : Node) (us : List Nat) : Bool :=
  let n := cardTeam w.card
  let ps := s.places w
  !(ps.any (fun p => s.tilesFree p.1 p.2 n)) &&
    ps.any (fun p => let ts := placeUnits p.1 p.2 n
      us.any ts.contains && ts.all (s.clears w))

/-- A node must leave tiles to a waiting team that claims them: one of a higher level, or one of its level that has not had
its quantum in the rotation while the node has (R29). -/
def State.heldFor (s : State) (n : Nat) (x : Node) (k f : Nat) : Bool :=
  let level := s.levelOf x
  let had := (s.roundOf level).had
  s.sched.nodes.any (fun p => p.2.waits &&
    (decide (s.levelOf p.2 < level) || (s.levelOf p.2 == level && had.contains n && !(had.contains p.1))) &&
    s.claims p.2 (placeUnits k f (cardTeam x.card)))

/-- A team may start or resume on tiles now. -/
def State.fits (s : State) (n k f : Nat) : Bool :=
  let x := s.node n
  s.mayPlace x k f && s.tilesFree k f (cardTeam x.card) && !(s.heldFor n x k f)

/-- The waiting nodes that find tiles they may take now. -/
def State.starters (s : State) : List (Nat × Node) :=
  s.sched.nodes.filter (fun p => p.2.waits && (s.places p.2).any (fun q =>
    s.tilesFree q.1 q.2 (cardTeam p.2.card) && !(s.heldFor p.1 p.2 q.1 q.2)))

/-! ### Rounds and rotations -/

/-- A queue may start a team in a round: it has not had its WEIGHT, and did not run out of teams after it had started some
(R383). -/
def State.inRound (s : State) (r : Round) (q : Nat) : Bool :=
  decide (tget 0 r.starts q < s.qWeight q) && !(r.out.contains q)

/-- The round in a rotation that goes on: where every team of a list has had its turn, they begin a new one (R29). -/
def Round.rotate (r : Round) (ns : List (Nat × Node)) : Round :=
  if ns.all (fun p => r.had.contains p.1) then { r with had := r.had.filter (fun m => !(ns.any (fun p => p.1 == m))) } else r

/-- The teams of a level that are able to start in the rotation that a round belongs to, which begins anew where every one of
them has had its turn (R29). -/
def State.ableIn (s : State) (level : Nat) (r : Round) : List (Nat × Node) :=
  let able := s.starters.filter (fun p => s.levelOf p.2 == level)
  able.filter (fun p => !((r.rotate able).had.contains p.1))

/-- The round of a level as it stands: a queue that has started some teams and has none left that is able to start is out of
it, and where every queue with such a team has started WEIGHT teams or is out the round ends and the next begins at the queue
after the last one served (R383). -/
def State.reviewRound (s : State) (level : Nat) (r : Round) : Round :=
  let ns := s.ableIn level r
  let gone := (r.starts.filter (fun p => p.2 != 0 && !(ns.any (fun q => q.2.queue == p.1)) && !(r.out.contains p.1))).map (·.1)
  let r := { r with out := r.out ++ gone }
  if ns.any (fun p => s.inRound r p.2.queue) then r else { r with first := r.next, starts := [], out := [] }

/-- The rounds of every level as they stand (R383). -/
def State.reviewRounds (s : State) : State :=
  if s.sched.rounds.isEmpty then s
  else { s with sched := { s.sched with rounds := s.sched.rounds.map (fun p => (p.1, s.reviewRound p.1 p.2)) } }

/-- Order of two nodes of one level in a round: queues from the round's first one on, then record order (R383). -/
def Round.before (r : Round) (a b : Nat × Node) : Bool :=
  let key (p : Nat × Node) : Nat := (p.2.queue + queueCount - r.first) % queueCount
  decide (key a < key b) || (key a == key b && decide (a.1 < b.1))

/-- The first of a list of nodes in a round. -/
def Round.pick (r : Round) : List (Nat × Node) → Option (Nat × Node)
  | [] => none
  | p :: ps =>
    match r.pick ps with
    | none => some p
    | some q => if r.before p q then some p else some q

/-- The node that the scheduler starts or resumes next, with the round in which it does (R29, R383). -/
def State.nextTeam (s : State) : Option (Nat × Nat × Round) :=
  let all := s.starters
  match all with
  | [] => none
  | p :: ps =>
    let level := ps.foldl (fun m q => min m (s.levelOf q.2)) (s.levelOf p.2)
    let r := s.reviewRound level (s.roundOf level)
    let free := (s.ableIn level r).filter (fun q => s.inRound r q.2.queue)
    let r := r.rotate (all.filter (fun q => s.levelOf q.2 == level))
    (r.pick free).map (fun q => (q.1, level, r))

/-- The start of team `n` counted in its round and its rotation, and the rounds looked at again (R29, R383). -/
def State.served (s : State) (n level queue : Nat) (r : Round) : State :=
  let r := { r with
    next := (queue + 1) % queueCount
    had := r.had.filter (fun m => (s.node m).waits || (s.node m).phase == .resident) ++ [n]
    starts := tmod 0 r.starts queue (· + 1) }
  { s with sched := { s.sched with rounds := tput s.sched.rounds level r } }.reviewRounds

/-- Team `n` leaves its tiles: with its quantum used it has had its turn in the rotation of its own level, without it has had
none in any (R29). -/
def State.turned (s : State) (n : Nat) (used : Bool) : State :=
  let x := s.node n
  let own := max (cardPrio x.card) (s.qFloor x.queue)
  let rs := if used then tmod {} s.sched.rounds own (fun r => { r with had := r.had.filter (· != n) ++ [n] })
    else s.sched.rounds.map (fun p => (p.1, { p.2 with had := p.2.had.filter (· != n) }))
  { s with sched := { s.sched with rounds := rs } }

/-! ### Initialiser block -/

/-- The records of an initialiser block after its header; `none` where R24 refuses them. R24 names zero fields only; the
bytes that pad a record's data are passed over whatever they hold (DESIGN CHOICE, log entry 81). -/
def initRecords : Nat → List Byte → Option (List (Buf × Nat × List Byte))
  | 0, bs => if bs.isEmpty then some [] else none
  | n + 1, bs =>
    let w := recNat bs 0 4
    let len := recNat bs 4 4
    let buf := bufOf (w / 2 ^ 20 % 4)
    let off := w % 2 ^ 20
    if bs.length < 16 ∨ w / 2 ^ 22 ≠ 0 ∨ recNat bs 8 8 ≠ 0 ∨ len = 0 ∨ bufSize 0 buf < off + len then none
    else
      let pad := (len + 15) / 16 * 16
      if bs.length < 16 + pad then none
      else (initRecords n (bs.drop (16 + pad))).map (fun rs => (buf, off, (bs.drop 16).take len) :: rs)

/-- The initialiser block of a card (R24).  That the sum of CODE and CODELEN is what is rounded up to a multiple of 64, that
NREC outside 1 to 4,096, a TOTLEN out of its limits, or LEN 0 refuses it as its other faults do is the model's choice (DESIGN
CHOICE, log entry 91). -/
def State.initBlock (s : State) (aspace : Nat) (c : List Byte) : Option (List (Buf × Nat × List Byte)) :=
  let a := (cardCode c + cardCodeLen c + 63) / 64 * 64
  match s.vread false aspace a 64 with
  | none => none
  | some h =>
    let n := recNat h 0 4
    let total := recNat h 4 4
    if n = 0 ∨ 4096 < n ∨ total % 16 ≠ 0 ∨ 4194304 < total ∨ total < 64 ∨ recNat h 8 56 ≠ 0 then none
    else (s.vread false aspace (a + 64) (total - 64)).bind (initRecords n)

end Sys2Proof.Machine
end

