-- ==== Sys2Proof/Machine/Preempt.lean ====
section
/-!
DEFINITION. Pre-emption and swapping of whole teams (R13, R21, R30, R253, R268, R296 to R299, R385).
-/
namespace Sys2Proof.Machine

/-! ### Freezing one unit -/

/-- Fetch and engines of a unit freeze; a member that has ended stays as it is (R26, R296). -/
def Unit.freeze (x : Unit) : Unit :=
  if x.run = .running ∨ x.run = .ending ∨ x.run = .faulting then { x with run := .frozen, was := x.run } else x

/-- A copy that has stopped has written everything before its boundary; which of its pieces have landed is its progress (R253). -/
def State.settleCopy (s : State) (u : Nat) (e : Engine) (c : CCmd) : State :=
  if c.stop.isNone then s else s.landSoFar u e c

/-- Every copy of a unit that has stopped records its progress (R253). -/
def State.settleCopies (s : State) (u : Nat) : State :=
  let x := s.unit u
  let s := x.q0.foldl (fun (s : State) c => s.settleCopy u .c0 c) s
  x.q1.foldl (fun (s : State) c => s.settleCopy u .c1 c) s

/-- A frozen unit goes on where it stopped (R298). -/
def Unit.thaw (now : Nat) (x : Unit) : Unit :=
  if x.run ≠ .frozen then x
  else
    ({ x with
      run := x.was
      was := .idle
      q0 := x.q0.map (CCmd.revive now)
      q1 := x.q1.map (CCmd.revive now) } : Unit).settle

/-- A frozen unit goes on, and the requests of its copies take their slots (R253, R298). -/
def State.thawUnit (s : State) (u : Nat) : State :=
  let s := s.modUnit u (Unit.thaw s.now)
  if (s.unit u).engines then (s.placeEngine u .c0).placeEngine u .c1 else s

/-- The engines of a unit have stopped: no matrix command is under way, and every copy stands at its boundary (R253, R296). -/
def Unit.enginesStill (now : Nat) (x : Unit) : Bool := x.matrixStill && (x.q0 ++ x.q1).all (CCmd.stopped now)

/-! ### The tile beneath a context -/

/-- What stays with the tile when its task leaves: counters, trims and TLBs (R314, R315, R399, R414), and the numbers of
its commands. -/
def Unit.tilePart (x : Unit) : Unit :=
  { serial := x.serial, colerr := x.colerr, gsum1 := x.gsum1, gsum2 := x.gsum2, fidinj := x.fidinj,
    injCount := x.injCount, calcnt := x.calcnt, tlb0 := x.tlb0, tlb1 := x.tlb1, lastSlot0 := x.lastSlot0,
    lastSlot1 := x.lastSlot1, nextIssue := x.nextIssue, vgen := x.vgen }

/-- A saved context on its tile again (R298). -/
def Unit.onTile (tile x : Unit) : Unit :=
  { x with
    serial := max tile.serial x.serial, colerr := tile.colerr, gsum1 := tile.gsum1, gsum2 := tile.gsum2
    fidinj := tile.fidinj, injCount := tile.injCount, calcnt := tile.calcnt, tlb0 := tile.tlb0, tlb1 := tile.tlb1
    lastSlot0 := tile.lastSlot0, lastSlot1 := tile.lastSlot1, nextIssue := tile.nextIssue, vgen := tile.vgen }

/-! ### Teams -/

/-- The collectives of a team take up their ranges again (R268). -/
def State.settleTeam (s : State) (n : Nat) : State :=
  (s.colls.filter (fun c => c.node == some n && c.ended.isNone)).foldl (fun (s : State) c =>
    match s.collOf c.unit c.serial with
    | none => s
    | some d => s.settleColl d) s

/-- Every member of a team freezes; its copies go on to where they stop once its matrix commands have completed (R253, R296). -/
def State.freezeTeam (s : State) (n : Nat) : State :=
  (s.node n).units.foldl (fun (s : State) u => s.modUnit u (fun x => x.freeze.stopCopies s.now)) s

/-- Every member of a frozen team goes on (R298). -/
def State.thawTeam (s : State) (n : Nat) : State :=
  ((s.node n).units.foldl State.thawUnit s).settleTeam n

/-- A DUSK or TWILIGHT_SHED is being handled or is held by a member: PREEMPT waits (R287). -/
def State.teamDusk (s : State) (x : Node) : Bool :=
  x.units.any (fun u =>
    let y := s.unit u
    y.duskTaken || y.pend.any (fun p => p.cause == .dusk || p.cause == .twilightShed) || y.run == .halted)

/-- The contexts of a team written to its slots of the swap area, in an encoding that the spec does not give (R392, log
entry 79). -/
def State.writeSlots (s : State) (is : List Nat) (ctx : Tbl Unit) : State :=
  (is.zip ctx).foldl (fun (s : State) p =>
    (s.vwrite false 0 (s.slotAddr p.1) ((Config.teamEncoding [p.2]).take swapSlotBytes)).getD s) s

/-- A frozen team whose matrix commands have completed and whose copies have stopped leaves its tiles: contexts and buffers are
saved (R253, R296); where it has received its quantum its measure restarts at its own level, and else it has not had its turn in
the rotation (R29). -/
def State.saveTeam (s : State) (n : Nat) : State :=
  let x := s.node n
  if x.units.any (fun u => !(s.unit u).enginesStill s.now) then s
  else
    let s := x.units.foldl State.settleCopies s
    let ctx : Tbl Unit := x.units.map (fun u => (u, s.unit u))
    let s := if x.place = some SwapPlace.area then s.writeSlots x.slots ctx else s
    let s := x.units.foldl (fun (s : State) u => s.modUnit u Unit.tilePart) { s with saved := tput s.saved n ctx }
    let had := s.quantumUsed x
    (s.reviewRounds.turned n had).setNode n { x with
      phase := .swapped, leaving := false, parked := false
      waitFrom := if had then s.now else x.waitFrom, promoted := if had then 0 else x.promoted }

/-- A team is pre-empted and swapped out; without a place for it nothing happens and SWAPFULL is set (R296, R385). -/
def State.swapOut (s : State) (n : Nat) : State :=
  let x := s.node n
  match s.swapPlace x with
  | none => s.csetField (scb + 0x28) 1 1 1
  | some (p, is) => ((s.setNode n { x with leaving := true, place := some p, slots := is }).freezeTeam n).saveTeam n

/-- A swapped team is back on its tiles (R298, R384). -/
def State.swapIn (s : State) (n : Nat) : State :=
  let x := s.node n
  let ctx := tget [] s.saved n
  let s := ctx.foldl (fun (s : State) p => s.modUnit p.1 (fun t => t.onTile p.2)) { s with saved := tdel s.saved n }
  (s.setNode n { x with phase := .resident, place := none, slots := [], quantumFrom := s.now }).thawTeam n

/-! ### Why a team is pre-empted -/

/-- A member takes the rollback of a pre-translation fault at its next boundary, before PREEMPT (R285). -/
def State.teamRolls (s : State) (x : Node) : Bool :=
  x.units.any (fun u => !(s.unit u).handler && (s.unit u).issues && (s.unit u).pend.any (fun p => p.rollback))

/-- A resident team may be pre-empted for one that waits: no trap that comes before PREEMPT is ready (R285, R287). -/
def State.mayYield (s : State) (v : Node) : Bool :=
  v.phase == .resident && !v.leaving && !(s.teamDusk v) && !(s.teamRolls v)

/-- The resident team on a tile. -/
def State.teamOn (s : State) (u : Nat) : Option Nat := (s.unit u).team

/-- A resident team gives way to a waiting one that it is behind (R385). -/
def State.yieldsTo (s : State) (v w : Node) : Bool := s.mayYield v && s.outranked v w

/-- A waiting team takes the tiles of a resident one at a place where every team there gives way (R385). -/
def State.needs (s : State) (w v : Node) : Bool :=
  let n := cardTeam w.card
  let ps := s.places w
  !(ps.any (fun p => s.tilesFree p.1 p.2 n)) &&
  ps.any (fun p =>
    let us := placeUnits p.1 p.2 n
    us.any v.units.contains && us.all (fun u =>
      match s.teamOn u with
      | none => true
      | some t => s.yieldsTo (s.node t) w))

/-- A waiting team of a level compared with that of a resident one needs its tiles (R385). -/
def State.wanted (s : State) (v : Node) (rel : Nat → Nat → Bool) : Bool :=
  s.sched.nodes.any (fun p => p.2.waits && rel (s.levelOf p.2) (s.levelOf v) && s.needs p.2 v)

/-- The die of a team is fenced (R466). -/
def State.fenced (s : State) (v : Node) : Bool := bitOf (s.cget (drbAddr (v.cluster / 8))) 0

/-- PREEMPT (R21, R296, R385, R466): a team whose tiles a higher level needs, or whose die is fenced, freezes and leaves;
one that is leaving goes once its matrix commands have completed. -/
def execPreempt (team : Nat) (s : State) : Host.Outcome State Fault Refusal :=
  if !(s.hasNode team) then .fault (.noSuchPart team)
  else
    let v := s.node team
    if v.leaving then .next (s.saveTeam team)
    else if !(s.mayYield v) then .next s
    else if s.fenced v || s.wanted v (fun a b => decide (a < b)) then .next (s.swapOut team)
    else .next s

/-- QUANTUM_EXPIRY (R28, R385): a team that has used its quantum is swapped for a waiting one of its level. -/
def execQuantumExpiry (team : Nat) (s : State) : Host.Outcome State Fault Refusal :=
  if !(s.hasNode team) then .fault (.noSuchPart team)
  else
    let v := s.node team
    if !(s.mayYield v) ∨ s.now < v.quantumFrom + s.quantum (s.levelOf v) then .next s
    else if s.wanted v (fun a b => a == b) then .next (s.swapOut team)
    else .next s

/-- TEAM_RESUME (R298, R384): the swapped team whose turn it is comes back to its tiles. -/
def execTeamResume (team : Nat) (s : State) : Host.Outcome State Fault Refusal :=
  if !(s.hasNode team) then .fault (.noSuchPart team)
  else
    match s.nextTeam with
    | none => .next s
    | some (n, level, r) =>
      let x := s.node team
      if n ≠ team ∨ x.phase ≠ .swapped then .next s
      else .next ((s.swapIn team).served team level x.queue r)

/-- SHADELIM in a cluster (R21): teams beyond their limit stop on their tiles, where no trap that comes before PREEMPT is ready
(R285, R287), and go on when the level is back at it. -/
def State.shadeTeams (s : State) (k : Nat) : State :=
  s.sched.nodes.foldl (fun (s : State) p =>
    let x := s.node p.1
    if x.phase ≠ .resident ∨ x.cluster ≠ k ∨ x.leaving then s
    else if decide (cardShade x.card < s.shadeOf k) && (!x.parked || x.units.any (fun u => (s.unit u).issues)) &&
        !(s.teamDusk x) && !(s.teamRolls x) then
      (s.setNode p.1 { x with parked := true }).freezeTeam p.1
    else if x.parked && decide (s.shadeOf k ≤ cardShade x.card) then
      (s.setNode p.1 { x with parked := false }).thawTeam p.1
    else s) s

end Sys2Proof.Machine
end

