-- ==== Sys2Proof/Machine/Sched.lean ====
section
/-!
DEFINITION. The graph scheduler's and the cluster schedulers' steps (R16, R23, R29, R371 to R389).
-/
namespace Sys2Proof.Machine

/-! ### Consumption -/

/-- The queues that the tables list, ascending. -/
def State.listedQueues (s : State) : List Nat :=
  s.ctl.filterMap (fun p => match cregOf p.1 with | some (.queue q 8) => some q | _ => none)

/-- Nodes of a queue's open graph that have not completed (R374). -/
def State.openNodes (s : State) (q : Nat) : Nat :=
  match (tget {} s.sched.queues q).openGraph with
  | none => 0
  | some g => ((s.graphNodes g).filter (fun p => !p.2.marker && p.2.phase != .done)).length

/-- A record of a queue may be consumed (R372, R374). -/
def State.mayConsume (s : State) (q : Nat) : Bool :=
  s.qEn q && s.qHead q != s.qTail q && decide (s.openNodes q < 4096)

/-- The queue whose turn it is (R374). -/
def State.nextQueue (s : State) : Option Nat :=
  let qs := s.listedQueues.filter s.mayConsume
  match qs.find? (fun q => decide (s.sched.turn ≤ q)) with
  | some q => some q
  | none => qs.head?

/-- The scheduler consumes records: EN is set, and neither Dusk, a power state nor a handover from its START to its end
holds them back (R387, R390, R419, R483). -/
def State.consumes (s : State) : Bool := bitOf (s.cget scb) 0 && s.noon && s.serving && s.hoStart.isNone

/-- A record that belongs to the queue's graph: the graph, opened where its BEGIN opens one (R376, R500). -/
def State.graphFor (s : State) (q : Nat) (r : List Byte) : State × Option Nat :=
  let c := tget {} s.sched.queues q
  match c.openGraph with
  | some g => (s, some g)
  | none =>
    if !(lrBegin r) then (s, none)
    else
      let g := s.sched.nextGraph
      let x : Graph := { queue := q, test := lrTest r, conc := lrConc r, prev := c.lastGraph }
      ({ s with sched := { s.sched with
          graphs := tput s.sched.graphs g x
          nextGraph := g + 1
          queues := tput s.sched.queues q { c with openGraph := some g, lastGraph := some g } } }, some g)

/-- What a record leaves in its graph: one more node index, and the end of the graph (R376, R500). -/
def State.graphAfter (s : State) (q : Nat) (g : Option Nat) (r : List Byte) : State :=
  match g with
  | none => s
  | some g =>
    let x := tget default s.sched.graphs g
    let c := tget {} s.sched.queues q
    { s with sched := { s.sched with
        graphs := tput s.sched.graphs g
          { x with nodes := if lrKind r = 0 then x.nodes + 1 else x.nodes, closed := x.closed || lrEnd r }
        queues := tput s.sched.queues q { c with openGraph := if lrEnd r then none else c.openGraph } } }

/-- Derived edges of a node: the earlier nodes of its graph that have not completed and whose footprints meet it so (R15,
R378). -/
def State.derivedEdges (s : State) (g aspace : Nat) (card : List Byte) : List Nat :=
  ((s.graphNodes g).filter (fun p =>
    !p.2.marker && p.2.phase != .done && !p.2.card.isEmpty && p.2.aspace == aspace &&
      (cardFeet p.2.card).any (fun a => (cardFeet card).any (fun b => a.edge b)))).map (·.1)

/-- The card of a node's record, where it can be read (R377). -/
def State.recordCard (s : State) (q : Nat) (r : List Byte) : Option (List Byte) :=
  if lrKind r = 0 then s.vread false (s.qAspace q) (recNat r 8 8) 256 else none

/-- The node index that a record of a queue has (R376). -/
def State.nextIndex (s : State) (q : Nat) : Nat :=
  match (tget {} s.sched.queues q).openGraph with
  | some g => (tget default s.sched.graphs g).nodes
  | none => 0

/-- STATUS and DETAIL of the refusal of a record: BAD_RECORD 2 or BAD_CARD 1 with the reason, and 0 with 0 where no check
fails (R19, R377). -/
def State.recordRefusal (s : State) (q : Nat) (r : List Byte) : Nat × Nat :=
  let before := (tget {} s.sched.queues q).openGraph.map (fun g => tget default s.sched.graphs g)
  let card := s.recordCard q r
  match s.recordReason (s.qAspace q) (s.qMask q) before (s.nextIndex q) r card with
  | some n => (2, n)
  | none =>
    match card.bind (cardReason (s.qMask q)) with
    | some n => (1, n)
    | none => (0, 0)

/-- One record, read from the head of its queue (R19, R375 to R379, R500). -/
def State.acceptRecord (s : State) (q : Nat) (r : List Byte) : State :=
  let asp := s.qAspace q
  let mask := s.qMask q
  let idx := s.nextIndex q
  let card := s.recordCard q r
  let refusal := s.recordRefusal q r
  let s := s.reviewRounds
  let c := tget {} s.sched.queues q
  let serial := c.serial
  let s := { s with sched := { s.sched with queues := tput s.sched.queues q { c with serial := serial + 1 } } }
  let (s, g) := s.graphFor q r
  let graph := g.getD 0
  let ok := refusal.1 == 0
  let edges := if ok && lrKind r == 0 then
      (lrEdges r).filterMap (s.nodeAt graph) ++ s.derivedEdges graph asp (card.getD []) else []
  let n := s.sched.nextNode
  let x : Node :=
    { queue := q, serial := serial, graph := graph, index := if lrKind r = 0 ∧ g.isSome then idx else 0xFFFF
      marker := lrKind r != 0, aspace := asp, mask := mask, phase := if ok then .waiting else .ended
      status := refusal.1, detail := refusal.2, edges := edges, card := if ok then card.getD [] else []
      cword := recNat r 0x10 8, grants := if ok then lrGrants r else [], pin := lrPin r }
  let s := { (s.setNode n x) with sched := { (s.setNode n x).sched with nextNode := n + 1 } }
  let s := s.graphAfter q g r
  let s := if ok then s.applyGrants mask asp x.grants else s
  s.refreshNodes

/-- The GRANTs of a record would need more entries than a table has (R379). -/
def State.grantsBlocked (s : State) (mask aspace : Nat) (r : List Byte) : Bool :=
  (maskClusters mask).any (fun k =>
    let t := (s.cluster k).regions
    let t' := ((lrGrants r).filter (fun g => !g.take)).foldl (fun t g => unhost t aspace g.base (g.base + 64 * g.len)) t
    decide (t.length + s.freeEntries k < t'.length))

/-- LAUNCH_RECORD (R372, R374, R377): the scheduler reads the next record of the queue whose turn it is; one that no check
refuses waits while its GRANTs would need more entries than a table has (R379). -/
def execLaunchRecord (q : Nat) (s : State) : Host.Outcome State Fault Refusal :=
  if queueCount ≤ q then .fault (.noSuchPart q)
  else if !s.consumes ∨ s.nextQueue ≠ some q then .next s
  else
    let a := s.qRing q + 128 * (s.qHead q % 2 ^ s.qLog q)
    let s := { s with sched := { s.sched with turn := q + 1 }, woken := false }
    match s.vread false (s.qAspace q) a 128 with
    | none => .next (s.stopQueue q 2)
    | some r =>
      if (s.recordRefusal q r).1 = 0 ∧ s.grantsBlocked (s.qMask q) (s.qAspace q) r then .next s
      else .next ((s.csetField (qAddr q 0x18) 0 32 ((s.qHead q + 1) % 2 ^ 32)).acceptRecord q r)

/-! ### Stage-in -/

/-- The first footprint of a card that covers a HOST unit of a cluster's table (R379). -/
def State.hostOwned (s : State) (x : Node) (k : Nat) : Option Nat :=
  (List.range (cardNfoot x.card)).find? (fun i =>
    let f := cardFoot x.card i
    (s.cluster k).regions.any (fun r => r.st == .host && r.seg == f.seg && r.aspace == x.aspace &&
      decide (r.base < f.base + 64 * f.units) && decide (f.base < r.base + 64 * r.units)))

/-- One page made present: a page of host memory moves to the next of the offered frames (R23). -/
def State.bringIn (s : State) (x : Xlat) : List Nat → Option (State × List Nat)
  | [] => none
  | f :: fs =>
    if f * 65536 % x.size = 0 ∧ populated (f * 65536) then some (s.movePage x false f, fs) else none

/-- Every page of a footprint made present, with its translations; `none` where one cannot be (R23, R386). -/
def State.stagePages (s : State) (seg : Bool) (aspace : Nat) (xs : List Xlat) (frames : List Nat) :
    List (Nat × Nat) → Option (State × List Xlat × List Nat)
  | [] => some (s, xs, frames)
  | p :: ps =>
    match findXlat xs seg aspace p.1 with
    | some _ => s.stagePages seg aspace xs frames ps
    | none =>
      match s.walk seg aspace p.1 with
      | none => none
      | some t =>
        if t.db then none
        else if t.place = .host then
          match s.bringIn t frames with
          | none => none
          | some (s, fs) =>
            match s.walk seg aspace p.1 with
            | none => none
            | some t => s.stagePages seg aspace (xs ++ [t]) fs ps
        else s.stagePages seg aspace (xs ++ [t]) frames ps

/-- The footprints of STAGEIN made present in order, or the number of the first that cannot be (R23, R380). -/
def State.stageFeet (s : State) (x : Node) (xs : List Xlat) (frames : List Nat) : List Nat → State × (List Xlat ⊕ Nat)
  | [] => (s, .inl xs)
  | i :: is =>
    if !(cardStage x.card i) then s.stageFeet x xs frames is
    else
      let f := cardFoot x.card i
      match s.stagePages f.seg x.aspace xs frames (pageParts f.base (64 * f.units)) with
      | none => (s, .inr i)
      | some (s, xs, fs) => s.stageFeet x xs fs is

/-- The region-table entries of a node: ATOMIC, then OWNED, then FROZEN (R87). -/
def nodeRegions (n : Nat) (x : Node) : List Region :=
  let entry (f : Foot) (st : RegState) : Region :=
    { seg := f.seg, aspace := x.aspace, base := f.base, units := f.units, st := st, node := some n }
  let fs := cardFeet x.card
  (fs.filter (fun f => f.mode == 4)).map (fun f => entry f .atomic) ++
  (fs.filter (fun f => f.mode == 2 || f.mode == 3)).map (fun f => entry f (.owned 0)) ++
  (fs.filter (fun f => f.mode == 1 || f.mode == 5)).map (fun f => entry f .frozen)

/-- The card as the tile keeps it (R17). -/
def cardInfo (x : Node) : CardInfo :=
  let c := x.card
  { arg := BitVec.ofNat 64 (recNat c 0x20 8), entry := recNat c 4 4, trapEntry := recNat c 8 4, fidmax := recNat c 1 1 / 8 % 4,
    prio := cardPrio c, phase := cardPhase c, shadelim := cardShade c, hrank := recNat c 3 1,
    coll := (List.range 3).map (fun i => recNat c (0x28 + 8 * i) 8), aspace := x.aspace }

/-- FIDSTAT at task start (R312). -/
def fidstatInit (limit fidmax : Nat) : Word := BitVec.ofNat 64 (limit % 4 * 2 ^ 12 + fidmax % 4 * 2 ^ 10)

/-- Registers at task start (R23). -/
def startRegs (arg : Word) (m n : Nat) : Regs :=
  { s := tput (tput (tput [] 1 { v := arg }) 2 { v := BitVec.ofNat 64 m }) 3 { v := BitVec.ofNat 64 n } }

/-- A member at its start: the initial state of R23, with the mark at ENTRY committed. -/
def startUnit (t : Unit) (n : Nat) (x : Node) (m limit : Nat) (code : List Byte) (init : List (Buf × Nat × List Byte))
    (xs : List Xlat) : Unit :=
  let i := cardInfo x
  let g := startRegs i.arg m (cardTeam x.card)
  let t := t.tilePart
  let y : Unit := { t with
    run := .running, regs := g, shadow := g, pc := i.entry, code := mwrite [] 0 code, codeLen := cardCodeLen x.card
    markPc := BitVec.ofNat 64 i.entry, markSerial := t.serial, trapVec := BitVec.ofNat 64 i.trapEntry
    fidstat := fidstatInit limit i.fidmax, team := some n, member := m, teamSize := cardTeam x.card, graph := x.graph
    node := x.index, queue := x.queue, recSerial := x.serial, card := i
    own := (List.range 32).foldl (fun o b => tput o b (OwnUnit.owned m)) []
    tlb0 := xs.foldl tlbFill t.tlb0, tlb1 := xs.foldl tlbFill t.tlb1 }
  init.foldl (fun (y : Unit) r => y.setBuf r.1 (mwrite (y.buf r.1) r.2.1 r.2.2)) y

/-- A node ends without having run. -/
def State.endNode (s : State) (n status detail : Nat) : State :=
  (s.modNode n (fun x => { x with phase := .ended, status := status, detail := detail, pinned := [] })).stir

/-- A team staged in at a place (R23, R87, R379, R386). -/
def State.startTeam (s : State) (n k f : Nat) (frames : List Nat) : State :=
  let x := s.node n
  match s.hostOwned x k with
  | some i => s.endNode n 5 i
  | none =>
    match s.vread false x.aspace (cardCode x.card) (cardCodeLen x.card) with
    | none => s.endNode n 4 0x0D
    | some code =>
      match (if cardInit x.card then s.initBlock x.aspace x.card else some []) with
      | none => s.endNode n 4 0x0C
      | some init =>
        match s.stageFeet x [] frames (List.range (cardNfoot x.card)) with
        | (s, .inr i) => s.endNode n 4 i
        | (s, .inl xs) =>
          let c := s.cluster k
          let s := s.setCluster k { c with regions := c.regions ++ nodeRegions n x }
          let limit := s.fidlimOf k
          let s := (List.range (cardTeam x.card)).foldl (fun (s : State) m =>
            s.modUnit (16 * k + f + m) (fun t => startUnit t n x m limit code init xs)) s
          s.setNode n { x with
            phase := .resident, cluster := k, first := f, quantumFrom := s.now
            pinned := (xs.filter (fun t => !t.seg)).map Xlat.stayKey }

/-- TEAM_START (R23, R383, R384): the ready team whose turn it is starts on free tiles; `frames` are those offered for
pages that stage-in must bring in. -/
def execTeamStart (node cluster first : Nat) (frames : List Nat) (s : State) : Host.Outcome State Fault Refusal :=
  if !(s.hasNode node) then .fault (.noSuchPart node)
  else
    match s.nextTeam with
    | none => .next s
    | some (n, level, r) =>
      let x := s.node node
      if n ≠ node ∨ x.phase ≠ .ready ∨ !(s.fits node cluster first) then .next s
      else
        let t := s.startTeam node cluster first frames
        .next (if (t.node node).phase = .resident then t.served node level x.queue r else t.refreshNodes)

/-! ### Completion -/

/-- The engines that serve a node's ATOMIC regions write their lines of those regions back (R87, R91). -/
def State.writeBackRegion (s : State) (r : Region) : State :=
  if r.st ≠ .atomic ∨ !r.seg then s
  else (pageParts r.base (64 * r.units)).foldl (fun (s : State) p =>
    match s.walkSegment r.aspace p.1 with
    | some t =>
      match t.place with
      | .sram k =>
        let a := (t.loc p.1).addr
        let c := s.cluster k
        let mine (l : Nat) : Bool := decide (a / 64 ≤ l) && decide (64 * l < a + p.2)
        let m := (c.lines.filter (fun l => mine l.1)).foldl (fun (m : Memory) l => mwrite m (64 * l.1) l.2) (s.sramOf k)
        { s with sram := tput s.sram k m }.setCluster k { c with lines := c.lines.filter (fun l => !(mine l.1)) }
      | _ => s
    | none => s) s

/-- TRAPCAUSE of the lowest member that ended as faulted (R380). -/
def State.faultOf (s : State) (x : Node) : Option Nat :=
  ((x.units.map s.unit).find? (fun y => y.run == .faulted)).map (fun y => y.trapCause.toNat % 256)

/-- Every member of a resident team has ended and every command of theirs has completed (R16). -/
def State.teamEnded (s : State) (x : Node) : Bool :=
  x.phase == .resident && x.units.all (fun u =>
    ((s.unit u).run == .ended || (s.unit u).run == .faulted) && (s.unit u).quiet)

/-- A tile whose node has completed: it is free for the next team, and keeps what its task left in it until that starts (R23,
R369, R384). -/
def Unit.freed (x : Unit) : Unit := { x with run := .idle, team := none, pend := [] }

/-- NODE_COMPLETE (R16, R87, R344, R369, R381); in Dusk the scheduler rests (R419). -/
def execNodeComplete (node : Nat) (s : State) : Host.Outcome State Fault Refusal :=
  if !(s.hasNode node) then .fault (.noSuchPart node)
  else
    let x := s.node node
    if !(s.teamEnded x) ∨ !s.noon ∨ s.colls.any (fun c => c.node == some node) then .next s
    else
      let fault := s.faultOf x
      let s := s.reviewRounds
      let c := s.cluster x.cluster
      let s := (c.regions.filter (fun r => r.node == some node)).foldl State.writeBackRegion s
      let c := s.cluster x.cluster
      let s := s.setCluster x.cluster { c with regions := c.regions.filter (fun r => r.node != some node) }
      let s := x.units.foldl (fun (s : State) u => s.modUnit u Unit.freed) s
      let s := { s with poolKept := s.poolKept.filter (fun p => p.node != node) }
      .next ((s.endNode node (if fault.isSome then 3 else 0) (fault.getD 0)).refreshNodes)

/-- The completion record of a record (R380). -/
def completionRecord (x : Node) : List Byte :=
  natBytes 8 (x.graph % 2 ^ 32 * 2 ^ 32 + x.index % 65536 * 65536 + x.detail % 256 * 256 + x.status % 256) ++
    natBytes 8 (x.queue % 65536 * 2 ^ 48 + x.serial % 2 ^ 48)

/-- A record may complete: it has ended, or it is a marker and every earlier record of its graph has completed (R379,
R380). -/
def State.mayComplete (s : State) (rec : Nat) : Bool :=
  let x := s.node rec
  x.phase == .ended ||
    (x.phase == .waiting && x.marker &&
      (s.graphNodes x.graph).all (fun p => decide (rec ≤ p.1) || p.2.phase == .done))

/-- RECORD_COMPLETION (R379 to R382): TAKEs take effect, the completion record is written and the nodes behind it
follow. -/
def execRecordCompletion (rec : Nat) (s : State) : Host.Outcome State Fault Refusal :=
  if !(s.hasNode rec) then .fault (.noSuchPart rec)
  else
    let x := s.node rec
    if !(s.mayComplete rec) ∨ !(s.takesFit x.mask x.grants) ∨ !s.noon then .next s
    else
      let s := s.applyTakes x.mask x.aspace x.grants
      let s :=
        if x.cword = 0 then s
        else
          match s.vwrite false x.aspace x.cword (completionRecord x) with
          | some t => t
          | none => s.csetField (scb + 0x28) 2 1 1
      .next ((s.setNode rec { x with phase := .done }).refreshNodes)

/-! ### Promotion -/

/-- The measure L of a waiting team's level: T counts the ready teams of the level that may use the same clusters, resident ones
too (R29). -/
def State.rotationLength (s : State) (x : Node) : Nat :=
  let level := s.levelOf x
  let t := (s.sched.nodes.filter (fun p => (p.2.waits || p.2.phase == .resident) && s.levelOf p.2 == level &&
    p.2.mask &&& x.mask != 0)).length
  let slots := max 1 ((maskClusters x.mask).length * (16 / max 1 (cardTeam x.card)))
  (t + slots - 1) / slots * s.quantum level + us 4 * t

/-- A quantum of a resident team ends now in a cluster that a queue's mask permits (R29, R385). -/
def State.quantumEnds (s : State) (mask : Nat) : Bool :=
  s.sched.nodes.any (fun p => p.2.phase == .resident && mask.testBit p.2.cluster && decide (p.2.quantumFrom < s.now) &&
    (s.now - p.2.quantumFrom) % max 1 (s.quantum (s.levelOf p.2)) == 0)

/-- TEAM_PROMOTION (R29): at a quantum boundary of a cluster that it may use, a waiting team gains a level once it has waited four
times the length of a rotation. -/
def execTeamPromotion (node : Nat) (s : State) : Host.Outcome State Fault Refusal :=
  if !(s.hasNode node) then .fault (.noSuchPart node)
  else
    let x := s.node node
    if !x.waits ∨ x.promoted ≠ 0 ∨ s.levelOf x = 0 ∨ !(s.quantumEnds x.mask) ∨
        s.now < x.waitFrom + 4 * s.rotationLength x then .next s
    else .next ((s.setNode node { x with promoted := 1 }).cbump (scb + 0x28) 16 16 1)

/-! ### Registers -/

/-- TAIL_WRITE (R372). -/
def execTailWrite (q : Nat) (v : Word) (s : State) : Host.Outcome State Fault Refusal :=
  if queueCount ≤ q then .fault (.noSuchPart q) else .next (s.writeTail q (field v 0 32).toNat)

/-- QCFG_WRITE (R371, R372). -/
def execQcfgWrite (q : Nat) (v : Word) (s : State) : Host.Outcome State Fault Refusal :=
  if queueCount ≤ q then .fault (.noSuchPart q) else .next (s.writeQcfg q v)

/-- QRING_WRITE (R371). -/
def execQringWrite (q : Nat) (v : Word) (s : State) : Host.Outcome State Fault Refusal :=
  if queueCount ≤ q then .fault (.noSuchPart q) else .next (s.writeRing q v)

/-- A write of STAGESZ: ignored above 128 and while a reservation is held (R387, R388). -/
def State.writeStagesz (s : State) (v : Word) : State :=
  let g := (field v 0 8).toNat
  if 128 < g ∨ s.colls.any (fun c => c.slots != 0) then s else s.cset (scb + 0x10) (BitVec.ofNat 64 g)

/-- STAGESZ_WRITE (R387, R388). -/
def execStageszWrite (v : Word) (s : State) : Host.Outcome State Fault Refusal := .next (s.writeStagesz v)

/-- A write of SWAPN where `slots`, else of SWAPBASE: ignored while a team is in the area (R387, R388). -/
def State.writeSwapArea (s : State) (slots : Bool) (v : Word) : State :=
  if s.slotsUsed ≠ 0 then s
  else if slots then
    let n := (field v 0 13).toNat
    if 4096 < n then s else s.cset (scb + 0x20) (BitVec.ofNat 64 n)
  else s.cset (scb + 0x18) (BitVec.ofNat 64 ((field v 0 52).toNat / 2097152 * 2097152))

/-- SWAP_AREA_WRITE (R387, R388). -/
def execSwapAreaWrite (slots : Bool) (v : Word) (s : State) : Host.Outcome State Fault Refusal :=
  .next (s.writeSwapArea slots v)

/-- A write of SCHCTL (R387). -/
def State.writeSchctl (s : State) (v : Word) : State := s.cset scb (v &&& 1)

/-- A write of QUANT: a field written 0 keeps its value (R387). -/
def State.writeQuant (s : State) (v : Word) : State :=
  (List.range 4).foldl (fun (s : State) i =>
    let q := (field v (16 * i) 16).toNat
    if q = 0 then s else s.csetField (scb + 8) (16 * i) 16 q) s

/-- A write of SCHSTAT: SWAPFULL and CWLOST are cleared by ones (R387). -/
def State.writeSchstat (s : State) (v : Word) : State :=
  s.cset (scb + 0x28) (s.cget (scb + 0x28) &&& ~~~ (v &&& 6))

/-- SCHSTAT as it reads (R387). -/
def State.schstat (s : State) : Word :=
  let count (p : Node → Bool) : Nat := min 0xFFFF (s.sched.nodes.filter (fun e => p e.2)).length
  s.cget (scb + 0x28) ||| BitVec.ofNat 64 (count Node.waits * 2 ^ 48 +
    count (fun x => x.phase == .swapped) * 2 ^ 32)

end Sys2Proof.Machine
end

