-- ==== Sys2Proof/Machine/Power.lean ====
section
/-!
DEFINITION. Shade levels, current control, power states, header switches and the cooling link (R473 to R489).
-/
namespace Sys2Proof.Machine

/-! ### Events -/

/-- The hub's queue of 4,096 events and those held at their sources beyond it: as places free they follow in arrival order, so
that all are delivered in that order once the handover is over (R450, R452). -/
def State.deliverEvents (s : State) : State :=
  s.heldEvents.foldl (fun (s : State) e => s.modUnit e.1 (fun x => { x with events := x.events ++ [e.2] }))
    { s with heldEvents := [] }

/-! ### Shade levels -/

/-- A zone by number. -/
def State.zone (s : State) (z : Nat) : Zone := tget {} s.zones z

/-- The module with a zone replaced. -/
def State.setZone (s : State) (z : Nat) (x : Zone) : State := { s with zones := tput s.zones z x }

/-- The flow level of a cluster: the floor of its die's zone, and those of the module-wide zones one level lower (R487). -/
def State.flowLevel (s : State) (k : Nat) : Nat :=
  ([4, 5, 6, 7].map (fun z => (s.zone z).floor - 1)).foldl max (s.zone (k / 8)).floor

/-- The thermal level for a junction temperature in 0.1 °C: each level begins at its point and falls away 3.0 °C below it
(R488). -/
def thermalLevel (old tj : Nat) : Nat :=
  let on (l : Nat) : Bool := decide (950 + 50 * l ≤ tj) || (decide (l ≤ old) && decide (920 + 50 * l < tj))
  if on 3 then 3 else if on 2 then 2 else if on 1 then 1 else 0

/-- MODPWR.FLOOR (R481). -/
def State.moduleFloor (s : State) : Nat := s.cfield (pwb + 0x18) 32 2

/-- CLSHADE of a cluster (R481). -/
def clshadeAddr (k : Nat) : Nat := pwb + 0x100 + 8 * k

/-- CLLIM of a cluster (R481). -/
def cllimAddr (k : Nat) : Nat := pwb + 0x200 + 8 * k

/-- The sources of a cluster's level in the order of CAUSE [8] to [12] (R479, R481). -/
def State.shadeSources (s : State) (k : Nat) : List Nat :=
  let c := s.cluster k
  [max c.curLevel (if c.droopUntil.isSome then 2 else 0), s.moduleFloor, c.thermal, s.flowLevel k,
   s.cfield (clshadeAddr k) 4 2]

/-- The level in force with its causes and the count of rises, and teams stopped or let go by SHADELIM (R21, R479,
R481). -/
def State.setShade (s : State) (k : Nat) : State :=
  let l := (s.shadeSources k).foldl max 0
  let cause := (List.range 5).foldl (fun n i => if (s.shadeSources k).getD i 0 = l then n + 2 ^ i else n) 0
  let old := s.shadeOf k
  let s := (s.csetField (clshadeAddr k) 0 2 l).csetField (clshadeAddr k) 8 5 (if l = 0 then 0 else cause)
  (if old < l then s.cbump (clshadeAddr k) 48 16 1 else s).shadeTeams k

/-- The current level after a measurement (R480): it rises by one level, at most once in 20 ns, above CLIM; `lowFrom` is since
when the current has been at or below 75% of CLIM. -/
def ClusterSt.withCurrent (c : ClusterSt) (now clim current : Nat) : ClusterSt :=
  let low := if 4 * current ≤ 3 * clim then some (c.lowFrom.getD now) else none
  if clim < current ∧ c.curLevel < 3 ∧ (c.curLevel = 0 ∨ c.curChange + ns 20 ≤ now) then
    { c with curLevel := c.curLevel + 1, curChange := now, lowFrom := low }
  else { c with lowFrom := low }

/-- SHADE_EVALUATION (R21, R479, R480, R488): every 10 ns, with the cluster's current in 0.1 A and its hottest junction in
0.1 °C. -/
def execShadeEvaluation (k current tj : Nat) (s : State) : Host.Outcome State Fault Refusal :=
  if 32 ≤ k then .fault (.noSuchPart k)
  else if s.now < (s.cluster k).evalAt ∨ s.dusk.midnight then .next s
  else
    let c := (s.cluster k).withCurrent s.now (s.cfield (cllimAddr k) 0 16) current
    let level := thermalLevel c.thermal tj
    let rises := decide (c.thermal < level)
    let c := { c with
      thermal := level
      hotFrom := if 1150 ≤ tj then some (c.hotFrom.getD s.now) else none
      evalAt := s.now + ns 10 }
    let s := ((s.setCluster k c).csetField (cllimAddr k) 16 16 tj).setShade k
    .next (if rises then s.postEvent hubSeq1 0x32 (k * 256 + level) else s)

/-- CURRENT_LEVEL_FALL (R480): the current has been low for 2 µs since the last change. -/
def execCurrentLevelFall (k : Nat) (s : State) : Host.Outcome State Fault Refusal :=
  if 32 ≤ k then .fault (.noSuchPart k)
  else
    let c := s.cluster k
    match c.lowFrom with
    | none => .next s
    | some t =>
      if c.curLevel = 0 ∨ s.now < max t c.curChange + us 2 then .next s
      else .next (s.setCluster k { c with curLevel := c.curLevel - 1, curChange := s.now })

/-- CORE_DROOP (R479): a tile's CORE rail falls 30 mV below its level. -/
def execCoreDroop (u : Nat) (s : State) : Host.Outcome State Fault Refusal :=
  if 512 ≤ u then .fault (.noSuchPart u)
  else
    let k := clusterOf u
    .next (s.setCluster k { s.cluster k with droopUntil := some (s.now + us 1) })

/-- DROOP_EXPIRY (R479): 1 µs has passed since the last droop. -/
def execDroopExpiry (k : Nat) (s : State) : Host.Outcome State Fault Refusal :=
  if 32 ≤ k then .fault (.noSuchPart k)
  else
    let c := s.cluster k
    match c.droopUntil with
    | none => .next s
    | some t => .next (if s.now < t then s else s.setCluster k { c with droopUntil := none })

/-! ### Header switches -/

/-- Two regions of one cluster are adjacent: tiles whose places in the 4 × 4 grid share an edge, or the core region and a tile of
row 0 (R476). -/
def adjacent (r q : Nat) : Bool :=
  let (i, j) := (r % 16, q % 16)
  let near (a b : Nat) : Bool := a + 1 == b || b + 1 == a
  if r < 512 ∧ q < 512 then
    r / 16 == q / 16 && ((i / 4 == j / 4 && near (i % 4) (j % 4)) || (i % 4 == j % 4 && near (i / 4) (j / 4)))
  else if r < 512 then q == 512 + r / 16 && i / 4 == 0
  else q < 512 && r == 512 + q / 16 && j / 4 == 0

/-- A region's current in 0.1 A: the sum of its regulators' outputs, of which `outputs` lists those that are not zero (R476). -/
def regionCurrent (outputs : List (Nat × List Nat)) (r : Nat) : Nat :=
  ((outputs.filter (fun p => p.1 == r)).flatMap (·.2)).foldl (· + ·) 0

/-- How many regions the module has: 512 tiles and 32 cluster core regions (R476). -/
def regionCount : Nat := 544

/-- The cluster of a region. -/
def regionCluster (r : Nat) : Nat := if r < 512 then r / 16 else r - 512

/-- A region's switches. -/
def State.switchOf (s : State) (r : Nat) : Switch := tget {} s.switches r

/-- The module with a region's switches replaced. -/
def State.setSwitch (s : State) (r : Nat) (x : Switch) : State := { s with switches := tput s.switches r x }

/-- A region may start switching on: the module is in PL0, its die is neither shed nor in reset, the core region stands
before the tiles, and each wave of four before the next (R478). -/
def State.maySwitch (s : State) (r : Nat) : Bool :=
  let k := regionCluster r
  s.awake && !(s.isShed (k / 8)) && !(s.dieSilent (k / 8)) && (s.switchOf r).phase == .off &&
    (decide (512 ≤ r) ||
      (s.coreOn k && (List.range 16).all (fun i => decide (r % 16 / 4 ≤ i / 4) || s.tileOn (16 * k + i))))

/-- The first stage of a switch-on closes (R477). -/
def State.startSwitch (s : State) (r : Nat) : State :=
  s.setSwitch r { phase := .switching, halves := 2, lastAt := s.now }

/-- Every region of a cluster whose turn it is starts switching on (R478). -/
def State.switchCluster (s : State) (k : Nat) : State :=
  let rs := (512 + k) :: (List.range 16).map (fun i => 16 * k + i)
  (rs.filter s.maySwitch).foldl State.startSwitch s

/-- Every die's regions whose turn it is start switching on (R478). -/
def State.switchDie (s : State) (d : Nat) : State :=
  (List.range 8).foldl (fun (s : State) c => s.switchCluster (8 * d + c)) s

/-- Regions switched off: every switch opens at once (R477). -/
def State.switchOff (s : State) (rs : List Nat) : State :=
  rs.foldl (fun (s : State) r => s.setSwitch r { phase := .off, halves := 0 }) s

/-- The regions of a die. -/
def dieRegions (d : Nat) : List Nat :=
  (List.range 128).map (fun i => 128 * d + i) ++ (List.range 8).map (fun c => 512 + 8 * d + c)

/-- REGION_SWITCH_ON (R477, R478): stage 1 closes. -/
def execRegionSwitchOn (r : Nat) (s : State) : Host.Outcome State Fault Refusal :=
  if regionCount ≤ r then .fault (.noSuchPart r)
  else .next (if s.maySwitch r then s.startSwitch r else s)

/-- A region in its switch-on, with stages left. -/
def Switch.closing (x : Switch) : Bool := x.phase == .switching && decide (x.halves < 16)

/-- One more stage closes, or a half of one after 20 µs of pauses (R477). -/
def Switch.close (x : Switch) (now : Nat) : Switch :=
  { x with halves := x.halves + (if us 20 ≤ x.paused then 1 else 2), lastAt := now, pausedFrom := none }

/-- A region adjacent to another draws more than 90% of its limit, DIELIM.RLIM of its die (R476, R477, R481). -/
def State.adjacentHigh (s : State) (outputs : List (Nat × List Nat)) (r : Nat) : Bool :=
  (List.range regionCount).any (fun q => adjacent r q &&
    decide (9 * s.cfield (pwb + 0x400 + 8 * (regionCluster q / 8)) 0 16 < 10 * regionCurrent outputs q))

/-- STAGE_DUE (R476, R477): a stage is due 100 ns after the one before it; it pauses while an adjacent region draws more than 90%
of its limit, until the pauses have reached 20 µs. -/
def execStageDue (r : Nat) (outputs : List (Nat × List Nat)) (s : State) : Host.Outcome State Fault Refusal :=
  if regionCount ≤ r then .fault (.noSuchPart r)
  else
    let x := s.switchOf r
    if !x.closing ∨ x.pausedFrom.isSome ∨ s.now < x.lastAt + ns 100 then .next s
    else if s.adjacentHigh outputs r ∧ x.paused < us 20 then .next (s.setSwitch r { x with pausedFrom := some s.now })
    else .next (s.setSwitch r (x.close s.now))

/-- STAGE_PAUSE_END (R476, R477): no adjacent region draws more than 90% any more, and the paused stage closes. -/
def execStagePauseEnd (draw : RegionDraw) (s : State) : Host.Outcome State Fault Refusal :=
  if regionCount ≤ draw.region then .fault (.noSuchPart draw.region)
  else
    let x := s.switchOf draw.region
    match x.pausedFrom with
    | none => .next s
    | some t =>
      if !x.closing ∨ s.adjacentHigh draw.outputs draw.region then .next s
      else .next (s.setSwitch draw.region ({ x with paused := min (us 20) (x.paused + (s.now - t)) }.close s.now))

/-- SWITCH_PAUSE_LIMIT (R477): the pauses reach 20 µs; the rest closes in halves and pauses no more. -/
def execSwitchPauseLimit (r : Nat) (s : State) : Host.Outcome State Fault Refusal :=
  if regionCount ≤ r then .fault (.noSuchPart r)
  else
    let x := s.switchOf r
    match x.pausedFrom with
    | none => .next s
    | some t =>
      if !x.closing ∨ x.paused + (s.now - t) < us 20 then .next s
      else .next (s.setSwitch r ({ x with paused := us 20 }.close s.now))

/-! ### Power states -/

/-- PLSTAT.STATE (R481). -/
def State.plState (s : State) : Nat := s.cfield (pwb + 8) 0 3

/-- The exit of a power state in µs (R482). -/
def plExit (n : Nat) : Nat :=
  match n with
  | 0 => 0
  | 1 => 2
  | 2 => 40
  | _ => 3000

/-- The dwell of a power state in µs (R482). -/
def plDwell (n : Nat) : Nat :=
  match n with
  | 2 => 100
  | 3 => 10000
  | _ => 0

/-- The module is idle (R482). -/
def State.idle (s : State) : Bool :=
  s.sched.nodes.all (fun p => p.2.phase != .resident && p.2.phase != .swapped && p.2.phase != .ready) &&
  s.colls.all (fun c => c.slots == 0 && c.pool == 0 && !c.entry) && s.poolKept.isEmpty &&
  (List.range 4).all (fun d => !(s.migBusy d) && s.diePhase d == 0) &&
  !(bitOf (s.cget (trb + 0x20)) 0) && s.noon

/-- The deepest power state whose exit fits LATTOL and whose dwell has passed (R482). -/
def State.deepest (s : State) : Nat :=
  let fits (n : Nat) : Bool :=
    decide (plExit n ≤ s.cfield pwb 0 32) && decide (s.busyAt + us (plDwell n) ≤ s.now)
  if fits 3 then 3 else if fits 2 then 2 else if fits 1 then 1 else 0

/-- A request that woke the module has still to be served (R483): the exit from a power state is not over, a record that a TAIL
write announced can be read, or PF_SAG_L is asserted. -/
def State.waking (s : State) : Bool :=
  (s.plState == 0 && !s.serving) || (s.woken && s.consumes && s.nextQueue.isSome) || s.dusk.sag

/-- POWER_STATE_ENTRY (R482, R489): an idle module enters the deepest state; in PL2 and PL3 its regions are off. -/
def execPowerStateEntry (s : State) : Host.Outcome State Fault Refusal :=
  let n := s.deepest
  if !s.idle ∨ s.waking ∨ n ≤ s.plState then .next s
  else
    let s := { s.csetField (pwb + 8) 0 3 n with woken := false }
    let s := if 2 ≤ n then s.switchOff (List.range regionCount) else s
    .next (s.postEvent hubSeq1 0x33 n)

/-- A wake event is there (R483); flits and accesses of the host come from outside. -/
def State.wakes (s : State) : WakeCause → Bool
  | .tailWrite => s.woken
  | .flit => true
  | .bar2 => true
  | .migratorGo => (List.range 4).any (fun d => (s.migrator d).asked)
  | .lattol => decide (s.cfield pwb 0 32 < plExit s.plState)
  | .sag => s.dusk.sag

/-- PNOM of a zone in W (R484). -/
def zonePnom (z : Nat) : Nat := if z < 4 then 420 else if z = 4 then 250 else if z = 7 then 150 else 360

/-- ZCFG, ZREQ and ZSTAT of a zone (R486). -/
def zcfgAddr (z : Nat) : Nat := clb + 8 * z
def zreqAddr (z : Nat) : Nat := clb + 0x40 + 8 * z
def zstatAddr (z : Nat) : Nat := clb + 0x80 + 8 * z

/-- REQ for a zone's power (R487). -/
def State.flowFor (s : State) (z p : Nat) : Nat :=
  let lo := s.cfield (zcfgAddr z) 0 16
  let hi := s.cfield (zcfgAddr z) 16 16
  lo + ((hi - lo) * min p (zonePnom z) + zonePnom z - 1) / zonePnom z

/-- One step of the CRC-8 with polynomial 0x07 (R485). -/
def crcStep (c b : Nat) : Nat :=
  (List.range 8).foldl (fun c _ => if 128 ≤ c then (2 * c % 256) ^^^ 7 else 2 * c) (c ^^^ b)

/-- The CRC-8 of a message, from initial value 0 (R485). -/
def crc8 (bs : List Byte) : Nat := bs.foldl (fun c b => crcStep c b.toNat) 0

/-- FLOWREQ sent to a zone with the next SEQ (R485, R486). -/
def State.sendFlow (s : State) (z : Nat) : State :=
  let seq := (s.cfield (zreqAddr z) 16 8 + 1) % 256
  let s := s.csetField (zreqAddr z) 16 8 seq
  let body := natBytes 2 (0x46 + 256 * z) ++ natBytes 2 (s.cfield (zreqAddr z) 0 16) ++
    natBytes 2 (s.cfield (zcfgAddr z) 32 16) ++ natBytes 1 seq
  (s.setZone z { s.zone z with sentAt := s.now }).send (.flowSet z (body ++ natBytes 1 (crc8 body)))

/-- A zone's REQ, sent where it changes, or where 10 ms would pass since the last FLOWREQ before the next tick (R485, R487). -/
def State.setReq (s : State) (z req : Nat) : State :=
  let old := s.cfield (zreqAddr z) 0 16
  let s := s.csetField (zreqAddr z) 0 16 req
  if old ≠ req ∨ (s.zone z).sentAt + us 9000 < s.now then s.sendFlow z else s

/-- REQ of a zone for a power; it does not fall while a floor applies to the zone (R487). -/
def State.askFlow (s : State) (z p : Nat) : State :=
  let req := s.flowFor z p
  s.setReq z (if 0 < (s.zone z).floor then max req (s.cfield (zreqAddr z) 0 16) else req)

/-- Each GO that waited is served once the module serves requests (R483). -/
def State.serveAsked (s : State) : State :=
  if !s.serving then s
  else (List.range 4).foldl (fun (s : State) d =>
    let m := s.migrator d
    if !m.asked then s
    else
      let s := s.setMigrator d { m with asked := false }
      if s.mdstHost d then s.startEviction d else s.startMigration d) s

/-- POWER_STATE_EXIT (R412, R478, R482, R483, R487, R489): the module returns to PL0, and its regions start switching on; REQ of
each die that does is recomputed for PNOM.  The exit itself ends no activity of R482, so it starts no dwell. -/
def execPowerStateExit (cause : WakeCause) (s : State) : Host.Outcome State Fault Refusal :=
  let n := s.plState
  if n = 0 ∨ s.dusk.midnight ∨ !(s.wakes cause) then .next s
  else
    let s := (s.csetField (pwb + 8) 0 3 0).cbump (pwb + 8) 32 32 1
    let s := if n < 2 then s
      else ((List.range 4).filter (fun d => !(s.isShed d) && !(s.dieSilent d))).foldl (fun (s : State) d =>
        (s.askFlow d (zonePnom d)).switchDie d) s
    let s := if n < 3 then s
      else State.freshDue { s with ctl := s.ctl.map (fun p => match cregOf p.1 with
        | some (.cal _ _ 0x88) => (p.1, setField p.2 0 (0 : BitVec 4))
        | _ => p) }
    .next (s.postEvent hubSeq1 0x33 0).serveAsked

/-- REGION_ON (R477, R478, R483): 100 ns after its last stage the region is on, and those after it in its cluster start; with
the first tile the exit of a power state is over. -/
def execRegionOn (r : Nat) (s : State) : Host.Outcome State Fault Refusal :=
  if regionCount ≤ r then .fault (.noSuchPart r)
  else
    let x := s.switchOf r
    if x.phase ≠ .switching ∨ x.halves < 16 ∨ s.now < x.lastAt + ns 100 then .next s
    else .next ((s.setSwitch r {}).switchCluster (regionCluster r)).serveAsked.pickUpAll

/-! ### Flow -/

/-- Deficit of a zone as a fraction: its numerator and denominator (R487); where REQ is 0 the spec states none (log entry
50). -/
def State.deficit (s : State) (z : Nat) : Int × Int :=
  let req := s.cfield (zreqAddr z) 0 16
  let flow := s.cfield (zstatAddr z) 0 16
  if (s.zone z).lost then (1, 1)
  else if req = 0 then (Config.deficitAtZero flow, 100)
  else ((req : Int) - flow, req)

/-- The flow floor of a deficit (R487). -/
def floorOf (n d : Int) : Nat :=
  if 2 * n ≥ d then 3 else if 4 * n ≥ d then 2 else if 10 * n ≥ d then 1 else 0

/-- A zone's floor and ZSTAT.STATE by its deficit; event 0x30 where the floor rises (R486, R487, R489). -/
def State.setFloor (s : State) (z : Nat) : State :=
  let x := s.zone z
  let f := floorOf (s.deficit z).1 (s.deficit z).2
  let s := (s.setZone z { x with floor := f }).csetField (zstatAddr z) 56 2
    (if x.lost then 2 else if f = 0 then 0 else 1)
  if x.floor < f then s.postEvent hubSeq1 0x30 (f * 256 + z) else s

/-- One zone at the 1 ms tick: REQ, which does not fall under a floor, the floor, and the read of FLOWSTAT (R485, R487). -/
def State.tickZone (s : State) (z p : Nat) : State := ((s.askFlow z p).setFloor z).send (.flowRead z)

/-- The module level at the tick (R480). -/
def State.tickPower (s : State) (w : Nat) : State :=
  let lim := s.cfield (pwb + 0x10) 0 16
  let f := s.moduleFloor
  let s := s.csetField (pwb + 0x18) 0 16 w
  if lim < w then { s.csetField (pwb + 0x18) 32 2 (min 3 (f + 1)) with lowTicks := 0 }
  else if 95 * lim < 100 * w then { s with lowTicks := 0 }
  else if s.lowTicks < 4 then { s with lowTicks := s.lowTicks + 1 }
  else { s.csetField (pwb + 0x18) 32 2 (f - 1) with lowTicks := 0 }

/-- MILLISECOND_TICK (R480, R485, R487): `powers` are the zones' powers and `modulePower` the module's, in W, averaged over
the millisecond. -/
def execMillisecondTick (powers : List Nat) (modulePower : Nat) (s : State) : Host.Outcome State Fault Refusal :=
  if s.now < s.tickAt ∨ s.dusk.midnight then .next s
  else
    let s := ({ s with tickAt := s.now + us 1000 }).tickPower modulePower
    .next ((List.range 8).foldl (fun (s : State) z => s.tickZone z (powers.getD z 0)) s)

/-- A FLOWSTAT that counts as received (R485). -/
def validFlow (z : Nat) (m : List Byte) : Bool :=
  m.length == 10 && (m.getD 0 0).toNat == 0x53 && (m.getD 1 0).toNat == z && (m.getD 9 0).toNat == crc8 (m.take 9)

/-- A zone's FLOWREQ goes out again where 10 ms have passed since the last one (R485). -/
def State.resendFlow (s : State) (z : Nat) : State :=
  if (s.zone z).sentAt + us 10000 ≤ s.now then s.sendFlow z else s

/-- A valid message of the target bound to a zone updates the zone, and ends its loss (R485, R486, R488). -/
def State.heardFlow (s : State) (z : Nat) (msg : List Byte) : State :=
  let x := s.zone z
  let s := s.setZone z { x with lastValid := s.now, lost := false, applied := recNat msg 8 1 }
  let s := ((s.csetField (zstatAddr z) 0 16 (recNat msg 2 2)).csetField (zstatAddr z) 16 16 (recNat msg 4 2)).csetField
    (zstatAddr z) 32 16 (recNat msg 6 2)
  if x.lost then s.csetField (zstatAddr z) 56 2 1 else s

/-- The zone to which a target is bound (R484). -/
def State.zoneOf (s : State) (target : Nat) : Option Nat :=
  (List.range 8).find? (fun z => (s.zone z).target == some target)

/-- A status message of a target (R484, R485): where the target is bound it counts for its zone only; the first valid one of a
target that is not binds it to the zone in its ZONE byte, and where that has its target the new one is not used, and event 0x31
is raised. -/
def State.takeStatus (s : State) (target : Nat) (msg : List Byte) : State :=
  match s.zoneOf target with
  | some z => if validFlow z msg then s.heardFlow z msg else s
  | none =>
    let z := (msg.getD 1 0).toNat
    if s.spares.contains target ∨ 8 ≤ z ∨ !(validFlow z msg) then s
    else if (s.zone z).target.isSome then { s with spares := s.spares ++ [target] }.postEvent hubSeq1 0x31 z
    else (s.setZone z { s.zone z with target := some target }).heardFlow z msg

/-- FLOWSTAT (R484 to R486, R488): the module reads a status message of a target. -/
def execFlowstat (target : Nat) (msg : List Byte) (s : State) : Host.Outcome State Fault Refusal :=
  if s.dusk.midnight then .next s
  else .next ((List.range 8).foldl State.resendFlow (s.takeStatus target msg))

/-- IBI (R485): the module reads FLOWSTAT at once. -/
def execIbi (z : Nat) (s : State) : Host.Outcome State Fault Refusal :=
  if 8 ≤ z then .fault (.noSuchPart z)
  else if s.dusk.midnight then .next s
  else .next ((s.send (.flowRead z)).resendFlow z)

/-- HOT_JOIN (R484): a target is addressed anew: it leaves the zone it had, and its first status message, `msg`, is read. -/
def execHotJoin (target : Nat) (msg : List Byte) (s : State) : Host.Outcome State Fault Refusal :=
  if s.dusk.midnight then .next s
  else
    let s := match s.zoneOf target with
      | none => s
      | some z => s.setZone z { s.zone z with target := none }
    .next (({ s with spares := s.spares.filter (· != target) } : State).takeStatus target msg)

/-- ZONE_LOST (R488, R489): 50 ms without a valid FLOWSTAT. -/
def execZoneLost (z : Nat) (s : State) : Host.Outcome State Fault Refusal :=
  if 8 ≤ z then .fault (.noSuchPart z)
  else
    let x := s.zone z
    if x.lost ∨ s.dusk.midnight ∨ s.now < x.lastValid + us 50000 then .next s
    else .next (((s.setZone z { x with lost := true, lostFrom := s.now }).setFloor z).postEvent hubSeq1 0x31 z)

/-! ### Registers -/

/-- PLCTL_WRITE (R481, R483). -/
def execPlctlWrite (v : Word) (s : State) : Host.Outcome State Fault Refusal :=
  .next (s.cset pwb (v &&& 0xFFFFFFFF))

/-- A write of PLSTAT: WAKES written 0 is cleared (R481, R493). -/
def State.writePlstat (s : State) (v : Word) : State :=
  if field v 32 32 = 0 then s.cclear (pwb + 8) 32 32 else s

/-- A value within a range, else the value that is stored in its place. -/
def within (lo hi other v : Nat) : Nat := if lo ≤ v ∧ v ≤ hi then v else other

/-- A write of MODLIM (R481). -/
def State.writeModlim (s : State) (v : Word) : State :=
  s.csetField (pwb + 0x10) 0 16 (within 1000 2800 2800 (field v 0 16).toNat)

/-- A write of CLSHADE (R481). -/
def State.writeClshade (s : State) (k : Nat) (v : Word) : State :=
  let s := s.csetField (clshadeAddr k) 4 2 (field v 4 2).toNat
  if field v 48 16 = 0 then s.cclear (clshadeAddr k) 48 16 else s

/-- A write of CLLIM (R481). -/
def State.writeCllim (s : State) (k : Nat) (v : Word) : State :=
  s.csetField (cllimAddr k) 0 16 (within 100 1200 900 (field v 0 16).toNat)

/-- A write of DIELIM (R481). -/
def State.writeDielim (s : State) (d : Nat) (v : Word) : State :=
  s.csetField (pwb + 0x400 + 8 * d) 0 16 (within 20 120 60 (field v 0 16).toNat)

/-- A write of ZCFG: FMAX below FMIN is stored as FMIN (R486). -/
def State.writeZcfg (s : State) (z : Nat) (v : Word) : State :=
  let lo := (field v 0 16).toNat
  let w := v &&& 0xFFFFFFFFFFFF
  s.cset (zcfgAddr z) (if (field v 16 16).toNat < lo then setField w 16 (BitVec.ofNat 16 lo) else w)

end Sys2Proof.Machine
end

