-- ==== Sys2Proof/Machine/Images.lean ====
section
/-!
DEFINITION. Firmware images (R446, R447): their checks, the start of a sequencer, and the measurement registers (R449).
-/
namespace Sys2Proof.Machine

/-- Bytes before the code of an image: the header and the signature block (R446). -/
def imageHead : Nat := 256 + 384 + 16224

/-- KIND of the sequencers of a unit: 1 root, 2 service, 3 comm (R446). -/
def seqKind (u : Nat) : Nat :=
  match unitKind u with
  | .root => 1
  | .service => 2
  | _ => 3

/-- The units that are sequencers. -/
def sequencers : List Nat := (List.range (unitCount - 512)).map (· + 512)

/-- Header fields of an image (R446). -/
def imgCodeLen (b : List Byte) : Nat := recNat b 0x08 4
def imgEntry (b : List Byte) : Nat := recNat b 0x0C 4
def imgSvn (b : List Byte) : Nat := recNat b 0x10 8
def imgDataLen (b : List Byte) : Nat := recNat b 0x48 4
def imgDataOff (b : List Byte) : Nat := recNat b 0x4C 4

/-- The code of an image. -/
def imgCode (b : List Byte) : List Byte := (b.drop imageHead).take (imgCodeLen b)

/-- The data section of an image, directly after the code (R446). -/
def imgData (b : List Byte) : List Byte := (b.drop (imageHead + imgCodeLen b)).take (imgDataLen b)

/-- The bytes of an image in memory (R446). -/
def imgLength (b : List Byte) : Nat := imageHead + imgCodeLen b + imgDataLen b

/-- An image of a KIND has the form of R446, and its code and data match their hashes. -/
def imageFormed (kind : Nat) (b : List Byte) : Bool :=
  recNat b 0 4 == 0x474D495A && recNat b 4 1 == kind && recNat b 5 1 == 2 && recNat b 6 2 == 0 &&
  imgCodeLen b % 32 == 0 && decide (imgCodeLen b ≤ 131072) && imgEntry b % 32 == 0 && decide (imgEntry b < imgCodeLen b) &&
  imgDataLen b % 64 == 0 && imgDataOff b % 64 == 0 && decide (imgDataOff b + imgDataLen b ≤ 262144) &&
  recNat b 0x80 128 == 0 && decide (b.length = imgLength b) &&
  sha384 (imgCode b) == (b.drop 0x18).take 48 && sha384 (imgData b) == (b.drop 0x50).take 48

/-- Both signatures of an image verify (R446). -/
def imageSigned (b : List Byte) : Bool :=
  Config.rsaVerifies (b.take 256) ((b.drop 256).take 384) && Config.slhVerifies (b.take 256) ((b.drop 640).take 16224)

/-- The fused SVN of a KIND (R446). -/
def State.fusedSvn (s : State) (kind : Nat) : Nat := tget 0 s.root.svn kind

/-- An image is accepted (R446). -/
def State.accepts (s : State) (kind : Nat) (b : List Byte) : Bool :=
  imageFormed kind b && imageSigned b && decide (s.fusedSvn kind ≤ imgSvn b)

/-- The IMAGE of a manifest: SHA-384 over the three headers in KIND order (R447). -/
def imageName (t : Tbl (List Byte)) : List Byte := sha384 ([1, 2, 3].flatMap (fun k => (tget [] t k).take 256))

/-- A sequencer at its image's ENTRY, its registers as at boot (R447, R450). -/
def bootUnit (x : Unit) (b : List Byte) (now : Nat) : Unit :=
  { run := .running, pc := imgEntry b, code := mwrite [] 0 (imgCode b), codeLen := imgCodeLen b
    markPc := BitVec.ofNat 64 (imgEntry b), markSerial := x.serial, serial := x.serial, sb := x.sb, events := x.events
    kicked := now, role := x.role, hostate := x.hostate, hofin := x.hofin, vgen := x.vgen }

/-- A sequencer started at boot: its data store is zero but for the image's data section (R447). -/
def freshUnit (x : Unit) (b : List Byte) (now : Nat) : Unit :=
  bootUnit { x with sb := mwrite [] (imgDataOff b) (imgData b) } b now

/-- The image that a sequencer runs (R446). -/
def State.imageOf (s : State) (u : Nat) : List Byte := tget [] s.root.images (seqKind u)

/-- A sequencer loaded and started as at boot, without new measurement (R447, R454, R466). -/
def State.startSequencer (s : State) (u : Nat) : State := s.modUnit u (fun x => freshUnit x (s.imageOf u) s.now)

/-! ### Measurement -/

/-- 48 zero bytes. -/
def zeros48 : List Byte := List.replicate 48 0

/-- A measurement register (R449). -/
def State.meas (s : State) (i : Nat) : List Byte := tget zeros48 s.root.meas i

/-- A measurement register extended (R449). -/
def State.extendMeas (s : State) (i : Nat) (v : List Byte) : State :=
  { s with root := { s.root with meas := tput s.root.meas i (sha384 (s.meas i ++ v)) } }

/-- The root ROM's verification and measurement in the order root, service, comm, up to the first image refused (R447). -/
def State.measureBoot (s : State) : State × Option Nat :=
  let ok := [1, 2, 3].takeWhile (fun k => s.accepts k (tget [] s.root.images k))
  let s := ok.foldl (fun (s : State) k =>
    s.extendMeas (k - 1) (sha384 ((tget [] s.root.images k).take imageHead))) s
  if ok.length < 3 then (s, some (ok.length + 1))
  else (s.extendMeas 3 (sha384 (Config.securityConfig ([1, 2, 3].map s.fusedSvn))), none)

/-- An image of the set that starts is refused, so that the boot halts (R446, R447). -/
def State.bootRefused (s : State) : Bool := s.measureBoot.2.isSome

/-- Boot (R447, R449, R474): the images are measured and every sequencer starts, or the boot halts with BOOTSTAT holding the
KIND and the reason; MEAS4 takes the manifest's measure. -/
def State.boot (s : State) (meas4 : List Byte) : State :=
  let s := { s with root := { s.root with meas := [], bootAt := s.now, att := none } }
  match s.measureBoot with
  | (s, some k) => s.cset (rob + 0x20) (BitVec.ofNat 64 (k % 256 + 256 * (Config.bootReason (tget [] s.root.images k) % 256)))
  | (s, none) => sequencers.foldl State.startSequencer (s.extendMeas 4 meas4)

end Sys2Proof.Machine
end

