-- ==== Sys2Proof/Machine/Links.lean ====
section
/-!
DEFINITION. The registers, tests and training of the die-to-die links (R458 to R463).  An access crosses a link within the step that
makes it; flits that a NAK or a replay names stay unacknowledged until a good flit comes back (log entry 51).
-/
namespace Sys2Proof.Machine

/-- The module with a link replaced. -/
def State.setLink (s : State) (n : Nat) (l : Link) : State := { s with links := tput s.links n l }

/-- LKSTAT.IDLE of a link: it is paused, and no flit of it is unacknowledged (R459). -/
def State.linkIdle (s : State) (n : Nat) : Bool := s.linkPaused n && (s.linkOf n).unacked == 0

/-- LKSTAT as it reads: IDLE stands beside the stored fields. -/
def State.lkstatView (s : State) (n : Nat) : Word := setField (s.cget (lkstat n)) 1 (ofBool 1 (s.linkIdle n))

/-- FAILCODE set (R459). -/
def State.failLink (s : State) (n code : Nat) : State := s.csetField (lkstat n) 16 8 code

/-- Training ends without success: UP stays 0 and event 0x22 is raised (R462, R463). -/
def State.trainFails (s : State) (n code : Nat) : State :=
  ((((s.failLink n code).csetField (lkstat n) 2 1 0).csetField (lkstat n) 0 1 0)).postEvent hubSeq0 0x22 (code * 256 + n)

/-- PAUSE written 1: ignored with FAILCODE 4 where the die would have no hub link left up (R460). -/
def State.pauseLink (s : State) (n : Nat) : State :=
  let others := (List.range 4).map (fun k => n / 4 * 4 + k)
  if n < 16 ∧ others.all (fun m => m == n || !(s.linkUp m) || s.linkPaused m) then s.failLink n 4
  else s.csetField (dlbAddr n) 0 1 1

/-- LINK_PAUSE (R460). -/
def execLinkPause (n : Nat) (s : State) : Host.Outcome State Fault Refusal :=
  if linkCount ≤ n then .fault (.noSuchPart n) else .next (if s.linkPaused n then s else s.pauseLink n)

/-- LINK_UNPAUSE (R460): the link takes its share again, and what waited for it goes on. -/
def execLinkUnpause (n : Nat) (s : State) : Host.Outcome State Fault Refusal :=
  if linkCount ≤ n then .fault (.noSuchPart n) else .next (s.csetField (dlbAddr n) 0 1 0).pickUpAll

/-- A lane test starts, where the link is idle (R461). -/
def State.testLink (s : State) (n : Nat) : State :=
  if s.linkIdle n then (s.csetField (lkstat n) 3 1 1).setLink n { s.linkOf n with diagFrom := s.now } else s

/-- DIAG (R461). -/
def execDiag (n : Nat) (s : State) : Host.Outcome State Fault Refusal :=
  if linkCount ≤ n then .fault (.noSuchPart n) else .next (s.testLink n)

/-- A test ends with the lanes and spares that failed (R461). -/
def State.endTest (s : State) (n : Nat) (bad : Word) (spareBad : BitVec 4) : State :=
  ((s.cset (dlbAddr n + 0x18) bad).csetField (lkstat n) 24 4 spareBad.toNat).csetField (lkstat n) 3 1 0

/-- Time goes on: a test that has not ended 50 µs after its start ends then, with the lanes that it finds (R461, log entry 51). -/
def State.testsAt (s : State) (t : Nat) : State :=
  s.links.foldl (fun (s : State) l =>
    if bitOf (s.cget (lkstat l.1)) 3 && decide (l.2.diagFrom + us 50 < t) then
      s.endTest l.1 (Config.badLanes l.1 l.2.diagFrom) (Config.badSpares l.1 l.2.diagFrom)
    else s) s

/-- DIAG_DONE (R461): the test ends with the lanes that failed. -/
def execDiagDone (n : Nat) (bad : Word) (spareBad : BitVec 4) (s : State) : Host.Outcome State Fault Refusal :=
  if linkCount ≤ n then .fault (.noSuchPart n)
  else if !(bitOf (s.cget (lkstat n)) 3) then .next s
  else .next (s.endTest n bad spareBad)

/-- A lane is active at a WIDTH code (R458, R459). -/
def laneActive (width lane : Nat) : Bool :=
  match width with
  | 1 => decide (lane < 32)
  | 2 => decide (32 ≤ lane)
  | _ => true

/-- The valid spares of LKSPARE: number and lane (R459). -/
def spares (w : Word) : List (Nat × Nat) :=
  ((List.range 4).filter (fun k => bitOf w (8 * k + 7))).map (fun k => (k, (field w (8 * k) 6).toNat))

/-- FAILCODE of a training at a width: 1 for spares in conflict, 3 for a bad lane that no spare covers, else none (R462). -/
def spareFailure (sp : Word) (bad : Word) (spareBad width : Nat) : Nat :=
  let v := spares sp
  if v.any (fun a => v.any (fun b => a.1 != b.1 && a.2 == b.2)) ||
      v.any (fun a => !(laneActive width a.2) || spareBad.testBit a.1) then 1
  else if (List.range 64).any (fun i => bitOf bad i && laneActive width i && !(v.any (fun a => a.2 == i))) then 3
  else 0

/-- Training starts at the WIDTH, RATE and LKSPARE in force, or fails by its checks (R462). -/
def State.trainLink (s : State) (n : Nat) : State :=
  let width := s.cfield (dlbAddr n) 4 2
  let rate := s.cfield (dlbAddr n) 8 2
  let s := s.csetField (lkstat n) 0 1 0
  match spareFailure (s.cget (dlbAddr n + 0x20)) (s.cget (dlbAddr n + 0x18)) (s.cfield (lkstat n) 24 4) width with
  | 0 => (s.csetField (lkstat n) 2 1 1).setLink n { s.linkOf n with trainFrom := s.now, width := width, rate := rate, fails := 0 }
  | code => s.trainFails n code

/-- RETRAIN (R462): accepted while IDLE is 1 or UP is 0. -/
def execRetrain (n : Nat) (s : State) : Host.Outcome State Fault Refusal :=
  if linkCount ≤ n then .fault (.noSuchPart n)
  else .next (if s.linkIdle n || !(s.linkUp n) then s.trainLink n else s)

/-- TRAINING_DONE (R462): within 100 µs the link is up at the width and rate it trained for, its replay buffer is sent, and
what waited for the link goes on (R460). -/
def execTrainingDone (n : Nat) (s : State) : Host.Outcome State Fault Refusal :=
  if linkCount ≤ n then .fault (.noSuchPart n)
  else
    let l := s.linkOf n
    if !(bitOf (s.cget (lkstat n)) 2) ∨ l.trainFrom + us 100 < s.now then .next s
    else
      let s := ((s.csetField (lkstat n) 2 1 0).csetField (lkstat n) 4 2 l.width).csetField (lkstat n) 8 2 l.rate
      let s := (s.failLink n 0).csetField (lkstat n) 0 1 1
      .next (State.pickUpAll { s with out := s.out ++ (List.range l.unacked).map (fun i => Msg.flit (16 + n) i) })

/-- TRAIN_TIMEOUT (R462): training has not ended in 100 µs. -/
def execTrainTimeout (n : Nat) (s : State) : Host.Outcome State Fault Refusal :=
  if linkCount ≤ n then .fault (.noSuchPart n)
  else if !(bitOf (s.cget (lkstat n)) 2) ∨ s.now < (s.linkOf n).trainFrom + us 100 then .next s
  else .next (s.trainFails n 2)

/-- Replayed flits counted; event 0x21 once for a window in which more than LIMIT are replayed (R463). -/
def State.countRetries (s : State) (n count : Nat) : State :=
  let l := s.linkOf n
  let window := us (s.cfield (dlbAddr n + 0x28) 32 16)
  let l := if l.windowFrom + window ≤ s.now then { l with windowFrom := s.now, inWindow := 0, told := false } else l
  let l := { l with inWindow := l.inWindow + count, unacked := max l.unacked count }
  let past := decide (s.cfield (dlbAddr n + 0x28) 0 32 < l.inWindow) && !l.told
  let s := (s.cbump (dlbAddr n + 0x10) 0 32 count).setLink n { l with told := l.told || past }
  if past then s.postEvent hubSeq0 0x21 n else s

/-- LINK_RETRY (R463): flits of a link were replayed. -/
def execLinkRetry (n count : Nat) (s : State) : Host.Outcome State Fault Refusal :=
  if linkCount ≤ n then .fault (.noSuchPart n) else .next (s.countRetries n count)

/-- A flit of a die-to-die link has failed once more; its eighth failure takes the link down (R437, R463). -/
def State.linkNak (s : State) (n seq : Nat) : State :=
  let s := s.countRetries n 1
  let l := s.linkOf n
  let fails := if l.failing = seq then l.fails + 1 else 1
  if fails < 8 then s.setLink n { l with failing := seq, fails := fails }
  else
    ((s.setLink n { l with failing := 0, fails := 0 }).csetField (lkstat n) 0 1 0).postEvent hubSeq0 0x22
      (s.cfield (lkstat n) 16 8 * 256 + n)

/-! ### Registers -/

/-- A write of LKCTL: WIDTH and RATE are stored, PAUSE acts by R460, and then DIAG and RETRAIN (R459). -/
def State.writeLkctl (s : State) (n : Nat) (v : Word) : State :=
  let width := (field v 4 2).toNat
  let rate := (field v 8 2).toNat
  let s := (s.csetField (dlbAddr n) 4 2 (if width = 3 then 0 else width)).csetField (dlbAddr n) 8 2 (if 2 ≤ rate then 0 else rate)
  let s := if bitOf v 0 then (if s.linkPaused n then s else s.pauseLink n) else (s.csetField (dlbAddr n) 0 1 0).pickUpAll
  let s := if bitOf v 2 then s.testLink n else s
  if bitOf v 1 && (s.linkIdle n || !(s.linkUp n)) then s.trainLink n else s

/-- A write of LKRETRY: 0 clears (R459). -/
def State.writeLkretry (s : State) (n : Nat) (v : Word) : State :=
  if field v 0 32 = 0 then s.cclear (dlbAddr n + 0x10) 0 32 else s

/-- A write of LKSPARE (R459). -/
def State.writeLkspare (s : State) (n : Nat) (v : Word) : State := s.cset (dlbAddr n + 0x20) (v &&& 0xBFBFBFBF)

/-- A write of LKTHR: a WINDOW of 0 leaves WINDOW unchanged (R459). -/
def State.writeLkthr (s : State) (n : Nat) (v : Word) : State :=
  let s := s.csetField (dlbAddr n + 0x28) 0 32 (field v 0 32).toNat
  if field v 32 16 = 0 then s else s.csetField (dlbAddr n + 0x28) 32 16 (field v 32 16).toNat

end Sys2Proof.Machine
end

