-- ==== Sys2Proof/Machine/Dies.lean ====
section
/-!
DEFINITION. The warm reset of one compute die (R464 to R469, R319).
-/
namespace Sys2Proof.Machine

/-- How many compute dies the module has (R1). -/
def dieCount : Nat := 4

/-- DRSTAT of a die (R465). -/
def drstat (d : Nat) : Nat := drbAddr d + 8

/-- A die beside its registers. -/
def State.dieOfNum (s : State) (d : Nat) : DieSt := tget {} s.dies d

/-- The module with a die replaced. -/
def State.setDie (s : State) (d : Nat) (x : DieSt) : State := { s with dies := tput s.dies d x }

/-- DRSTAT.TEAMSOUT (R465): no team is resident on the die's tiles. -/
def State.teamsOut (s : State) (d : Nat) : Bool :=
  s.sched.nodes.all (fun p => p.2.phase != .resident || p.2.cluster / 8 != d)

/-- DRSTAT.LINKSUP (R465): every link of the die is up. -/
def State.linksUp (s : State) (d : Nat) : Bool := (dieLinks d).all s.linkUp

/-- DRSTAT as it reads: TEAMSOUT and LINKSUP stand beside the stored fields. -/
def State.drstatView (s : State) (d : Nat) : Word :=
  setField (setField (s.cget (drstat d)) 8 (ofBool 1 (s.teamsOut d))) 12 (ofBool 1 (s.linksUp d))

/-- PHASE changed, with event 0x23 (R463, R466). -/
def State.setPhase (s : State) (d n : Nat) : State :=
  (s.csetField (drstat d) 0 3 n).postEvent hubSeq0 0x23 (n * 256 + d)

/-- FENCE and QUIESCE of DRCTL (R465). -/
def State.setFence (s : State) (d : Nat) (fence quiesce : Bool) : State :=
  s.cset (drbAddr d) (ofBool 64 fence ||| (ofBool 64 quiesce <<< 1))

/-- FENCE is set. -/
def State.fenceSet (s : State) (d : Nat) : Bool := bitOf (s.cget (drbAddr d)) 0

/-- QUIESCE is set. -/
def State.quiesceSet (s : State) (d : Nat) : Bool := bitOf (s.cget (drbAddr d)) 1

/-- DRAINED and WBDONE of DRSTAT (R465). -/
def State.drainedSet (s : State) (d : Nat) : Bool := bitOf (s.cget (drstat d)) 9
def State.wbdoneSet (s : State) (d : Nat) : Bool := bitOf (s.cget (drstat d)) 10

/-- A refused write of DRCTL (R466). -/
def State.refuse (s : State) (d : Nat) : State := s.csetField (drstat d) 11 1 1

/-- The clusters of a die. -/
def dieClusters (d : Nat) : List Nat := (List.range 8).map (fun c => 8 * d + c)

/-- Requests held for the engines of a die are released to them (R466). -/
def State.releaseAtoms (s : State) (d : Nat) : State :=
  (dieClusters d).foldl (fun (s : State) k =>
    let c := s.cluster k
    s.setCluster k { c with reqs := c.reqs.map (fun (r : AtomReq) => ({ r with held := false } : AtomReq)) }) s

/-- Every busy count of a granule homed on a die is zero (R466). -/
def State.countsClear (s : State) (d : Nat) : Bool :=
  s.busy.all (fun p => p.2 == 0 || decide (p.1 < 2 ^ 40 + 4096 * d) || decide (2 ^ 40 + 4096 * (d + 1) ≤ p.1))

/-- The units on a compute die: its tiles, and the sequencers of its cluster core regions (R473). -/
def dieUnits (d : Nat) : List Nat :=
  (List.range 128).map (fun i => 128 * d + i) ++ (List.range 16).map (fun i => 512 + 16 * d + i) ++ [576 + 2 * d, 577 + 2 * d]

/-- The sequencers of a compute die. -/
def dieSequencers (d : Nat) : List Nat := (List.range 16).map (fun i => 512 + 16 * d + i) ++ [576 + 2 * d, 577 + 2 * d]

/-- Every request that waits at an engine and is not held is applied, in the order of the grants (R92, R466). -/
def State.applyAll (s : State) (k : Nat) : Nat → State
  | 0 => s
  | n + 1 =>
    let c := s.cluster k
    match c.granted with
    | none => s
    | some q =>
      match c.firstReq q with
      | none => s
      | some r =>
        ((s.setCluster k { c with reqs := c.reqs.erase r, grantFrom := (q + 1) % 18 }).applyAtom k r).applyAll k n

/-! ### Steps of the procedure -/

/-- DIE_FENCE (R466): FENCE = 1 at PHASE 000; teams of the die are then pre-empted. -/
def execDieFence (d : Nat) (s : State) : Host.Outcome State Fault Refusal :=
  if dieCount ≤ d then .fault (.noSuchPart d)
  else .next (if s.diePhase d = 0 then s.setFence d true false else s.refuse d)

/-- TEAMSOUT (R466): no team is resident on the fenced die, and PHASE becomes 001. -/
def execTeamsout (d : Nat) (s : State) : Host.Outcome State Fault Refusal :=
  if dieCount ≤ d then .fault (.noSuchPart d)
  else .next (if s.diePhase d = 0 && s.fenceSet d && s.teamsOut d then s.setPhase d 1 else s)

/-- The QUIESCE write at PHASE 001 (R466). -/
def State.quiesceDie (s : State) (d : Nat) : State :=
  (s.setFence d true true).setDie d { s.dieOfNum d with limFrom := s.now }

/-- DIE_QUIESCE (R466): FENCE = QUIESCE = 1 at PHASE 001. -/
def execDieQuiesce (d : Nat) (s : State) : Host.Outcome State Fault Refusal :=
  if dieCount ≤ d then .fault (.noSuchPart d)
  else .next (if s.diePhase d = 1 then s.quiesceDie d else s.refuse d)

/-- DRAINED is set, and PHASE becomes 010 (R466). -/
def State.drainDie (s : State) (d : Nat) : State := (s.csetField (drstat d) 9 1 1).setPhase d 2

/-- DRAINED (R466): every busy count of the die's granules is zero. -/
def execDrained (d : Nat) (s : State) : Host.Outcome State Fault Refusal :=
  if dieCount ≤ d then .fault (.noSuchPart d)
  else .next (if s.diePhase d = 1 && s.quiesceSet d && s.countsClear d then s.drainDie d else s)

/-- DRLIM_EXPIRY (R466): LIM µs have passed since the QUIESCE write. -/
def execDrlimExpiry (d : Nat) (s : State) : Host.Outcome State Fault Refusal :=
  if dieCount ≤ d then .fault (.noSuchPart d)
  else
    let lim := us (s.cfield (drbAddr d + 0x10) 0 16)
    .next (if s.diePhase d = 1 && s.quiesceSet d && decide ((s.dieOfNum d).limFrom + lim ≤ s.now) then s.drainDie d else s)

/-- FENCE = QUIESCE = 0 at PHASE 001 or 010: HOLD is cleared, held requests are released, teams may come back, and suspended
collectives go on (R466). -/
def State.unfenceDie (s : State) (d : Nat) : State :=
  let s := ((s.setFence d false false).csetField (drstat d) 9 2 0).setDie d {}
  ((s.releaseAtoms d).setPhase d 0).pickUpAll.stir

/-- DIE_UNFENCE (R466). -/
def execDieUnfence (d : Nat) (s : State) : Host.Outcome State Fault Refusal :=
  if dieCount ≤ d then .fault (.noSuchPart d)
  else .next (if s.diePhase d = 1 || s.diePhase d = 2 then s.unfenceDie d else s.refuse d)

/-- The write-back: engines apply what they hold and write back every line, and TLBs are discarded; what the die must keep
lies in fields of the state that its reset leaves (R466). -/
def State.writeBackDie (s : State) (d : Nat) : State :=
  let s := (dieClusters d).foldl (fun (s : State) k =>
    (s.applyAll k (s.cluster k).reqs.length).writeBackLines k) s
  let s := (dieUnits d).foldl (fun (s : State) u => s.modUnit u (fun x => { x with tlb0 := [], tlb1 := [], tlbw := [] })) s
  s.setDie d { s.dieOfNum d with writing := true }

/-- WBACK (R91, R466): at PHASE 010. -/
def execWback (d : Nat) (s : State) : Host.Outcome State Fault Refusal :=
  if dieCount ≤ d then .fault (.noSuchPart d)
  else .next (if s.diePhase d = 2 then s.writeBackDie d else s.refuse d)

/-- WBDONE (R466): the write-back is complete. -/
def execWbdone (d : Nat) (s : State) : Host.Outcome State Fault Refusal :=
  if dieCount ≤ d then .fault (.noSuchPart d)
  else .next (if (s.dieOfNum d).writing && s.diePhase d = 2 then
    (s.csetField (drstat d) 10 1 1).setDie d { s.dieOfNum d with writing := false } else s)

/-- A unit after its die was reset: all of it is lost; columns are measured anew (R319, R468, R474). -/
def lostUnit (x : Unit) : Unit := { serial := x.serial, vgen := x.vgen + 1, events := x.events }

/-- The reset: units, FIDLIM and atomic lines of the die are lost, and its regions are switched off (R319, R466, R468, R478). -/
def State.resetDieNow (s : State) (d : Nat) : State :=
  let s := (dieUnits d).foldl (fun (s : State) u => s.modUnit u lostUnit) s
  let s := (dieClusters d).foldl (fun (s : State) k => s.cset (fidlimAddr k) 2) s
  let s := s.switchOff (dieRegions d)
  (s.setDie d { s.dieOfNum d with resetFrom := s.now }).setPhase d 3

/-- The conditions of a reset (R466, R468). -/
def State.mayReset (s : State) (d : Nat) : Bool :=
  s.diePhase d == 2 && s.teamsOut d && s.drainedSet d && s.wbdoneSet d && s.ho.goAt.isNone

/-- DIE_RESET (R466): the compute die is held in reset, or the write is refused. -/
def execDieReset (d : Nat) (s : State) : Host.Outcome State Fault Refusal :=
  if dieCount ≤ d then .fault (.noSuchPart d)
  else .next (if s.mayReset d then s.resetDieNow d else s.refuse d)

/-- DIE_RESET_RELEASE (R466): after 200 µs the die's sequencers are reloaded and started, and PHASE becomes 100. -/
def execDieResetRelease (d : Nat) (s : State) : Host.Outcome State Fault Refusal :=
  if dieCount ≤ d then .fault (.noSuchPart d)
  else if s.diePhase d ≠ 3 ∨ s.now < (s.dieOfNum d).resetFrom + us 200 then .next s
  else .next (((dieSequencers d).foldl State.startSequencer s).setPhase d 4)

/-- Each link of a die trains at its own LKCTL and LKSPARE (R466). -/
def State.trainDie (s : State) (d : Nat) : State := (dieLinks d).foldl State.trainLink s

/-- DIE_TRAIN (R466): at PHASE 100. -/
def execDieTrain (d : Nat) (s : State) : Host.Outcome State Fault Refusal :=
  if dieCount ≤ d then .fault (.noSuchPart d)
  else .next (if s.diePhase d = 4 then s.trainDie d else s.refuse d)

/-- The admission begins: FENCE and QUIESCE are cleared, comm masters are appointed and the regions switch on (R466,
R478). -/
def State.admitDie (s : State) (d : Nat) : State :=
  let s := ((s.setFence d false false).setPhase d 5).switchDie d
  { s with leads := s.leads.filter (fun p => p.1 / 8 != d) }

/-- DIE_ADMIT (R466): at PHASE 100 with LINKSUP. -/
def execDieAdmit (d : Nat) (s : State) : Host.Outcome State Fault Refusal :=
  if dieCount ≤ d then .fault (.noSuchPart d)
  else .next (if s.diePhase d = 4 && s.linksUp d then s.admitDie d else s.refuse d)

/-- DIE_ADMIT_DONE (R466): HOLD, DRAINED and WBDONE are cleared, held requests are released, collectives resume and PHASE
returns to 000. -/
def execDieAdmitDone (d : Nat) (s : State) : Host.Outcome State Fault Refusal :=
  if dieCount ≤ d then .fault (.noSuchPart d)
  else if s.diePhase d ≠ 5 then .next s
  else
    let s := (((s.csetField (drstat d) 9 2 0).setDie d {}).releaseAtoms d).setPhase d 0
    .next (s.resumeColls (fun c => dieOf c.unit == d)).stir

/-! ### Registers -/

/-- A write of DRCTL by PHASE (R466). -/
def State.writeDrctl (s : State) (d : Nat) (v : Word) : State :=
  match s.diePhase d, (field v 0 6).toNat with
  | 0, 0x01 => s.setFence d true false
  | 1, 0x03 => s.quiesceDie d
  | 1, 0x00 => s.unfenceDie d
  | 2, 0x00 => s.unfenceDie d
  | 2, 0x07 => s.writeBackDie d
  | 2, 0x0B => if s.mayReset d then s.resetDieNow d else s.refuse d
  | 4, 0x23 => s.trainDie d
  | 4, w => if w &&& 0x3C = 0x10 ∧ s.linksUp d then s.admitDie d else s.refuse d
  | _, _ => s.refuse d

/-- A write of DRSTAT: STRAYS written 0 is cleared, REFUSED is cleared by 1 (R465). -/
def State.writeDrstat (s : State) (d : Nat) (v : Word) : State :=
  let s := if field v 32 16 = 0 then s.cclear (drstat d) 32 16 else s
  if bitOf v 11 then s.csetField (drstat d) 11 1 0 else s

/-- A write of DRLIM (R465). -/
def State.writeDrlim (s : State) (d : Nat) (v : Word) : State :=
  s.csetField (drbAddr d + 0x10) 0 16 (within 1 1000 100 (field v 0 16).toNat)

/-- DIEUP (R464): the dies of PHASE 000 that are not shed. -/
def State.dieUp (s : State) : Nat :=
  (List.range dieCount).foldl (fun n d => if s.diePhase d = 0 ∧ !(s.isShed d) then n + 2 ^ d else n) 0

/-- NOWNS (R464): nanoseconds since the last module reset or Dawn. -/
def State.nowNs (s : State) : Nat := (s.now - s.root.bootAt) / 90

end Sys2Proof.Machine
end

