-- ==== Sys2Proof/Machine/Root.lean ====
section
/-!
DEFINITION. The root sequencer's work: the live handover (R450 to R455), the watchdog (R453, R454) and attestation (R456,
R457).
-/
namespace Sys2Proof.Machine

/-! ### Handover -/

/-- HOSTAT with the result of a handover, and vector 2 (R445, R454). -/
def State.setHostat (s : State) (code : Nat) : State := (s.csetField (rob + 0x18) 0 8 code).raiseVector 2

/-- The image set at an address of DRAM: three images one after another in KIND order (R446, log entry 55). -/
def State.readImages (s : State) (a : Nat) : Tbl (List Byte) :=
  let img (a : Nat) : List Byte := s.dread a (imgLength (s.dread a 256))
  let b1 := img a
  let b2 := img (a + b1.length)
  let b3 := img (a + b1.length + b2.length)
  [(1, b1), (2, b2), (3, b3)]

/-- Why an image set is refused: 0x05 where a form or signature fails, 0x06 for an SVN below the fused one (R446, R454). -/
def State.refusal (s : State) (t : Tbl (List Byte)) : Option Nat :=
  if [1, 2, 3].any (fun k => !(imageFormed k (tget [] t k) && imageSigned (tget [] t k))) then some 5
  else if [1, 2, 3].any (fun k => decide (imgSvn (tget [] t k) < s.fusedSvn k)) then some 6
  else none

/-- Every sequencer changed. -/
def State.modSequencers (s : State) (f : Nat → Unit → Unit) : State :=
  sequencers.foldl (fun (s : State) u => s.modUnit u (f u)) s

/-- A GO (R450, R468, R497): BUSY while a handover runs, a die is shed or in warm reset; the new images are verified and
loaded into the idle banks, or refused. -/
def State.startHandover (s : State) : State :=
  if s.dusk.midnight then s
  else if s.ho.goAt.isSome || (List.range dieCount).any (fun d => s.isShed d || s.diePhase d != 0) then s.setHostat 7
  else if !s.noon then s
  else
    let t := s.readImages (s.cget rob).toNat
    match s.refusal t with
    | some code => s.setHostat code
    | none =>
      { s.modSequencers (fun _ x => { x with hostate := 1, role := false, hofin := false }) with
        ho := { goAt := some s.now, idle := t } }

/-- A write of HOCTL: GO starts a handover (R454). -/
def State.writeHoctl (s : State) (v : Word) : State := if bitOf v 0 then s.startHandover else s

/-- HANDOVER_GO (R450, R454). -/
def execHandoverGo (v : Word) (s : State) : Host.Outcome State Fault Refusal := .next (s.writeHoctl v)

/-- A new image started in a sequencer's idle bank: the data store stays but for the image's data section, and the events
that it has not taken queue (R450, R452). -/
def newUnit (x : Unit) (b : List Byte) (now : Nat) : Unit :=
  { bootUnit { x with sb := mwrite x.sb (imgDataOff b) (imgData b), events := [] } b now with role := true, hostate := 2 }

/-- START (R450, R452): every old image stops and is kept as it stands, and every new image starts. -/
def State.beginNew (s : State) : State :=
  let kept : Tbl Unit := sequencers.map (fun u => (u, s.unit u))
  let queued := sequencers.flatMap (fun u => (s.unit u).events.map (fun e => (u, e)))
  let t := s.ho.idle
  { s.modSequencers (fun u x => newUnit x (tget [] t (seqKind u)) s.now) with
    ho := { s.ho with old := kept }
    hoStart := some s.now
    heldEvents := queued ++ s.heldEvents }

/-- A handover ends: its queued events go to the images that run now (R450, R452). -/
def State.endHandover (s : State) (code : Nat) : State :=
  { (s.setHostat code).deliverEvents with ho := {}, hoStart := none }

/-- Every old image restarts at its handover point, as it stood at START (R450). -/
def State.restartOld (s : State) (code : Nat) : State :=
  let s := s.ho.old.foldl (fun (s : State) p =>
    s.setUnit p.1 { p.2 with events := [], kicked := s.now, hostate := 0, role := false, hofin := false }) s
  s.endHandover code

/-- A handover that has not reached START ends: the idle banks are dropped (R450). -/
def State.dropHandover (s : State) (code : Nat) : State :=
  (s.modSequencers (fun _ x => { x with hostate := 0 })).endHandover code

/-- Every sequencer has acknowledged, and every one has finished (R450). -/
def State.allAcked (s : State) : Bool := sequencers.all (fun u => (s.unit u).hostate == 3)
def State.allFinished (s : State) : Bool := sequencers.all (fun u => (s.unit u).hofin)

/-- The commit (R447, R449, R450): the new set is the one that starts from now on, MEAS5 is extended and the fused SVN
raised. -/
def State.commitHandover (s : State) : State :=
  let t := s.ho.idle
  let s := s.modSequencers (fun _ x => { x with hostate := 4, hofin := false })
  let s := s.extendMeas 5 (imageName t)
  let svn : Tbl Nat := [1, 2, 3].foldl (fun (v : Tbl Nat) k => tput v k (max (s.fusedSvn k) (imgSvn (tget [] t k)))) s.root.svn
  { s with root := { s.root with images := t, svn := svn } }.endHandover 1

/-- A write of HOACK by a sequencer (R450, R453): 3 by an old image within 100 ms of GO brings START; 1 and 2 count within 50
and 250 ms of START; once a sequencer has halted, the handover ends with a restart of the old images, and none counts. -/
def State.hoack (s : State) (u : Nat) (v : Word) : State :=
  if sequencers.any (fun w => (s.unit w).run == .seqHalted) then s
  else
  match s.ho.goAt, s.hoStart with
  | some g, none =>
    if v = 3 ∧ s.now ≤ g + us 100000 then
      (s.modUnit u (fun x => { x with hostate := 2 })).beginNew
    else s
  | some _, some t =>
    let s :=
      if v = 1 ∧ s.now ≤ t + us 50000 then s.modUnit u (fun x => { x with hostate := 3 })
      else if v = 2 ∧ s.now ≤ t + us 250000 then s.modUnit u (fun x => { x with hofin := true })
      else s
    if s.allAcked && s.allFinished then s.commitHandover else s
  | _, _ => s

/-- A unit that is a sequencer of the module. -/
def isSequencer (u : Nat) : Bool := decide (512 ≤ u) && decide (u < unitCount)

/-- HOACK (R450, R453). -/
def execHoack (u : Nat) (v : Word) (s : State) : Host.Outcome State Fault Refusal :=
  if !(isSequencer u) then .fault (.noSuchPart u) else .next (s.hoack u v)

/-- The result of a handover that fails after START: a missing acknowledgement, else a missing finish (R454). -/
def State.rollbackCode (s : State) : Nat := if s.allAcked then 3 else 2

/-- HANDOVER_DEADLINE (R450): 100 ms after GO without the blob, 50 ms or 250 ms after START without every acknowledgement or
finish. -/
def execHandoverDeadline (s : State) : Host.Outcome State Fault Refusal :=
  match s.ho.goAt, s.hoStart with
  | some g, none => .next (if g + us 100000 ≤ s.now then s.dropHandover 8 else s)
  | some _, some t =>
    if t + us 50000 ≤ s.now ∧ !s.allAcked then .next (s.restartOld 2)
    else if t + us 250000 ≤ s.now then .next (s.restartOld s.rollbackCode)
    else .next s
  | _, _ => .next s

/-- Twilight or Dusk abandons a handover whose commit is not recorded (R433, R497). -/
def State.abandonHandover (s : State) : State :=
  if s.ho.goAt.isNone then s
  else if s.hoStart.isSome then s.restartOld 4 else s.dropHandover 4

/-! ### Watchdog -/

/-- WDKICK (R453, R454). -/
def execWdkick (u : Nat) (s : State) : Host.Outcome State Fault Refusal :=
  if !(isSequencer u) then .fault (.noSuchPart u) else .next (s.modUnit u (fun x => { x with kicked := s.now }))

/-- WATCHDOG_EXPIRY (R454): WDKICK unwritten for 10 ms; the sequencer stops until the root restarts it. -/
def execWatchdogExpiry (u : Nat) (s : State) : Host.Outcome State Fault Refusal :=
  if !(isSequencer u) then .fault (.noSuchPart u)
  else
    let x := s.unit u
    if x.run ≠ .running ∨ !(s.powered u) ∨ s.now < x.kicked + us 10000 then .next s
    else .next ((s.setUnit u { x with run := .seqHalted }).postNotice 3 u)

/-- The spare comm sequencer of a cluster becomes its master: chunks in slots and pool are lost and asked for again (R333,
R454). -/
def State.appointSpare (s : State) (k : Nat) : State :=
  let s := { s with leads := tput s.leads k (1 - tget 0 s.leads k % 2) }
  (s.colls.filter (fun c => clusterOf c.unit == k && c.ended.isNone)).foldl (fun (s : State) c =>
    c.held.foldl (fun (s : State) h =>
      match s.collOf c.unit c.serial with
      | none => s
      | some d => s.reclaim d h) s) s

/-- SEQUENCER_RESTART (R333, R445, R454): a halted sequencer starts at its image's ENTRY as at boot, after the spare has been
appointed where it was a comm master, or, during a handover, every old image restarts. -/
def execSequencerRestart (u : Nat) (s : State) : Host.Outcome State Fault Refusal :=
  if !(isSequencer u) then .fault (.noSuchPart u)
  else if (s.unit u).run ≠ .seqHalted then .next s
  else if s.hoStart.isSome then .next ((s.restartOld s.rollbackCode).pickUpAll.raiseVector 3)
  else
    let s := if s.ho.goAt.isSome then s.dropHandover 2 else s
    let s := if unitKind u = .comm ∧ u = s.masterOf (clusterOf u) then s.appointSpare (clusterOf u) else s
    .next ((s.startSequencer u).pickUpAll.raiseVector 3)

/-! ### Die-control registers -/

/-- HOSTATE of a unit as it reads (R453). -/
def Unit.hostateView (x : Unit) : Word := BitVec.ofNat 64 (x.hostate % 8) ||| (ofBool 64 x.role <<< 8)

/-- EVPOP (R453): the next event leaves the queue; it answers zero when there is none. -/
def execEvpop (u : Nat) (s : State) : Host.Outcome State Fault Refusal :=
  if !(isSequencer u) then .fault (.noSuchPart u)
  else .next (s.modUnit u (fun x => { x with events := x.events.drop 1 }))

/-! ### Attestation -/

/-- A write of ATTGO (R456): a request while a report is being made is ignored. -/
def State.writeAttgo (s : State) (v : Word) : State :=
  if !(bitOf v 0) ∨ s.root.att.isSome then s
  else
    let nonce := (List.range 4).flatMap (fun i => toBytes (s.cget (rob + 0x40 + 8 * i)) 8)
    { s with root := { s.root with att := some (nonce, (s.cget (rob + 0x60)).toNat / 64 * 64) } }

/-- ATTGO (R456). -/
def execAttgo (v : Word) (s : State) : Host.Outcome State Fault Refusal := .next (s.writeAttgo v)

/-- The signed part of a report, bytes 0x000 to 0x1FF (R457). -/
def State.reportBody (s : State) (nonce : List Byte) : List Byte :=
  natBytes 4 0x54535441 ++ natBytes 2 2 ++ natBytes 2 s.modnum ++ nonce ++ (List.range 48).map Config.deviceId ++
    (List.range 6).flatMap s.meas ++
    natBytes 8 (s.fusedSvn 1 % 256 + 256 * (s.fusedSvn 3 % 256) + 65536 * (s.fusedSvn 2 % 256)) ++
    toBytes (s.cget (dcb + 0x40)) 8 ++
    natBytes 8 (256 * s.cfield (rob + 0x18) 0 8 + 16 * s.cfield (dcb + 0x30) 8 4 + s.duskPhase) ++ List.replicate 112 0

/-- The report of 17,120 bytes, with both signatures (R457). -/
def State.report (s : State) (nonce : List Byte) : List Byte :=
  let m := s.reportBody nonce
  m ++ (List.range 384).map (Config.rsaSignature m) ++ (List.range 16224).map (Config.slhSignature m)

/-- ATTESTATION_REPORT (R445, R456): the report is written at ATTADR, in DRAM where the address is populated and else in host
memory, which the module reaches by the bridge (R444), and vector 4 is raised. -/
def execAttestationReport (s : State) : Host.Outcome State Fault Refusal :=
  match s.root.att with
  | none => .next s
  | some (nonce, a) =>
    let bs := s.report nonce
    let s := { s with root := { s.root with att := none } }
    .next ((if populated a then s.dwrite a bs else { s with host := mwrite s.host a bs }.hostWrites false a bs).raiseVector 4)

end Sys2Proof.Machine
end

