-- ==== Sys2Proof/Machine/Dusk.lean ====
section
/-!
DEFINITION. Dusk, the drain and Twilight (R300 to R303, R416 to R429, R433, R434).
-/
namespace Sys2Proof.Machine

/-! ### Lists -/

/-- A value put into a list before the first one that it precedes. -/
def insertBy {α : Type} (le : α → α → Bool) (x : α) : List α → List α
  | [] => [x]
  | y :: ys => if le x y then x :: y :: ys else y :: insertBy le x ys

/-- A list in rising order; equal values keep their order. -/
def sortBy {α : Type} (le : α → α → Bool) : List α → List α
  | [] => []
  | x :: xs => insertBy le x (sortBy le xs)

/-! ### The priority list -/

/-- DSTAT (R416). -/
def dstat : Nat := dcb + 0x30

/-- PLN and PLBASE (R416). -/
def State.plCount (s : State) : Nat := s.cfield (dcb + 0x10) 0 13
def State.plBase (s : State) : Nat := s.cfield (dcb + 8) 6 36 * 64

/-- The bytes of a list entry (R417). -/
def State.plEntry (s : State) (i : Nat) : List Byte := s.dread (s.plBase + 32 * i) 32

/-- Fields of a list entry (R417). -/
def plSeg (e : List Byte) : Bool := decide (128 ≤ recNat e 7 1)
def plAddr (e : List Byte) : Nat := recNat e 0 8 % 2 ^ 52
def plLen (e : List Byte) : Nat := recNat e 8 4
def plAspace (e : List Byte) : Nat := recNat e 0x0C 2
def plRank (e : List Byte) : Nat := recNat e 0x0E 1

/-- A list entry is valid: its zero fields are zero, BASE is aligned, and the root that its space uses has V set (R417). -/
def State.plValid (s : State) (e : List Byte) : Bool :=
  recNat e 0 8 / 2 ^ 52 % 2 ^ 11 == 0 && recNat e 0x0F 1 == 0 && plAddr e % 65536 == 0 &&
  (let r := s.spaceRoots (plAspace e)
   bitOf (if plSeg e then r.2 else r.1) 0)

/-- The valid entries of the list in the order of the drain (R418). -/
def State.plOrder (s : State) : List Nat :=
  sortBy (fun a b => decide (plRank (s.plEntry a) ≤ plRank (s.plEntry b)))
    ((List.range s.plCount).filter (fun i => s.plValid (s.plEntry i)))

/-- Units of ranges sorted by space and start, each counted once, after those below `top` of the space before (R416). -/
def unionUnits : Nat → Nat → List (Nat × Nat × Nat) → Nat
  | _, _, [] => 0
  | key, top, (k, lo, n) :: rs =>
    let first := if k = key then max lo top else lo
    (lo + n - first) + unionUnits k (if k = key then max top (lo + n) else lo + n) rs

/-- The distinct units that the valid entries cover (R416). -/
def State.plUnits (s : State) : Nat :=
  let rs := s.plOrder.map (fun i =>
    let e := s.plEntry i
    (plAspace e * 2 + (if plSeg e then 1 else 0), plAddr e / 65536, plLen e))
  unionUnits 0 0 (sortBy (fun a b => decide (a.1 < b.1) || (a.1 == b.1 && decide (a.2.1 ≤ b.2.1))) rs)

/-- A number of bytes in GB, rounded up (R416). -/
def ceilGb (n : Nat) : Nat := (n + 999999999) / 1000000000

/-- A write of PLN: at Noon, with LISTGB and FITS (R416). -/
def State.writePln (s : State) (v : Word) : State :=
  if !s.noon then s
  else
    let s := s.csetField (dcb + 0x10) 0 13 (min 4096 (field v 0 13).toNat)
    let gb := ceilGb (65536 * s.plUnits)
    (s.csetField (dcb + 0x48) 32 32 gb).csetField (dcb + 0x48) 0 1 (if gb ≤ 640 then 1 else 0)

/-- PLN_WRITE (R416). -/
def execPlnWrite (v : Word) (s : State) : Host.Outcome State Fault Refusal := .next (s.writePln v)

/-- A write of HIBCFG: ignored while a pool reservation is held (R416). -/
def State.writeHibcfg (s : State) (v : Word) : State :=
  if s.poolUsed ≠ 0 then s
  else s.cset (dcb + 0x18) (BitVec.ofNat 64 (within 800 2000 1000 (field v 0 12).toNat))

/-- HIBCFG_WRITE (R416). -/
def execHibcfgWrite (v : Word) (s : State) : Host.Outcome State Fault Refusal := .next (s.writeHibcfg v)

/-- The reserve charges: the supply is present and PF_WARN_L is deasserted (R501). -/
def State.charging (s : State) : Bool := !s.dusk.warn && s.dusk.supply

/-- The usable energy of the reserve now: what it held, and what was charged since at 400 W up to CAP (R501). -/
def State.usableNow (s : State) : Nat :=
  let u := s.dusk.reserve
  if s.charging then max u (min (s.cfield (dcb + 0x50) 48 16) (u + 400 * (s.now - s.dusk.chargedAt) / us 1000000)) else u

/-- The charge gained so far counts as held, and charging goes on from now (R501). -/
def State.bankCharge (s : State) : State := { s with dusk := { s.dusk with reserve := s.usableNow, chargedAt := s.now } }

/-- What the module has drawn from the reserve is gone: where it does not charge, it holds a free value, no more than before
(R422, R491, log entry 44). -/
def State.spendReserve (s : State) : State :=
  let s := s.bankCharge
  if s.charging then s
  else { s with free := s.free + 1, dusk := { s.dusk with reserve := min s.dusk.reserve (Config.reserveLeft s.free) } }

/-- USABLE as a refresh finds it: measured the first time; then what R501 gives while the reserve charges, and what was measured
while the module draws on it, no more than it held (R492, R501). -/
def State.usableRead (s : State) (cap usable : Nat) : Nat :=
  min (cap % 65536) (match s.dusk.refreshed with
    | none => usable % 65536
    | some _ => if s.charging then s.usableNow else min s.usableNow (usable % 65536))

/-- RSVSTAT_REFRESH (R492, R501): every 100 ms but in PL4, with the capacity and the self-test as measured; FAULT is sticky,
and CYCLES never falls. -/
def execRsvstatRefresh (cap usable cycles : Nat) (fault : Bool) (s : State) : Host.Outcome State Fault Refusal :=
  if s.dusk.midnight ∨ s.dusk.refreshed.any (fun t => decide (s.now < t + us 100000)) then .next s
  else
    let w := s.cget (dcb + 0x50)
    let u := s.usableRead cap usable
    let s := { s with dusk := { s.dusk with reserve := u, chargedAt := s.now, refreshed := some s.now } }
    .next (s.cset (dcb + 0x50)
      (BitVec.ofNat 64 (cap % 65536 * 2 ^ 48 + max (field w 16 16).toNat (min 65535 cycles) * 65536 + u) |||
        (ofBool 64 (bitOf w 32 || fault) <<< 32)))

/-- A write of SHEDORD: each part keeps its value where the new one is not allowed (R416). -/
def State.writeShedord (s : State) (v : Word) : State :=
  let ds := (List.range 4).map (fun i => (field v (4 * i) 4).toNat)
  let s := if [0, 1, 2, 3].all ds.contains then s.csetField (dcb + 0x20) 0 16 (field v 0 16).toNat else s
  if (field v 16 3).toNat ≤ 4 then s.csetField (dcb + 0x20) 16 3 (field v 16 3).toNat else s

/-- A write of SHEDTIM (R416). -/
def State.writeShedtim (s : State) (v : Word) : State :=
  let s := s.csetField (dcb + 0x28) 0 16 (within 1 1000 (s.cfield (dcb + 0x28) 0 16) (field v 0 16).toNat)
  s.csetField (dcb + 0x28) 32 16 (within 10 10000 (s.cfield (dcb + 0x28) 32 16) (field v 32 16).toNat)

/-- The tiles that the state lists. -/
def State.tiles (s : State) : List Nat := (s.units.map (·.1)).filter isTile

/-! ### The system state -/

/-- The byte addresses that the drain saves of DRAM beside the list's units and their records: the address-space table, every
table of the translation that an entry of it reaches, and the list (R420). -/
def State.isTableByte (s : State) (a : Nat) : Bool :=
  let space := s.cfield trb 20 22 * 2 ^ 20
  let roots := (s.dram.filterMap (fun c =>
    if space ≤ c.1 ∧ c.1 < space + 2 ^ 20 then some ((c.1 - space) / 16) else none)).dedup.map s.spaceRoots
  let below (table entries : Nat) : List Nat :=
    (List.range entries).filterMap (fun i =>
      let w := s.dword (table + 8 * i)
      if bitOf w 0 && !(bitOf w 1) then some ((field w 8 34).toNat * 256) else none)
  let l0 := roots.filterMap (fun r => rootTable r.1 14)
  let l1 := l0.flatMap (fun t => below t 2048)
  let l2 := l1.flatMap (fun t => below t 2048)
  let l3 := l2.flatMap (fun t => below t 512)
  let g0 := roots.filterMap (fun r => rootTable r.2 15)
  let g1 := g0.flatMap (fun t => (List.range 4096).filterMap (fun i => rootTable (s.dword (t + 8 * i)) 15))
  let inside (ts : List Nat) (n : Nat) : Bool := ts.any (fun t => decide (t ≤ a) && decide (a < t + n))
  (decide (space ≤ a) && decide (a < space + 2 ^ 20)) || inside l0 16384 || inside l1 16384 || inside l2 4096 ||
    inside l3 256 || inside g0 32768 || inside g1 32768 ||
    (decide (s.plBase ≤ a) && decide (a < s.plBase + 32 * s.plCount))

/-- The place of a list unit, where it is mapped to a local frame or a granule (R418). -/
def State.unitAt (s : State) (e : List Byte) (j : Nat) : Option Loc :=
  let va := plAddr e + 65536 * j
  match s.walk (plSeg e) (plAspace e) va with
  | none => none
  | some x => if x.db || x.place == .host then none else some (x.loc va)

/-- The first blocks of the frames that the list covers, 16 to a frame (R397, R418). -/
def State.listedBlocks (s : State) : List Nat :=
  s.plOrder.flatMap (fun i =>
    let e := s.plEntry i
    (List.range (plLen e)).filterMap (fun j =>
      match s.unitAt e j with
      | some l => if l.place = .dram then some (s.readAt l.addr / 4096) else none
      | none => none))

/-- The side-table records of the compressed blocks of the frames that begin with some blocks (R397, R420). -/
def State.recordsOf (s : State) (firsts : List Nat) : Memory :=
  let md := s.cfield (trb + 8) 20 22 * 2 ^ 20
  s.dram.filter (fun c =>
    let k := (c.1 - md) / 16
    decide (md ≤ c.1) && s.cbits.contains k && firsts.any (fun b => decide (b ≤ k) && decide (k < b + 16)))

/-- HRANK of a node (R17). -/
def Node.hrank (x : Node) : Nat := recNat x.card 3 1

/-- The teams to save, in ascending HRANK, graph serial and node index (R421). -/
def State.teamOrder (s : State) : List Nat :=
  let key (n : Nat) : List Nat := let x := s.node n; [x.hrank, x.graph, x.index]
  let le (a b : Nat) : Bool := decide (key a ≤ key b)
  sortBy le ((s.sched.nodes.filter (fun p => p.2.phase == .resident || p.2.phase == .swapped)).map (·.1))

/-- The context of a team, member by member (R421). -/
def State.teamContext (s : State) (n : Nat) : Tbl Unit :=
  let x := s.node n
  if x.phase = .swapped then tget [] s.saved n else x.units.map (fun u => (u, s.unit u))

/-- The system state as it stands (R420). -/
def State.image (s : State) : SysImage :=
  { ctl := s.ctl, clusters := s.clusters, sched := s.sched, cbits := s.cbits, busy := s.busy, held := s.held, stays := s.stays
    invWait := s.invWait, migrators := s.migrators, indirect := s.indirect, pcs := s.pcs, calPend := s.calPend
    colls := s.colls, endedColls := s.endedColls, poolKept := s.poolKept, darkMods := s.darkMods, routes := s.routes
    versions := s.versions, ports := s.ports, heldEvents := s.heldEvents
    tables := s.dram.filter (fun c => s.isTableByte c.1), records := s.recordsOf s.listedBlocks, hostReset := s.hostReset
    calcnts := s.tiles.map (fun u => (u, (s.unit u).calcnt))
    counts := s.teamOrder.map (fun n => (n, (s.teamContext n).flatMap (fun p => (p.2.q0 ++ p.2.q1).flatMap (·.counted)))) }

/-- The bytes of a system state, at most 12 GB (R420, log entry 56). -/
def sysBytes (m : SysImage) : List Byte := (Config.sysEncoding m).take 12000000000

/-! ### The warning -/

/-- DSTAT.PHASE changed, with vector 1 (R416, R445). -/
def State.setDuskPhase (s : State) (n : Nat) : State := (s.csetField dstat 0 3 n).raiseVector 1

/-- A trap of the supply reaches a tile that runs a task, one that SHADELIM holds included: it is ready or held, with a budget of
2,048 bundles and 20 µs; a member that has executed `END` is kept as it stands (R300, R303). -/
def Unit.warn (now : Nat) (c : Cause) (val : Nat) (x : Unit) : Unit :=
  match (if x.run = .frozen then x.was else x.run) with
  | .running =>
    ({ x with
      pend := x.pend ++ [{ cause := c, resume := none, val := BitVec.ofNat 64 val, rollback := false, handler := x.handler }]
      duskDeadline := some (now + us 20) } : Unit).setBudget 2048
  | .ending => { x with run := .halted, was := .ending : Unit }.stopCopies now
  | .faulting => { x with run := .halted, was := .faulting : Unit }.stopCopies now
  | _ => x

/-- The supply's trap for the task of a tile; a team that is being swapped out takes none (R300, R303). -/
def State.warnTile (c : Cause) (val : Nat) (s : State) (u : Nat) : State :=
  if (s.unit u).team.any (fun n => (s.node n).leaving) then s else s.modUnit u (Unit.warn s.now c val)

/-- A migration in progress ends MIGRATION_BUSY, its leaf unchanged; a fallback copy leaves the frame as it was (R419). -/
def State.stopMigrator (s : State) (d : Nat) : State :=
  match (s.migrator d).page with
  | none => s
  | some x =>
    let k := stackDie x.base
    let t := tget [] s.indirect k
    let mine (e : Indirect) : Bool := e.copying && x.frames.contains e.old
    let t := (t.filter (fun e => !(mine e) || e.src != e.old)).map (fun e =>
      if mine e then { e with new := e.src, copying := false } else e)
    let s := if (s.migrator d).copying then { s with indirect := tput s.indirect k t } else s
    (s.unhold d).endRequest d 0x02

/-- A handover whose commit is not recorded is abandoned at the warning; its queued events are kept for the drain (R433). -/
def State.duskHandover (s : State) : State :=
  if s.ho.goAt.isNone then s
  else
    let s := s.ho.old.foldl (fun (s : State) p => s.setUnit p.1 { p.2 with events := [], hostate := 0 }) s
    { (s.setHostat 4).csetField dstat 18 1 1 with ho := {}, hoStart := none }

/-- Dusk begins: the six steps of R419; the system state that the drain writes is what they leave (R420). -/
def State.startDusk (s : State) (forced : Bool) : State :=
  if !s.noon then s
  else
    let s := (s.csetField dstat 16 3 0).cset (dcb + 0x38) 0
    let s := s.duskHandover.setDuskPhase 1
    let s := { s with dusk := { s.dusk with
      warnAt := s.now, forced := forced, shedding := none, drained := [], done := [], extents := [], unit := 0
      plan := s.plOrder } }
    let at0 : AtWarn := { dram := s.dram, indirect := s.indirect, ctl := s.ctl, image := {} }
    let s := s.tiles.foldl (State.warnTile .dusk 0) s
    let s := s.notice (.dark s.modnum)
    let s := (List.range 4).foldl State.stopMigrator s
    let s := (List.range 32).foldl State.writeBackLines s
    { s with dusk := { s.dusk with atWarn := some { at0 with image := s.image } } }

/-- DCTL_FORCE (R416, R419). -/
def execDctlForce (s : State) : Host.Outcome State Fault Refusal := .next (s.startDusk true)

/-- A Dawn that is under way ends in Midnight again, with no drain, and its manifest stays resumable (R431, R434). -/
def State.breakDawn (s : State) : State :=
  if s.dusk.dawn then { s.csetField dstat 0 3 3 with dusk := { s.dusk with dawn := false } } else s

/-- PF_WARN_L (R300, R419, R431, R501): asserted at Noon, Dusk begins; asserted in a Dawn, the module returns to Midnight.
Charging stops or starts here, and what a module that has not slept since the warning drew is gone. -/
def execPfWarnL (asserted : Bool) (s : State) : Host.Outcome State Fault Refusal :=
  let d := s.dusk
  let s := if d.warn == asserted && d.supply then s
    else if d.warn && !asserted && !d.midnight then s.spendReserve else s.bankCharge
  let s := { s with dusk := { s.dusk with
    warn := asserted, supply := d.supply || !asserted, calmFrom := if d.warn && !asserted then s.now else d.calmFrom } }
  .next (if asserted then s.breakDawn.startDusk false else s)

/-- THERMAL_TRIP (R488): a junction of the cluster has stayed at 115.0 °C or above for 10 ms. -/
def execThermalTrip (k : Nat) (s : State) : Host.Outcome State Fault Refusal :=
  if 32 ≤ k then .fault (.noSuchPart k)
  else
    match (s.cluster k).hotFrom with
    | none => .next s
    | some t => .next (if t + us 10000 ≤ s.now then s.startDusk true else s)

/-- HUB_ZONE_LOST (R488): CZ4 has stayed lost for 500 ms. -/
def execHubZoneLost (s : State) : Host.Outcome State Fault Refusal :=
  let z := s.zone 4
  .next (if z.lost && decide (z.lostFrom + us 500000 ≤ s.now) then s.startDusk true else s)

/-! ### Twilight -/

/-- Tiles of a die that the state lists. -/
def State.dieTiles (s : State) (d : Nat) : List Nat := s.tiles.filter (fun u => dieOf u == d)

/-- A tile has halted, or runs no task; one that SHADELIM holds has not while a trap of the supply is ready (R301). -/
def Unit.halted (x : Unit) : Bool :=
  x.run != .running && x.run != .ending && x.run != .faulting && (x.run != .frozen || x.duskDeadline.isNone)

/-- A tile has halted, or runs no task, and its engines are still. -/
def Unit.atRest (now : Nat) (x : Unit) : Bool := x.halted && x.enginesStill now

/-- The die that is being shed is switched off once its tiles rest: its copies stop, its lines are written back, SHED is set
(R427). -/
def State.settleShed (s : State) : State :=
  match s.dusk.shedding with
  | none => s
  | some d =>
    if !s.noon || s.diePhase d != 0 || !((s.dieTiles d).all (fun u => (s.unit u).atRest s.now)) then s
    else
      let s := (s.dieTiles d).foldl State.settleCopies s
      let s := (dieClusters d).foldl State.writeBackLines s
      let s := (s.csetField dstat (8 + d) 1 1).switchOff (dieRegions d)
      State.review { s with dusk := { s.dusk with shed := d :: s.dusk.shed, shedding := none } }

/-- The next die of ORDER to shed: at Noon in PL0 under PF_SAG_L, with none being shed and fewer than SHEDMAX shed, dies in warm
reset counted; those are passed over (R427, R468). -/
def State.nextShed (s : State) : Option Nat :=
  let out := (List.range dieCount).filter (fun d => s.isShed d || s.diePhase d != 0)
  if s.noon && s.serving && s.dusk.sag && s.dusk.shedding.isNone && decide (out.length < s.cfield (dcb + 0x20) 16 3) then
    ((List.range 4).map (fun i => s.cfield (dcb + 0x20) (4 * i) 4)).find? (fun d => !(out.contains d))
  else none

/-- A die begins to be shed: its tiles take TWILIGHT_SHED, and a handover is abandoned (R303, R427, R497). -/
def State.shedNext (s : State) : State :=
  match s.nextShed with
  | none => s
  | some d =>
    let s := s.abandonHandover
    let s := { s with dusk := { s.dusk with shedding := some d, shedAt := s.now } }
    ((s.dieTiles d).foldl (State.warnTile .twilightShed d) s).settleShed

/-- PF_SAG_L (R427, R429): an assertion at Noon sheds the first die of ORDER. -/
def execPfSagL (asserted : Bool) (s : State) : Host.Outcome State Fault Refusal :=
  let d := s.dusk
  let s := { s with dusk := { d with sag := asserted, sagFrom := if d.sag == asserted then d.sagFrom else s.now } }
  .next (if asserted && !d.sag then s.shedNext else s.settleShed)

/-- TSHED_EXPIRY (R427): TSHED ms after the last die, or at once where none was shed since the assertion. -/
def execTshedExpiry (s : State) : Host.Outcome State Fault Refusal :=
  let s := s.settleShed
  let d := s.dusk
  let due := decide (d.shedAt < d.sagFrom) || decide (d.shedAt + us 1000 * s.cfield (dcb + 0x28) 0 16 ≤ s.now)
  .next (if due then s.shedNext else s)

/-- A halted tile resumes, in handler mode where it halted so: RESUMED is set and BUDGET is zero (R302). -/
def Unit.resume (now : Nat) (x : Unit) : Unit :=
  if x.run ≠ .halted then x
  else
    let y : Unit := { x with run := .frozen, hstat := setBit x.hstat hsResumed }
    (y.setBudget 0).thaw now

/-- A halted tile resumes, and the requests of its copies take their slots (R253, R302). -/
def State.resumeUnit (s : State) (u : Nat) : State :=
  let s := s.modUnit u (Unit.resume s.now)
  if (s.unit u).engines then (s.placeEngine u .c0).placeEngine u .c1 else s

/-- The most recently shed die is admitted again: it switches on, its tiles and collectives resume, and requests held for
its engines are released (R302, R346, R428, R429). -/
def State.readmit (s : State) (d : Nat) : State :=
  let s := (s.csetField dstat (8 + d) 1 0).switchDie d
  let s := (s.dieTiles d).foldl State.resumeUnit s
  let s := (s.releaseAtoms d).resumeColls (fun c => dieOf c.unit == d)
  { s with dusk := { s.dusk with shed := s.dusk.shed.drop 1, sagFrom := s.now } }.stir

/-- TREADMIT_EXPIRY (R429, R468): at Noon, PF_SAG_L has stayed deasserted for TREADMIT; a die in warm reset is not admitted. -/
def execTreadmitExpiry (s : State) : Host.Outcome State Fault Refusal :=
  let d := s.dusk
  if d.sag ∨ !s.noon ∨ s.now < d.sagFrom + us 1000 * s.cfield (dcb + 0x28) 32 16 then .next s
  else
    match d.shed with
    | [] => .next s
    | k :: _ => .next (if s.diePhase k = 0 then s.readmit k else s)

/-! ### Halting -/

/-- DUSK_BUDGET_EXPIRY (R301): the tile's budget is spent at its boundary. -/
def execDuskBudgetExpiry (u : Nat) (s : State) : Host.Outcome State Fault Refusal :=
  if 512 ≤ u then .fault (.noSuchPart u)
  else
    let x := s.unit u
    .next (if x.run = .running ∧ x.outOfBudget s.now then (s.haltOverrun u).settleShed else s)

/-- DUSK_TIME_LIMIT (R301): 20 µs after its warning every tile that has not halted halts. -/
def execDuskTimeLimit (s : State) : Host.Outcome State Fault Refusal :=
  .next (s.tiles.foldl (fun (s : State) u =>
    let x := s.unit u
    match x.duskDeadline with
    | none => s
    | some t => if (x.run = .running ∨ x.run = .frozen) ∧ t ≤ s.now then s.haltOverrun u else s) s).settleShed

/-! ### Slots -/

/-- Bytes of a hibernation area, and the tier offset of one (R423). -/
def State.hibBytes (s : State) : Nat := s.cfield (dcb + 0x18) 0 12 * 1000000000
def State.areaBase (s : State) (a : Nat) : Nat := a * s.hibBytes

/-- Bytes of a manifest slot (R423). -/
def slotBytes : Nat := 1048576

/-- Header of a slot, and its fields (R424). -/
def State.slotHeader (s : State) (a : Nat) : List Byte := mread s.tier (s.areaBase a) 256
def hdrSerial (h : List Byte) : Nat := recNat h 8 8
def hdrFlags (h : List Byte) : Nat := recNat h 6 2
def hdrPrev (h : List Byte) : List Byte := (h.drop 0x10).take 48
def hdrBody (h : List Byte) : Nat := 64 * recNat h 0x70 4 + 32 * recNat h 0x74 4

/-- Ciphertext of a slot's body, and its tag (R424). -/
def State.slotBody (s : State) (a : Nat) : List Byte := mread s.tier (s.areaBase a + 256) (hdrBody (s.slotHeader a))
def State.slotTag (s : State) (a : Nat) : List Byte :=
  mread s.tier (s.areaBase a + 256 + hdrBody (s.slotHeader a)) 16

/-- The GCM tag of a body (R424, R425). -/
def gcmTag (h body : List Byte) : List Byte := (List.range 16).map (Config.manifestTag (hdrSerial h) h body)

/-- A body under the keystream of its SERIAL, either way (R425). -/
def gcmCrypt (serial : Nat) (body : List Byte) : List Byte :=
  (List.range body.length).map (fun i => body.getD i 0 ^^^ Config.manifestStream serial i)

/-- SHA-384 of a slot's header, body and tag (R424). -/
def State.slotHash (s : State) (a : Nat) : List Byte := sha384 (s.slotHeader a ++ s.slotBody a ++ s.slotTag a)

/-- MAGIC, VERSION and tag of a slot hold (R430). -/
def State.slotSealed (s : State) (a : Nat) : Bool :=
  let h := s.slotHeader a
  recNat h 0 4 == 0x4B535544 && (recNat h 4 1 == 2 || recNat h 4 1 == 1) && s.slotTag a == gcmTag h (s.slotBody a)

/-- PREV of a slot holds as R424 defines it: zero at SERIAL 1, else the hash of the other slot while that still holds an earlier
manifest; what the other slot held when this one was sealed cannot be told once it is written over (R424, R430, log entry
57). -/
def State.slotChained (s : State) (a : Nat) : Bool :=
  let h := s.slotHeader a
  if hdrSerial h = 1 then hdrPrev h == zeros48
  else if s.slotSealed (1 - a) && decide (hdrSerial (s.slotHeader (1 - a)) < hdrSerial h) then hdrPrev h == s.slotHash (1 - a)
  else true

/-- A slot is valid (R430). -/
def State.slotValid (s : State) (a : Nat) : Bool := s.slotSealed a && s.slotChained a

/-- The slot that holds the valid manifest of highest SERIAL (R423, R430). -/
def State.bestSlot (s : State) : Option Nat :=
  let n (a : Nat) : Nat := hdrSerial (s.slotHeader a)
  if s.slotValid 0 && (!(s.slotValid 1) || decide (n 1 ≤ n 0)) then some 0
  else if s.slotValid 1 then some 1 else none

/-! ### The drain -/

/-- READY_REFRESH (R416): every 100 ms SYSGB takes the bytes that the system state and the team contexts would occupy. -/
def execReadyRefresh (s : State) : Host.Outcome State Fault Refusal :=
  if s.now < s.dusk.readyAt + us 100000 then .next s
  else
    let n := s.teamOrder.foldl (fun n t => n + (Config.teamEncoding (s.teamContext t)).length) (sysBytes s.image).length
    .next { s.csetField (dcb + 0x48) 8 8 (ceilGb n) with dusk := { s.dusk with readyAt := s.now } }

/-- Every tile has halted (R419). -/
def State.allHalted (s : State) : Bool := s.tiles.all (fun u => (s.unit u).halted)

/-- The list and the tables as they stood at the warning (R417, R418). -/
def State.warned (s : State) : State :=
  match s.dusk.atWarn with
  | none => s
  | some w => { s with dram := w.dram, indirect := w.indirect, ctl := w.ctl }

/-- A cluster as a drain saves it: as it stood at the warning, with its region table, which `XFER`s of the tiles change until
they halt, and the requests and replies of its atomic engine, which belong to those tiles' contexts (R89, R95, R292). -/
def ClusterSt.drained (was now : ClusterSt) : ClusterSt :=
  { was with regions := now.regions, reqs := now.reqs, replies := now.replies, grantFrom := now.grantFrom }

/-- What the drain writes as the system state: that of the warning, with the busy counts, which fall with the copies that
complete while the tiles halt, with what the clusters hold of the tiles' contexts, and with the block states and records as
they are, which go with the blocks (R100, R400, R418, R420, log entry 44). -/
def State.drainImage (s : State) : SysImage :=
  match s.dusk.atWarn with
  | none => s.image
  | some w =>
    let now := s.image
    let clusters := now.clusters.foldl (fun (t : Tbl ClusterSt) p => tput t p.1 ((tget {} t p.1).drained p.2)) w.image.clusters
    { w.image with clusters := clusters, busy := s.busy, cbits := s.cbits, records := s.recordsOf s.warned.listedBlocks, counts := now.counts }

/-- The drain begins: PHASE becomes 010, lines that the atomic engines have taken since the warning are written back, the area is
chosen and its slot is no manifest any more (R419, R423, R426). -/
def State.beginDrain (s : State) : State :=
  let s := ((List.range 32).foldl State.writeBackLines s).setDuskPhase 2
  let a := match s.bestSlot with | some b => 1 - b | none => 0
  let area : HibArea := {}
  { s with
    tier := mwrite s.tier (s.areaBase a) (List.replicate 4 0)
    hib := tput s.hib a area
    dusk := { s.dusk with area := a, off := s.areaBase a + slotBytes, sysDone := false, teams := s.teamOrder
                          entries := s.dusk.plan, unit := 0, drained := [], done := [], extents := [] } }

/-- Room for `n` bytes is left in the area (R422). -/
def State.roomFor (s : State) (n : Nat) : Bool := decide (s.dusk.off + n ≤ s.areaBase s.dusk.area + s.hibBytes)

/-- The module with an extent of the system state or a team context written (R420, R421, R425). -/
def State.putPart (s : State) (kind index : Nat) (bs : List Byte) : State :=
  let d := s.dusk
  let e : Extent := { kind := kind, off := d.off, len := bs.length, index := index, hash := sha384 bs }
  { s with tier := mwrite s.tier d.off bs, dusk := { d with off := d.off + bs.length, extents := d.extents ++ [e] } }

/-- The module with the hibernation area changed. -/
def State.modHib (s : State) (f : HibArea → HibArea) : State := { s with hib := tmod {} s.hib s.dusk.area f }

/-- The place of a list unit under the tables of the warning (R418). -/
def State.unitPlace (s : State) (e : List Byte) (j : Nat) : Option Loc :=
  s.warned.unitAt e j

/-- A list entry as it stood at the warning (R417). -/
def State.listEntry (s : State) (i : Nat) : List Byte := s.warned.plEntry i

/-- Where the extent of the entry in hand begins: after the last one. -/
def DuskSt.extentStart (d : DuskSt) (base : Nat) : Nat :=
  match d.extents.getLast? with
  | none => base
  | some e => e.off + e.len

/-- The extent of the entry in hand closed, where it holds a unit (R425). -/
def State.closeExtent (s : State) : State :=
  let d := s.dusk
  let start := d.extentStart (s.areaBase d.area + slotBytes)
  if d.off ≤ start then s
  else
    let e : Extent := { kind := 3, off := start, len := d.off - start, index := d.entries.headD 0
                        hash := sha384 (mread s.tier start (d.off - start)) }
    { s with dusk := { d with extents := d.extents ++ [e] } }

/-- DONE of an entry raised by one unit (R418). -/
def DuskSt.count (d : DuskSt) (i : Nat) : DuskSt := { d with done := tmod 0 d.done i (· + 1), unit := d.unit + 1 }

/-- The number of the first block of a 64 KiB unit, as the state bits of blocks count them. -/
def State.unitBlock (s : State) (l : Loc) : Option Nat :=
  match l.place with
  | .dram => some (s.readAt l.addr / 4096)
  | .sram k => some (2 ^ 40 + 8192 * k + l.addr / 4096)
  | _ => none

/-- The saved system state with the state bits and records of a unit's 16 blocks as the unit is written with them: a copy that
ends between the two parts of the drain changes both (R98, R418). -/
def State.saveBlocks (s : State) (l : Loc) (m : SysImage) : SysImage :=
  match s.unitBlock l with
  | none => m
  | some b =>
    let md := s.cfield (trb + 8) 20 22 * 2 ^ 20
    let of16 (a : Nat) : Bool := decide (md + 16 * b ≤ a) && decide (a < md + 16 * b + 256)
    { m with
      cbits := (List.range 16).foldl (fun t i => setMember t (b + i) (s.cbits.contains (b + i))) m.cbits
      records := mwriteEach (m.records.filter (fun c => !(of16 c.1))) (s.recordsOf [b]) }

/-- One unit written as it is stored, its blocks with their metadata (R418). -/
def State.writeUnit (s : State) (l : Loc) : State :=
  let d := s.dusk
  let s := { s with
    tier := mwrite s.tier d.off (s.locRead l 65536)
    dusk := { d with off := d.off + 65536, drained := d.drained ++ [(l, d.off)] } }
  (s.modHib (fun h => { h with units := h.units ++ [(l, d.off)], sys := s.saveBlocks l h.sys })).cset (dcb + 0x38)
    (s.cget (dcb + 0x38) + 1)

/-- A manifest's FLAGS (R424). -/
def State.sealFlags (s : State) : Nat :=
  (if s.dusk.sysDone then 0 else 256) + 16 * s.cfield dstat 8 4 + 8 * s.cfield dstat 17 1 + 4 * s.cfield dstat 16 1 +
    2 * s.cfield dstat 18 1 + (if s.dusk.forced then 1 else 0)

/-- A manifest's header (R424). -/
def State.sealHeader (s : State) : List Byte :=
  let d := s.dusk
  let serial := (s.cget (dcb + 0x40)).toNat + 1
  let prev := if serial = 1 ∨ !(s.slotValid (1 - d.area)) then zeros48 else s.slotHash (1 - d.area)
  natBytes 4 0x4B535544 ++ natBytes 1 2 ++ natBytes 1 d.area ++ natBytes 2 s.sealFlags ++ natBytes 8 serial ++ prev ++
    imageName s.root.images ++ natBytes 4 d.extents.length ++ natBytes 4 s.warned.plCount ++
    natBytes 8 (s.cget (dcb + 0x38)).toNat ++ natBytes 4 ((s.now - d.warnAt) / 90000) ++ List.replicate 124 0

/-- An extent entry (R425). -/
def Extent.bytes (e : Extent) : List Byte :=
  natBytes 8 (e.kind * 2 ^ 56 + e.off % 2 ^ 48) ++ natBytes 8 (e.index % 65536 * 2 ^ 48 + e.len % 2 ^ 48) ++ e.hash

/-- A manifest's body: extents, then results (R425). -/
def State.sealBody (s : State) : List Byte :=
  s.dusk.extents.flatMap Extent.bytes ++ (List.range s.warned.plCount).flatMap (fun i =>
    ((s.listEntry i).drop 0x10).take 8 ++ natBytes 8 (tget 0 s.dusk.done i) ++ List.replicate 16 0)

/-- Registers of the Dusk controller that outlast Midnight (R416, R430, R492). -/
def keptRegister (a : Nat) : Bool := a == dcb + 0x18 || a == dstat || a == dcb + 0x38 || a == dcb + 0x40 || a == dcb + 0x50

/-- Midnight: what is not kept in the storage tier, in fuses or by the controller is lost (R419, R426, R430); when a zone was last
heard, and which target is bound to it, is no part of that (R484, R488). -/
def State.sleep (s : State) : State :=
  { focus := s.focus, agenda := s.agenda, now := s.now, free := s.free, host := s.host, tier := s.tier, hib := s.hib
    modnum := s.modnum, out := s.out, ctl := s.ctl.filter (fun p => keptRegister p.1)
    zones := s.zones.map (fun p => (p.1, { lastValid := p.2.lastValid, target := p.2.target })), spares := s.spares
    root := { images := s.root.images, svn := s.root.svn }
    dusk := { s.dusk with midnight := true, sleptAt := s.now, shed := [], shedding := none, atWarn := none, plan := [] } }

/-- A unit of the list was not reached: of the entry in hand, or of one after it (R422). -/
def State.short (s : State) : Bool :=
  match s.dusk.entries with
  | [] => false
  | i :: is => decide (s.dusk.unit < plLen (s.listEntry i)) || is.any (fun k => plLen (s.listEntry k) != 0)

/-- The drain stops and the manifest is sealed: body, tag and header, MAGIC among them; the reserve holds what is left of it
(R422, R424 to R426). -/
def State.seal (s : State) : State :=
  let s := (if s.short then s.csetField dstat 16 1 1 else s).closeExtent.setDuskPhase 3
  let h := s.sealHeader
  let body := gcmCrypt (hdrSerial h) s.sealBody
  let base := s.areaBase s.dusk.area
  let tier := mwrite (mwrite (mwrite s.tier (base + 256) body) (base + 256 + body.length) (gcmTag h body)) base h
  { s with tier := tier }.spendReserve.sleep

/-- The next thing of the drain: the system state, a team context, or a list unit; a full area seals (R418 to R422). -/
def State.drainNext (s : State) : State :=
  let d := s.dusk
  if !d.sysDone then
    let m := s.drainImage
    if !(s.roomFor (sysBytes m).length) then s.seal
    else
      let s := (s.modHib (fun h => { h with sys := m })).putPart 1 0 (sysBytes m)
      { s with dusk := { s.dusk with sysDone := true } }
  else
    match d.teams with
    | n :: ns =>
      if (s.teamContext n).any (fun p => !(p.2.enginesStill s.now)) then s
      else
        let s := if (s.node n).phase = .swapped then s else (s.node n).units.foldl State.settleCopies s
        let c := s.teamContext n
        let bs := Config.teamEncoding c
        if !(s.roomFor bs.length) then s.seal
        else
        let s := (s.modHib (fun h => { h with teams := tput h.teams n c })).putPart 2 n bs
        { s with dusk := { s.dusk with teams := ns } }
    | [] =>
      match d.entries with
      | [] => s
      | i :: is =>
        let e := s.listEntry i
        if plLen e ≤ d.unit then
          let s := s.closeExtent
          { s with dusk := { s.dusk with entries := is, unit := 0 } }
        else
          match s.unitPlace e d.unit with
          | none => { s with dusk := d.count i }
          | some l =>
            if d.drained.any (fun p => p.1 == l) then { s with dusk := d.count i }
            else if !(s.roomFor 65536) then s.seal
            else
              let s := s.writeUnit l
              { s with dusk := s.dusk.count i }

/-- DRAIN (R418 to R421): once every tile has halted the drain begins, and then each step writes its next part. -/
def execDrain (s : State) : Host.Outcome State Fault Refusal :=
  match s.duskPhase with
  | 1 => .next (if s.allHalted then s.beginDrain else s)
  | 2 => .next s.drainNext
  | _ => .next s

/-- DRAIN_COMPLETE (R422, R426): everything is written. -/
def execDrainComplete (s : State) : Host.Outcome State Fault Refusal :=
  let d := s.dusk
  .next (if s.duskPhase = 2 ∧ d.sysDone ∧ d.teams.isEmpty ∧ d.entries.isEmpty then s.seal else s)

/-- DRAIN_TIME_LIMIT (R422): 2.5 s after the warning. -/
def execDrainTimeLimit (s : State) : Host.Outcome State Fault Refusal :=
  .next (if s.duskPhase = 2 ∧ s.dusk.warnAt + us 2500000 ≤ s.now then s.seal else s)

/-- RESERVE_FLOOR (R422): the usable reserve has fallen to 250 J. -/
def execReserveFloor (s : State) : Host.Outcome State Fault Refusal :=
  .next (if s.duskPhase = 2 then
    { s with dusk := { s.dusk with reserve := min 250 s.usableNow, chargedAt := s.now } }.seal else s)

/-- SUPPLY_CUT (R426, R501): power is lost outright, and the supply is back when PF_WARN_L is deasserted; a slot that is being
written holds no MAGIC. -/
def execSupplyCut (s : State) : Host.Outcome State Fault Refusal :=
  let s := s.bankCharge
  let s := { s with dusk := { s.dusk with supply := false } }
  .next (if s.dusk.midnight then s.breakDawn else s.spendReserve.sleep)

end Sys2Proof.Machine
end

