-- ==== Sys2Proof/Machine/Dawn.lean ====
section
/-!
DEFINITION. Reset and Dawn (R302, R346, R389, R430 to R433, R447, R469, R474, R501).  A Dawn is two steps: it begins, and it
resumes or is cold; a warning between the two returns to Midnight (log entry 58).
-/
namespace Sys2Proof.Machine

/-! ### Reset -/

/-- MODULE_RESET (R446 to R449): everything that a reset clears holds its reset value, and the root ROM boots. -/
def execModuleReset (s : State) : Host.Outcome State Fault Refusal :=
  let d : DuskSt := { warn := s.dusk.warn, sag := s.dusk.sag, calmFrom := s.dusk.calmFrom, sagFrom := s.dusk.sagFrom
                      supply := s.dusk.supply, reserve := s.usableNow, chargedAt := s.now }
  let t : State := { s.sleep with dusk := d }
  let t : State := { t with ctl := t.ctl.filter (fun p => p.1 == dcb + 0x40 || p.1 == dcb + 0x50) }
  .next (((t.csetField (dcb + 0x50) 32 1 0).boot zeros48).freshDue.stir)

/-! ### The reserve -/

/-- A Dawn begins: the warnings are gone for long enough and the reserve is charged (R430). -/
def State.mayDawn (s : State) : Bool :=
  let cap := s.cfield (dcb + 0x50) 48 16
  s.dusk.midnight && s.dusk.supply && !s.dusk.warn && decide (s.dusk.calmFrom + us 10000 ≤ s.now) && !s.dusk.sag &&
    decide (min 3000 cap ≤ s.usableNow)

/-! ### Manifests -/

/-- The body of a slot in clear (R425). -/
def State.manifestBody (s : State) (a : Nat) : List Byte := gcmCrypt (hdrSerial (s.slotHeader a)) (s.slotBody a)

/-- The extents of a manifest (R425). -/
def State.manifestExtents (s : State) (a : Nat) : List Extent :=
  let b := s.manifestBody a
  (List.range (recNat (s.slotHeader a) 0x70 4)).map (fun i =>
    let e := b.drop (64 * i)
    { kind := recNat e 7 1, off := recNat e 0 6, len := recNat e 8 6, index := recNat e 14 2, hash := (e.drop 16).take 48 })

/-- DONE of a list entry in a manifest (R425). -/
def State.manifestDone (s : State) (a i : Nat) : Nat :=
  recNat ((s.manifestBody a).drop (64 * recNat (s.slotHeader a) 0x70 4 + 32 * i)) 8 8

/-- An extent's hash verifies (R425, R430). -/
def State.extentHolds (s : State) (e : Extent) : Bool :=
  e.hash == sha384 (mread s.tier e.off e.len)

/-- LASTDAWN and the slot that decides it (R430); a SERIAL beyond NVLAST + 1, which no Dusk seals, is no manifest (log entry
57). -/
def State.judge (s : State) : Nat × Option Nat :=
  let last := (s.cget (dcb + 0x40)).toNat
  match s.bestSlot with
  | none =>
    if last = 0 ∧ [0, 1].all (fun a => recNat (s.slotHeader a) 0 4 != 0x4B535544) then (5, none) else (2, none)
  | some a =>
    let h := s.slotHeader a
    if hdrSerial h ≤ last then (3, some a)
    else if hdrSerial h ≠ last + 1 then (2, some a)
    else if hdrFlags h / 256 % 2 = 1 then (6, some a)
    else if (s.manifestExtents a).all s.extentHolds then (1, some a) else (4, some a)

/-! ### What a Dawn restores -/

/-- The module awake with nothing restored: DSTAT holds the code, and RSVSTAT what the reserve holds now (R430, R492). -/
def State.wake (s : State) (code : Nat) : State :=
  let u := s.usableNow
  let s := { s with dusk := { s.dusk with midnight := false, dawn := false, forced := false, sagFrom := s.now, reserve := u,
                                          chargedAt := s.now, refreshed := some s.now } }
  ((s.csetField (dcb + 0x50) 0 16 u).csetField dstat 24 8 code).csetField dstat 8 4 0

/-- A register that a Dawn does not take from the saved system state: those of the controller, phases of dies and of power,
and FIDLIM (R319, R431, R469). -/
def freshRegister (a : Nat) : Bool :=
  keptRegister a || a == pwb + 8 || (List.range dieCount).any (fun d => a == drbAddr d || a == drstat d) ||
    (match cregOf a with | some (.fidlim _) => true | _ => false)

/-- Saved registers over those of a waking module. -/
def restoreCtl (now saved : Tbl Word) : Tbl Word :=
  (saved.filter (fun p => !(freshRegister p.1))).foldl (fun (t : Tbl Word) p => tput t p.1 p.2) now

/-- A tile's context after Dawn: trims and counts are zero (R319). -/
def Unit.afterDawn (x : Unit) : Unit := { x with colerr := [], gsum1 := 0, gsum2 := 0, fidinj := 0, injCount := 0 }

/-- The state bits of the blocks that were drained; every other block is zero and raw (R432). -/
def drainedBits (m : SysImage) (units : List (Loc × Nat)) : List Nat :=
  let s : State := { indirect := m.indirect }
  let bases := units.filterMap (fun p => s.unitBlock p.1)
  m.cbits.filter (fun k => bases.any (fun b => decide (b ≤ k) && decide (k < b + 16)))

/-- System state restored (R420, R431): the ports, which will train again, hold no flit and no pause. -/
def State.withImage (s : State) (m : SysImage) (units : List (Loc × Nat)) : State :=
  { s with
    ctl := restoreCtl s.ctl m.ctl, clusters := m.clusters.map (fun p => (p.1, { p.2 with hotFrom := none }))
    sched := m.sched, cbits := drainedBits m units, busy := m.busy
    units := m.calcnts.foldl (fun t p => tput t p.1 { tget {} t p.1 with calcnt := p.2 }) s.units, held := m.held
    stays := m.stays, invWait := m.invWait, migrators := m.migrators, indirect := m.indirect, pcs := m.pcs
    calPend := m.calPend, colls := m.colls, endedColls := m.endedColls, poolKept := m.poolKept, darkMods := m.darkMods
    routes := m.routes, versions := m.versions, heldEvents := m.heldEvents
    ports := m.ports.map (fun p => (p.1, ({ p.2 with replay := [], fails := 0, paused := [], waiting := [], buffered := [],
                                                     pausing := [] } : Port)))
    hostReset := m.hostReset
    dram := mwriteEach (mwriteEach s.dram m.tables) m.records }

/-- A list unit's bytes restored to its frame or granule (R431). -/
def State.restoreUnit (s : State) (p : Loc × Nat) : State := s.locWrite p.1 (mread s.tier p.2 65536)

/-- DONE of each list entry written (R431, R432). -/
def State.writeDone (s : State) (done : Nat → Nat) : State :=
  (List.range s.plCount).foldl (fun (s : State) i => s.dwrite (s.plBase + 32 * i + 0x18) (natBytes 8 (done i))) s

/-- A team's context back on the tiles or in the swap place that it left (R431). -/
def State.restoreTeam (s : State) (n : Nat) (c : Tbl Unit) : State :=
  let c := c.map (fun p => (p.1, p.2.afterDawn))
  if (s.node n).phase = .swapped then { s with saved := tput s.saved n c }
  else c.foldl (fun (s : State) p => s.setUnit p.1 p.2) s

/-- A team whose context was not written whole is lost: its node ends FAULTED with DETAIL 0x11, and its collectives end
MEMBER_FAULTED at the other members (R431); the busy counts of its commands, which are discarded, are given back (R400). -/
def State.loseTeam (s : State) (n : Nat) (counted : List Nat) : State :=
  let x := s.node n
  let gone := s.colls.filter (fun c => c.node == some n)
  let c := s.cluster x.cluster
  let s := s.setCluster x.cluster { c with regions := c.regions.filter (fun r => r.node != some n) }
  let s := s.busyDown (counted ++ gone.flatMap (·.counted))
  let rows : List EndedColl := gone.map (fun (g : Coll) =>
    { unit := g.unit, serial := g.serial, group := g.group, step := g.step, member := g.member, outcome := 0x15,
      applied := g.applied, mods := g.mems.map (·.1) })
  let s := { s with
    poolKept := s.poolKept.filter (fun p => p.node != n)
    endedColls := rows ++ s.endedColls
    colls := (s.colls.filter (fun c => c.node != some n)).map (fun (c : Coll) =>
      if c.ended.isNone ∧ gone.any (fun g => g.group == c.group && g.step == c.step) then { c with ended := some 0x15 } else c) }
  let s := gone.foldl (fun (s : State) g =>
    ((g.mems.map (·.1)).dedup.filter (fun m => m != s.modnum)).foldl (fun (s : State) m =>
      s.send (.status m g.group g.step 0x15 true)) s) s
  s.endNode n 3 0x11

/-- The teams that the saved scheduler state holds in place or swapped. -/
def State.livingTeams (s : State) : List Nat :=
  (s.sched.nodes.filter (fun p => p.2.phase == .resident || p.2.phase == .swapped)).map (·.1)

/-- The reads of host memory that a context's copies await go out again: those of before Midnight are gone (R253, R431,
R444). -/
def State.askAgain (s : State) (u : Nat) (x : Unit) : State :=
  ((x.q0 ++ x.q1).filter (fun c => c.phase == .started)).foldl (fun (s : State) c => s.askHost u x.team c) s

/-- A resuming Dawn in the order of R431, for the manifest in a slot. -/
def State.resumeFrom (s : State) (a : Nat) : State :=
  let h := s.slotHeader a
  let area := tget {} s.hib a
  let done := s.manifestDone a
  let s := ((s.wake 1).withImage area.sys area.units).freshDue.coldRows
  let s := area.units.foldl State.restoreUnit s
  let s := s.writeDone done
  let s := s.livingTeams.foldl (fun (s : State) n =>
    match area.teams.find? (fun t => t.1 == n) with
    | some t => s.restoreTeam n t.2
    | none => s.loseTeam n (tget [] area.sys.counts n)) s
  let s := (s.retrain.noticeSoon (.dawn (hdrSerial h))).cset (dcb + 0x40) (BitVec.ofNat 64 (hdrSerial h))
  let s := s.setDuskPhase 0
  let s := s.tiles.foldl State.resumeUnit s
  let s := s.tiles.foldl (fun (s : State) u => s.askAgain u (s.unit u)) s
  let s := s.saved.foldl (fun (s : State) t => t.2.foldl (fun (s : State) p => s.askAgain p.1 p.2) s) s
  let s := s.saved.foldl (fun (s : State) t =>
    { s with saved := tput s.saved t.1 (t.2.map (fun p => (p.1,
        if p.2.run = .halted then ({ p.2.resume s.now with run := .frozen, was := p.2.was } : Unit) else p.2))) }) s
  let s := (List.range dieCount).foldl State.releaseAtoms s
  ((s.resumeColls (fun _ => true)).refreshNodes).deliverEvents.stir

/-- A cold Dawn (R430, R449): nothing is restored, NVLAST passes the highest valid SERIAL, and COLD goes out on every port. -/
def State.coldDawn (s : State) (code : Nat) : State :=
  let last := match s.bestSlot with
    | none => (s.cget (dcb + 0x40)).toNat
    | some a => hdrSerial (s.slotHeader a)
  let s := ((s.wake code).cset (dcb + 0x40) (BitVec.ofNat 64 last)).setDuskPhase 0
  ((List.range 16).foldl (fun (s : State) p => s.sendOn p .cold) s).freshDue.stir

/-- The root boots the image set and judges the manifests; a refused image halts the Dawn (R430, R447). -/
def State.endDawn (s : State) : State :=
  let j := s.judge
  let b := s.boot (match j with
    | (1, some a) => sha384 (s.slotHeader a)
    | _ => zeros48)
  if b.bootRefused then b
  else
    match j with
    | (1, some a) => b.resumeFrom a
    | (code, _) => b.coldDawn code

/-- DAWN (R430, R431): in Midnight a Dawn begins; one that is under way ends. -/
def execDawn (s : State) : Host.Outcome State Fault Refusal :=
  if s.dusk.dawn then .next s.endDawn
  else if !s.mayDawn then .next s
  else .next { s.setDuskPhase 5 with dusk := { s.dusk with dawn := true } }

end Sys2Proof.Machine
end

