-- ==== Sys2Proof/Machine/Fabric.lean ====
section
/-!
DEFINITION. The fabric (R96, R270, R435 to R441) and the host bridge's PCIe side (R442, R444): flits, training, notices of
peers, requests of peers, and completions.  A message takes as many flits as its data needs (log entry 59).
-/
namespace Sys2Proof.Machine

/-- How many Wyforen ports the module has (R435). -/
def portCount : Nat := 16

/-! ### Flits -/

/-- A flit of a class has come into the buffer of its class, which `left` flits have left since the one before: past 3/4 full the
port sends PAUSE for the class, and below 1/2 RESUME; class 0 has none (R436). -/
def State.fillBuffer (s : State) (port cls left : Nat) : State :=
  if cls = 0 then s
  else
    let x := s.port port
    let n := tget 0 x.buffered cls - left + 1
    let x := { x with buffered := tput x.buffered cls n }
    if 3 * Config.classBuffer cls < 4 * n ∧ !(x.pausing.contains cls) then
      (s.setPort port { x with pausing := x.pausing ++ [cls] }).sendOn port (.pause port cls)
    else if 2 * n < Config.classBuffer cls ∧ x.pausing.contains cls then
      (s.setPort port { x with pausing := x.pausing.erase cls }).sendOn port (.resume port cls)
    else s.setPort port x

/-- Time goes on: flits leave the buffers of the classes for which ports have paused their peers, and below 1/2 full the port
sends RESUME, though no flit of the class comes any more (R436, log entry 59). -/
def State.buffersAt (s : State) (t : Nat) : State :=
  (s.ports.flatMap (fun p => p.2.pausing.map (fun c => (p.1, c)))).foldl (fun (s : State) pc =>
    let x := s.port pc.1
    let n := min (tget 0 x.buffered pc.2) (Config.flitsLeft pc.1 pc.2 t)
    let x := { x with buffered := tput x.buffered pc.2 n }
    if 2 * n < Config.classBuffer pc.2 then
      (s.setPort pc.1 { x with pausing := x.pausing.erase pc.2 }).sendOn pc.1 (.resume pc.1 pc.2)
    else s.setPort pc.1 x) s

/-- Time goes on: migrators see their limits pass, link tests end, buffers empty, and DRAM requests take effect (R403, R410, R436,
R461). -/
def State.passTo (s : State) (t : Nat) : State := (((s.countsAt t).testsAt t).buffersAt t).advance t

/-- The flits before `acked` are acknowledged: they leave the replay buffer, and messages that waited for room follow (R437). -/
def State.takeAck (s : State) (port acked : Nat) : State :=
  let x := s.port port
  if x.replay.all (fun f => decide (acked ≤ f.1)) then s
  else (s.setPort port { x with replay := x.replay.filter (fun f => decide (acked ≤ f.1)), fails := 0 }).flushPort port

/-- A good flit of a die-to-die link: its flits so far are acknowledged, and what waited for that goes on (R459, R460). -/
def State.linkAck (s : State) (n : Nat) : State :=
  (s.setLink n { s.linkOf n with unacked := 0, failing := 0, fails := 0 }).pickUpAll

/-- FLIT_RECEIVE (R436, R437): a good flit in order is taken into the buffer of its class and acknowledged, one whose CRC or tag
fails is NAKed, and a repeated one is acknowledged again; its header
acknowledges flits of the port's own.  Numbers from 16 on are the die-to-die links (log entry 60). -/
def execFlitReceive (port cls : Nat) (head : FlitHead) (good : Bool) (s : State) : Host.Outcome State Fault Refusal :=
  if portCount + linkCount ≤ port ∨ 4 ≤ cls then .fault (.noSuchPart port)
  else if portCount ≤ port then .next (if good then s.linkAck (port - portCount) else s)
  else if !(s.portUp port) then .next s
  else if !good then .next (s.sendOn port (.nak port head.seq))
  else
    let s := s.takeAck port head.acked
    let x := s.port port
    if head.seq = x.rxSeq then
      .next (((s.setPort port { x with rxSeq := head.seq + 1 }).fillBuffer port cls head.left).sendOn port (.ack port head.seq))
    else if head.seq < x.rxSeq then .next (s.sendOn port (.ack port head.seq))
    else .next (s.sendOn port (.nak port x.rxSeq))

/-- Commands of the comm sequencers whose transfers with a module that no route reaches any more are under way end with LINK_LOST
(R267, R437). -/
def Unit.loseLink (reach : Nat → Bool) (x : Unit) : Unit :=
  let g (c : CCmd) : CCmd :=
    if ((c.fields.1 = 0x11 ∧ (c.phase = .started ∨ c.phase = .moved)) ∨ (c.fields.1 = 0x12 ∧ c.phase = .started ∧ !c.arrived)) ∧
        c.err.isNone ∧ !(reach c.remote.1)
    then { c with phase := .moved, err := some 6 }
    else c
  { x with q0 := x.q0.map g, q1 := x.q1.map g }

/-- Host reads of a module that has become dark complete with all ones, and each counts (R444). -/
def State.failReads (s : State) (mod : Nat) : State :=
  let mine := s.hostReads.filter (fun r => r.1 == mod)
  mine.foldl (fun (s : State) r =>
    let s := s.cbump (brb + 0x90) 0 32 1
    { s with out := s.out ++ [.hostData (List.replicate r.2 (0xFF : Byte))] })
    { s with hostReads := s.hostReads.filter (fun r => r.1 != mod) }

/-- The messages of a port that have a flit which is not acknowledged or not sent, in order, each with the first such flit: its
replay buffer's, then those that wait but for the rest of a message that the replay buffer begins (R437). -/
def Port.unsent (x : Port) : List (Msg × Nat) :=
  let head := (x.replay.head?.map (·.1)).getD 0
  (x.replay.filter (fun f => f.2.2 == 0 || f.1 == head)).map (·.2) ++
    x.waiting.filter (fun w => w.2 == 0 || !(x.replay.any (fun f => f.2 == (w.1, w.2 - 1))))

/-- A link goes down: it counts, vector 5 is raised and an event goes out; its unacknowledged flits and waiting messages take
another route of their module, and transfers that have none are lost, host accesses among them (R437, R441, R444, R445). -/
def State.portDown (s : State) (p cause : Nat) : State :=
  let x := s.port p
  let was := s.portUp p
  let s := (s.setPort p { x with replay := [], fails := 0, paused := [], waiting := [], buffered := [], pausing := [] }).setPort2
    p 0 cause
  let s := if was then ((s.cbump (fabAddr p + 0x10) 0 32 1).raiseVector 5).postNotice 1 p else s
  let routed (m : Msg) : Bool := match m.target with
    | some n => (s.portTowards n).isSome
    | none => false
  let s := (x.unsent.filter (fun w => routed w.1)).foldl (fun (s : State) w => s.sendAt w.1 w.2) s
  let lost := (x.unsent.filter (fun w => !(routed w.1) && (match w.1 with
    | .hostCtl _ _ w _ => w
    | .hostMem _ _ w _ => w
    | _ => false))).length
  let s := if lost = 0 then s else s.cbump (brb + 0x90) 0 32 lost
  let s := (s.hostReads.map (·.1)).dedup.foldl (fun (s : State) m => if (s.portTowards m).isNone then s.failReads m else s) s
  let s := (List.range 64).foldl (fun (s : State) i => s.modUnit (512 + i) (Unit.loseLink (fun m => m == s.modnum || (s.portTowards m).isSome))) s
  s.review

/-- NAK (R437, R441): the sender sends its flits again from one on; the eighth failure of one flit takes the link down.
Numbers from 16 on are the die-to-die links (R463, log entry 60). -/
def execNak (port seq : Nat) (s : State) : Host.Outcome State Fault Refusal :=
  if portCount + linkCount ≤ port then .fault (.noSuchPart port)
  else if portCount ≤ port then .next (s.linkNak (port - portCount) seq)
  else
    let x := s.port port
    if !(s.portUp port) ∨ !(x.replay.any (fun f => f.1 == seq)) then .next s
    else
      let again := x.replay.filter (fun f => decide (seq ≤ f.1))
      let fails := if (x.replay.head?.map (·.1)) = some seq then x.fails + 1 else 1
      let s : State := { s with out := s.out ++ again.map (fun f => Msg.flit port f.1) }
      let s := (s.setPort port { x with replay := again, fails := fails }).cbump (fabAddr port + 0x10) 32 32 again.length
      .next (if fails < 8 then s else s.portDown port 3)

/-- PAUSE (R436, R441): flits of class 1 to 3 stop. -/
def execPauseClass (port cls : Nat) (s : State) : Host.Outcome State Fault Refusal :=
  if portCount ≤ port ∨ 4 ≤ cls then .fault (.noSuchPart port)
  else
    let x := s.port port
    if cls = 0 ∨ !(s.portUp port) ∨ x.paused.contains cls then .next s
    else .next ((s.setPort port { x with paused := x.paused ++ [cls] }).csetField (pstat port) 0 2 3)

/-- RESUME (R436, R441): flits of a class start again, first those that waited. -/
def execResumeClass (port cls : Nat) (s : State) : Host.Outcome State Fault Refusal :=
  if portCount ≤ port ∨ 4 ≤ cls then .fault (.noSuchPart port)
  else
    let x := s.port port
    if !(s.portUp port) ∨ !(x.paused.contains cls) then .next s
    else
      let left := x.paused.erase cls
      let s := s.setPort port { x with paused := left, waiting := x.waiting.filter (fun w => w.1.lane != cls) }
      let s := s.csetField (pstat port) 0 2 (if left.isEmpty then 2 else 3)
      .next (s.sendEach port (x.waiting.filter (fun w => w.1.lane == cls)))

/-! ### Training -/

/-- A write of PCTL: EN 1 trains the port, which begins with its capability record, and EN 0 stops it (R440, R441). -/
def State.writePctl (s : State) (p : Nat) (v : Word) : State :=
  let was := bitOf (s.cget (fabAddr p)) 0
  let s := s.cset (fabAddr p) (v &&& 1)
  if bitOf v 0 then
    (if was then s else s.trainPort p)
  else s.portDown p 4

/-- PORT_ENABLE (R441). -/
def execPortEnable (port : Nat) (v : Word) (s : State) : Host.Outcome State Fault Refusal :=
  if portCount ≤ port then .fault (.noSuchPart port) else .next (s.writePctl port v)

/-- The version of an item that both ends support, 0 for none: the module supports 2 and 1 (R440). -/
def common (vers : List (Nat × Nat)) (item : Nat) : Nat :=
  match vers.find? (fun p => p.1 == item) with
  | none => 0
  | some p => min 2 p.2

/-- PORT_TRAINED (R438, R440, R441): training of an enabled port ends with the peer's module number, its highest version of
each item (0 link capability, 1 job card, 2 collective record, 3 manifest, 4 state blob) and whether both signatures
verified.  What waited for the port goes out, and chunks that were lost with the link are asked for again (R333, R431). -/
def execPortTrained (port peer : Nat) (vers : List (Nat × Nat)) (auth : Bool) (s : State) :
    Host.Outcome State Fault Refusal :=
  if portCount ≤ port then .fault (.noSuchPart port)
  else if s.portState port ≠ 1 then .next s
  else if common vers 0 = 0 then .next (s.portDown port 1)
  else if !auth then .next (s.portDown port 2)
  else
    let x := s.port port
    let s := s.setPort port { x with epoch := (x.epoch + 1) % 2 ^ 32, keyedAt := s.now, keyedSeq := x.txSeq, fails := 0 }
    let s := ((s.setPort2 port 2 0).csetField (pstat port) 8 8 (common vers 0)).csetField (pstat port) 48 16 peer
    let s := { s with versions := tput s.versions (peer % 65536) ((List.range 5).map (common vers)) }.postNotice 1 port
    let s := s.flushPort port
    .next (s.askModule (peer % 65536))

/-- LINK_REKEY (R438): after 2^40 flits or 24 hours the link takes a new key, and its epoch increments. -/
def execLinkRekey (port : Nat) (s : State) : Host.Outcome State Fault Refusal :=
  if portCount ≤ port then .fault (.noSuchPart port)
  else
    let x := s.port port
    if !(s.portUp port) ∨ (x.txSeq < x.keyedSeq + 2 ^ 40 ∧ s.now < x.keyedAt + us 86400000000) then .next s
    else .next (s.setPort port { x with epoch := (x.epoch + 1) % 2 ^ 32, keyedAt := s.now, keyedSeq := x.txSeq })

/-! ### Notices -/

/-- DSTAT.PHASE of a member module of the bridge's group has changed: vector 1 (R445). -/
def State.memberChanged (s : State) (mod : Nat) : State :=
  if (List.range 16).any (fun m => s.cfield (brb + 8 + 8 * m) 0 16 == mod && mod != 0xFFFF) then s.raiseVector 1 else s

/-- DARK_NOTICE (R345, R419, R444, R445): the peer module is dark. -/
def execDarkNotice (mod : Nat) (s : State) : Host.Outcome State Fault Refusal :=
  .next (if s.darkMods.contains mod then s
    else ({ (s.memberChanged mod) with darkMods := s.darkMods ++ [mod] }.failReads mod).review)

/-- DAWN_NOTICE (R346, R431, R445): the peer is awake; receivers ask it for every chunk not yet applied. -/
def execDawnNotice (mod : Nat) (_ : Word) (s : State) : Host.Outcome State Fault Refusal :=
  let s := { (s.memberChanged mod) with
    darkMods := s.darkMods.filter (fun m => m != mod)
    colls := s.colls.map (fun (c : Coll) => { c with waitOn := c.waitOn.filter (fun p => c.modOf p.member != mod) }) }
  .next (s.askModule mod)

/-- COLD_NOTICE (R345, R430, R445): commands of groups that the module belonged to end with PEER_DARK at once. -/
def execColdNotice (mod : Nat) (s : State) : Host.Outcome State Fault Refusal :=
  .next { (s.memberChanged mod) with
    darkMods := s.darkMods.filter (fun m => m != mod)
    colls := s.colls.map (fun (c : Coll) =>
      if c.ended.isNone ∧ c.mems.any (fun m => m.1 == mod) then { c with ended := some 3 } else c) }

/-! ### Requests of peers -/

/-- The granules that a request reaches lie on a die that satisfies a condition. -/
def homesOn (p : Nat → Bool) (xs : List Xlat) : Bool :=
  xs.any (fun x => match x.place with | .sram k => p (k / 8) | _ => false)

/-- A request of another module for host memory at the bridge, which issues a PCIe memory request for it (R444). -/
def State.bridgeRequest (s : State) (src : Nat) (write : Bool) (a : Nat) (data : List Byte) : State :=
  if !s.bridging then s
  else if write then
    let t : State := { s with host := mwrite s.host a data }
    { t with out := t.out ++ [.pcieWrite a data] }
  else
    { s with out := s.out ++ [.pcieRead s.nextPcie a data.length]
             pcie := s.pcie ++ [{ id := s.nextPcie, unit := 0, node := none, serial := 0, piece := 0, len := data.length,
                                  origin := some src }]
             nextPcie := s.nextPcie + 1 }

/-- FABRIC_REQUEST (R270, R392, R419, R428, R444, R467, R483): a peer's sequencer writes `data`, or reads as many bytes, at an
address of ASPACE 0, or of host memory at the bridge; or a peer asks for the status.  A request in PL1 to PL3 waits, but for
one of status, and so does one for a granule of a shed die; a dark module and a die from its quiescing to its admission answer
with a status, and so does an address without translation (log entry 61). -/
def execFabricRequest (src : Nat) (write : Bool) (space : FabSpace) (addr : Word) (data : List Byte) (s : State) :
    Host.Outcome State Fault Refusal :=
  if s.dusk.midnight then .next s
  else if !s.noon then .next (s.send (.answer src 3))
  else if space = .status then .next (s.send (.answer src 0))
  else if !s.serving then .next s
  else if space = .host then .next (s.bridgeRequest src write addr.toNat data)
  else
    let seg := space == .seg
    let a := addr.toNat
    let ps := pageParts a data.length
    let xs := ps.filterMap (fun p => s.walk seg 0 p.1)
    if xs.length ≠ ps.length ∨ xs.any (fun x => if write then !x.w else !x.r) then .next (s.send (.answer src 0x13))
    else if homesOn s.isShed xs then .next s
    else if homesOn s.dieHeld xs then
      let dies := (List.range 4).filter (fun d => homesOn (fun e => e == d && s.dieHeld e) xs)
      .next ((dies.foldl (fun (s : State) d => s.cbump (drbAddr d + 8) 32 16 1) s).send (.answer src 2))
    else if write then
      match s.vwrite seg 0 a data with
      | some t => .next (t.send (.answer src 0))
      | none => .next (s.send (.answer src 0x13))
    else
      match s.vread seg 0 a data.length with
      | some bs => .next (s.send (.reply src bs))
      | none => .next (s.send (.answer src 0x05))

/-! ### Bridge -/

/-- BRCTL with a value: a second bridge of the group keeps its host port in reset (R442, R445). -/
def State.setBrctl (s : State) (v : Word) (second : Bool) : State :=
  { s.cset brb (v &&& 1) with hostReset := bitOf v 0 && second }

/-- BRCTL_WRITE (R442, R445): EN names the module as its group's bridge; where another module is it already (`second`), the
host port of this one stays in reset. -/
def execBrctlWrite (w : BridgeWrite) (s : State) : Host.Outcome State Fault Refusal :=
  .next (s.setBrctl w.v w.second)

/-- PCIE_COMPLETION (R444): the bytes of a host read reach the copy that asked for them, or the module that did. -/
def execPcieCompletion (id : Nat) (data : List Byte) (s : State) : Host.Outcome State Fault Refusal :=
  match s.pcie.find? (fun p => p.id == id) with
  | none => .next s
  | some p =>
    if data.length ≠ p.len then .next s
    else
      let s := { s with pcie := s.pcie.filter (fun q => q.id != id) }
      if let some src := p.origin then .next (s.send (.reply src data))
      else
      let put (x : Unit) (e : Engine) : Unit :=
        if (x.queueOf e).any (fun c => c.serial == p.serial) then
          x.modCmd e p.serial (fun c => { c with got := tput c.got p.piece data })
        else x
      .next (s.modContext p.node p.unit (fun x => put (put x .c0) .c1))

end Sys2Proof.Machine
end

