-- ==== Sys2Proof/Machine/Control.lean ====
section
/-!
DEFINITION. Reading and writing the physical control space (R282), by `SLD` and `SST` and by the host through its bridge
(R443, R444), and the registers of the tile control blocks (R315, R316, R414, R475).
-/
namespace Sys2Proof.Machine

/-! ### Tile control blocks -/

/-- COLVB of a column (R475). -/
def State.colvb (s : State) (u n : Nat) : Word :=
  let g := (s.unit u).vgen
  setField (setField 0 16 (Config.coreLevel u g s.root.bootAt)) 0 (Config.vbaseLevel u n g s.root.bootAt)

/-- COLERR after a write: the trims are written, and a count field written as zero is cleared (R315). -/
def colerrWritten (old v : Word) : Word :=
  let w := setField old 54 (field v 54 10)
  let w := if field v 27 27 = 0 then setField w 27 (0 : BitVec 27) else w
  if field v 0 27 = 0 then setField w 0 (0 : BitVec 27) else w

/-- A write of COLERR (R315). -/
def State.writeColerr (s : State) (u n : Nat) (v : Word) : State :=
  s.modUnit u (fun x => { x with colerr := tput x.colerr n (colerrWritten (tget 0 x.colerr n) v) })

/-- A write of GSUM1 or GSUM2: zero clears it (R315). -/
def State.writeGsum (s : State) (u : Nat) (second : Bool) (v : Word) : State :=
  if v ≠ 0 then s
  else s.modUnit u (fun x => if second then { x with gsum2 := 0 } else { x with gsum1 := 0 })

/-- A write of FIDINJ: stored as given; a write that sets EN starts the numbering (R315, R321). -/
def State.writeFidinj (s : State) (u : Nat) (v : Word) : State :=
  s.modUnit u (fun x => { x with fidinj := v &&& 0xB00000FFFFFFFFFF, injCount := if bitOf v 63 then 0 else x.injCount })

/-- A write of CALCNT: a field written as zero is cleared (R414, R493). -/
def State.writeCalcnt (s : State) (u : Nat) (v : Word) : State :=
  s.modUnit u (fun x =>
    let kept (lo : Nat) : BitVec 32 := BitVec.ofNat 32 (s.bumpsNow (calcntKey u) lo)
    let w := if field v 32 32 = 0 then setField x.calcnt 32 (kept 32) else x.calcnt
    { x with calcnt := if field v 0 32 = 0 then setField w 0 (kept 0) else w })

/-- A write of FIDLIM: 11 is ignored (R316). -/
def State.writeFidlim (s : State) (k : Nat) (v : Word) : State :=
  if field v 0 2 = 3 then s else s.cset (fidlimAddr k) (v &&& 3)

/-- FIDLIM_WRITE (R316). -/
def execFidlimWrite (k : Nat) (v : Word) (s : State) : Host.Outcome State Fault Refusal :=
  if 32 ≤ k then .fault (.noSuchPart k) else .next (if s.dieSilent (k / 8) then s else s.writeFidlim k v)

/-- COLERR_WRITE (R315). -/
def execColerrWrite (u n : Nat) (v : Word) (s : State) : Host.Outcome State Fault Refusal :=
  if 512 ≤ u ∨ 64 ≤ n then .fault (.noSuchPart u) else .next (if s.dieSilent (u / 128) then s else s.writeColerr u n v)

/-- GSUM_WRITE (R315). -/
def execGsumWrite (u : Nat) (second : Bool) (v : Word) (s : State) : Host.Outcome State Fault Refusal :=
  if 512 ≤ u then .fault (.noSuchPart u) else .next (if s.dieSilent (u / 128) then s else s.writeGsum u second v)

/-- FIDINJ_WRITE (R321). -/
def execFidinjWrite (u : Nat) (v : Word) (s : State) : Host.Outcome State Fault Refusal :=
  if 512 ≤ u then .fault (.noSuchPart u) else .next (if s.dieSilent (u / 128) then s else s.writeFidinj u v)

/-! ### Reading -/

/-- A register on a die in warm reset, which does not answer (R282). -/
def State.silent (s : State) (r : CReg) : Bool :=
  match r.die with
  | some d => s.dieSilent d
  | none => false

/-- A register as it reads. -/
def State.cregRead (s : State) (a : Nat) : CReg → Word
  | .sch 0x28 => s.schstat
  | .trb 0x10 => s.cget a &&& 0x7FFFFFFFFFFFFFFF
  | .mig d 0x18 => s.cget a ||| (ofBool 64 (s.migBusy d) <<< 63)
  | .dlb n 0x08 => s.lkstatView n
  | .drb d 0x08 => s.drstatView d
  | .colerr u n => tget 0 (s.unit u).colerr n
  | .gsum u second => if second then (s.unit u).gsum2 else (s.unit u).gsum1
  | .fidinj u => (s.unit u).fidinj
  | .calcnt u => (s.unit u).calcnt
  | .colvb u n => s.colvb u n
  | _ => s.cget a

/-- The word that a read of a control address returns: all ones where the register is on a die in warm reset (R282). -/
def State.ctlRead (s : State) (a : Nat) : Word :=
  match cregOf a with
  | none => 0
  | some r => if s.silent r then BitVec.allOnes 64 else s.cregRead a r

/-! ### Writing -/

/-- A write of the scheduler block (R387). -/
def State.writeSch (s : State) (off : Nat) (v : Word) : State :=
  match off with
  | 0x00 => s.writeSchctl v
  | 0x08 => s.writeQuant v
  | 0x10 => s.writeStagesz v
  | 0x18 => s.writeSwapArea false v
  | 0x20 => s.writeSwapArea true v
  | 0x28 => s.writeSchstat v
  | _ => s

/-- A write of a queue's registers; QHEAD is read only (R371). -/
def State.writeQueue (s : State) (q off : Nat) (v : Word) : State :=
  match off with
  | 0x00 => s.writeRing q v
  | 0x08 => s.writeQcfg q v
  | 0x10 => s.writeTail q (field v 0 32).toNat
  | _ => s

/-- A write of the translation block (R391). -/
def State.writeTrb (s : State) (a off : Nat) (v : Word) : State :=
  match off with
  | 0x00 => s.cset a (v &&& 0x3FFFFF00000)
  | 0x08 => s.cset a (v &&& 0x3FFFFF00000)
  | 0x10 => s.writeTlbinv v
  | 0x18 => s.cset a (v &&& 0xFFFFFFFFF)
  | _ => s

/-- GO of a migrator for the request that MDST names (R401, R483). -/
def State.migrateGo (s : State) (d : Nat) : State :=
  if !s.noon then s
  else if s.migBusy d then s.busyGo d
  else if !s.serving then s.askMigrator d
  else if s.mdstHost d then s.startEviction d
  else s.startMigration d

/-- A write of MCTL: FOLD, REL and GO, in this order (R401, log entry 64). -/
def State.writeMctl (s : State) (d : Nat) (v : Word) : State :=
  let s := if bitOf v 2 then s.foldPage d else s
  let s := if bitOf v 1 then s.releasePage d else s
  if bitOf v 0 then s.migrateGo d else s

/-- A write of a migrator's registers; MRES is read only (R401). -/
def State.writeMig (s : State) (a d off : Nat) (v : Word) : State :=
  match off with
  | 0x00 => s.cset a (v &&& 0xFFFF000FFFFFFFFF)
  | 0x08 => s.cset a (v &&& 0xFFFFFFFFFF0200)
  | 0x10 => s.writeMctl d v
  | _ => s

/-- A write of the Dusk block; DSTAT, DRAINED, NVLAST, READY and RSVSTAT are read only (R416, R492). -/
def State.writeDcb (s : State) (a off : Nat) (v : Word) : State :=
  match off with
  | 0x00 => if bitOf v 1 then s.startDusk true else s
  | 0x08 => s.cset a (v &&& 0x3FFFFFFFFC0)
  | 0x10 => s.writePln v
  | 0x18 => s.writeHibcfg v
  | 0x20 => s.writeShedord v
  | 0x28 => s.writeShedtim v
  | _ => s

/-- The module with the high and the low 32 bits of a register cleared where they are written as zero (R493). -/
def State.clearHalves (s : State) (a : Nat) (v : Word) : State :=
  let s := if field v 32 32 = 0 then s.cclear a 32 32 else s
  if field v 0 32 = 0 then s.cclear a 0 32 else s

/-- A write of a port's registers; PSTAT is read only (R441). -/
def State.writeFab (s : State) (a p off : Nat) (v : Word) : State :=
  match off with
  | 0x00 => s.writePctl p v
  | 0x08 => s
  | 0x10 => s.clearHalves a v
  | _ => s.cset a v

/-- A write of the root block; HOSTAT and BOOTSTAT are read only (R454, R456). -/
def State.writeRob (s : State) (a off : Nat) (v : Word) : State :=
  match off with
  | 0x08 => s.writeHoctl v
  | 0x18 => s
  | 0x20 => s
  | 0x68 => s.writeAttgo v
  | _ => s.cset a v

/-- A write of the bridge block (R442, R445): where BRCTL is set here, whether another module is the bridge already is a free
value. -/
def State.writeBrb (s : State) (a off : Nat) (v : Word) : State :=
  match off with
  | 0x00 =>
    if bitOf v 0 && !(bitOf (s.cget brb) 0) then State.setBrctl { s with free := s.free + 1 } v (Config.bridgeTaken s.free)
    else s.setBrctl v s.hostReset
  | 0x88 => s.cset a (v &&& 0xF00003F000000000)
  | 0x90 => if field v 0 32 = 0 then s.cclear a 0 32 else s
  | 0x98 => s.cset a (s.cget a &&& ~~~ (v &&& 0xFFFF))
  | _ => s.cset a (v &&& 0xFFFF)

/-- A write of a link's registers; LKSTAT is read only but for what R459 says of the others. -/
def State.writeDlb (s : State) (n off : Nat) (v : Word) : State :=
  match off with
  | 0x00 => s.writeLkctl n v
  | 0x10 => s.writeLkretry n v
  | 0x20 => s.writeLkspare n v
  | 0x28 => s.writeLkthr n v
  | _ => s

/-- A write of a die's reset registers (R465). -/
def State.writeDrb (s : State) (d off : Nat) (v : Word) : State :=
  match off with
  | 0x00 => s.writeDrctl d v
  | 0x08 => s.writeDrstat d v
  | 0x10 => s.writeDrlim d v
  | _ => s

/-- A write of a pseudo-channel's table, PCCFG or PCSTAT (R408, R414). -/
def State.writeCalReg (s : State) (a off : Nat) (v : Word) : State :=
  match off with
  | 0x80 => s.writePccfg a v
  | 0x88 => s.writePcstat a v
  | _ => s.writeCal a v

/-- A write of the first registers of the power block; MODPWR is read only (R481). -/
def State.writePwb (s : State) (off : Nat) (v : Word) : State :=
  match off with
  | 0x00 => s.cset pwb (v &&& 0xFFFFFFFF)
  | 0x08 => s.writePlstat v
  | 0x10 => s.writeModlim v
  | _ => s

/-- A write of a register that answers. -/
def State.cregWrite (s : State) (a : Nat) (v : Word) : CReg → State
  | .sch off => s.writeSch off v
  | .queue q off => s.writeQueue q off v
  | .trb off => s.writeTrb a off v
  | .mig d off => s.writeMig a d off v
  | .dcb off => s.writeDcb a off v
  | .fab p off => s.writeFab a p off v
  | .rob off => s.writeRob a off v
  | .brb off => s.writeBrb a off v
  | .dlb n off => s.writeDlb n off v
  | .drb d off => s.writeDrb d off v
  | .cal _ _ off => s.writeCalReg a off v
  | .pwb off => s.writePwb off v
  | .clshade k => s.writeClshade k v
  | .cllim k => s.writeCllim k v
  | .dielim d => s.writeDielim d v
  | .clb off => if off < 0x40 then s.writeZcfg (off / 8) v else s
  | .colerr u n => s.writeColerr u n v
  | .gsum u second => s.writeGsum u second v
  | .fidinj u => s.writeFidinj u v
  | .calcnt u => s.writeCalcnt u v
  | .colvb _ _ => s
  | .fidlim k => s.writeFidlim k v

/-- A write of a control address: nothing where no register backs it or its die is in warm reset (R282). -/
def State.ctlWrite (s : State) (a : Nat) (v : Word) : State :=
  match cregOf a with
  | none => s
  | some r => if s.silent r then s else s.cregWrite a v r

/-- CONTROL_REGISTER_WRITE (R282, R371, R387, R391, R408, R414, R416, R439, R441, R445, R459, R465, R481, R486). -/
def execControlRegisterWrite (addr : BitVec 40) (v : Word) (s : State) : Host.Outcome State Fault Refusal :=
  .next (s.ctlWrite addr.toNat v)

/-! ### Host -/

/-- The module numbers that have a register of BRMAP: the module of member `m`, `none` where it is absent (R443, R445). -/
def State.memberModule (s : State) (m : Nat) : Option Nat :=
  let n := s.cfield (brb + 8 + 8 * m) 0 16
  if n = 0xFFFF then none else some n

/-- A member that is dark or absent: its accesses are counted and dropped (R444). -/
def State.hostDrop (s : State) : State := s.cbump (brb + 0x90) 0 32 1

/-- A host access that finds no member counts and is dropped; a read of `n` bytes returns all ones (R444). -/
def State.hostMiss (s : State) (write : Bool) (n : Nat) : State :=
  let t := s.hostDrop
  if write then t else { t with out := t.out ++ [.hostData (List.replicate n (0xFF : Byte))] }

/-- What an access to the control space of this module does, and what a read returns (R282, R443). -/
def State.ctlAccess (s : State) (a : Nat) (write : Bool) (v : Word) : State × List Byte :=
  if write then (s.ctlWrite a v, [])
  else if (cregOf a).isSome then (s, toBytes (s.ctlRead a) 8)
  else ({ s with free := s.free + 1 }, toBytes (Config.unbackedWord a s.free) 8)

/-- What an access to the local physical space of this module does, and what a read of as many bytes as `data` has returns (R407,
R443). -/
def State.memAccess (s : State) (a : Nat) (write : Bool) (data : List Byte) : State × List Byte :=
  let there := populated a && populated (a + data.length - 1)
  if write then (if there then s.dwrite a data else s, [])
  else if there then (s, s.dread a data.length)
  else ({ s with free := s.free + 1 },
    (List.range data.length).map (fun i => (Config.unbackedWord (a + i) s.free).setWidth 8))

/-- The bytes of a read go back to the host, or to the bridge that forwarded it (R443). -/
def State.hostReturn (src : Option Nat) (write : Bool) (r : State × List Byte) : State :=
  if write then r.1
  else match src with
    | none => { r.1 with out := r.1.out ++ [.hostData r.2] }
    | some m => r.1.send (.hostAnswer m r.2)

/-- A member's answer to a forwarded read reaches the host (R443). -/
def State.hostAnswered (s : State) (src : Nat) (data : List Byte) : State :=
  if !(s.hostReads.contains (src, data.length)) then s
  else { s with hostReads := s.hostReads.erase (src, data.length), out := s.out ++ [.hostData data] }

/-- A host access forwarded to another member, whose answer to a read is awaited (R443). -/
def State.hostForward (s : State) (n : Nat) (write : Bool) (len : Nat) (m : Msg) : State :=
  let t := s.send m
  if write then t else { t with hostReads := t.hostReads ++ [(n, len)] }

/-- A forwarded access at the member that it reaches: between its warning and Midnight it is answered PEER_DARK (R419). -/
def State.serveBridge (s : State) (src : Nat) (f : State → State) : State :=
  if s.dusk.midnight then s else if s.noon then f s else s.send (.answer src 3)

/-- HOST_BAR0_ACCESS (R419, R443, R444, R494): an aligned access of 8 bytes reaches the control space of a member: at the
bridge that of its own module, or by the fabric that of another, which serves it as it comes and answers a read. -/
def execHostBar0Access (addr : HostAddr) (size : Nat) (write : Bool) (v : Word) (s : State) :
    Host.Outcome State Fault Refusal :=
  if 2 ^ 35 ≤ addr.offset then .fault (.noSuchPart addr.offset)
  else
    let a := scb + addr.offset % 2 ^ 31
    match addr.via with
    | .answer src => .next (s.hostAnswered src (toBytes v 8))
    | .bridge src => .next (s.serveBridge src (fun s => State.hostReturn (some src) write (s.ctlAccess a write v)))
    | .pcie =>
      if !s.bridging then .next s
      else if size ≠ 8 ∨ addr.offset % 8 ≠ 0 then .next { s with out := s.out ++ [.unsupported] }
      else
        match s.memberModule (addr.offset / 2 ^ 31) with
        | none => .next (s.hostMiss write 8)
        | some n =>
          if n = s.modnum then .next (State.hostReturn none write (s.ctlAccess a write v))
          else if !(s.reachable n) then .next (s.hostMiss write 8)
          else .next (s.hostForward n write 8 (.hostCtl n a write v))

/-- The physical address that BAR2 reaches at an offset (R443, R445). -/
def State.bar2Address (s : State) (offset : Nat) : Nat := s.cfield (brb + 0x88) 36 6 * 2 ^ 36 + offset

/-- HOST_BAR2_ACCESS (R407, R419, R443, R483): the DRAM of the member that BRWIN names; in PL1 to PL3 the access wakes the
module and waits.  A read returns as many bytes as `data` has; one that the bridge forwarded has its physical address as its
offset. -/
def execHostBar2Access (addr : HostAddr) (write : Bool) (data : List Byte) (s : State) :
    Host.Outcome State Fault Refusal :=
  match addr.via with
  | .answer src => .next (s.hostAnswered src data)
  | .bridge src =>
    if 2 ^ 42 ≤ addr.offset then .fault (.noSuchPart addr.offset)
    else .next (s.serveBridge src (fun s =>
      if !s.serving then s else State.hostReturn (some src) write (s.memAccess addr.offset write data)))
  | .pcie =>
    if 2 ^ 36 ≤ addr.offset then .fault (.noSuchPart addr.offset)
    else if !s.bridging then .next s
    else
      let a := s.bar2Address addr.offset
      match s.memberModule (s.cfield (brb + 0x88) 60 4) with
      | none => .next (s.hostMiss write data.length)
      | some n =>
        if n = s.modnum then .next (if !s.serving then s else State.hostReturn none write (s.memAccess a write data))
        else if !(s.reachable n) then .next (s.hostMiss write data.length)
        else .next (s.hostForward n write data.length (.hostMem n a write data))

end Sys2Proof.Machine
end

