-- ==== Sys2Proof/Machine/ScalarAlu.lean ====
section
/-!
DEFINITION. Scalar arithmetic, shifts, multiplication and division, constants, selection and predicates (R128
to R146): one meaning for each instruction over the shared forms at the head of the file.
-/
namespace Sys2Proof.Machine

/-! ### Shared forms -/

/-- sD := f A B with a latency (R130 to R132). -/
def aluR (s : State) (i : Instr) (o : SR) (lat : Nat) (f : Word → Word → Word) :
    Host.Outcome State Fault Refusal :=
  s.slotStep i (fun s =>
    let a := s.src.sreg o.a
    let b := s.src.sreg o.b
    s.deliverS o.nw (.sreg o.d.toNat) lat { v := f a.v b.v, d := a.d || b.d })

/-- sD := f A with latency 1 (R139, R140). -/
def aluA (s : State) (i : Instr) (o : SR) (f : Word → Word) : Host.Outcome State Fault Refusal :=
  s.slotStep i (fun s =>
    let a := s.src.sreg o.a
    s.deliverS o.nw (.sreg o.d.toNat) 1 { v := f a.v, d := a.d })

/-- sD := f sD A n for the funnel shifts, n in field B (R136). -/
def aluF (s : State) (i : Instr) (o : SR) (f : Word → Word → Nat → Word) : Host.Outcome State Fault Refusal :=
  s.slotStep i (fun s =>
    let d := s.src.sreg o.d
    let a := s.src.sreg o.a
    s.deliverS o.nw (.sreg o.d.toNat) 1 { v := f d.v a.v o.b.toNat, d := d.d || a.d })

/-- sD := f A imm (R134). -/
def aluI (s : State) (i : Instr) (o : SI) (f : Word → Word → Word) : Host.Outcome State Fault Refusal :=
  s.slotStep i (fun s =>
    let a := s.src.sreg o.a
    s.deliverS o.nw (.sreg o.d.toNat) 1 { v := f a.v (immOf o), d := a.d })

/-- A predicate result as the value 0 or 1 (R130). -/
def boolWord (b : Bool) : Word := ofBool 64 b

/-- pD := A cond B (R145). -/
def setpR (s : State) (i : Instr) (o : SR) (f : Word → Word → Bool) : Host.Outcome State Fault Refusal :=
  s.slotStep i (fun s =>
    let a := s.src.sreg o.a
    let b := s.src.sreg o.b
    s.deliverS o.nw (.preg o.d.toNat) 1 { v := boolWord (f a.v b.v), d := a.d || b.d })

/-- pD := A cond imm (R145). -/
def setpI (s : State) (i : Instr) (o : SI) (f : Word → Word → Bool) : Host.Outcome State Fault Refusal :=
  s.slotStep i (fun s =>
    let a := s.src.sreg o.a
    s.deliverS o.nw (.preg o.d.toNat) 1 { v := boolWord (f a.v (immOf o)), d := a.d })

/-- pD := f pA pB (R146). -/
def predR (s : State) (i : Instr) (o : SR) (f : Bool → Bool → Bool) : Host.Outcome State Fault Refusal :=
  s.slotStep i (fun s =>
    let a := s.src.preg o.a.toNat
    let b := s.src.preg o.b.toNat
    s.deliverS o.nw (.preg o.d.toNat) 1 { v := boolWord (f a.1 b.1), d := a.2 || b.2 })

/-- The shift amount B[5:0] (R135). -/
def amount (b : Word) : Nat := b.toNat % 64

/-- Leading zero bits (R139). -/
def clz64 (a : Word) : Nat := if a = 0 then 64 else 63 - a.toNat.log2

/-- Bit i moved to bit 63 - i (R139). -/
def brev64 (a : Word) : Word :=
  (List.range 64).foldl (fun (r : Word) i => setField r (63 - i) (ofBool 1 (bitOf a i))) 0

/-- Trailing zero bits (R139). -/
def ctz64 (a : Word) : Nat := clz64 (brev64 a)

/-- One bits among the low `n` of a number. -/
def popNat : Nat → Nat → Nat
  | 0, _ => 0
  | n + 1, a => a % 2 + popNat n (a / 2)

/-- The quotient and the remainder of signed division, rounded toward zero, with the boundary cases of R142. -/
def divs64 (a b : Word) : Word := if b = 0 then BitVec.allOnes 64 else BitVec.ofInt 64 (a.toInt.tdiv b.toInt)
def rems64 (a b : Word) : Word := if b = 0 then a else BitVec.ofInt 64 (a.toInt.tmod b.toInt)

/-- Width in bits of a size code of `SEXT` and `ZEXT` (R140). -/
def extWidth (b : BitVec 6) : Nat := 8 * 2 ^ b.toNat

/-! ### Arithmetic and logic -/

/-- ADD (R133): sD := A + B. -/
def execAdd (o : SR) (s : State) : Host.Outcome State Fault Refusal :=
  aluR s (.add o) o 1 (fun a b => a + b)

/-- SUB (R133): sD := A - B. -/
def execSub (o : SR) (s : State) : Host.Outcome State Fault Refusal :=
  aluR s (.sub o) o 1 (fun a b => a - b)

/-- AND (R133). -/
def execAnd (o : SR) (s : State) : Host.Outcome State Fault Refusal :=
  aluR s (.and o) o 1 (fun a b => a &&& b)

/-- OR (R133). -/
def execOr (o : SR) (s : State) : Host.Outcome State Fault Refusal :=
  aluR s (.or o) o 1 (fun a b => a ||| b)

/-- XOR (R133). -/
def execXor (o : SR) (s : State) : Host.Outcome State Fault Refusal :=
  aluR s (.xor o) o 1 (fun a b => a ^^^ b)

/-- ANDN (R133): A AND NOT B. -/
def execAndn (o : SR) (s : State) : Host.Outcome State Fault Refusal :=
  aluR s (.andn o) o 1 (fun a b => a &&& ~~~ b)

/-- ORN (R133): A OR NOT B. -/
def execOrn (o : SR) (s : State) : Host.Outcome State Fault Refusal :=
  aluR s (.orn o) o 1 (fun a b => a ||| ~~~ b)

/-- XNOR (R133): NOT (A XOR B). -/
def execXnor (o : SR) (s : State) : Host.Outcome State Fault Refusal :=
  aluR s (.xnor o) o 1 (fun a b => ~~~ (a ^^^ b))

/-! ### Shifts -/

/-- SHL (R135). -/
def execShl (o : SR) (s : State) : Host.Outcome State Fault Refusal :=
  aluR s (.shl o) o 1 (fun a b => a <<< amount b)

/-- SHR (R135): zero-filled. -/
def execShr (o : SR) (s : State) : Host.Outcome State Fault Refusal :=
  aluR s (.shr o) o 1 (fun a b => a >>> amount b)

/-- SAR (R135): sign-filled. -/
def execSar (o : SR) (s : State) : Host.Outcome State Fault Refusal :=
  aluR s (.sar o) o 1 (fun a b => a.sshiftRight (amount b))

/-- ROL (R135). -/
def execRol (o : SR) (s : State) : Host.Outcome State Fault Refusal :=
  aluR s (.rol o) o 1 (fun a b => a.rotateLeft (amount b))

/-- ROR (R135). -/
def execRor (o : SR) (s : State) : Host.Outcome State Fault Refusal :=
  aluR s (.ror o) o 1 (fun a b => a.rotateRight (amount b))

/-! ### Multiplication and division -/

/-- MUL (R141): bits [63:0] of the product. -/
def execMul (o : SR) (s : State) : Host.Outcome State Fault Refusal :=
  aluR s (.mul o) o 3 (fun a b => a * b)

/-- MULH (R141): bits [127:64] of the unsigned product. -/
def execMulh (o : SR) (s : State) : Host.Outcome State Fault Refusal :=
  aluR s (.mulh o) o 3 (fun a b => BitVec.ofNat 64 (a.toNat * b.toNat / 2 ^ 64))

/-- MULHS (R141): bits [127:64] of the signed product. -/
def execMulhs (o : SR) (s : State) : Host.Outcome State Fault Refusal :=
  aluR s (.mulhs o) o 3 (fun a b => BitVec.ofInt 64 (a.toInt * b.toInt / 2 ^ 64))

/-- DIV (R142). -/
def execDiv (o : SR) (s : State) : Host.Outcome State Fault Refusal :=
  aluR s (.div o) o 12 (fun a b => if b = 0 then BitVec.allOnes 64 else a / b)

/-- DIVS (R142). -/
def execDivs (o : SR) (s : State) : Host.Outcome State Fault Refusal :=
  aluR s (.divs o) o 12 (fun a b => divs64 a b)

/-- REM (R142). -/
def execRem (o : SR) (s : State) : Host.Outcome State Fault Refusal :=
  aluR s (.rem o) o 12 (fun a b => if b = 0 then a else a % b)

/-- REMS (R142). -/
def execRems (o : SR) (s : State) : Host.Outcome State Fault Refusal :=
  aluR s (.rems o) o 12 (fun a b => rems64 a b)

/-! ### Minimum, maximum and bits -/

/-- MIN (R138): unsigned. -/
def execMin (o : SR) (s : State) : Host.Outcome State Fault Refusal :=
  aluR s (.min o) o 1 (fun a b => if b.toNat < a.toNat then b else a)

/-- MAX (R138): unsigned. -/
def execMax (o : SR) (s : State) : Host.Outcome State Fault Refusal :=
  aluR s (.max o) o 1 (fun a b => if a.toNat < b.toNat then b else a)

/-- MINS (R138): signed. -/
def execMins (o : SR) (s : State) : Host.Outcome State Fault Refusal :=
  aluR s (.mins o) o 1 (fun a b => if b.toInt < a.toInt then b else a)

/-- MAXS (R138): signed. -/
def execMaxs (o : SR) (s : State) : Host.Outcome State Fault Refusal :=
  aluR s (.maxs o) o 1 (fun a b => if a.toInt < b.toInt then b else a)

/-- CLZ (R139). -/
def execClz (o : SR) (s : State) : Host.Outcome State Fault Refusal :=
  aluA s (.clz o) o (fun a => BitVec.ofNat 64 (clz64 a))

/-- CTZ (R139). -/
def execCtz (o : SR) (s : State) : Host.Outcome State Fault Refusal :=
  aluA s (.ctz o) o (fun a => BitVec.ofNat 64 (ctz64 a))

/-- POPC (R139). -/
def execPopc (o : SR) (s : State) : Host.Outcome State Fault Refusal :=
  aluA s (.popc o) o (fun a => BitVec.ofNat 64 (popNat 64 a.toNat))

/-- BREV (R139). -/
def execBrev (o : SR) (s : State) : Host.Outcome State Fault Refusal :=
  aluA s (.brev o) o (fun a => brev64 a)

/-- SEXT (R140): the low 8, 16 or 32 bits by size code B. -/
def execSext (o : SR) (s : State) : Host.Outcome State Fault Refusal :=
  aluA s (.sext o) o (fun a => (a <<< (64 - extWidth o.b)).sshiftRight (64 - extWidth o.b))

/-- ZEXT (R140). -/
def execZext (o : SR) (s : State) : Host.Outcome State Fault Refusal :=
  aluA s (.zext o) o (fun a => BitVec.ofNat 64 (a.toNat % 2 ^ extWidth o.b))

/-- FSHL (R136): sD shifted left, filled from the top of sA. -/
def execFshl (o : SR) (s : State) : Host.Outcome State Fault Refusal :=
  aluF s (.fshl o) o (fun d a n => BitVec.ofNat 64 ((d.toNat * 2 ^ 64 + a.toNat) * 2 ^ n / 2 ^ 64))

/-- FSHR (R136): sD shifted right, filled from the bottom of sA. -/
def execFshr (o : SR) (s : State) : Host.Outcome State Fault Refusal :=
  aluF s (.fshr o) o (fun d a n => BitVec.ofNat 64 ((a.toNat * 2 ^ 64 + d.toNat) / 2 ^ n))

/-- ADDSH (R137): sD := A + (B << F). -/
def execAddsh (f : BitVec 3) (o : SR) (s : State) : Host.Outcome State Fault Refusal :=
  aluR s (.addsh f o) o 1 (fun a b => a + (b <<< f.toNat))

/-! ### Immediates and constants -/

/-- ADDI (R134). -/
def execAddi (o : SI) (s : State) : Host.Outcome State Fault Refusal :=
  aluI s (.addi o) o (fun a b => a + b)

/-- ANDI (R134). -/
def execAndi (o : SI) (s : State) : Host.Outcome State Fault Refusal :=
  aluI s (.andi o) o (fun a b => a &&& b)

/-- ORI (R134). -/
def execOri (o : SI) (s : State) : Host.Outcome State Fault Refusal :=
  aluI s (.ori o) o (fun a b => a ||| b)

/-- XORI (R134). -/
def execXori (o : SI) (s : State) : Host.Outcome State Fault Refusal :=
  aluI s (.xori o) o (fun a b => a ^^^ b)

/-- SHLI (R134). -/
def execShli (o : SI) (s : State) : Host.Outcome State Fault Refusal :=
  aluI s (.shli o) o (fun a b => a <<< amount b)

/-- SHRI (R134). -/
def execShri (o : SI) (s : State) : Host.Outcome State Fault Refusal :=
  aluI s (.shri o) o (fun a b => a >>> amount b)

/-- SARI (R134). -/
def execSari (o : SI) (s : State) : Host.Outcome State Fault Refusal :=
  aluI s (.sari o) o (fun a b => a.sshiftRight (amount b))

/-- MOVI (R143): sD := sext(IMM18, 64). -/
def execMovi (o : SL) (s : State) : Host.Outcome State Fault Refusal :=
  s.slotStep (.movi o) (fun s =>
    s.deliverS false (.sreg o.d.toNat) 1 { v := o.imm18.signExtend 64, d := false })

/-- MOVH (R143): sD := (sD << 18) OR IMM18. -/
def execMovh (o : SL) (s : State) : Host.Outcome State Fault Refusal :=
  s.slotStep (.movh o) (fun s =>
    let d := s.src.sreg o.d
    s.deliverS false (.sreg o.d.toNat) 1 { v := (d.v <<< 18) ||| o.imm18.setWidth 64, d := d.d })

/-- SEL (R144): sD := A when pF is 1, else B; the predicate counts as data (R131). -/
def execSel (f : BitVec 3) (o : SR) (s : State) : Host.Outcome State Fault Refusal :=
  s.slotStep (.sel f o) (fun s =>
    let p := s.src.preg f.toNat
    let a := s.src.sreg o.a
    let b := s.src.sreg o.b
    s.deliverS o.nw (.sreg o.d.toNat) 1 { v := if p.1 then a.v else b.v, d := p.2 || a.d || b.d })

/-! ### Predicates -/

/-- SETP eq (R145): =. -/
def execSetpEq (o : SR) (s : State) : Host.Outcome State Fault Refusal :=
  setpR s (.setpEq o) o (fun a b => a == b)

/-- SETP ne (R145): ≠. -/
def execSetpNe (o : SR) (s : State) : Host.Outcome State Fault Refusal :=
  setpR s (.setpNe o) o (fun a b => a != b)

/-- SETP lt (R145): < unsigned. -/
def execSetpLt (o : SR) (s : State) : Host.Outcome State Fault Refusal :=
  setpR s (.setpLt o) o (fun a b => decide (a.toNat < b.toNat))

/-- SETP lts (R145): < signed. -/
def execSetpLts (o : SR) (s : State) : Host.Outcome State Fault Refusal :=
  setpR s (.setpLts o) o (fun a b => decide (a.toInt < b.toInt))

/-- SETP le (R145): ≤ unsigned. -/
def execSetpLe (o : SR) (s : State) : Host.Outcome State Fault Refusal :=
  setpR s (.setpLe o) o (fun a b => decide (a.toNat ≤ b.toNat))

/-- SETP les (R145): ≤ signed. -/
def execSetpLes (o : SR) (s : State) : Host.Outcome State Fault Refusal :=
  setpR s (.setpLes o) o (fun a b => decide (a.toInt ≤ b.toInt))

/-- SETPI eq (R145): =, against sext(IMM9, 64). -/
def execSetpiEq (o : SI) (s : State) : Host.Outcome State Fault Refusal :=
  setpI s (.setpiEq o) o (fun a b => a == b)

/-- SETPI ne (R145): ≠, against sext(IMM9, 64). -/
def execSetpiNe (o : SI) (s : State) : Host.Outcome State Fault Refusal :=
  setpI s (.setpiNe o) o (fun a b => a != b)

/-- SETPI lt (R145): < unsigned, against sext(IMM9, 64). -/
def execSetpiLt (o : SI) (s : State) : Host.Outcome State Fault Refusal :=
  setpI s (.setpiLt o) o (fun a b => decide (a.toNat < b.toNat))

/-- SETPI lts (R145): < signed, against sext(IMM9, 64). -/
def execSetpiLts (o : SI) (s : State) : Host.Outcome State Fault Refusal :=
  setpI s (.setpiLts o) o (fun a b => decide (a.toInt < b.toInt))

/-- SETPI le (R145): ≤ unsigned, against sext(IMM9, 64). -/
def execSetpiLe (o : SI) (s : State) : Host.Outcome State Fault Refusal :=
  setpI s (.setpiLe o) o (fun a b => decide (a.toNat ≤ b.toNat))

/-- SETPI les (R145): ≤ signed, against sext(IMM9, 64). -/
def execSetpiLes (o : SI) (s : State) : Host.Outcome State Fault Refusal :=
  setpI s (.setpiLes o) o (fun a b => decide (a.toInt ≤ b.toInt))

/-- PAND (R146). -/
def execPand (o : SR) (s : State) : Host.Outcome State Fault Refusal :=
  predR s (.pand o) o (fun a b => a && b)

/-- POR (R146). -/
def execPor (o : SR) (s : State) : Host.Outcome State Fault Refusal :=
  predR s (.por o) o (fun a b => a || b)

/-- PXOR (R146). -/
def execPxor (o : SR) (s : State) : Host.Outcome State Fault Refusal :=
  predR s (.pxor o) o (fun a b => xor a b)

/-- PNOT (R146): NOT pA; field B is zero. -/
def execPnot (o : SR) (s : State) : Host.Outcome State Fault Refusal :=
  s.slotStep (.pnot o) (fun s =>
    let a := s.src.preg o.a.toNat
    s.deliverS o.nw (.preg o.d.toNat) 1 { v := boolWord (!a.1), d := a.2 })

end Sys2Proof.Machine
end

