-- ==== Sys2Proof/Machine/System.lean ====
section
/-!
DEFINITION. System registers and system instructions (R274 to R282, R453, R464), and the end of a bundle that holds one.
-/
namespace Sys2Proof.Machine

/-! ### System registers -/

/-- TILEID (R275): a sequencer's INDEX counts within its die, and hub sequencers read die 0. -/
def State.tileId (s : State) (u : Nat) : Word :=
  let kind := match unitKind u with | .tile => 0 | .comm => 1 | .service => 2 | .root => 3
  let index :=
    if u < 512 then u % 16 else if u < 576 then (u - 512) % 16 else if u < 584 then (u - 576) % 2 else (u - 584) % 2
  BitVec.ofNat 64 (s.modnum % 65536 * 2 ^ 32 + kind * 512 + clusterOf u * 16 + index)

/-- TEAMID of a tile (R275). -/
def Unit.teamId (x : Unit) : Word :=
  BitVec.ofNat 64 ((x.teamSize - 1) % 16 * 2 ^ 52 + x.member % 16 * 2 ^ 48 + x.graph % 2 ^ 32 * 65536 + x.node % 65536)

/-- TASKID of a tile (R275). -/
def Unit.taskId (x : Unit) : Word := BitVec.ofNat 64 (x.queue % 65536 * 2 ^ 48 + x.recSerial % 2 ^ 48)

/-- A register that reads as zero on sequencers (R274). -/
def tileOnly (u : Nat) (w : Word) : Word := if isTile u then w else 0

/-- A system register of unit `u`, which stands as `x`, as `RDSYS` reads it (R274, R277, R453, R464). -/
def State.readSys (s : State) (u : Nat) (x : Unit) (n : Nat) : Word :=
  match n with
  | 0x000 => x.regs.fcsr
  | 0x001 => s.tileId u
  | 0x002 => tileOnly u x.teamId
  | 0x003 => tileOnly u x.taskId
  | 0x004 => x.markPc
  | 0x005 => x.trapCause
  | 0x006 => x.trapPc
  | 0x007 => x.trapVal
  | 0x008 => x.trapVec
  | 0x009 => x.hstatView
  | 0x00A => tileOnly u x.mstat
  | 0x00B => x.cstat
  | 0x00C => tileOnly u x.fidstat
  | 0x00D => tileOnly u (BitVec.ofNat 64 (s.shadeOf (clusterOf u)))
  | 0x00E => x.bcount
  | 0x800 => x.hostateView
  | 0x802 => x.events.headD 0
  | 0x804 => s.cget (rob + 0x10)
  | 0x805 => BitVec.ofNat 64 s.modnum
  | 0x810 => BitVec.ofNat 64 s.nowNs
  | 0x811 => BitVec.ofNat 64 s.dieUp
  | _ => 0

/-- The bits of a word that `mask` names replaced. -/
def maskIn (mask old v : Word) : Word := (old &&& ~~~ mask) ||| (v &&& mask)

/-- The unit after `WRSYS` of a system register: a write changes the writable fields, and one of a register that a sequencer
does not have is ignored (R59, R237, R271, R274, R275, R277, R312). -/
def Unit.writeSys (u : Nat) (x : Unit) (n : Nat) (v : Word) : Unit :=
  match n with
  | 0x000 => { x with regs := { x.regs with fcsr := v &&& 0x1F1F3F } }
  | 0x006 => { x with trapPc := v }
  | 0x008 => { x with trapVec := v }
  | 0x009 => { x with hstat := maskIn 0xC2 x.hstat v }
  | 0x00A => if isTile u then { x with mstat := maskIn 0x0000FFFF000000FC x.mstat v } else x
  | 0x00B => { x with cstat := maskIn 0xFFFFFFFF00FF3F0E x.cstat v }
  | 0x00C => if isTile u then { x with fidstat := maskIn 0xFFFFFFFF00000100 x.fidstat v } else x
  | _ => x

/-! ### Instructions -/

/-- RDSYS (R276, R277); a read of EVPOP takes the event (R453). -/
def execRdsys (o : SR) (s : State) : Host.Outcome State Fault Refusal :=
  s.slotStep (.rdsys o) (fun s =>
    let n := numBA o
    let t := s.deliverS o.nw (.sreg o.d.toNat) 2 { v := s.readSys s.focus s.src n, d := false }
    if n = 0x802 then t.modCur (fun x => { x with events := x.events.drop 1 }) else t)

/-- WRSYS (R276, R277): HOACK acts when the bundle ends, since it may stop the image that issued it (R450, R453). -/
def execWrsys (o : SR) (s : State) : Host.Outcome State Fault Refusal :=
  s.slotStep (.wrsys o) (fun s =>
    let v := (s.src.sreg o.a).v
    match numBD o with
    | 0x801 => s.modCur (fun x => { x with kicked := s.now })
    | 0x803 => { s with issue := { s.issue with after := some (.hoack v) } }
    | n => s.modCur (fun x => x.writeSys s.focus n v))

/-- TRAP (R278). -/
def execTrap (o : SR) (s : State) : Host.Outcome State Fault Refusal :=
  s.slotStep (.trap o) (fun s => { s with issue := { s.issue with after := some (.trap (numBA o)) } })

/-- ERET (R279). -/
def execEret (s : State) : Host.Outcome State Fault Refusal :=
  s.slotStep .eret (fun s => { s with issue := { s.issue with after := some .eret } })

/-- DUSKDONE (R280). -/
def execDuskdone (s : State) : Host.Outcome State Fault Refusal :=
  s.slotStep .duskdone (fun s => { s with issue := { s.issue with after := some .duskdone } })

/-- FENCE (R281): every earlier `SST` has taken effect when its bundle ended, so nothing is held. -/
def execFence (o : SR) (s : State) : Host.Outcome State Fault Refusal := s.slotStep (.fence o) (fun s => s)

/-- CSTAT of an access to a register on a die in warm reset (R282). -/
def Unit.dieError (x : Unit) : Unit :=
  { x with cstat := setField (setField (setBit x.cstat 1) 16 (2 : BitVec 8)) 8 (0 : BitVec 6) }

/-- The register at an address is on a die in warm reset (R282). -/
def State.silentAt (s : State) (a : Nat) : Bool :=
  match cregOf a with
  | some r => s.silent r
  | none => false

/-- SLD (R282): the register as it stands at issue, delivered after 16 bundles. -/
def execSld (o : SR) (s : State) : Host.Outcome State Fault Refusal :=
  s.slotStep (.sld o) (fun s =>
    let a := (s.src.sreg o.a).v.toNat
    let t := s.deliverS o.nw (.sreg o.d.toNat) 16 { v := s.ctlRead a, d := false }
    if s.silentAt a then t.modCur Unit.dieError else t)

/-- SST (R281, R282): it takes effect when its bundle ends. -/
def execSst (o : SR) (s : State) : Host.Outcome State Fault Refusal :=
  s.slotStep (.sst o) (fun s =>
    { s with issue := { s.issue with after := some (.sst (s.src.sreg o.a).v.toNat (s.src.sreg o.b).v) } })

/-! ### The end of a bundle -/

/-- What an `SST` or a write of HOACK does to the module (R282, R450). -/
def State.afterSystem (s : State) : After → State
  | .sst a v => if s.silentAt a then s.modCur Unit.dieError else s.ctlWrite a v
  | .hoack v => s.hoack s.focus v
  | _ => s

/-- The bundle in issue ends, and then its system instruction acts on the module. -/
def State.finishBundle (s : State) : State :=
  match s.issue.after with
  | none => s.endBundle
  | some a => s.endBundle.afterSystem a

end Sys2Proof.Machine
end

