-- ==== Sys2Proof/Machine/VectorFp.lean ====
section
/-!
DEFINITION. Vector floating arithmetic, conversion, the packed dot product and the attention-triple merge (R179 to
R191): one meaning for each instruction over the shared forms at the head of the file.
-/
namespace Sys2Proof.Machine

/-! ### Shared forms -/

/-- The context that a vector floating instruction reads at issue (R53, R61). -/
def Unit.fctx (x : Unit) (o : VOps) : FCtx := capturedCtx x.regs.fcsr o.rnd

/-- The random bits of destination element `k` of lane `l`: the low 16 bits of lane `l` of vc rotated right by
8k mod 32 (R52). -/
def qBits (v : VSrc) (l k : Nat) : Nat :=
  let a := laneAt v.lo l
  let n := 8 * k % 32
  (a / 2 ^ n + a * 2 ^ (32 - n)) % 65536

/-- The random-bits operand: vc under rounding 101, else nothing is read (R179). -/
def Unit.randomOp (x : Unit) (c : Cluster) (o : VOps) : VSrc := if o.rnd = 5 then x.vsrc c o.vc else {}

/-- The floating format of the type field (R119). -/
def vfmt (o : VOps) : Fmt := Fmt.ofCode o.ty.toNat

/-- vd := f va in one format (R179): format, context, random bits, element. -/
def vfloatA (s : State) (i : Instr) (c : Cluster) (o : VOps) (lat : Nat) (f : Fmt → FCtx → Nat → Nat → FRes) :
    Host.Outcome State Fault Refusal :=
  s.slotStep i (fun s =>
    let x := s.src
    let k := vfmt o
    let t := x.fctx o
    let a := x.vsrc c o.va
    let r := x.randomOp c o
    let g := x.gov c o
    let y := mapFloat g.1 k.width (fun l e => f k t (qBits r l e) (a.el k.width l e))
    s.deliverV c o.nw (vdest c false o) g.1 lat y.1 (a.d || r.d || g.2) y.2)

/-- vd := f va vb in one format (R179). -/
def vfloatAB (s : State) (i : Instr) (c : Cluster) (o : VOps) (lat : Nat)
    (f : Fmt → FCtx → Nat → Nat → Nat → FRes) : Host.Outcome State Fault Refusal :=
  s.slotStep i (fun s =>
    let x := s.src
    let k := vfmt o
    let t := x.fctx o
    let a := x.vsrc c o.va
    let b := x.vsrc c o.vb
    let r := x.randomOp c o
    let g := x.gov c o
    let y := mapFloat g.1 k.width (fun l e => f k t (qBits r l e) (a.el k.width l e) (b.el k.width l e))
    s.deliverV c o.nw (vdest c false o) g.1 lat y.1 (a.d || b.d || r.d || g.2) y.2)

/-- vd := ± va · vb + vc with one rounding (R180). -/
def vfused (s : State) (i : Instr) (c : Cluster) (o : VOps) (neg : Bool) : Host.Outcome State Fault Refusal :=
  s.slotStep i (fun s =>
    let x := s.src
    let k := vfmt o
    let t := x.fctx o
    let a := x.vsrc c o.va
    let b := x.vsrc c o.vb
    let z := x.vsrc c o.vc
    let g := x.gov c o
    let y := mapFloat g.1 k.width (fun l e => k.fma t neg (a.el k.width l e) (b.el k.width l e) (z.el k.width l e))
    s.deliverV c o.nw (vdest c false o) g.1 4 y.1 (a.d || b.d || z.d || g.2) y.2)

/-! ### Arithmetic -/

/-- VFADD (R180). -/
def execVfadd (c : Cluster) (o : VOps) (s : State) : Host.Outcome State Fault Refusal :=
  vfloatAB s (.vfadd c o) c o 4 Fmt.add

/-- VFSUB (R180). -/
def execVfsub (c : Cluster) (o : VOps) (s : State) : Host.Outcome State Fault Refusal :=
  vfloatAB s (.vfsub c o) c o 4 Fmt.sub

/-- VFMUL (R180). -/
def execVfmul (c : Cluster) (o : VOps) (s : State) : Host.Outcome State Fault Refusal :=
  vfloatAB s (.vfmul c o) c o 4 Fmt.mul

/-- VFMA (R180): a · b + c. -/
def execVfma (c : Cluster) (o : VOps) (s : State) : Host.Outcome State Fault Refusal :=
  vfused s (.vfma c o) c o false

/-- VFNMA (R180): c − a · b. -/
def execVfnma (c : Cluster) (o : VOps) (s : State) : Host.Outcome State Fault Refusal :=
  vfused s (.vfnma c o) c o true

/-- VFMIN (R181). -/
def execVfmin (c : Cluster) (o : VOps) (s : State) : Host.Outcome State Fault Refusal :=
  vfloatAB s (.vfmin c o) c o 2 (fun k t _ a b => k.minMax t false a b)

/-- VFMAX (R181). -/
def execVfmax (c : Cluster) (o : VOps) (s : State) : Host.Outcome State Fault Refusal :=
  vfloatAB s (.vfmax c o) c o 2 (fun k t _ a b => k.minMax t true a b)

/-- VFDIV (R180, R182). -/
def execVfdiv (c : Cluster) (o : VOps) (s : State) : Host.Outcome State Fault Refusal :=
  vfloatAB s (.vfdiv c o) c o 14 Fmt.div

/-- VFSQRT (R180, R182). -/
def execVfsqrt (c : Cluster) (o : VOps) (s : State) : Host.Outcome State Fault Refusal :=
  vfloatA s (.vfsqrt c o) c o 14 Fmt.sqrt

/-- VRCP (R182). -/
def execVrcp (c : Cluster) (o : VOps) (s : State) : Host.Outcome State Fault Refusal :=
  vfloatA s (.vrcp c o) c o 6 Fmt.rcp

/-- VRSQ (R182). -/
def execVrsq (c : Cluster) (o : VOps) (s : State) : Host.Outcome State Fault Refusal :=
  vfloatA s (.vrsq c o) c o 6 Fmt.rsq

/-- VLOG2 (R182). -/
def execVlog2 (c : Cluster) (o : VOps) (s : State) : Host.Outcome State Fault Refusal :=
  vfloatA s (.vlog2 c o) c o 6 Fmt.log2

/-- VEXP2 (R72, R183). -/
def execVexp2 (c : Cluster) (o : VOps) (s : State) : Host.Outcome State Fault Refusal :=
  vfloatA s (.vexp2 c o) c o 6 (fun _ t _ a => exp2z t a)

/-! ### Conversion -/

/-- A class and code of `VCVT`: a floating or an integer format (R184). -/
inductive CvtFmt
  | flt (k : Fmt)
  | int (k : IFmt)
deriving DecidableEq, Repr

/-- Width in bits of an element (R167). -/
def CvtFmt.width : CvtFmt → Nat
  | .flt k => k.width
  | .int k => k.width

/-- `convert` of R186. -/
def cvtElem (from_ to_ : CvtFmt) (t : FCtx) (q code : Nat) : FRes :=
  match from_, to_ with
  | .flt a, .flt b => cvtFloat a b t q code
  | .flt a, .int b => b.ofFloat t q (a.unpack t.daz code)
  | .int a, .flt b =>
    let v := a.value code
    b.convert t q (.fin (decide (v < 0)) v.natAbs 0)
  | .int a, .int b => b.clamp (a.value code)

/-- Conversion of one lane: the low elements in place, the rest of the destination zero (R185). -/
def cvtLane (from_ to_ : CvtFmt) (t : FCtx) (q : Nat → Nat) (lane : Nat) : FRes :=
  let n := min (32 / from_.width) (32 / to_.width)
  let rs := (List.range n).map (fun k => cvtElem from_ to_ t (q k) (lane / 2 ^ (from_.width * k) % 2 ^ from_.width))
  { code := joinElems to_.width (rs.map (·.code))
    fl := rs.foldl (fun (f : Flags) r => f ||| r.fl) (0 : Flags) }

/-- Conversion of the governed lanes (R185). -/
def cvtLanes (gov : Mask) (f : Nat → FRes) : List Nat × Flags :=
  let rs := lanes.map (fun l => if bitOf gov l then f l else { code := 0 })
  (rs.map (·.code), rs.foldl (fun (f : Flags) r => f ||| r.fl) (0 : Flags))

/-- The source format of `VCVT`: class fn[44], code fn[47:45] (R184). -/
def vcvtFrom (o : VOps) : CvtFmt :=
  let k := o.fn.toNat / 4
  if bitOf o.fn 1 then .flt (Fmt.ofCode k) else .int (IFmt.ofCode k)

/-- The destination format of `VCVT`: class fn[43], code in the type field (R184). -/
def vcvtTo (o : VOps) : CvtFmt :=
  if bitOf o.fn 0 then .flt (Fmt.ofCode o.ty.toNat) else .int (IFmt.ofCode o.ty.toNat)

/-- VCVT (R184 to R188). -/
def execVcvt (c : Cluster) (o : VOps) (s : State) : Host.Outcome State Fault Refusal :=
  s.slotStep (.vcvt c o) (fun s =>
    let x := s.src
    let a := x.vsrc c o.va
    let r := x.randomOp c o
    let g := x.gov c o
    let y := cvtLanes g.1 (fun l => cvtLane (vcvtFrom o) (vcvtTo o) (x.fctx o) (qBits r l) (laneAt a.lo l))
    s.deliverV c o.nw (vdest c false o) g.1 3 y.1 (a.d || r.d || g.2) y.2)

/-! ### Packed dot product and triple merge -/

/-- VDOT (R189). -/
def execVdot (c : Cluster) (o : VOps) (s : State) : Host.Outcome State Fault Refusal :=
  s.slotStep (.vdot c o) (fun s =>
    let x := s.src
    let acc := o.fn == 1
    let a := x.vsrc c o.va
    let b := x.vsrc c o.vb
    let z : VSrc := if acc then x.vsrc c o.vc else x.randomOp c o
    let g := x.gov c o
    let es (v : VSrc) (l : Nat) : List Nat := (List.range 4).map (fun k => v.el 8 l k)
    let y := cvtLanes g.1 (fun l =>
      dotLane (vfmt o) (x.fctx o) (qBits z l 0) (es a l) (es b l) (if acc then some (laneAt z.lo l) else none))
    s.deliverV c o.nw (vdest c false o) g.1 5 y.1 (a.d || b.d || z.d || g.2) y.2)

/-- A component of the merged attention partials: m1, m2 from the pair va, then the elements of vb and vc (R191). -/
def mergeTriple (s : State) (i : Instr) (c : Cluster) (o : VOps) (f : Nat → Nat → Nat → Nat → FRes) :
    Host.Outcome State Fault Refusal :=
  s.slotStep i (fun s =>
    let x := s.src
    let m := x.vpair c o.va
    let a := x.vsrc c o.vb
    let b := x.vsrc c o.vc
    let g := x.gov c o
    let y := cvtLanes g.1 (fun l => f (laneAt m.lo l) (laneAt m.hi l) (laneAt a.lo l) (laneAt b.lo l))
    s.deliverV c o.nw (vdest c false o) g.1 8 y.1 (m.d || a.d || b.d || g.2) y.2)

/-- VTRIM part .x (R191). -/
def execVtrimX (c : Cluster) (o : VOps) (s : State) : Host.Outcome State Fault Refusal :=
  mergeTriple s (.vtrimX c o) c o trimX

/-- VTRIM part .m (R191).  That it raises the flags of its maximum alone, and not those of the steps a1 and a2, which it does not
deliver, is the model's choice (DESIGN CHOICE, log entry 25). -/
def execVtrimM (c : Cluster) (o : VOps) (s : State) : Host.Outcome State Fault Refusal :=
  mergeTriple s (.vtrimM c o) c o (fun m1 m2 _ _ => (trimMax m1 m2).noNX)

/-- VTRIM part .xb (R191). -/
def execVtrimXb (c : Cluster) (o : VOps) (s : State) : Host.Outcome State Fault Refusal :=
  mergeTriple s (.vtrimXb c o) c o trimXb

end Sys2Proof.Machine
end

