-- ==== Sys2Proof/Machine/VectorData.lean ====
section
/-!
DEFINITION. Vector loads and stores, crossings, permutes, group reductions, conditional streams, tile registers and
mask instructions (R197 to R219): one meaning for each instruction over the shared forms of each section.
-/
namespace Sys2Proof.Machine

/-! ### Buffer loads and stores -/

/-- Lane values from the bytes of the governed elements (R204). -/
def Unit.loadLanes (x : Unit) (a : VAccess) (w : Nat) : List Nat :=
  lanes.map (fun l => joinElems w ((a.elems.filter (fun t => t.lane == l)).map (x.readElem a.buf)))

/-- A buffer load of elements of width `w` (R197, R204). -/
def vload (s : State) (i : Instr) (c : Cluster) (op : Nat) (o : VOps) (w lat : Nat) :
    Host.Outcome State Fault Refusal :=
  s.slotStep i (fun s =>
    let x := s.src
    let g := x.gov c o
    s.deliverV c o.nw (vdest c (decide (w = 64)) o) g.1 lat (x.loadLanes (x.vaccess c op o) w) g.2 0)

/-- A buffer store (R201, R205). -/
def vstore (s : State) (i : Instr) (c : Cluster) (op : Nat) (o : VOps) : Host.Outcome State Fault Refusal :=
  s.slotStep i (fun s =>
    let bs := s.src.vstoreBytes c op o
    s.modCur (fun x => x.store (vbufOf o) (byBlock bs)))

/-- VLD (R204). -/
def execVld (c : Cluster) (o : VOps) (s : State) : Host.Outcome State Fault Refusal :=
  vload s (.vld c o) c 0x40 o 32 6

/-- VST (R205). -/
def execVst (c : Cluster) (o : VOps) (s : State) : Host.Outcome State Fault Refusal := vstore s (.vst c o) c 0x41 o

/-- VLDU (R204). -/
def execVldu (c : Cluster) (o : VOps) (s : State) : Host.Outcome State Fault Refusal :=
  vload s (.vldu c o) c 0x42 o 32 6

/-- VSTB (R205). -/
def execVstb (c : Cluster) (o : VOps) (s : State) : Host.Outcome State Fault Refusal := vstore s (.vstb c o) c 0x43 o

/-- VLDS (R204). -/
def execVlds (c : Cluster) (o : VOps) (s : State) : Host.Outcome State Fault Refusal :=
  vload s (.vlds c o) c 0x44 o (intWidth o.ty) 6

/-- VSTS (R205). -/
def execVsts (c : Cluster) (o : VOps) (s : State) : Host.Outcome State Fault Refusal := vstore s (.vsts c o) c 0x45 o

/-- VLDX (R204). -/
def execVldx (c : Cluster) (o : VOps) (s : State) : Host.Outcome State Fault Refusal :=
  vload s (.vldx c o) c 0x46 o (intWidth o.ty) 10

/-- VSTX (R205). -/
def execVstx (c : Cluster) (o : VOps) (s : State) : Host.Outcome State Fault Refusal := vstore s (.vstx c o) c 0x47 o

/-! ### Crossings, permutes and slides -/

/-- XBC (R206). -/
def execXbc (c : Cluster) (o : VOps) (s : State) : Host.Outcome State Fault Refusal :=
  s.slotStep (.xbc c o) (fun s =>
    let x := s.src
    let w := intWidth o.ty
    let v := x.sreg o.va
    let g := x.gov c o
    s.deliverV c o.nw (vdest c (o.ty == 3) o) g.1 2 (mapElems g.1 w (fun _ _ => v.v.toNat % 2 ^ w)) (v.d || g.2) 0)

/-- XCOPY (R207). -/
def execXcopy (c : Cluster) (o : VOps) (s : State) : Host.Outcome State Fault Refusal :=
  s.slotStep (.xcopy c o) (fun s =>
    let x := s.src
    let p := o.ty == 3
    let a := x.vop (otherCluster c) p o.va
    let g := x.gov c o
    s.deliverV c o.nw (vdest c p o) g.1 2 (mapElems g.1 64 (fun l _ => a.el 64 l 0)) (a.d || g.2) 0)

/-- VPERM (R208). -/
def execVperm (c : Cluster) (o : VOps) (s : State) : Host.Outcome State Fault Refusal :=
  s.slotStep (.vperm c o) (fun s =>
    let x := s.src
    let p := o.ty == 3
    let w := intWidth o.ty
    let h := perLane w
    let a := x.vop c p o.va
    let b := x.vsrc c o.vb
    let g := x.gov c o
    s.deliverV c o.nw (vdest c p o) g.1 3
      (mapElems g.1 w (fun l k =>
        let j := indexAt b.lo w (h * l + k) % (64 * h)
        a.el w (j / h) (j % h)))
      (a.d || b.d || g.2) 0)

/-- VSLIDE (R209). -/
def execVslide (c : Cluster) (o : VOps) (s : State) : Host.Outcome State Fault Refusal :=
  s.slotStep (.vslide c o) (fun s =>
    let x := s.src
    let p := o.ty == 3
    let n := o.vc.toNat
    let a := x.vop c p o.va
    let b := x.vop c p o.vb
    let g := x.gov c o
    s.deliverV c o.nw (vdest c p o) g.1 2
      (mapElems g.1 64 (fun l _ => if l + n < 64 then a.el 64 (l + n) 0 else b.el 64 (l + n - 64) 0))
      (a.d || b.d || g.2) 0)

/-! ### Group reductions and scans -/

/-- Running values of one element position over the lanes of a group: governed lanes in ascending order, the first
entering as read (R211). -/
def scanGroup (op : Nat → Nat → FRes) : Option Nat → Flags → List (Option Nat) → List Nat × Option Nat × Flags
  | acc, fl, [] => ([], acc, fl)
  | acc, fl, none :: xs =>
    let r := scanGroup op acc fl xs
    (0 :: r.1, r.2)
  | none, fl, some x :: xs =>
    let r := scanGroup op (some x) fl xs
    (x :: r.1, r.2)
  | some a, fl, some x :: xs =>
    let y := op a x
    let r := scanGroup op (some y.code) (fl ||| y.fl) xs
    (y.code :: r.1, r.2)

/-- The integer operations of R210. -/
def redInt (k : Nat) (signed : Bool) (w a b : Nat) : FRes :=
  match k with
  | 0 => { code := (a + b) % 2 ^ w }
  | 1 => { code := pickElem signed false w a b }
  | 2 => { code := pickElem signed true w a b }
  | 3 => { code := a ||| b }
  | 4 => { code := a &&& b }
  | _ => { code := a ^^^ b }

/-- The floating operations of R210; DAZ has been applied to the elements as they are read. -/
def redFloat (k : Nat) (f : Fmt) (t : FCtx) (a b : Nat) : FRes :=
  let t := { t with daz := false }
  match k with
  | 0 => f.add t 0 a b
  | 1 => f.minMax t false a b
  | _ => f.minMax t true a b

/-- One element position of every lane: VRED, or VSCAN where `scan` is set, over groups of `size` lanes (R211). -/
def groupColumn (gov : Mask) (size : Nat) (scan : Bool) (op : Nat → Nat → FRes) (el : Nat → Nat) :
    List Nat × Flags :=
  (List.range (64 / size)).foldl (fun acc j =>
    let ls := (List.range size).map (fun i => size * j + i)
    let r := scanGroup op none 0 (ls.map (fun l => if bitOf gov l then some (el l) else none))
    (acc.1 ++ (if scan then r.1 else r.1.map (fun _ => r.2.1.getD 0)), acc.2 ||| r.2.2)) ([], (0 : Flags))

/-- VRED and VSCAN (R210, R211). -/
def vgroup (s : State) (i : Instr) (c : Cluster) (o : VOps) (lat : Nat) (scan : Bool) :
    Host.Outcome State Fault Refusal :=
  s.slotStep i (fun s =>
    let x := s.src
    let flt := bitOf o.fn 1
    let k := o.fn.toNat / 4
    let p := o.ty == 3 && !flt
    let f := vfmt o
    let w := if flt then f.width else intWidth o.ty
    let t := x.fctx o
    let a := x.vop c p o.va
    let g := x.gov c o
    let size := 2 ^ o.vc.toNat
    let op := if flt then redFloat k f t else redInt k (bitOf o.fn 0) w
    let el (e l : Nat) : Nat := if flt then f.afterDaz t (a.el w l e) else a.el w l e
    let cols := (List.range (perLane w)).map (fun e => groupColumn g.1 size scan op (el e))
    s.deliverV c o.nw (vdest c p o) g.1 lat
      (lanes.map (fun l => if bitOf g.1 l then joinElems w (cols.map (fun q => q.1.getD l 0)) else 0))
      (a.d || g.2) (cols.foldl (fun (fl : Flags) q => fl ||| q.2) (0 : Flags)))

/-- VRED (R210, R211). -/
def execVred (c : Cluster) (o : VOps) (s : State) : Host.Outcome State Fault Refusal :=
  vgroup s (.vred c o) c o 4 false

/-- VSCAN (R210, R211). -/
def execVscan (c : Cluster) (o : VOps) (s : State) : Host.Outcome State Fault Refusal :=
  vgroup s (.vscan c o) c o 5 true

/-! ### Conditional streams -/

/-- A stream of the unit with head and count replaced (R212). -/
def Unit.setStream (x : Unit) (q : Nat) (t : Stream) : Unit :=
  { x with regs := { x.regs with streams := tput x.regs.streams q t } }

/-- SPUSH (R214). -/
def execSpush (c : Cluster) (o : VOps) (s : State) : Host.Outcome State Fault Refusal :=
  s.slotStep (.spush c o) (fun s =>
    let q := streamOf o
    let t := tget {} s.src.regs.streams q
    let ws := s.src.pushWords c o
    let bs := streamBytes (s.src.streamAccess c 0x4E o).elems ws
    s.modCur (fun x => (x.store .sb (byBlock bs)).setStream q { t with count := t.count + ws.length }))

/-- The lane values of a pop: the first lanes that `gov` governs take `u` words each while words last, every other
governed lane takes 0 (R214). -/
def popLanes (gov : Mask) (u : Nat) : List Nat → List Nat → List Nat
  | [], _ => []
  | l :: ls, ws =>
    if bitOf gov l then joinElems 32 (ws.take u) :: popLanes gov u ls (ws.drop u) else 0 :: popLanes gov u ls ws

/-- SPOP (R214). -/
def execSpop (c : Cluster) (o : VOps) (s : State) : Host.Outcome State Fault Refusal :=
  s.slotStep (.spop c o) (fun s =>
    let x := s.src
    let q := streamOf o
    let t := tget {} x.regs.streams q
    let u := if o.ty = 3 then 2 else 1
    let g := x.gov c o
    let ws := (x.streamAccess c 0x4F o).elems.map (x.readElem .sb)
    let s := s.deliverV c o.nw (vdest c (o.ty == 3) o) g.1 6 (popLanes g.1 u lanes ws) g.2 0
    s.modCur (fun y => y.setStream q { head := (t.head + ws.length) % 8192, count := t.count - ws.length }))

/-- SBAL (R214). -/
def execSbal (c : Cluster) (o : VOps) (s : State) : Host.Outcome State Fault Refusal :=
  s.slotStep (.sbal c o) (fun s =>
    let x := s.src
    let q := streamOf o
    let t := tget {} x.regs.streams q
    let g := x.gov c o
    let es := (x.streamAccess c 0x50 o).elems
    let s := s.deliverV c o.nw (vdest c false o) g.1 8 (mapElems g.1 32 (fun _ _ => es.length)) g.2 0
    s.modCur (fun y => (y.store .sb (byBlock (streamBytes es (es.map (fun _ => 0))))).setStream q
      { t with count := t.count + es.length }))

/-- SCNT (R214). -/
def execScnt (c : Cluster) (o : VOps) (s : State) : Host.Outcome State Fault Refusal :=
  s.slotStep (.scnt c o) (fun s =>
    let x := s.src
    let t := tget {} x.regs.streams (streamOf o)
    let g := x.gov c o
    s.deliverV c o.nw (vdest c false o) g.1 2 (mapElems g.1 32 (fun _ _ => t.count)) g.2 0)

/-! ### Tile registers -/

/-- Row `r` of tile register `t` (R217). -/
def Regs.row (g : Regs) (t r : Nat) : VVal := tget {} g.tx (64 * t + r)

/-- The form fn[47:45] = 111 moves 32 bits unchanged (R215). -/
def rowRaw (o : VOps) : Bool := o.fn.toNat / 4 == 7

/-- One granule through the conversion of a tile-register instruction (R216). -/
def rowConvert (o : VOps) (t : FCtx) (lane : Nat) : FRes :=
  if rowRaw o then { code := lane }
  else cvtLane (.flt (Fmt.ofCode (o.fn.toNat / 4))) (.flt (vfmt o)) t (fun _ => 0) lane

/-- A tile-register instruction: the granules of each lane, converted (R216, R217). -/
def tileMove (s : State) (i : Instr) (c : Cluster) (o : VOps) (dst : Dest) (lat : Nat) (el : Unit → Nat → Nat)
    (d : Unit → Bool) : Host.Outcome State Fault Refusal :=
  s.slotStep i (fun s =>
    let x := s.src
    let g := x.gov c o
    let y := cvtLanes g.1 (fun l => rowConvert o (x.fctx o) (el x l))
    s.deliverV c o.nw dst g.1 lat y.1 (d x || g.2) y.2)

/-- TWR (R216, R217). -/
def execTwr (c : Cluster) (o : VOps) (s : State) : Host.Outcome State Fault Refusal :=
  tileMove s (.twr c o) c o (.row (streamOf o) o.vb.toNat) 3 (fun x l => laneAt (x.vsrc c o.va).lo l)
    (fun x => (x.vsrc c o.va).d)

/-- TRDC (R216, R217). -/
def execTrdc (c : Cluster) (o : VOps) (s : State) : Host.Outcome State Fault Refusal :=
  tileMove s (.trdc c o) c o (vdest c false o) 4 (fun x r => laneAt (x.regs.row (streamOf o) r).v o.vb.toNat)
    (fun x => lanes.any (fun r => (x.regs.row (streamOf o) r).d))

/-- TRDR (R216, R217). -/
def execTrdr (c : Cluster) (o : VOps) (s : State) : Host.Outcome State Fault Refusal :=
  tileMove s (.trdr c o) c o (vdest c false o) 4 (fun x l => laneAt (x.regs.row (streamOf o) o.vb.toNat).v l)
    (fun x => (x.regs.row (streamOf o) o.vb.toNat).d)

/-! ### Masks -/

/-- kD := f kA kB, in the bits that the governing mask selects (R219). -/
def maskOp (s : State) (i : Instr) (c : Cluster) (o : VOps) (useB : Bool) (f : Mask → Mask → Mask) :
    Host.Outcome State Fault Refusal :=
  s.slotStep i (fun s =>
    let x := s.src
    let a := x.regs.mask c o.va.toNat
    let b : KVal := if useB then x.regs.mask c o.vb.toNat else {}
    let g := x.gov c o
    s.deliverK c o.nw o.vd.toNat g.1 2 (f a.v b.v &&& g.1) (a.d || b.d || g.2))

/-- vd := f l kA in each governed lane (R219). -/
def maskLanes (s : State) (i : Instr) (c : Cluster) (o : VOps) (f : Nat → Mask → Nat) :
    Host.Outcome State Fault Refusal :=
  s.slotStep i (fun s =>
    let x := s.src
    let a := x.regs.mask c o.va.toNat
    let g := x.gov c o
    s.deliverV c o.nw (vdest c false o) g.1 2 (mapElems g.1 32 (fun l _ => f l a.v)) (a.d || g.2) 0)

/-- KAND (R219). -/
def execKand (c : Cluster) (o : VOps) (s : State) : Host.Outcome State Fault Refusal :=
  maskOp s (.kand c o) c o true (fun a b => a &&& b)

/-- KOR (R219). -/
def execKor (c : Cluster) (o : VOps) (s : State) : Host.Outcome State Fault Refusal :=
  maskOp s (.kor c o) c o true (fun a b => a ||| b)

/-- KXOR (R219). -/
def execKxor (c : Cluster) (o : VOps) (s : State) : Host.Outcome State Fault Refusal :=
  maskOp s (.kxor c o) c o true (fun a b => a ^^^ b)

/-- KNOT (R219). -/
def execKnot (c : Cluster) (o : VOps) (s : State) : Host.Outcome State Fault Refusal :=
  maskOp s (.knot c o) c o false (fun a _ => ~~~ a)

/-- KPOPC (R219): number of one bits of kA. -/
def execKpopc (c : Cluster) (o : VOps) (s : State) : Host.Outcome State Fault Refusal :=
  maskLanes s (.kpopc c o) c o (fun _ a => popElem 64 a.toNat)

/-- Index of the lowest one bit, or 64 (R219). -/
def firstBit (a : Mask) : Nat := (lanes.find? (bitOf a)).getD 64

/-- KFIRST (R219). -/
def execKfirst (c : Cluster) (o : VOps) (s : State) : Host.Outcome State Fault Refusal :=
  maskLanes s (.kfirst c o) c o (fun _ a => firstBit a)

/-- KMOV (R219). -/
def execKmov (c : Cluster) (o : VOps) (s : State) : Host.Outcome State Fault Refusal :=
  maskOp s (.kmov c o) c o false (fun a _ => a)

/-- KMOV from a vector register (R219): a lane's bit is 1 when the lane is not zero. -/
def execKmovVk (c : Cluster) (o : VOps) (s : State) : Host.Outcome State Fault Refusal :=
  s.slotStep (.kmovVk c o) (fun s =>
    let x := s.src
    let a := x.vsrc c o.va
    let g := x.gov c o
    s.deliverK c o.nw o.vd.toNat g.1 2 (maskOf (fun l => laneAt a.lo l != 0) &&& g.1) (a.d || g.2))

/-- KMOV to a vector register (R219). -/
def execKmovKv (c : Cluster) (o : VOps) (s : State) : Host.Outcome State Fault Refusal :=
  maskLanes s (.kmovKv c o) c o (fun l a => if bitOf a l then 0xFFFFFFFF else 0)

end Sys2Proof.Machine
end

