-- ==== Sys2Proof/Machine/Dispatch.lean ====
section
/-!
DEFINITION. The dispatch: one arm for each constructor of `Instr`, each a direct call of its meaning.
-/
namespace Sys2Proof.Machine

/-- The meaning of an instruction or event in a state. -/
def exec (i : Instr) (s : State) : Host.Outcome State Fault Refusal :=
  match i with
  | .nop => Sys2Proof.Machine.execNop s
  | .add o => Sys2Proof.Machine.execAdd o s
  | .sub o => Sys2Proof.Machine.execSub o s
  | .and o => Sys2Proof.Machine.execAnd o s
  | .or o => Sys2Proof.Machine.execOr o s
  | .xor o => Sys2Proof.Machine.execXor o s
  | .andn o => Sys2Proof.Machine.execAndn o s
  | .orn o => Sys2Proof.Machine.execOrn o s
  | .xnor o => Sys2Proof.Machine.execXnor o s
  | .shl o => Sys2Proof.Machine.execShl o s
  | .shr o => Sys2Proof.Machine.execShr o s
  | .sar o => Sys2Proof.Machine.execSar o s
  | .rol o => Sys2Proof.Machine.execRol o s
  | .ror o => Sys2Proof.Machine.execRor o s
  | .mul o => Sys2Proof.Machine.execMul o s
  | .mulh o => Sys2Proof.Machine.execMulh o s
  | .mulhs o => Sys2Proof.Machine.execMulhs o s
  | .div o => Sys2Proof.Machine.execDiv o s
  | .divs o => Sys2Proof.Machine.execDivs o s
  | .rem o => Sys2Proof.Machine.execRem o s
  | .rems o => Sys2Proof.Machine.execRems o s
  | .min o => Sys2Proof.Machine.execMin o s
  | .max o => Sys2Proof.Machine.execMax o s
  | .mins o => Sys2Proof.Machine.execMins o s
  | .maxs o => Sys2Proof.Machine.execMaxs o s
  | .clz o => Sys2Proof.Machine.execClz o s
  | .ctz o => Sys2Proof.Machine.execCtz o s
  | .popc o => Sys2Proof.Machine.execPopc o s
  | .brev o => Sys2Proof.Machine.execBrev o s
  | .sext o => Sys2Proof.Machine.execSext o s
  | .zext o => Sys2Proof.Machine.execZext o s
  | .fshl o => Sys2Proof.Machine.execFshl o s
  | .fshr o => Sys2Proof.Machine.execFshr o s
  | .addsh f o => Sys2Proof.Machine.execAddsh f o s
  | .addi o => Sys2Proof.Machine.execAddi o s
  | .andi o => Sys2Proof.Machine.execAndi o s
  | .ori o => Sys2Proof.Machine.execOri o s
  | .xori o => Sys2Proof.Machine.execXori o s
  | .shli o => Sys2Proof.Machine.execShli o s
  | .shri o => Sys2Proof.Machine.execShri o s
  | .sari o => Sys2Proof.Machine.execSari o s
  | .movi o => Sys2Proof.Machine.execMovi o s
  | .movh o => Sys2Proof.Machine.execMovh o s
  | .sel f o => Sys2Proof.Machine.execSel f o s
  | .setpEq o => Sys2Proof.Machine.execSetpEq o s
  | .setpNe o => Sys2Proof.Machine.execSetpNe o s
  | .setpLt o => Sys2Proof.Machine.execSetpLt o s
  | .setpLts o => Sys2Proof.Machine.execSetpLts o s
  | .setpLe o => Sys2Proof.Machine.execSetpLe o s
  | .setpLes o => Sys2Proof.Machine.execSetpLes o s
  | .pand o => Sys2Proof.Machine.execPand o s
  | .por o => Sys2Proof.Machine.execPor o s
  | .pxor o => Sys2Proof.Machine.execPxor o s
  | .pnot o => Sys2Proof.Machine.execPnot o s
  | .setpiEq o => Sys2Proof.Machine.execSetpiEq o s
  | .setpiNe o => Sys2Proof.Machine.execSetpiNe o s
  | .setpiLt o => Sys2Proof.Machine.execSetpiLt o s
  | .setpiLts o => Sys2Proof.Machine.execSetpiLts o s
  | .setpiLe o => Sys2Proof.Machine.execSetpiLe o s
  | .setpiLes o => Sys2Proof.Machine.execSetpiLes o s
  | .bri o => Sys2Proof.Machine.execBri o s
  | .call o => Sys2Proof.Machine.execCall o s
  | .br o => Sys2Proof.Machine.execBr o s
  | .ret o => Sys2Proof.Machine.execRet o s
  | .loop o => Sys2Proof.Machine.execLoop o s
  | .chk o => Sys2Proof.Machine.execChk o s
  | .endTask => Sys2Proof.Machine.execEndTask s
  | .ld buf f o => Sys2Proof.Machine.execLd buf f o s
  | .ldsp buf f o => Sys2Proof.Machine.execLdsp buf f o s
  | .st buf f o => Sys2Proof.Machine.execSt buf f o s
  | .xext f o => Sys2Proof.Machine.execXext f o s
  | .stg o => Sys2Proof.Machine.execStg o s
  | .waitcTag o => Sys2Proof.Machine.execWaitcTag o s
  | .waitcMask o => Sys2Proof.Machine.execWaitcMask o s
  | .bar o => Sys2Proof.Machine.execBar o s
  | .xfer o => Sys2Proof.Machine.execXfer o s
  | .atomAdd dbl o => Sys2Proof.Machine.execAtomAdd dbl o s
  | .atomAnd dbl o => Sys2Proof.Machine.execAtomAnd dbl o s
  | .atomOr dbl o => Sys2Proof.Machine.execAtomOr dbl o s
  | .atomXor dbl o => Sys2Proof.Machine.execAtomXor dbl o s
  | .atomMin dbl o => Sys2Proof.Machine.execAtomMin dbl o s
  | .atomMax dbl o => Sys2Proof.Machine.execAtomMax dbl o s
  | .atomMins dbl o => Sys2Proof.Machine.execAtomMins dbl o s
  | .atomMaxs dbl o => Sys2Proof.Machine.execAtomMaxs dbl o s
  | .atomXchg dbl o => Sys2Proof.Machine.execAtomXchg dbl o s
  | .atomCas dbl o => Sys2Proof.Machine.execAtomCas dbl o s
  | .rdsys o => Sys2Proof.Machine.execRdsys o s
  | .wrsys o => Sys2Proof.Machine.execWrsys o s
  | .trap o => Sys2Proof.Machine.execTrap o s
  | .eret => Sys2Proof.Machine.execEret s
  | .duskdone => Sys2Proof.Machine.execDuskdone s
  | .fence o => Sys2Proof.Machine.execFence o s
  | .sld o => Sys2Proof.Machine.execSld o s
  | .sst o => Sys2Proof.Machine.execSst o s
  | .vadd c o => Sys2Proof.Machine.execVadd c o s
  | .vsub c o => Sys2Proof.Machine.execVsub c o s
  | .vmul c o => Sys2Proof.Machine.execVmul c o s
  | .vmulh c o => Sys2Proof.Machine.execVmulh c o s
  | .vmad c o => Sys2Proof.Machine.execVmad c o s
  | .vand c o => Sys2Proof.Machine.execVand c o s
  | .vor c o => Sys2Proof.Machine.execVor c o s
  | .vxor c o => Sys2Proof.Machine.execVxor c o s
  | .vandn c o => Sys2Proof.Machine.execVandn c o s
  | .vshl c o => Sys2Proof.Machine.execVshl c o s
  | .vshr c o => Sys2Proof.Machine.execVshr c o s
  | .vsar c o => Sys2Proof.Machine.execVsar c o s
  | .vrot c o => Sys2Proof.Machine.execVrot c o s
  | .vfshl c o => Sys2Proof.Machine.execVfshl c o s
  | .vfshr c o => Sys2Proof.Machine.execVfshr c o s
  | .vmin c o => Sys2Proof.Machine.execVmin c o s
  | .vmax c o => Sys2Proof.Machine.execVmax c o s
  | .vabs c o => Sys2Proof.Machine.execVabs c o s
  | .vneg c o => Sys2Proof.Machine.execVneg c o s
  | .vcmp c o => Sys2Proof.Machine.execVcmp c o s
  | .vsel c o => Sys2Proof.Machine.execVsel c o s
  | .vclz c o => Sys2Proof.Machine.execVclz c o s
  | .vpopc c o => Sys2Proof.Machine.execVpopc c o s
  | .vmovi c o => Sys2Proof.Machine.execVmovi c o s
  | .vfadd c o => Sys2Proof.Machine.execVfadd c o s
  | .vfsub c o => Sys2Proof.Machine.execVfsub c o s
  | .vfmul c o => Sys2Proof.Machine.execVfmul c o s
  | .vfma c o => Sys2Proof.Machine.execVfma c o s
  | .vfnma c o => Sys2Proof.Machine.execVfnma c o s
  | .vfmin c o => Sys2Proof.Machine.execVfmin c o s
  | .vfmax c o => Sys2Proof.Machine.execVfmax c o s
  | .vcvt c o => Sys2Proof.Machine.execVcvt c o s
  | .vdot c o => Sys2Proof.Machine.execVdot c o s
  | .vexp2 c o => Sys2Proof.Machine.execVexp2 c o s
  | .vlog2 c o => Sys2Proof.Machine.execVlog2 c o s
  | .vrcp c o => Sys2Proof.Machine.execVrcp c o s
  | .vrsq c o => Sys2Proof.Machine.execVrsq c o s
  | .vfdiv c o => Sys2Proof.Machine.execVfdiv c o s
  | .vfsqrt c o => Sys2Proof.Machine.execVfsqrt c o s
  | .vtrimX c o => Sys2Proof.Machine.execVtrimX c o s
  | .vtrimM c o => Sys2Proof.Machine.execVtrimM c o s
  | .vtrimXb c o => Sys2Proof.Machine.execVtrimXb c o s
  | .vrnd c o => Sys2Proof.Machine.execVrnd c o s
  | .vrndSeed c o => Sys2Proof.Machine.execVrndSeed c o s
  | .vsfckMor c o => Sys2Proof.Machine.execVsfckMor c o s
  | .vsfckHil c o => Sys2Proof.Machine.execVsfckHil c o s
  | .vld c o => Sys2Proof.Machine.execVld c o s
  | .vst c o => Sys2Proof.Machine.execVst c o s
  | .vldu c o => Sys2Proof.Machine.execVldu c o s
  | .vstb c o => Sys2Proof.Machine.execVstb c o s
  | .vlds c o => Sys2Proof.Machine.execVlds c o s
  | .vsts c o => Sys2Proof.Machine.execVsts c o s
  | .vldx c o => Sys2Proof.Machine.execVldx c o s
  | .vstx c o => Sys2Proof.Machine.execVstx c o s
  | .xbc c o => Sys2Proof.Machine.execXbc c o s
  | .xcopy c o => Sys2Proof.Machine.execXcopy c o s
  | .vperm c o => Sys2Proof.Machine.execVperm c o s
  | .vslide c o => Sys2Proof.Machine.execVslide c o s
  | .vred c o => Sys2Proof.Machine.execVred c o s
  | .vscan c o => Sys2Proof.Machine.execVscan c o s
  | .spush c o => Sys2Proof.Machine.execSpush c o s
  | .spop c o => Sys2Proof.Machine.execSpop c o s
  | .sbal c o => Sys2Proof.Machine.execSbal c o s
  | .scnt c o => Sys2Proof.Machine.execScnt c o s
  | .twr c o => Sys2Proof.Machine.execTwr c o s
  | .trdc c o => Sys2Proof.Machine.execTrdc c o s
  | .trdr c o => Sys2Proof.Machine.execTrdr c o s
  | .kand c o => Sys2Proof.Machine.execKand c o s
  | .kor c o => Sys2Proof.Machine.execKor c o s
  | .kxor c o => Sys2Proof.Machine.execKxor c o s
  | .knot c o => Sys2Proof.Machine.execKnot c o s
  | .kpopc c o => Sys2Proof.Machine.execKpopc c o s
  | .kfirst c o => Sys2Proof.Machine.execKfirst c o s
  | .kmov c o => Sys2Proof.Machine.execKmov c o s
  | .kmovVk c o => Sys2Proof.Machine.execKmovVk c o s
  | .kmovKv c o => Sys2Proof.Machine.execKmovKv c o s
  | .mm o => Sys2Proof.Machine.execMm o s
  | .mmsN24 o => Sys2Proof.Machine.execMmsN24 o s
  | .mmsN48 o => Sys2Proof.Machine.execMmsN48 o s
  | .mmt o => Sys2Proof.Machine.execMmt o s
  | .azero o => Sys2Proof.Machine.execAzero o s
  | .ascl o => Sys2Proof.Machine.execAscl o s
  | .acvt o => Sys2Proof.Machine.execAcvt o s
  | .cpy e o => Sys2Proof.Machine.execCpy e o s
  | .cpym e o => Sys2Proof.Machine.execCpym e o s
  | .gath e o => Sys2Proof.Machine.execGath e o s
  | .scat e o => Sys2Proof.Machine.execScat e o s
  | .fill e o => Sys2Proof.Machine.execFill e o s
  | .cmpr e o => Sys2Proof.Machine.execCmpr e o s
  | .scld e o => Sys2Proof.Machine.execScld e o s
  | .pref e o => Sys2Proof.Machine.execPref e o s
  | .cfence e o => Sys2Proof.Machine.execCfence e o s
  | .coll e o => Sys2Proof.Machine.execColl e o s
  | .repart e o => Sys2Proof.Machine.execRepart e o s
  | .walk e o => Sys2Proof.Machine.execWalk e o s
  | .fsend e o => Sys2Proof.Machine.execFsend e o s
  | .ffetch e o => Sys2Proof.Machine.execFfetch e o s
  | .bundleIssue u => Sys2Proof.Machine.execBundleIssue u s
  | .restartMark u => Sys2Proof.Machine.execRestartMark u s
  | .resultLanding u => Sys2Proof.Machine.execResultLanding u s
  | .trapEntry u => Sys2Proof.Machine.execTrapEntry u s
  | .preempt team => Sys2Proof.Machine.execPreempt team s
  | .teamResume team => Sys2Proof.Machine.execTeamResume team s
  | .launchRecord q => Sys2Proof.Machine.execLaunchRecord q s
  | .teamStart node cluster first frames => Sys2Proof.Machine.execTeamStart node cluster first frames s
  | .nodeComplete node => Sys2Proof.Machine.execNodeComplete node s
  | .recordCompletion rec => Sys2Proof.Machine.execRecordCompletion rec s
  | .quantumExpiry team => Sys2Proof.Machine.execQuantumExpiry team s
  | .teamPromotion node => Sys2Proof.Machine.execTeamPromotion node s
  | .tailWrite q v => Sys2Proof.Machine.execTailWrite q v s
  | .qcfgWrite q v => Sys2Proof.Machine.execQcfgWrite q v s
  | .qringWrite q v => Sys2Proof.Machine.execQringWrite q v s
  | .stageszWrite v => Sys2Proof.Machine.execStageszWrite v s
  | .swapAreaWrite slots v => Sys2Proof.Machine.execSwapAreaWrite slots v s
  | .shadeEvaluation k current tj => Sys2Proof.Machine.execShadeEvaluation k current tj s
  | .currentLevelFall k => Sys2Proof.Machine.execCurrentLevelFall k s
  | .coreDroop u => Sys2Proof.Machine.execCoreDroop u s
  | .droopExpiry k => Sys2Proof.Machine.execDroopExpiry k s
  | .xferHandover owner x => Sys2Proof.Machine.execXferHandover owner x s
  | .atomApply k requester => Sys2Proof.Machine.execAtomApply k requester s
  | .atomReply u id => Sys2Proof.Machine.execAtomReply u id s
  | .copyPretranslation u e => Sys2Proof.Machine.execCopyPretranslation u e s
  | .copyCommandStart u e id lost => Sys2Proof.Machine.execCopyCommandStart u e id lost s
  | .dramReadDelivery u e id err => Sys2Proof.Machine.execDramReadDelivery u e id err s
  | .copyCommandComplete u e id err data => Sys2Proof.Machine.execCopyCommandComplete u e id err data s
  | .scldLanding u id => Sys2Proof.Machine.execScldLanding u id s
  | .cfenceStart u id => Sys2Proof.Machine.execCfenceStart u id s
  | .matrixCommandStart u => Sys2Proof.Machine.execMatrixCommandStart u s
  | .matrixOperandsRead u => Sys2Proof.Machine.execMatrixOperandsRead u s
  | .matrixCommandComplete u detected => Sys2Proof.Machine.execMatrixCommandComplete u detected s
  | .collDispatch u id keyless => Sys2Proof.Machine.execCollDispatch u id keyless s
  | .credit u id peer => Sys2Proof.Machine.execCredit u id peer s
  | .chunk u id peer t data => Sys2Proof.Machine.execChunk u id peer t data s
  | .chunkRequest u id peer ask => Sys2Proof.Machine.execChunkRequest u id peer ask s
  | .repartCounts u id hists counts => Sys2Proof.Machine.execRepartCounts u id hists counts s
  | .peerStatusReply u id reply => Sys2Proof.Machine.execPeerStatusReply u id reply s
  | .patienceExpiry u id => Sys2Proof.Machine.execPatienceExpiry u id s
  | .completionWord u id err pool => Sys2Proof.Machine.execCompletionWord u id err pool s
  | .fabricRequest src write space addr data => Sys2Proof.Machine.execFabricRequest src write space addr data s
  | .flitReceive port cls head good => Sys2Proof.Machine.execFlitReceive port cls head good s
  | .nak port seq => Sys2Proof.Machine.execNak port seq s
  | .pauseClass port cls => Sys2Proof.Machine.execPauseClass port cls s
  | .resumeClass port cls => Sys2Proof.Machine.execResumeClass port cls s
  | .darkNotice mod => Sys2Proof.Machine.execDarkNotice mod s
  | .dawnNotice mod serial => Sys2Proof.Machine.execDawnNotice mod serial s
  | .coldNotice mod => Sys2Proof.Machine.execColdNotice mod s
  | .portEnable port v => Sys2Proof.Machine.execPortEnable port v s
  | .portTrained port peer vers auth => Sys2Proof.Machine.execPortTrained port peer vers auth s
  | .linkRekey port => Sys2Proof.Machine.execLinkRekey port s
  | .hostBar0Access addr size write v => Sys2Proof.Machine.execHostBar0Access addr size write v s
  | .hostBar2Access addr write data => Sys2Proof.Machine.execHostBar2Access addr write data s
  | .brctlWrite w => Sys2Proof.Machine.execBrctlWrite w s
  | .handoverGo v => Sys2Proof.Machine.execHandoverGo v s
  | .hoack u v => Sys2Proof.Machine.execHoack u v s
  | .wdkick u => Sys2Proof.Machine.execWdkick u s
  | .watchdogExpiry u => Sys2Proof.Machine.execWatchdogExpiry u s
  | .sequencerRestart u => Sys2Proof.Machine.execSequencerRestart u s
  | .evpop u => Sys2Proof.Machine.execEvpop u s
  | .attgo v => Sys2Proof.Machine.execAttgo v s
  | .pfWarnL asserted => Sys2Proof.Machine.execPfWarnL asserted s
  | .duskBudgetExpiry u => Sys2Proof.Machine.execDuskBudgetExpiry u s
  | .pfSagL asserted => Sys2Proof.Machine.execPfSagL asserted s
  | .plnWrite v => Sys2Proof.Machine.execPlnWrite v s
  | .hibcfgWrite v => Sys2Proof.Machine.execHibcfgWrite v s
  | .rsvstatRefresh cap usable cycles fault => Sys2Proof.Machine.execRsvstatRefresh cap usable cycles fault s
  | .tlbinv v => Sys2Proof.Machine.execTlbinv v s
  | .migrateGo d => Sys2Proof.Machine.execMigrateGo d s
  | .evictGo d => Sys2Proof.Machine.execEvictGo d s
  | .migrationCountsZero d => Sys2Proof.Machine.execMigrationCountsZero d s
  | .migrationFallback d => Sys2Proof.Machine.execMigrationFallback d s
  | .migrationCopyEnd d => Sys2Proof.Machine.execMigrationCopyEnd d s
  | .fold d => Sys2Proof.Machine.execFold d s
  | .foldComplete d => Sys2Proof.Machine.execFoldComplete d s
  | .rel d => Sys2Proof.Machine.execRel d s
  | .stayEnd page => Sys2Proof.Machine.execStayEnd page s
  | .alert act => Sys2Proof.Machine.execAlert act s
  | .alertRotation pc => Sys2Proof.Machine.execAlertRotation pc s
  | .refreshUnitDue pc => Sys2Proof.Machine.execRefreshUnitDue pc s
  | .refreshRotation pc => Sys2Proof.Machine.execRefreshRotation pc s
  | .linkPause n => Sys2Proof.Machine.execLinkPause n s
  | .linkUnpause n => Sys2Proof.Machine.execLinkUnpause n s
  | .diag n => Sys2Proof.Machine.execDiag n s
  | .diagDone n bad spareBad => Sys2Proof.Machine.execDiagDone n bad spareBad s
  | .retrain n => Sys2Proof.Machine.execRetrain n s
  | .trainingDone n => Sys2Proof.Machine.execTrainingDone n s
  | .trainTimeout n => Sys2Proof.Machine.execTrainTimeout n s
  | .linkRetry n count => Sys2Proof.Machine.execLinkRetry n count s
  | .dieFence d => Sys2Proof.Machine.execDieFence d s
  | .dieQuiesce d => Sys2Proof.Machine.execDieQuiesce d s
  | .dieUnfence d => Sys2Proof.Machine.execDieUnfence d s
  | .wback d => Sys2Proof.Machine.execWback d s
  | .dieReset d => Sys2Proof.Machine.execDieReset d s
  | .dieTrain d => Sys2Proof.Machine.execDieTrain d s
  | .dieAdmit d => Sys2Proof.Machine.execDieAdmit d s
  | .teamsout d => Sys2Proof.Machine.execTeamsout d s
  | .drained d => Sys2Proof.Machine.execDrained d s
  | .drlimExpiry d => Sys2Proof.Machine.execDrlimExpiry d s
  | .wbdone d => Sys2Proof.Machine.execWbdone d s
  | .dieResetRelease d => Sys2Proof.Machine.execDieResetRelease d s
  | .dieAdmitDone d => Sys2Proof.Machine.execDieAdmitDone d s
  | .regionSwitchOn r => Sys2Proof.Machine.execRegionSwitchOn r s
  | .stageDue r outputs => Sys2Proof.Machine.execStageDue r outputs s
  | .switchPauseLimit r => Sys2Proof.Machine.execSwitchPauseLimit r s
  | .regionOn r => Sys2Proof.Machine.execRegionOn r s
  | .millisecondTick powers modulePower => Sys2Proof.Machine.execMillisecondTick powers modulePower s
  | .flowstat target msg => Sys2Proof.Machine.execFlowstat target msg s
  | .ibi z => Sys2Proof.Machine.execIbi z s
  | .hotJoin target msg => Sys2Proof.Machine.execHotJoin target msg s
  | .zoneLost z => Sys2Proof.Machine.execZoneLost z s
  | .thermalTrip k => Sys2Proof.Machine.execThermalTrip k s
  | .powerStateExit cause => Sys2Proof.Machine.execPowerStateExit cause s
  | .plctlWrite v => Sys2Proof.Machine.execPlctlWrite v s
  | .fidlimWrite k v => Sys2Proof.Machine.execFidlimWrite k v s
  | .colerrWrite u n v => Sys2Proof.Machine.execColerrWrite u n v s
  | .gsumWrite u second v => Sys2Proof.Machine.execGsumWrite u second v s
  | .fidinjWrite u v => Sys2Proof.Machine.execFidinjWrite u v s
  | .controlRegisterWrite addr v => Sys2Proof.Machine.execControlRegisterWrite addr v s
  | .stagePauseEnd x => Sys2Proof.Machine.execStagePauseEnd x s
  | .pcieCompletion id data => Sys2Proof.Machine.execPcieCompletion id data s
  | .chunkApplied u id byMember t => Sys2Proof.Machine.execChunkApplied u id byMember t s
  | .moduleReset => Sys2Proof.Machine.execModuleReset s
  | .handoverDeadline => Sys2Proof.Machine.execHandoverDeadline s
  | .attestationReport => Sys2Proof.Machine.execAttestationReport s
  | .dctlForce => Sys2Proof.Machine.execDctlForce s
  | .duskTimeLimit => Sys2Proof.Machine.execDuskTimeLimit s
  | .drain => Sys2Proof.Machine.execDrain s
  | .drainComplete => Sys2Proof.Machine.execDrainComplete s
  | .drainTimeLimit => Sys2Proof.Machine.execDrainTimeLimit s
  | .reserveFloor => Sys2Proof.Machine.execReserveFloor s
  | .tshedExpiry => Sys2Proof.Machine.execTshedExpiry s
  | .treadmitExpiry => Sys2Proof.Machine.execTreadmitExpiry s
  | .dawn => Sys2Proof.Machine.execDawn s
  | .readyRefresh => Sys2Proof.Machine.execReadyRefresh s
  | .tlbInvalidationDone => Sys2Proof.Machine.execTlbInvalidationDone s
  | .hubZoneLost => Sys2Proof.Machine.execHubZoneLost s
  | .powerStateEntry => Sys2Proof.Machine.execPowerStateEntry s
  | .supplyCut => Sys2Proof.Machine.execSupplyCut s

end Sys2Proof.Machine
end

