-- ==== Sys2Proof/Machine/Step.lean ====
section
/-!
DEFINITION. One step of the module.  The agenda is the list of what happens next and when, agent by agent and with
what comes from outside; where it is empty the unit in focus issues its next bundle (log entry 5).
-/
namespace Sys2Proof.Machine

/-- The slots of a bundle in issue take effect one after another, each reading the unit as it stood before the
bundle (R31, R38); an instruction without an effect stops the machine. -/
def runSlots : List Instr → State → Host.Outcome State Fault Refusal
  | [], s => .next s
  | i :: is, s =>
    match exec i s with
    | .next t => runSlots is t
    | .fault r => .fault r
    | .refused r => .refused r

/-- A bundle that the last step put in issue runs and ends. -/
def finish (s : State) : Host.Outcome State Fault Refusal :=
  if s.issue.snap.isNone then .next s
  else
    match runSlots s.issue.slots s with
    | .next t => .next t.finishBundle
    | .fault r => .fault r
    | .refused r => .refused r

/-- An instruction or event as the only thing of a step. -/
def stepOf (i : Instr) (s : State) : Host.Outcome State Fault Refusal :=
  match exec i s with
  | .next t => finish t
  | .fault r => .fault r
  | .refused r => .refused r

/-- Time moves to the unit's next issue, or on by one clock where a bundle is not issued then. -/
def State.toIssue (s : State) : State := s.passTo s.cur.nextIssue

/-- One step of the module: the head of the agenda at its time, or, with an empty agenda, the next bundle of the unit
in focus; what memory delivers and takes meanwhile comes first (R410). -/
def step (s : State) : Host.Outcome State Fault Refusal :=
  match s.agenda with
  | (t, i) :: rest => stepOf i (State.passTo { s with agenda := rest } t)
  | [] =>
    match exec (.bundleIssue s.focus) s.toIssue with
    | .next t =>
      if t.issue.snap.isSome then finish t else .next (t.passTo (t.now + period t.focus))
    | .fault r => .fault r
    | .refused r => .refused r

/-! ### Placing an instruction -/

/-- The unit on which an instruction can run: comm sequencer 512 for those of service mode, tile 0 for the rest
(R42, R43, R276). -/
def unitFor (i : Option Instr) : Nat :=
  match i with
  | some (.fence _) => 512
  | some (.sld _) => 512
  | some (.sst _) => 512
  | some (.walk _ _) => 512
  | some (.fsend _ _) => 512
  | some (.ffetch _ _) => 512
  | _ => 0

/-- The instruction runs in handler mode only (R279, R280). -/
def handlerFor (i : Option Instr) : Bool :=
  match i with
  | some .eret => true
  | some .duskdone => true
  | _ => false

/-- The unit with a bundle as its next one: it issues, its code holds the bundle at its program counter, and nothing
that would come before the bundle is pending (log entry 6). -/
def Unit.withBundle (x : Unit) (h : Bool) (b : BitVec 256) : Unit :=
  { x with
    run := .running
    handler := h
    pend := []
    duskDeadline := none
    code := mwrite x.code x.pc (toBytes b 32)
    codeLen := max x.codeLen (x.pc + 32) }

/-- The module with a slot word placed where the next step fetches: in the one slot of a bundle at the program
counter of the unit that can run it, with an empty agenda. -/
def State.withFetchWord (s : State) (nbits w : Nat) : State :=
  let i := decodeTableWord nbits w
  let u := unitFor i
  { s.modUnit u (fun x => x.withBundle (handlerFor i) (bundleOfWord nbits w).word) with
    focus := u, agenda := [], issue := {} }

end Sys2Proof.Machine
end

