-- ==== Sys2Proof/Laws/Tables.lean ====
section
/-!
SUPPORT. Laws of sparse tables and of memories: a read after a write, the order of keys, and the canonical form of a
memory, which every memory operation keeps.
-/
namespace Sys2Proof.Machine

variable {α : Type}

/-! ### Reading after writing -/

@[simp] theorem tget_nil (d : α) (i : Nat) : tget d [] i = d := rfl

theorem tget_tput_same (d v : α) (i : Nat) : ∀ t : Tbl α, tget d (tput t i v) i = v
  | [] => by simp [tput, tget]
  | (k, w) :: t => by
    unfold tput
    split
    · simp [tget]
    · split
      · simp [tget]
      · rw [tget, if_neg (by omega), if_neg (by omega)]
        exact tget_tput_same d v i t

theorem tget_tput_ne (d v : α) (i j : Nat) (h : j ≠ i) : ∀ t : Tbl α, tget d (tput t i v) j = tget d t j
  | [] => by simp [tput, tget, h]
  | (k, w) :: t => by
    have ih := tget_tput_ne d v i j h t
    unfold tput
    split
    · rw [tget, if_neg (by omega)]
      split
      · rw [tget, if_neg (by omega), if_pos (by omega)]
      · rfl
    · split
      · subst k
        simp only [tget, if_neg h]
      · simp only [tget, ih]

@[simp] theorem tget_tput (d v : α) (t : Tbl α) (i j : Nat) :
    tget d (tput t i v) j = if j = i then v else tget d t j := by
  split
  · next h => subst h; exact tget_tput_same d v j t
  · next h => exact tget_tput_ne d v i j h t

/-- A key that the table holds nowhere reads as the default. -/
theorem tget_of_not_mem (d : α) (i : Nat) : ∀ t : Tbl α, (∀ p ∈ t, p.1 ≠ i) → tget d t i = d
  | [], _ => rfl
  | (k, w) :: t, h => by
    have hk : k ≠ i := h (k, w) (by simp)
    have ht : ∀ p ∈ t, p.1 ≠ i := fun p hp => h p (by simp [hp])
    simp [tget, hk.symm, tget_of_not_mem d i t ht]

/-- What a table reads is a value that it lists, or the default. -/
theorem tget_mem (d : α) (i : Nat) : ∀ t : Tbl α, tget d t i = d ∨ (i, tget d t i) ∈ t
  | [] => .inl rfl
  | (k, w) :: t => by
    unfold tget
    split
    · next h => subst h; exact .inr (by simp)
    · split
      · exact .inl rfl
      · rcases tget_mem d i t with h | h
        · exact .inl h
        · exact .inr (by simp [h])

/-- An entry of a table after a write is the new one or an old one. -/
theorem mem_tput {i : Nat} {v : α} {p : Nat × α} : ∀ {t : Tbl α}, p ∈ tput t i v → p = (i, v) ∨ p ∈ t
  | [], h => by simpa [tput] using h
  | (k, w) :: t, h => by
    unfold tput at h
    split at h
    · simpa using h
    · split at h
      · rcases List.mem_cons.1 h with h | h
        · exact .inl h
        · exact .inr (by simp [h])
      · rcases List.mem_cons.1 h with h | h
        · exact .inr (by simp [h])
        · rcases mem_tput h with h | h
          · exact .inl h
          · exact .inr (by simp [h])

/-- A property of every entry stays one of every entry after a write that keeps it. -/
theorem forall_tput {P : Nat × α → Prop} {t : Tbl α} {i : Nat} {v : α} (h : ∀ p ∈ t, P p) (hv : P (i, v)) :
    ∀ p ∈ tput t i v, P p := by
  intro p hp
  rcases mem_tput hp with rfl | hp
  · exact hv
  · exact h p hp

/-- A property of every entry and of the default holds of what a table reads. -/
theorem forall_tget {P : α → Prop} {t : Tbl α} {d : α} (i : Nat) (h : ∀ p ∈ t, P p.2) (hd : P d) : P (tget d t i) := by
  rcases tget_mem d i t with e | e
  · rw [e]; exact hd
  · exact h _ e

/-! ### Order of keys -/

/-- A table is in order when its first key is below every other one and the rest is in order. -/
theorem tsorted_cons {k : Nat} {w : α} {t : Tbl α} :
    tsorted ((k, w) :: t) = true ↔ (∀ p ∈ t, k < p.1) ∧ tsorted t = true := by
  induction t generalizing k w with
  | nil => simp [tsorted]
  | cons p t ih =>
    obtain ⟨b, x⟩ := p
    simp only [tsorted, Bool.and_eq_true, decide_eq_true_eq, List.mem_cons, forall_eq_or_imp]
    constructor
    · rintro ⟨h1, h2⟩
      exact ⟨⟨h1, fun p hp => Nat.lt_trans h1 ((ih.1 h2).1 p hp)⟩, h2⟩
    · rintro ⟨⟨h1, -⟩, h2⟩
      exact ⟨h1, h2⟩

theorem tsorted_tput (i : Nat) (v : α) : ∀ {t : Tbl α}, tsorted t = true → tsorted (tput t i v) = true
  | [], _ => rfl
  | (k, w) :: t, h => by
    obtain ⟨hk, ht⟩ := tsorted_cons.1 h
    unfold tput
    split
    · next hi =>
      refine tsorted_cons.2 ⟨?_, h⟩
      intro p hp
      rcases List.mem_cons.1 hp with rfl | hp
      · exact hi
      · exact Nat.lt_trans hi (hk p hp)
    · split
      · next hi => subst hi; exact tsorted_cons.2 ⟨hk, ht⟩
      · next h1 h2 =>
        refine tsorted_cons.2 ⟨?_, tsorted_tput i v ht⟩
        exact forall_tput hk (by simp only; omega)

/-- A table stays in order when entries leave it. -/
theorem tsorted_filter (q : Nat × α → Bool) : ∀ {t : Tbl α}, tsorted t = true → tsorted (t.filter q) = true
  | [], _ => rfl
  | (k, w) :: t, h => by
    obtain ⟨hk, ht⟩ := tsorted_cons.1 h
    rw [List.filter_cons]
    split
    · exact tsorted_cons.2 ⟨fun p hp => hk p (List.mem_filter.1 hp).1, tsorted_filter q ht⟩
    · exact tsorted_filter q ht

/-- A table stays in order when only values change. -/
theorem tsorted_map {β : Type} (f : Nat × α → Nat × β) (hf : ∀ p, (f p).1 = p.1) :
    ∀ {t : Tbl α}, tsorted t = true → tsorted (t.map f) = true
  | [], _ => rfl
  | (k, w) :: t, h => by
    obtain ⟨hk, ht⟩ := tsorted_cons.1 h
    rw [List.map_cons, show f (k, w) = (k, (f (k, w)).2) from Prod.ext (hf (k, w)) rfl]
    refine tsorted_cons.2 ⟨?_, tsorted_map f hf ht⟩
    intro p hp
    obtain ⟨q, hq, rfl⟩ := List.mem_map.1 hp
    rw [hf]; exact hk q hq

/-! ### Memories -/

/-- A memory is canonical when its addresses rise and it lists no zero byte. -/
theorem Memory.wf_iff {m : Memory} : Memory.wf m = true ↔ tsorted m = true ∧ ∀ c ∈ m, c.2 ≠ 0 := by
  simp [Memory.wf]

@[simp] theorem Memory.wf_nil : Memory.wf [] = true := rfl

theorem Memory.wf_cons {k : Nat} {w : Byte} {m : Memory} :
    Memory.wf ((k, w) :: m) = true ↔ (∀ c ∈ m, k < c.1) ∧ w ≠ 0 ∧ Memory.wf m = true := by
  simp only [Memory.wf_iff, tsorted_cons, List.mem_cons, forall_eq_or_imp]
  constructor
  · rintro ⟨⟨a, b⟩, c, d⟩; exact ⟨a, c, b, d⟩
  · rintro ⟨a, c, b, d⟩; exact ⟨⟨a, b⟩, c, d⟩

/-- A cell of a memory after a write is the new one or an old one. -/
theorem mem_mput {a : Nat} {b : Byte} {c : Nat × Byte} : ∀ {m : Memory}, c ∈ mput m a b → c = (a, b) ∨ c ∈ m
  | [], h => by
    unfold mput at h
    split at h
    · simp at h
    · simpa using h
  | (k, w) :: m, h => by
    unfold mput at h
    split at h
    · split at h
      · exact .inr h
      · simpa using h
    · split at h
      · split at h
        · exact .inr (by simp [h])
        · rcases List.mem_cons.1 h with h | h
          · exact .inl h
          · exact .inr (by simp [h])
      · rcases List.mem_cons.1 h with h | h
        · exact .inr (by simp [h])
        · rcases mem_mput h with h | h
          · exact .inl h
          · exact .inr (by simp [h])

/-- Writing one byte keeps the canonical form. -/
theorem Memory.wf_mput (a : Nat) (b : Byte) : ∀ {m : Memory}, Memory.wf m = true → Memory.wf (mput m a b) = true
  | [], _ => by
    unfold mput
    split
    · rfl
    · next h => simpa [Memory.wf, tsorted] using h
  | (k, w) :: m, h => by
    obtain ⟨hk, hw, hm⟩ := Memory.wf_cons.1 h
    unfold mput
    split
    · next ha =>
      split
      · exact h
      · next hb =>
        refine Memory.wf_cons.2 ⟨?_, hb, h⟩
        intro c hc
        rcases List.mem_cons.1 hc with rfl | hc
        · exact ha
        · exact Nat.lt_trans ha (hk c hc)
    · split
      · next ha =>
        split
        · exact hm
        · next hb => subst ha; exact Memory.wf_cons.2 ⟨hk, hb, hm⟩
      · next h1 h2 =>
        refine Memory.wf_cons.2 ⟨?_, hw, Memory.wf_mput a b hm⟩
        intro c hc
        rcases mem_mput hc with rfl | hc
        · simp only; omega
        · exact hk c hc

/-- Writing bytes from an address on keeps the canonical form. -/
theorem Memory.wf_mwrite (a : Nat) (bs : List Byte) : ∀ {m : Memory}, Memory.wf m = true → Memory.wf (mwrite m a bs) = true := by
  induction bs generalizing a with
  | nil => exact fun h => h
  | cons b bs ih => exact fun h => ih (a + 1) (Memory.wf_mput a b h)

/-- Writing a list of cells keeps the canonical form. -/
theorem Memory.wf_mwriteEach (bs : List (Nat × Byte)) :
    ∀ {m : Memory}, Memory.wf m = true → Memory.wf (mwriteEach m bs) = true := by
  induction bs with
  | nil => exact fun h => h
  | cons c bs ih => exact fun h => ih (Memory.wf_mput c.1 c.2 h)

/-- Any fold of steps that keep the canonical form keeps it. -/
theorem Memory.wf_foldl {β : Type} (f : Memory → β → Memory) (hf : ∀ m b, Memory.wf m = true → Memory.wf (f m b) = true)
    (l : List β) : ∀ {m : Memory}, Memory.wf m = true → Memory.wf (l.foldl f m) = true := by
  induction l with
  | nil => exact fun h => h
  | cons b l ih => exact fun h => ih (hf _ b h)

/-- A canonical memory reads zero below its first address. -/
theorem mget_of_lt (a : Nat) {m : Memory} (h : ∀ c ∈ m, a < c.1) : mget m a = 0 :=
  tget_of_not_mem 0 a m (fun c hc => Nat.ne_of_gt (h c hc))

/-- A byte written to a canonical memory is read, and every other byte stays. -/
theorem mget_mput (a j : Nat) (b : Byte) : ∀ {m : Memory}, Memory.wf m = true →
    mget (mput m a b) j = if j = a then b else mget m j
  | [], _ => by
    unfold mput mget
    by_cases hb : b = 0
    · subst hb
      simp [tget]
    · simp only [if_neg hb, tget]
      split <;> simp
  | (k, w) :: m, h => by
    obtain ⟨hk, hw, hm⟩ := Memory.wf_cons.1 h
    have ih := mget_mput a j b hm
    unfold mput
    by_cases h1 : a < k
    · simp only [if_pos h1]
      by_cases hb : b = 0
      · simp only [if_pos hb]
        by_cases hj : j = a
        · subst hj
          rw [if_pos rfl, hb]
          exact mget_of_lt j (fun c hc => by
            rcases List.mem_cons.1 hc with rfl | hc
            · exact h1
            · exact Nat.lt_trans h1 (hk c hc))
        · rw [if_neg hj]
      · simp only [if_neg hb, mget, tget]
        by_cases hj : j = a
        · simp [hj]
        · simp only [if_neg hj]
          by_cases hl : j < a
          · rw [if_pos hl, if_neg (by omega), if_pos (by omega)]
          · rw [if_neg hl]
    · simp only [if_neg h1]
      by_cases h2 : a = k
      · subst h2
        simp only [if_true]
        by_cases hb : b = 0
        · simp only [if_pos hb]
          by_cases hj : j = a
          · subst hj; rw [if_pos rfl, hb]; exact mget_of_lt j hk
          · rw [if_neg hj]
            unfold mget
            rw [tget, if_neg hj]
            split
            · next hl => exact mget_of_lt j (fun c hc => Nat.lt_trans hl (hk c hc))
            · rfl
        · simp only [if_neg hb, mget, tget]
          by_cases hj : j = a <;> simp [hj]
      · simp only [if_neg h2]
        unfold mget at ih ⊢
        simp only [tget]
        by_cases hj : j = k
        · subst hj; rw [if_pos rfl, if_neg (fun e => h2 e.symm), if_pos rfl]
        · simp only [if_neg hj]
          by_cases hl : j < k
          · simp only [if_pos hl]; rw [if_neg (by omega)]
          · simp only [if_neg hl, ih]

/-- What bytes written from an address on read as: themselves, and every other byte as before. -/
theorem mget_mwrite (j : Nat) : ∀ (bs : List Byte) (a : Nat) {m : Memory}, Memory.wf m = true →
    mget (mwrite m a bs) j = if a ≤ j ∧ j < a + bs.length then bs.getD (j - a) 0 else mget m j
  | [], a, m, _ => by rw [mwrite, if_neg (by simp only [List.length_nil]; omega)]
  | b :: bs, a, m, h => by
    rw [mwrite, mget_mwrite j bs (a + 1) (Memory.wf_mput a b h), mget_mput a j b h]
    simp only [List.length_cons]
    by_cases hj : j = a
    · subst hj
      rw [if_neg (by omega), if_pos rfl, if_pos (by omega)]
      simp
    · by_cases h2 : a + 1 ≤ j ∧ j < a + 1 + bs.length
      · rw [if_pos h2, if_pos (by omega), show j - a = (j - (a + 1)) + 1 by omega]
        simp
      · rw [if_neg h2, if_neg hj, if_neg (by omega)]

@[simp] theorem mread_length (m : Memory) (a n : Nat) : (mread m a n).length = n := by simp [mread]

end Sys2Proof.Machine
end

