-- ==== Sys2Proof/Safety.lean ====
section
/-!
DEFINITION. The words in which the statements speak: when a slot instruction runs, what it means that a result
is issued, the canonical form of every memory of the module, and tables of operations written from the rules of
the spec, which the statements compare with the meanings.
-/
namespace Sys2Proof.Machine

/-! ### When a slot instruction runs -/

/-- The bundle's checks have been made and it is in issue, or the slot stands alone and no check of R111 finds a
fault in it. -/
def State.ready (s : State) (i : Instr) : Prop :=
  s.focus < unitCount ∧ (s.issue.snap.isSome = true ∨ s.slotFault s.focus i = none)

/-- The slot passes the checks and its predicate lets it execute (R111, R129). -/
def State.runs (s : State) (i : Instr) : Prop := s.ready i ∧ s.src.executes i = true

/-! ### What a result is -/

/-- The module with one result added to those in flight in the unit that issues, and nothing else changed. -/
def State.withFlight (s : State) (r : InFlight) : State :=
  s.modCur (fun (x : Unit) => { x with flight := x.flight ++ [r] })

/-- A scalar, predicate or latch result of the bundle in issue: its destination, latency, value and deferred bit (R130,
R131, R132). -/
def State.scalarResult (s : State) (nw : Bool) (dest : Dest) (k : Nat) (v : Word) (d : Bool) : InFlight :=
  { dest := dest, group := some .s, nw := nw, lo := v.setWidth 2048, hi := 0, gov := BitVec.allOnes 64, d := d,
    flags := 0, en := 0, k := k, pc := s.src.pc }

/-- The value of a scalar source operand (R113). -/
def State.sval (s : State) (c : BitVec 6) : Word := (s.src.sreg c).v

/-- The deferred bit of a scalar source operand (R131). -/
def State.sdef (s : State) (c : BitVec 6) : Bool := (s.src.sreg c).d

/-! ### Memories of the module -/

/-- Every memory that belongs to no unit is in canonical form: DRAM, cluster SRAM, host memory and the storage tier. -/
def State.ModuleMemory (s : State) : Prop :=
  Memory.wf s.dram = true ∧ Memory.wf s.host = true ∧ Memory.wf s.tier = true ∧
    ∀ k, Memory.wf (s.sramOf k) = true

/-- The units of the module and its registers stand in rising order, each listed once. -/
def State.TablesOrdered (s : State) : Prop := tsorted s.units = true ∧ tsorted s.ctl = true

/-- The four buffers of a unit are in canonical form. -/
def Unit.BuffersCanonical (x : Unit) : Prop := ∀ b, Memory.wf (x.buf b) = true

/-- Every context that the state holds has canonical buffers: the units of the module, those of swapped teams, the sequencers
that a handover keeps, and the teams in the hibernation areas. -/
def State.EveryBuffer (s : State) : Prop :=
  (∀ p ∈ s.units, p.2.BuffersCanonical) ∧ (∀ q ∈ s.saved, ∀ p ∈ q.2, p.2.BuffersCanonical) ∧
    (∀ p ∈ s.ho.old, p.2.BuffersCanonical) ∧ (∀ h ∈ s.hib, ∀ q ∈ h.2.teams, ∀ p ∈ q.2, p.2.BuffersCanonical)

/-- The lines that an atomic engine holds stand in rising order, 64 bytes each. -/
def ClusterSt.LinesWhole (c : ClusterSt) : Prop := tsorted c.lines = true ∧ ∀ l ∈ c.lines, l.2.length = 64

/-- Every atomic engine holds whole lines, in the module, in the system state that a warning kept and in that of a hibernation
area. -/
def State.EveryLine (s : State) : Prop :=
  (∀ p ∈ s.clusters, p.2.LinesWhole) ∧ (∀ w ∈ s.dusk.atWarn, ∀ p ∈ w.image.clusters, p.2.LinesWhole) ∧
    ∀ h ∈ s.hib, ∀ p ∈ h.2.sys.clusters, p.2.LinesWhole

/-! ### Scalar operations, from the rules -/

/-- Zero bits above the highest one bit (R139). -/
def leadingZeros (a : Word) : Nat := ((List.range 64).takeWhile (fun k => !bitOf a (63 - k))).length

/-- Zero bits below the lowest one bit (R139). -/
def trailingZeros (a : Word) : Nat := ((List.range 64).takeWhile (fun k => !bitOf a k)).length

/-- One bits (R139). -/
def oneBitCount (a : Word) : Nat := ((List.range 64).filter (fun k => bitOf a k)).length

/-- A scalar instruction of two register operands: its latency (R132) and its value. -/
structure AluRow where
  instr : SR → Instr
  latency : Nat
  value : Word → Word → Word

/-- ALU, SHIFT, MULDIV and MINMAX (R133, R135, R138, R141, R142). -/
def aluRows : List AluRow := [
  ⟨.add, 1, fun a b => BitVec.ofNat 64 (a.toNat + b.toNat)⟩,
  ⟨.sub, 1, fun a b => BitVec.ofInt 64 ((a.toNat : Int) - b.toNat)⟩,
  ⟨.and, 1, fun a b => a &&& b⟩,
  ⟨.or, 1, fun a b => a ||| b⟩,
  ⟨.xor, 1, fun a b => a ^^^ b⟩,
  ⟨.andn, 1, fun a b => a &&& ~~~b⟩,
  ⟨.orn, 1, fun a b => a ||| ~~~b⟩,
  ⟨.xnor, 1, fun a b => ~~~(a ^^^ b)⟩,
  ⟨.shl, 1, fun a b => BitVec.ofNat 64 (a.toNat * 2 ^ (b.toNat % 64))⟩,
  ⟨.shr, 1, fun a b => BitVec.ofNat 64 (a.toNat / 2 ^ (b.toNat % 64))⟩,
  ⟨.sar, 1, fun a b => BitVec.ofInt 64 (a.toInt / 2 ^ (b.toNat % 64))⟩,
  ⟨.rol, 1, fun a b => (a <<< (b.toNat % 64)) ||| (a >>> (64 - b.toNat % 64))⟩,
  ⟨.ror, 1, fun a b => (a >>> (b.toNat % 64)) ||| (a <<< (64 - b.toNat % 64))⟩,
  ⟨.mul, 3, fun a b => BitVec.ofNat 64 (a.toNat * b.toNat)⟩,
  ⟨.mulh, 3, fun a b => BitVec.ofNat 64 (a.toNat * b.toNat / 2 ^ 64)⟩,
  ⟨.mulhs, 3, fun a b => BitVec.ofInt 64 (a.toInt * b.toInt / 2 ^ 64)⟩,
  ⟨.div, 12, fun a b => if b = 0 then 0xFFFFFFFFFFFFFFFF else BitVec.ofNat 64 (a.toNat / b.toNat)⟩,
  ⟨.divs, 12, fun a b => if b = 0 then 0xFFFFFFFFFFFFFFFF else BitVec.ofInt 64 (a.toInt.tdiv b.toInt)⟩,
  ⟨.rem, 12, fun a b => if b = 0 then a else BitVec.ofNat 64 (a.toNat % b.toNat)⟩,
  ⟨.rems, 12, fun a b => if b = 0 then a else BitVec.ofInt 64 (a.toInt.tmod b.toInt)⟩,
  ⟨.min, 1, fun a b => BitVec.ofNat 64 (min a.toNat b.toNat)⟩,
  ⟨.max, 1, fun a b => BitVec.ofNat 64 (max a.toNat b.toNat)⟩,
  ⟨.mins, 1, fun a b => BitVec.ofInt 64 (min a.toInt b.toInt)⟩,
  ⟨.maxs, 1, fun a b => BitVec.ofInt 64 (max a.toInt b.toInt)⟩]

/-- A scalar instruction of a register operand and IMM9: its value. -/
structure ImmRow where
  instr : SI → Instr
  value : Word → BitVec 9 → Word

/-- ADDI, ANDI, ORI, XORI, SHLI, SHRI and SARI (R134). -/
def immRows : List ImmRow := [
  ⟨.addi, fun a i => BitVec.ofInt 64 ((a.toNat : Int) + i.toInt)⟩,
  ⟨.andi, fun a i => a &&& i.signExtend 64⟩,
  ⟨.ori, fun a i => a ||| i.signExtend 64⟩,
  ⟨.xori, fun a i => a ^^^ i.signExtend 64⟩]

/-- SHLI, SHRI and SARI, for an amount of 0 to 63 (R134). -/
def immShiftRows : List ImmRow := [
  ⟨.shli, fun a i => BitVec.ofNat 64 (a.toNat * 2 ^ i.toNat)⟩,
  ⟨.shri, fun a i => BitVec.ofNat 64 (a.toNat / 2 ^ i.toNat)⟩,
  ⟨.sari, fun a i => BitVec.ofInt 64 (a.toInt / 2 ^ i.toNat)⟩]

/-- A comparison: the instruction against a register, the one against IMM9, and its condition. -/
structure CondRow where
  reg : SR → Instr
  imm : SI → Instr
  holds : Word → Word → Bool

/-- SETP and SETPI (R145). -/
def condRows : List CondRow := [
  ⟨.setpEq, .setpiEq, fun a b => decide (a.toNat = b.toNat)⟩,
  ⟨.setpNe, .setpiNe, fun a b => decide (a.toNat ≠ b.toNat)⟩,
  ⟨.setpLt, .setpiLt, fun a b => decide (a.toNat < b.toNat)⟩,
  ⟨.setpLts, .setpiLts, fun a b => decide (a.toInt < b.toInt)⟩,
  ⟨.setpLe, .setpiLe, fun a b => decide (a.toNat ≤ b.toNat)⟩,
  ⟨.setpLes, .setpiLes, fun a b => decide (a.toInt ≤ b.toInt)⟩]

/-- A value of 0 or 1 for a predicate result (R130). -/
def truth (b : Bool) : Word := if b then 1 else 0

/-! ### Control flow, from the rules -/

/-- The loop entries that stay when a branch goes to offset `t`: those from the first whose body holds it (R151). -/
def leavesLoops (t : Nat) (l : List LoopEntry) : List LoopEntry :=
  l.dropWhile (fun e => !(decide (e.start ≤ t) && decide (t ≤ e.last)))

/-- The target of BRI, CALL and CHK: bundles of 32 bytes from the bundle in issue, modulo 2^64 (R148, R149, R153). -/
def State.relative (s : State) (k : Int) : Nat := (((s.src.pc : Int) + 32 * k) % 2 ^ 64).toNat

/-- A taken branch of the bundle in issue, which goes to `t` when the bundle ends. -/
def State.branches (s : State) (t : Nat) : State := { s with issue := { s.issue with branch := some t } }

/-- The loop stack and the next offset of the back-edge step of the bundle at `x` (R151). -/
def backEdgeStep (x : Nat) : List LoopEntry → List LoopEntry × Option Nat
  | [] => ([], none)
  | top :: rest =>
    if top.last = x then
      let n := top.remaining - 1
      if 0 < n then ({ top with remaining := n } :: rest, some top.start) else backEdgeStep x rest
    else (top :: rest, none)

/-! ### Local accesses, from the rules -/

/-- Bytes of a scalar access (R155). -/
def accessBytes (f : BitVec 3) : Nat := 2 ^ (f.toNat % 4)

/-- The effective offset of a scalar access, exact (R155). -/
def State.effective (s : State) (f : BitVec 3) (o : SR) : Int :=
  ((s.sval o.a).toNat : Int) + o.b.toInt * (accessBytes f : Nat)

/-- One of the conditions of R155 holds. -/
def State.accessFault (s : State) (b : Buf) (f : BitVec 3) (o : SR) : Bool :=
  decide (s.effective f o % (accessBytes f : Nat) ≠ 0) || decide (s.effective f o < 0) ||
    decide ((bufSize s.focus b : Int) < s.effective f o + (accessBytes f : Nat)) ||
    !(s.src.owns s.focus b (s.effective f o).toNat)

/-- The number that the bytes of an access hold, little-endian, gated stores included (R2, R84, R156). -/
def State.loaded (s : State) (b : Buf) (f : BitVec 3) (o : SR) : Nat :=
  natOfBytes ((List.range (accessBytes f)).map (fun i => s.src.bget b ((s.effective f o).toNat + i)))

/-- The value of a load: zero-extended, or sign-extended when F[2] is 1 (R156). -/
def extended (f : BitVec 3) (n : Nat) : Word :=
  if bitOf f 2 then (BitVec.ofNat (8 * accessBytes f) n).signExtend 64 else BitVec.ofNat 64 n

/-- Only the unit in focus differs. -/
def State.onlyFocus (s t : State) : Prop :=
  { t with units := s.units } = s ∧ ∀ v, v ≠ s.focus → t.unit v = s.unit v

/-- An `ATOM` and its operation (R164). -/
structure AtomRow where
  instr : Bool → SR → Instr
  op : AOp

/-- The ten operations (R164). -/
def atomRows : List AtomRow := [⟨.atomAdd, .add⟩, ⟨.atomAnd, .and⟩, ⟨.atomOr, .or⟩, ⟨.atomXor, .xor⟩, ⟨.atomMin, .min⟩,
  ⟨.atomMax, .max⟩, ⟨.atomMins, .mins⟩, ⟨.atomMaxs, .maxs⟩, ⟨.atomXchg, .xchg⟩, ⟨.atomCas, .cas⟩]

/-- The new word of an operation on `w` bits (R164). -/
def atomNew (op : AOp) (w : Nat) (m v c : BitVec w) : BitVec w :=
  match op with
  | .add => BitVec.ofNat w (m.toNat + v.toNat)
  | .and => m &&& v
  | .or => m ||| v
  | .xor => m ^^^ v
  | .min => BitVec.ofNat w (min m.toNat v.toNat)
  | .max => BitVec.ofNat w (max m.toNat v.toNat)
  | .mins => BitVec.ofInt w (min m.toInt v.toInt)
  | .maxs => BitVec.ofInt w (max m.toInt v.toInt)
  | .xchg => v
  | .cas => if m.toNat = c.toNat then v else m

/-! ### System registers, from R274 -/

/-- The registers that `RDSYS` reads as one field of the unit or of the module: number and value. -/
def sysRows : List (Nat × (State → Word)) := [
  (0x000, fun s => s.src.regs.fcsr),
  (0x004, fun s => s.src.markPc),
  (0x005, fun s => s.src.trapCause),
  (0x006, fun s => s.src.trapPc),
  (0x007, fun s => s.src.trapVal),
  (0x008, fun s => s.src.trapVec),
  (0x00A, fun s => if isTile s.focus then s.src.mstat else 0),
  (0x00B, fun s => s.src.cstat),
  (0x00C, fun s => if isTile s.focus then s.src.fidstat else 0),
  (0x00D, fun s => if isTile s.focus then BitVec.ofNat 64 (s.shadeOf (s.focus / 16)) else 0),
  (0x00E, fun s => s.src.bcount),
  (0x804, fun s => s.cget (rob + 0x10)),
  (0x805, fun s => BitVec.ofNat 64 s.modnum)]

/-- The TILEID of a tile (R275): MODULE, KIND 00, DIE, CLUSTER and INDEX. -/
def tileIdOf (modnum die cluster index : Nat) : Nat := modnum % 65536 * 2 ^ 32 + die * 2 ^ 7 + cluster * 2 ^ 4 + index

/-! ### Vector operands and results, from the rules -/

/-- Elements of width `w` in a register, or 64 in a pair (R167). -/
def elemCount (w : Nat) : Nat := if w = 64 then 64 else 2048 / w

/-- The lane of element `e` of width `w` (R167). -/
def laneOfElem (w e : Nat) : Nat := if w = 64 then e else e * w / 32

/-- Element `e` of width `w` of a register, or of a pair for 64 bits (R50, R167). -/
def VSrc.elem (s : VSrc) (w e : Nat) : BitVec w :=
  if w = 64 then BitVec.ofNat w ((s.lo.extractLsb' (32 * e) 32).toNat + 2 ^ 32 * (s.hi.extractLsb' (32 * e) 32).toNat)
  else BitVec.ofNat w (s.lo.extractLsb' (w * e) w).toNat

/-- Lane `l` of a register (R167). -/
def VSrc.lane (s : VSrc) (l : Nat) : BitVec 32 := s.lo.extractLsb' (32 * l) 32

/-- Lane `l` is governed by a vector instruction of the bundle in issue (R168). -/
def State.governs (s : State) (c : Cluster) (o : VOps) (l : Nat) : Bool := bitOf (s.src.gov c o).1 l

/-- The governing mask's deferred bit (R170). -/
def State.gdef (s : State) (c : Cluster) (o : VOps) : Bool := (s.src.gov c o).2

/-- `t` is `s` with one vector result in flight and nothing else changed: its destination, latency and deferred bit, element
`e` of every lane of `gov`, and the flags that the elements of these lanes raise (R58, R168 to R171). -/
def State.vectorResult (s t : State) (c : Cluster) (nw : Bool) (dest : Dest) (gov : Mask) (k : Nat) (d : Bool) (w : Nat)
    (el : Nat → BitVec w) (fl : Nat → Flags) : Prop :=
  ∃ r : InFlight, t = s.withFlight r ∧ r.dest = dest ∧ r.group = some (groupOf c) ∧ r.nw = nw ∧ r.gov = gov ∧ r.k = k ∧
    r.d = d ∧ r.en = s.src.enables ∧ r.pc = s.src.pc ∧
    (∀ e < elemCount w, bitOf gov (laneOfElem w e) = true →
      ({ lo := r.lo, hi := r.hi, d := false } : VSrc).elem w e = el e) ∧
    ∀ i < 5, (bitOf r.flags i = true ↔ ∃ e < elemCount w, bitOf gov (laneOfElem w e) = true ∧ bitOf (fl e) i = true)

/-- `t` is `s` with one mask result in flight and nothing else changed (R176, R219). -/
def State.maskResult (s t : State) (c : Cluster) (nw : Bool) (n : Nat) (gov : Mask) (d : Bool) (bit : Nat → Bool) : Prop :=
  ∃ r : InFlight, t = s.withFlight r ∧ r.dest = .mask c n ∧ r.group = some (groupOf c) ∧ r.nw = nw ∧ r.gov = gov ∧ r.k = 2 ∧
    r.d = d ∧ r.flags = 0 ∧ ∀ l < 64, bitOf gov l = true → bitOf r.lo l = bit l

/-- An element-wise integer result of the governed lanes, latency 2 (R168, R171, R172). -/
def State.intResult (s t : State) (c : Cluster) (o : VOps) (d : Bool) (w : Nat) (el : Nat → BitVec w) : Prop :=
  s.vectorResult t c o.nw (if w = 64 then .vpair c o.vd.toNat else .vreg c o.vd.toNat) (s.src.gov c o).1 2
    (d || s.gdef c o) w el (fun _ => 0)

/-- A vector operand of the bundle in issue, a pair where the type is `.d64` (R167). -/
def State.vin (s : State) (c : Cluster) (o : VOps) (code : BitVec 6) : VSrc := s.src.vop c (o.ty == 3) code

/-- The signed choice of fn[43] (R173). -/
def opSigned (o : VOps) : Bool := bitOf o.fn 0

/-- Zero bits above the highest one bit of a value of `w` bits (R173). -/
def leadingZerosOf (w : Nat) (a : BitVec w) : Nat := ((List.range w).takeWhile (fun k => !bitOf a (w - 1 - k))).length

/-- One bits of a value (R173). -/
def oneBitsOf (w : Nat) (a : BitVec w) : Nat := ((List.range w).filter (fun k => bitOf a k)).length

/-- A vector integer instruction of two operands and its element result (R173). -/
structure VecRow where
  instr : Cluster → VOps → Instr
  value : Bool → (w : Nat) → BitVec w → BitVec w → BitVec w

/-- VADD to VANDN, VMIN and VMAX (R173). -/
def vecRows : List VecRow := [
  ⟨.vadd, fun _ _ a b => a + b⟩,
  ⟨.vsub, fun _ _ a b => a - b⟩,
  ⟨.vmul, fun _ _ a b => a * b⟩,
  ⟨.vmulh, fun sg w a b =>
    if sg then BitVec.ofInt w (a.toInt * b.toInt / 2 ^ w) else BitVec.ofNat w (a.toNat * b.toNat / 2 ^ w)⟩,
  ⟨.vand, fun _ _ a b => a &&& b⟩,
  ⟨.vor, fun _ _ a b => a ||| b⟩,
  ⟨.vxor, fun _ _ a b => a ^^^ b⟩,
  ⟨.vandn, fun _ _ a b => a &&& ~~~b⟩,
  ⟨.vmin, fun sg w a b =>
    if sg then BitVec.ofInt w (min a.toInt b.toInt) else BitVec.ofNat w (min a.toNat b.toNat)⟩,
  ⟨.vmax, fun sg w a b =>
    if sg then BitVec.ofInt w (max a.toInt b.toInt) else BitVec.ofNat w (max a.toNat b.toNat)⟩]

/-- A vector integer instruction of one operand and its element result (R173). -/
structure VecUnaryRow where
  instr : Cluster → VOps → Instr
  value : (w : Nat) → BitVec w → BitVec w

/-- VABS, VNEG, VCLZ and VPOPC (R173). -/
def vecUnaryRows : List VecUnaryRow := [
  ⟨.vabs, fun w a => BitVec.ofNat w a.toInt.natAbs⟩,
  ⟨.vneg, fun _ a => -a⟩,
  ⟨.vclz, fun w a => BitVec.ofNat w (leadingZerosOf w a)⟩,
  ⟨.vpopc, fun w a => BitVec.ofNat w (oneBitsOf w a)⟩]

/-- A vector shift and its element result for an amount below the width (R174). -/
structure VecShiftRow where
  instr : Cluster → VOps → Instr
  value : (w : Nat) → BitVec w → Nat → BitVec w

/-- VSHL, VSHR, VSAR and VROT (R174). -/
def vecShiftRows : List VecShiftRow := [
  ⟨.vshl, fun _ a n => a <<< n⟩,
  ⟨.vshr, fun _ a n => a >>> n⟩,
  ⟨.vsar, fun _ a n => a.sshiftRight n⟩,
  ⟨.vrot, fun w a n => (a <<< n) ||| (a >>> (w - n))⟩]

/-- VFSHL and VFSHR of two elements by an amount below the width (R175). -/
def funnelLeft (w : Nat) (a b : BitVec w) (n : Nat) : BitVec w := ((a ++ b) <<< n).extractLsb' w w
def funnelRight (w : Nat) (a b : BitVec w) (n : Nat) : BitVec w := ((b ++ a) >>> n).extractLsb' 0 w

/-- A condition of `VCMP` by its code (R145, R176). -/
def condHolds (code : Nat) {w : Nat} (a b : BitVec w) : Prop :=
  match code with
  | 0 => a = b
  | 1 => a ≠ b
  | 2 => a.toNat < b.toNat
  | 3 => a.toInt < b.toInt
  | 4 => a.toNat ≤ b.toNat
  | _ => a.toInt ≤ b.toInt

/-- The state of a generator after one step, and what the step delivers (R192). -/
def xorshift (x : BitVec 64) : BitVec 64 :=
  let x := x ^^^ (x <<< 13)
  let x := x ^^^ (x >>> 7)
  x ^^^ (x <<< 17)
def randomWord (x : BitVec 64) : BitVec 32 := (x * 0x2545F4914F6CDD1D).extractLsb' 32 32

/-- The seed of the generator of lane `l` from a lane value (R192). -/
def seedOf (l : Nat) (v : BitVec 32) : BitVec 64 :=
  BitVec.ofNat 64 (v.toNat * 2 ^ 32) + (0x9E3779B9 ^^^ BitVec.ofNat 64 l)

/-- The state of the generator of lane `l`, as a word (R192, R193). -/
def Regs.genWord (g : Regs) (c : Cluster) (l : Nat) : BitVec 64 := BitVec.ofNat 64 (g.gen c l)

/-- The Morton key of three coordinates (R194). -/
def mortonBit (x y z : BitVec 32) (b : Nat) : Bool :=
  decide (b < 63) && (if b % 3 = 2 then bitOf x (b / 3) else if b % 3 = 1 then bitOf y (b / 3) else bitOf z (b / 3))

/-! ### Floating operations, by the rules that name them -/

/-- A vector floating instruction of two operands: its latency (R171) and its element operation, by format, context, random
bits and operands (R180, R181). -/
structure FloatRow where
  instr : Cluster → VOps → Instr
  latency : Nat
  op : Fmt → FCtx → Nat → Nat → Nat → FRes

/-- VFADD, VFSUB, VFMUL, VFDIV, VFMIN and VFMAX. -/
def floatRows : List FloatRow := [
  ⟨.vfadd, 4, Fmt.add⟩, ⟨.vfsub, 4, Fmt.sub⟩, ⟨.vfmul, 4, Fmt.mul⟩, ⟨.vfdiv, 14, Fmt.div⟩,
  ⟨.vfmin, 2, fun k t _ a b => k.minMax t false a b⟩, ⟨.vfmax, 2, fun k t _ a b => k.minMax t true a b⟩]

/-- A vector floating instruction of one operand (R180, R182, R183). -/
structure FloatUnaryRow where
  instr : Cluster → VOps → Instr
  latency : Nat
  op : Fmt → FCtx → Nat → Nat → FRes

/-- VFSQRT, VRCP, VRSQ, VLOG2 and VEXP2. -/
def floatUnaryRows : List FloatUnaryRow := [
  ⟨.vfsqrt, 14, Fmt.sqrt⟩, ⟨.vrcp, 6, Fmt.rcp⟩, ⟨.vrsq, 6, Fmt.rsq⟩, ⟨.vlog2, 6, Fmt.log2⟩,
  ⟨.vexp2, 6, fun _ t _ a => exp2z t a⟩]

/-- The random bits of element `e` of format width `w` under rounding 101, from vc (R52, R179). -/
def State.randomBits (s : State) (c : Cluster) (o : VOps) (w e : Nat) : Nat :=
  qBits (s.src.randomOp c o) (laneOfElem w e) (e % (32 / w))

/-- Element `e` of a lane-wise conversion to width `wt`: the low elements of each lane are converted, the rest are zero
(R185). -/
def convertedElem (ws wt : Nat) (src : Nat → BitVec 32) (f : Nat → Nat → Nat → FRes) (e : Nat) : FRes :=
  let l := laneOfElem wt e
  let k := e % (32 / wt)
  if k < min (32 / ws) (32 / wt) then f l k ((src l).extractLsb' (ws * k) ws).toNat else { code := 0 }

/-! ### Vector accesses, from the rules -/

/-- The base of a buffer instruction: lane 0 of va, unsigned (R199). -/
def State.vbase (s : State) (c : Cluster) (o : VOps) : Int := ((s.src.vsrc c o.va).lane 0).toNat

/-- The buffer that fn[47:46] selects (R199). -/
def opBuf (o : VOps) : Buf :=
  match o.fn.toNat / 8 with
  | 0 => .wb
  | 1 => .ab
  | 2 => .cb
  | _ => .sb

/-- The offset of VLD and VST, and of VLDU and VSTB (R202, R203). -/
def opOffset12 (o : VOps) : Int := 256 * (o.vc ++ o.vb : BitVec 12).toInt
def opOffset6 (o : VOps) : Int := o.vc.toInt

/-- Address of element `e` of VLDS and VSTS, and of VLDX and VSTX, of width `w` (R203). -/
def State.strided (s : State) (c : Cluster) (o : VOps) (e : Nat) : Int :=
  s.vbase c o + e * ((s.src.vsrc c o.vb).lane 0).toInt
def State.indexed (s : State) (c : Cluster) (o : VOps) (w e : Nat) : Int :=
  s.vbase c o + (w / 8 : Nat) *
    ((if w = 64 then ((s.src.vsrc c o.vb).lane e).toNat else ((s.src.vsrc c o.vb).elem w e).toNat : Nat) : Int)

/-- The little-endian value of `n` bytes of a buffer of the unit as the bundle's slots read it (R2, R204). -/
def State.bytesAt (s : State) (b : Buf) (a n : Nat) : Nat :=
  natOfBytes ((List.range n).map (fun i => s.src.bget b (a + i)))

/-- A vector store of elements of `n` bytes: each byte holds the byte of the highest element that covers it, and every
other byte of every buffer is as before (R205). -/
def State.storedAs (s t : State) (b : Buf) (n : Nat) (on : Nat → Prop) (count : Nat) (addr : Nat → Int)
    (byte : Nat → Nat → Byte) : Prop :=
  (∀ e < count, on e → ∀ j < n, (∀ f < count, on f → e < f → ¬ (addr f ≤ addr e + j ∧ addr e + j < addr f + n)) →
    t.cur.bget b ((addr e).toNat + j) = byte e j) ∧
  (∀ (c : Buf) (a : Nat), (c ≠ b ∨ ∀ e < count, on e → ¬ (addr e ≤ a ∧ (a : Int) < addr e + n)) →
    t.cur.bget c a = s.cur.bget c a)

/-- What a store leaves alone: everything outside the unit in focus, and its registers and results in flight. -/
def State.storeFrame (s t : State) : Prop :=
  s.onlyFocus t ∧ t.cur.regs = s.cur.regs ∧ t.cur.flight = s.cur.flight ∧ t.cur.pc = s.cur.pc ∧ t.cur.scales = s.cur.scales ∧
    t.cur.hstat = s.cur.hstat ∧ t.cur.mstat = s.cur.mstat ∧ t.cur.cstat = s.cur.cstat

/-- In handler mode, where a store goes to the buffer at once, every buffer of the unit is in canonical form. -/
def State.buffersCanonical (s : State) : Prop := s.cur.handler = true → s.cur.BuffersCanonical

/-- The lanes that a vector instruction governs, ascending (R168, R214). -/
def State.governedLanes (s : State) (c : Cluster) (o : VOps) : List Nat := (List.range 64).filter (fun l => s.governs c o l)

/-- The stream that fn[44:43] selects, as the bundle's slots read it (R212, R213). -/
def State.streamAt (s : State) (o : VOps) : Stream := tget {} s.src.regs.streams (o.fn.toNat % 4)

/-- SB offset of word `p` of the stream (R212). -/
def State.wordAt (s : State) (o : VOps) (p : Nat) : Nat :=
  0x8000 * (o.fn.toNat % 4) + 4 * (((s.streamAt o).head + p) % 8192)

/-- The running value of a group: the governed elements in ascending order, the first entering as read (R211). -/
def groupFold {α : Type} (op : α → α → α) : List α → Option α
  | [] => none
  | x :: xs => some (xs.foldl op x)

/-- The lanes of the group of `l` that count for its result: all governed ones, or for VSCAN those up to `l` (R211). -/
def State.groupLanes (s : State) (c : Cluster) (o : VOps) (scan : Bool) (l : Nat) : List Nat :=
  (s.governedLanes c o).filter (fun m => decide (m / 2 ^ o.vc.toNat = l / 2 ^ o.vc.toNat) && (!scan || decide (m ≤ l)))

/-- The integer operations of VRED and VSCAN (R210). -/
def groupOp (k : Nat) (signed : Bool) {w : Nat} (a b : BitVec w) : BitVec w :=
  match k with
  | 0 => a + b
  | 1 => if signed then BitVec.ofInt w (min a.toInt b.toInt) else BitVec.ofNat w (min a.toNat b.toNat)
  | 2 => if signed then BitVec.ofInt w (max a.toInt b.toInt) else BitVec.ofNat w (max a.toNat b.toNat)
  | 3 => a ||| b
  | 4 => a &&& b
  | _ => a ^^^ b

/-! ### Commands and engines -/

/-- The seven matrix commands (R122). -/
def matrixRows : List ((MOps → Instr) × MVar) :=
  [(.mm, .mm), (.mmsN24, .mms24), (.mmsN48, .mms48), (.mmt, .mmt), (.azero, .azero), (.ascl, .ascl), (.acvt, .acvt)]

/-- The copy-slot commands that take a queue place and nothing else (R244). -/
def copyRows : List (Engine → COps → Instr) :=
  [.cpy, .gath, .scat, .fill, .cmpr, .pref, .cfence, .walk, .fsend, .ffetch]

/-- The clocks D of a command (R239). -/
def clocksD (v : MVar) (shape : BitVec 3) : Nat :=
  let row (n : Nat) : Nat := [1, 2, 4, 8, 16].getD shape.toNat 16 * n
  if v = .mm ∨ v = .mmt then row 64 else if v = .mms24 ∨ v = .mms48 then row 32 else row 8

/-- The unit with a matrix command at the end of its queue: one more command counts toward the tag (R82, R126, R221). -/
def Unit.withMatrix (x : Unit) (m : MCmd) : Unit :=
  { x with serial := x.serial + 1, tags := tput x.tags m.o.tag.toNat (tget 0 x.tags m.o.tag.toNat + 1), mq := x.mq ++ [m] }

/-- The unit with a command at the end of its engine's queue: one more command counts toward the tag (R126, R244). -/
def Unit.withCopy (x : Unit) (c : CCmd) : Unit :=
  { x with
    serial := x.serial + 1
    tags := tput x.tags c.tag (tget 0 x.tags c.tag + 1)
    q0 := if c.engine = .c0 then x.q0 ++ [c] else x.q0
    q1 := if c.engine = .c1 then x.q1 ++ [c] else x.q1 }

/-- What a new matrix command holds: the instruction's fields, the staging registers from mg `set` on, FCSR and the scale
registers, all as the bundle reads them; it has not started (R221, R230, R241). -/
def MCmd.isNew (m : MCmd) (s : State) (v : MVar) (o : MOps) : Prop :=
  m.var = v ∧ m.o = o ∧ m.pc = s.src.pc ∧ m.fcsr = s.src.regs.fcsr ∧ m.scales = s.src.scales ∧ m.started = none ∧
    m.opsRead = false ∧ m.replays = 0 ∧ m.record = none ∧ m.stg.length ≤ 5 ∧
    ∀ i < m.stg.length, m.stg.getD i 0 = tget 0 s.src.regs.stg (o.set.toNat + i)

/-- What a new copy-slot command holds: the instruction, its tag and engine, and the eight registers of its staging block as
the bundle reads them; it has not been translated (R118, R244). -/
def CCmd.isNew (c : CCmd) (s : State) (i : Instr) (e : Engine) (o : COps) : Prop :=
  c.op = i ∧ c.engine = e ∧ c.tag = o.tag.toNat ∧ c.serial = s.cur.serial ∧ c.pc = s.src.pc ∧ c.err = none ∧ c.runs = [] ∧
    c.stg.length = 8 ∧ ∀ j < 8, c.stg.getD j 0 = tget 0 s.src.regs.stg (32 + 8 * o.blk.toNat + j)

/-- Only unit `u` differs. -/
def State.onlyUnit (s t : State) (u : Nat) : Prop := { t with units := s.units } = s ∧ ∀ v, v ≠ u → t.unit v = s.unit v

/-- A queued command of the unit that has the serial, in engine `e`. -/
def Unit.command (x : Unit) (e : Engine) (id : Nat) : Option CCmd := (x.queueOf e).find? (fun c => c.serial == id)

/-- The unit with one command of an engine replaced. -/
def Unit.withCommand (x : Unit) (e : Engine) (id : Nat) (c : CCmd) : Unit :=
  x.modCmd e id (fun _ => c)

/-- The unit after a command without an error completes while the unit issues: its place is free, its tag is one nearer and a
follow-on may start (R83, R126, R256). -/
def Unit.withoutCommand (x : Unit) (e : Engine) (c : CCmd) : Unit :=
  { x with
    tags := tput x.tags c.tag (tget 0 x.tags c.tag - 1)
    q0 := if e = .c0 then x.q0.filter (fun d => d.serial != c.serial) else x.q0
    q1 := if e = .c1 then x.q1.filter (fun d => d.serial != c.serial) else x.q1
    mq := x.mq.map (fun m => if m.after = some c.serial then { m with after := none } else m) }

/-- The place of byte `i` of a piece. -/
def Loc.plus (l : Loc) (i : Nat) : Loc := { l with addr := l.addr + i }

end Sys2Proof.Machine
end

