-- ==== Sys2Proof/Laws/State.lean ====
section
/-!
SUPPORT. What the updates of the state's and of a unit's record leave alone and what they set, one lemma for each field of
each update, and what a part reads after a write of a part.
-/
namespace Sys2Proof.Machine

variable (s : State) (x : Unit)

/-! ### `setUnit` -/

@[simp] theorem State.setUnit_units (u : Nat) (y : Unit) : (s.setUnit u y).units = tput s.units u y := rfl
@[simp] theorem State.setUnit_focus (u : Nat) (y : Unit) : (s.setUnit u y).focus = s.focus := rfl
@[simp] theorem State.setUnit_issue (u : Nat) (y : Unit) : (s.setUnit u y).issue = s.issue := rfl
@[simp] theorem State.setUnit_agenda (u : Nat) (y : Unit) : (s.setUnit u y).agenda = s.agenda := rfl
@[simp] theorem State.setUnit_now (u : Nat) (y : Unit) : (s.setUnit u y).now = s.now := rfl
@[simp] theorem State.setUnit_free (u : Nat) (y : Unit) : (s.setUnit u y).free = s.free := rfl
@[simp] theorem State.setUnit_dram (u : Nat) (y : Unit) : (s.setUnit u y).dram = s.dram := rfl
@[simp] theorem State.setUnit_sram (u : Nat) (y : Unit) : (s.setUnit u y).sram = s.sram := rfl
@[simp] theorem State.setUnit_host (u : Nat) (y : Unit) : (s.setUnit u y).host = s.host := rfl
@[simp] theorem State.setUnit_tier (u : Nat) (y : Unit) : (s.setUnit u y).tier = s.tier := rfl
@[simp] theorem State.setUnit_ctl (u : Nat) (y : Unit) : (s.setUnit u y).ctl = s.ctl := rfl
@[simp] theorem State.setUnit_clusters (u : Nat) (y : Unit) : (s.setUnit u y).clusters = s.clusters := rfl
@[simp] theorem State.setUnit_sched (u : Nat) (y : Unit) : (s.setUnit u y).sched = s.sched := rfl
@[simp] theorem State.setUnit_cbits (u : Nat) (y : Unit) : (s.setUnit u y).cbits = s.cbits := rfl
@[simp] theorem State.setUnit_busy (u : Nat) (y : Unit) : (s.setUnit u y).busy = s.busy := rfl
@[simp] theorem State.setUnit_held (u : Nat) (y : Unit) : (s.setUnit u y).held = s.held := rfl
@[simp] theorem State.setUnit_stays (u : Nat) (y : Unit) : (s.setUnit u y).stays = s.stays := rfl
@[simp] theorem State.setUnit_invWait (u : Nat) (y : Unit) : (s.setUnit u y).invWait = s.invWait := rfl
@[simp] theorem State.setUnit_migrators (u : Nat) (y : Unit) : (s.setUnit u y).migrators = s.migrators := rfl
@[simp] theorem State.setUnit_indirect (u : Nat) (y : Unit) : (s.setUnit u y).indirect = s.indirect := rfl
@[simp] theorem State.setUnit_pcs (u : Nat) (y : Unit) : (s.setUnit u y).pcs = s.pcs := rfl
@[simp] theorem State.setUnit_calPend (u : Nat) (y : Unit) : (s.setUnit u y).calPend = s.calPend := rfl
@[simp] theorem State.setUnit_saved (u : Nat) (y : Unit) : (s.setUnit u y).saved = s.saved := rfl
@[simp] theorem State.setUnit_modnum (u : Nat) (y : Unit) : (s.setUnit u y).modnum = s.modnum := rfl
@[simp] theorem State.setUnit_leads (u : Nat) (y : Unit) : (s.setUnit u y).leads = s.leads := rfl
@[simp] theorem State.setUnit_colls (u : Nat) (y : Unit) : (s.setUnit u y).colls = s.colls := rfl
@[simp] theorem State.setUnit_endedColls (u : Nat) (y : Unit) : (s.setUnit u y).endedColls = s.endedColls := rfl
@[simp] theorem State.setUnit_poolKept (u : Nat) (y : Unit) : (s.setUnit u y).poolKept = s.poolKept := rfl
@[simp] theorem State.setUnit_out (u : Nat) (y : Unit) : (s.setUnit u y).out = s.out := rfl
@[simp] theorem State.setUnit_darkMods (u : Nat) (y : Unit) : (s.setUnit u y).darkMods = s.darkMods := rfl
@[simp] theorem State.setUnit_routes (u : Nat) (y : Unit) : (s.setUnit u y).routes = s.routes := rfl
@[simp] theorem State.setUnit_versions (u : Nat) (y : Unit) : (s.setUnit u y).versions = s.versions := rfl
@[simp] theorem State.setUnit_ports (u : Nat) (y : Unit) : (s.setUnit u y).ports = s.ports := rfl
@[simp] theorem State.setUnit_pcie (u : Nat) (y : Unit) : (s.setUnit u y).pcie = s.pcie := rfl
@[simp] theorem State.setUnit_nextPcie (u : Nat) (y : Unit) : (s.setUnit u y).nextPcie = s.nextPcie := rfl
@[simp] theorem State.setUnit_hostReset (u : Nat) (y : Unit) : (s.setUnit u y).hostReset = s.hostReset := rfl
@[simp] theorem State.setUnit_hostReads (u : Nat) (y : Unit) : (s.setUnit u y).hostReads = s.hostReads := rfl
@[simp] theorem State.setUnit_switches (u : Nat) (y : Unit) : (s.setUnit u y).switches = s.switches := rfl
@[simp] theorem State.setUnit_hoStart (u : Nat) (y : Unit) : (s.setUnit u y).hoStart = s.hoStart := rfl
@[simp] theorem State.setUnit_zones (u : Nat) (y : Unit) : (s.setUnit u y).zones = s.zones := rfl
@[simp] theorem State.setUnit_spares (u : Nat) (y : Unit) : (s.setUnit u y).spares = s.spares := rfl
@[simp] theorem State.setUnit_woken (u : Nat) (y : Unit) : (s.setUnit u y).woken = s.woken := rfl
@[simp] theorem State.setUnit_dueBase (u : Nat) (y : Unit) : (s.setUnit u y).dueBase = s.dueBase := rfl
@[simp] theorem State.setUnit_bumpedAt (u : Nat) (y : Unit) : (s.setUnit u y).bumpedAt = s.bumpedAt := rfl
@[simp] theorem State.setUnit_bumped (u : Nat) (y : Unit) : (s.setUnit u y).bumped = s.bumped := rfl
@[simp] theorem State.setUnit_tickAt (u : Nat) (y : Unit) : (s.setUnit u y).tickAt = s.tickAt := rfl
@[simp] theorem State.setUnit_lowTicks (u : Nat) (y : Unit) : (s.setUnit u y).lowTicks = s.lowTicks := rfl
@[simp] theorem State.setUnit_busyAt (u : Nat) (y : Unit) : (s.setUnit u y).busyAt = s.busyAt := rfl
@[simp] theorem State.setUnit_heldEvents (u : Nat) (y : Unit) : (s.setUnit u y).heldEvents = s.heldEvents := rfl
@[simp] theorem State.setUnit_links (u : Nat) (y : Unit) : (s.setUnit u y).links = s.links := rfl
@[simp] theorem State.setUnit_dies (u : Nat) (y : Unit) : (s.setUnit u y).dies = s.dies := rfl
@[simp] theorem State.setUnit_ho (u : Nat) (y : Unit) : (s.setUnit u y).ho = s.ho := rfl
@[simp] theorem State.setUnit_root (u : Nat) (y : Unit) : (s.setUnit u y).root = s.root := rfl
@[simp] theorem State.setUnit_dusk (u : Nat) (y : Unit) : (s.setUnit u y).dusk = s.dusk := rfl
@[simp] theorem State.setUnit_hib (u : Nat) (y : Unit) : (s.setUnit u y).hib = s.hib := rfl

/-! ### `modUnit` -/

@[simp] theorem State.modUnit_units (u : Nat) (f : Unit → Unit) : (s.modUnit u f).units = tput s.units u (f (s.unit u)) := rfl
@[simp] theorem State.modUnit_focus (u : Nat) (f : Unit → Unit) : (s.modUnit u f).focus = s.focus := rfl
@[simp] theorem State.modUnit_issue (u : Nat) (f : Unit → Unit) : (s.modUnit u f).issue = s.issue := rfl
@[simp] theorem State.modUnit_agenda (u : Nat) (f : Unit → Unit) : (s.modUnit u f).agenda = s.agenda := rfl
@[simp] theorem State.modUnit_now (u : Nat) (f : Unit → Unit) : (s.modUnit u f).now = s.now := rfl
@[simp] theorem State.modUnit_free (u : Nat) (f : Unit → Unit) : (s.modUnit u f).free = s.free := rfl
@[simp] theorem State.modUnit_dram (u : Nat) (f : Unit → Unit) : (s.modUnit u f).dram = s.dram := rfl
@[simp] theorem State.modUnit_sram (u : Nat) (f : Unit → Unit) : (s.modUnit u f).sram = s.sram := rfl
@[simp] theorem State.modUnit_host (u : Nat) (f : Unit → Unit) : (s.modUnit u f).host = s.host := rfl
@[simp] theorem State.modUnit_tier (u : Nat) (f : Unit → Unit) : (s.modUnit u f).tier = s.tier := rfl
@[simp] theorem State.modUnit_ctl (u : Nat) (f : Unit → Unit) : (s.modUnit u f).ctl = s.ctl := rfl
@[simp] theorem State.modUnit_clusters (u : Nat) (f : Unit → Unit) : (s.modUnit u f).clusters = s.clusters := rfl
@[simp] theorem State.modUnit_sched (u : Nat) (f : Unit → Unit) : (s.modUnit u f).sched = s.sched := rfl
@[simp] theorem State.modUnit_cbits (u : Nat) (f : Unit → Unit) : (s.modUnit u f).cbits = s.cbits := rfl
@[simp] theorem State.modUnit_busy (u : Nat) (f : Unit → Unit) : (s.modUnit u f).busy = s.busy := rfl
@[simp] theorem State.modUnit_held (u : Nat) (f : Unit → Unit) : (s.modUnit u f).held = s.held := rfl
@[simp] theorem State.modUnit_stays (u : Nat) (f : Unit → Unit) : (s.modUnit u f).stays = s.stays := rfl
@[simp] theorem State.modUnit_invWait (u : Nat) (f : Unit → Unit) : (s.modUnit u f).invWait = s.invWait := rfl
@[simp] theorem State.modUnit_migrators (u : Nat) (f : Unit → Unit) : (s.modUnit u f).migrators = s.migrators := rfl
@[simp] theorem State.modUnit_indirect (u : Nat) (f : Unit → Unit) : (s.modUnit u f).indirect = s.indirect := rfl
@[simp] theorem State.modUnit_pcs (u : Nat) (f : Unit → Unit) : (s.modUnit u f).pcs = s.pcs := rfl
@[simp] theorem State.modUnit_calPend (u : Nat) (f : Unit → Unit) : (s.modUnit u f).calPend = s.calPend := rfl
@[simp] theorem State.modUnit_saved (u : Nat) (f : Unit → Unit) : (s.modUnit u f).saved = s.saved := rfl
@[simp] theorem State.modUnit_modnum (u : Nat) (f : Unit → Unit) : (s.modUnit u f).modnum = s.modnum := rfl
@[simp] theorem State.modUnit_leads (u : Nat) (f : Unit → Unit) : (s.modUnit u f).leads = s.leads := rfl
@[simp] theorem State.modUnit_colls (u : Nat) (f : Unit → Unit) : (s.modUnit u f).colls = s.colls := rfl
@[simp] theorem State.modUnit_endedColls (u : Nat) (f : Unit → Unit) : (s.modUnit u f).endedColls = s.endedColls := rfl
@[simp] theorem State.modUnit_poolKept (u : Nat) (f : Unit → Unit) : (s.modUnit u f).poolKept = s.poolKept := rfl
@[simp] theorem State.modUnit_out (u : Nat) (f : Unit → Unit) : (s.modUnit u f).out = s.out := rfl
@[simp] theorem State.modUnit_darkMods (u : Nat) (f : Unit → Unit) : (s.modUnit u f).darkMods = s.darkMods := rfl
@[simp] theorem State.modUnit_routes (u : Nat) (f : Unit → Unit) : (s.modUnit u f).routes = s.routes := rfl
@[simp] theorem State.modUnit_versions (u : Nat) (f : Unit → Unit) : (s.modUnit u f).versions = s.versions := rfl
@[simp] theorem State.modUnit_ports (u : Nat) (f : Unit → Unit) : (s.modUnit u f).ports = s.ports := rfl
@[simp] theorem State.modUnit_pcie (u : Nat) (f : Unit → Unit) : (s.modUnit u f).pcie = s.pcie := rfl
@[simp] theorem State.modUnit_nextPcie (u : Nat) (f : Unit → Unit) : (s.modUnit u f).nextPcie = s.nextPcie := rfl
@[simp] theorem State.modUnit_hostReset (u : Nat) (f : Unit → Unit) : (s.modUnit u f).hostReset = s.hostReset := rfl
@[simp] theorem State.modUnit_hostReads (u : Nat) (f : Unit → Unit) : (s.modUnit u f).hostReads = s.hostReads := rfl
@[simp] theorem State.modUnit_switches (u : Nat) (f : Unit → Unit) : (s.modUnit u f).switches = s.switches := rfl
@[simp] theorem State.modUnit_hoStart (u : Nat) (f : Unit → Unit) : (s.modUnit u f).hoStart = s.hoStart := rfl
@[simp] theorem State.modUnit_zones (u : Nat) (f : Unit → Unit) : (s.modUnit u f).zones = s.zones := rfl
@[simp] theorem State.modUnit_spares (u : Nat) (f : Unit → Unit) : (s.modUnit u f).spares = s.spares := rfl
@[simp] theorem State.modUnit_woken (u : Nat) (f : Unit → Unit) : (s.modUnit u f).woken = s.woken := rfl
@[simp] theorem State.modUnit_dueBase (u : Nat) (f : Unit → Unit) : (s.modUnit u f).dueBase = s.dueBase := rfl
@[simp] theorem State.modUnit_bumpedAt (u : Nat) (f : Unit → Unit) : (s.modUnit u f).bumpedAt = s.bumpedAt := rfl
@[simp] theorem State.modUnit_bumped (u : Nat) (f : Unit → Unit) : (s.modUnit u f).bumped = s.bumped := rfl
@[simp] theorem State.modUnit_tickAt (u : Nat) (f : Unit → Unit) : (s.modUnit u f).tickAt = s.tickAt := rfl
@[simp] theorem State.modUnit_lowTicks (u : Nat) (f : Unit → Unit) : (s.modUnit u f).lowTicks = s.lowTicks := rfl
@[simp] theorem State.modUnit_busyAt (u : Nat) (f : Unit → Unit) : (s.modUnit u f).busyAt = s.busyAt := rfl
@[simp] theorem State.modUnit_heldEvents (u : Nat) (f : Unit → Unit) : (s.modUnit u f).heldEvents = s.heldEvents := rfl
@[simp] theorem State.modUnit_links (u : Nat) (f : Unit → Unit) : (s.modUnit u f).links = s.links := rfl
@[simp] theorem State.modUnit_dies (u : Nat) (f : Unit → Unit) : (s.modUnit u f).dies = s.dies := rfl
@[simp] theorem State.modUnit_ho (u : Nat) (f : Unit → Unit) : (s.modUnit u f).ho = s.ho := rfl
@[simp] theorem State.modUnit_root (u : Nat) (f : Unit → Unit) : (s.modUnit u f).root = s.root := rfl
@[simp] theorem State.modUnit_dusk (u : Nat) (f : Unit → Unit) : (s.modUnit u f).dusk = s.dusk := rfl
@[simp] theorem State.modUnit_hib (u : Nat) (f : Unit → Unit) : (s.modUnit u f).hib = s.hib := rfl

/-! ### `modCur` -/

@[simp] theorem State.modCur_units (f : Unit → Unit) : (s.modCur f).units = tput s.units s.focus (f s.cur) := rfl
@[simp] theorem State.modCur_focus (f : Unit → Unit) : (s.modCur f).focus = s.focus := rfl
@[simp] theorem State.modCur_issue (f : Unit → Unit) : (s.modCur f).issue = s.issue := rfl
@[simp] theorem State.modCur_agenda (f : Unit → Unit) : (s.modCur f).agenda = s.agenda := rfl
@[simp] theorem State.modCur_now (f : Unit → Unit) : (s.modCur f).now = s.now := rfl
@[simp] theorem State.modCur_free (f : Unit → Unit) : (s.modCur f).free = s.free := rfl
@[simp] theorem State.modCur_dram (f : Unit → Unit) : (s.modCur f).dram = s.dram := rfl
@[simp] theorem State.modCur_sram (f : Unit → Unit) : (s.modCur f).sram = s.sram := rfl
@[simp] theorem State.modCur_host (f : Unit → Unit) : (s.modCur f).host = s.host := rfl
@[simp] theorem State.modCur_tier (f : Unit → Unit) : (s.modCur f).tier = s.tier := rfl
@[simp] theorem State.modCur_ctl (f : Unit → Unit) : (s.modCur f).ctl = s.ctl := rfl
@[simp] theorem State.modCur_clusters (f : Unit → Unit) : (s.modCur f).clusters = s.clusters := rfl
@[simp] theorem State.modCur_sched (f : Unit → Unit) : (s.modCur f).sched = s.sched := rfl
@[simp] theorem State.modCur_cbits (f : Unit → Unit) : (s.modCur f).cbits = s.cbits := rfl
@[simp] theorem State.modCur_busy (f : Unit → Unit) : (s.modCur f).busy = s.busy := rfl
@[simp] theorem State.modCur_held (f : Unit → Unit) : (s.modCur f).held = s.held := rfl
@[simp] theorem State.modCur_stays (f : Unit → Unit) : (s.modCur f).stays = s.stays := rfl
@[simp] theorem State.modCur_invWait (f : Unit → Unit) : (s.modCur f).invWait = s.invWait := rfl
@[simp] theorem State.modCur_migrators (f : Unit → Unit) : (s.modCur f).migrators = s.migrators := rfl
@[simp] theorem State.modCur_indirect (f : Unit → Unit) : (s.modCur f).indirect = s.indirect := rfl
@[simp] theorem State.modCur_pcs (f : Unit → Unit) : (s.modCur f).pcs = s.pcs := rfl
@[simp] theorem State.modCur_calPend (f : Unit → Unit) : (s.modCur f).calPend = s.calPend := rfl
@[simp] theorem State.modCur_saved (f : Unit → Unit) : (s.modCur f).saved = s.saved := rfl
@[simp] theorem State.modCur_modnum (f : Unit → Unit) : (s.modCur f).modnum = s.modnum := rfl
@[simp] theorem State.modCur_leads (f : Unit → Unit) : (s.modCur f).leads = s.leads := rfl
@[simp] theorem State.modCur_colls (f : Unit → Unit) : (s.modCur f).colls = s.colls := rfl
@[simp] theorem State.modCur_endedColls (f : Unit → Unit) : (s.modCur f).endedColls = s.endedColls := rfl
@[simp] theorem State.modCur_poolKept (f : Unit → Unit) : (s.modCur f).poolKept = s.poolKept := rfl
@[simp] theorem State.modCur_out (f : Unit → Unit) : (s.modCur f).out = s.out := rfl
@[simp] theorem State.modCur_darkMods (f : Unit → Unit) : (s.modCur f).darkMods = s.darkMods := rfl
@[simp] theorem State.modCur_routes (f : Unit → Unit) : (s.modCur f).routes = s.routes := rfl
@[simp] theorem State.modCur_versions (f : Unit → Unit) : (s.modCur f).versions = s.versions := rfl
@[simp] theorem State.modCur_ports (f : Unit → Unit) : (s.modCur f).ports = s.ports := rfl
@[simp] theorem State.modCur_pcie (f : Unit → Unit) : (s.modCur f).pcie = s.pcie := rfl
@[simp] theorem State.modCur_nextPcie (f : Unit → Unit) : (s.modCur f).nextPcie = s.nextPcie := rfl
@[simp] theorem State.modCur_hostReset (f : Unit → Unit) : (s.modCur f).hostReset = s.hostReset := rfl
@[simp] theorem State.modCur_hostReads (f : Unit → Unit) : (s.modCur f).hostReads = s.hostReads := rfl
@[simp] theorem State.modCur_switches (f : Unit → Unit) : (s.modCur f).switches = s.switches := rfl
@[simp] theorem State.modCur_hoStart (f : Unit → Unit) : (s.modCur f).hoStart = s.hoStart := rfl
@[simp] theorem State.modCur_zones (f : Unit → Unit) : (s.modCur f).zones = s.zones := rfl
@[simp] theorem State.modCur_spares (f : Unit → Unit) : (s.modCur f).spares = s.spares := rfl
@[simp] theorem State.modCur_woken (f : Unit → Unit) : (s.modCur f).woken = s.woken := rfl
@[simp] theorem State.modCur_dueBase (f : Unit → Unit) : (s.modCur f).dueBase = s.dueBase := rfl
@[simp] theorem State.modCur_bumpedAt (f : Unit → Unit) : (s.modCur f).bumpedAt = s.bumpedAt := rfl
@[simp] theorem State.modCur_bumped (f : Unit → Unit) : (s.modCur f).bumped = s.bumped := rfl
@[simp] theorem State.modCur_tickAt (f : Unit → Unit) : (s.modCur f).tickAt = s.tickAt := rfl
@[simp] theorem State.modCur_lowTicks (f : Unit → Unit) : (s.modCur f).lowTicks = s.lowTicks := rfl
@[simp] theorem State.modCur_busyAt (f : Unit → Unit) : (s.modCur f).busyAt = s.busyAt := rfl
@[simp] theorem State.modCur_heldEvents (f : Unit → Unit) : (s.modCur f).heldEvents = s.heldEvents := rfl
@[simp] theorem State.modCur_links (f : Unit → Unit) : (s.modCur f).links = s.links := rfl
@[simp] theorem State.modCur_dies (f : Unit → Unit) : (s.modCur f).dies = s.dies := rfl
@[simp] theorem State.modCur_ho (f : Unit → Unit) : (s.modCur f).ho = s.ho := rfl
@[simp] theorem State.modCur_root (f : Unit → Unit) : (s.modCur f).root = s.root := rfl
@[simp] theorem State.modCur_dusk (f : Unit → Unit) : (s.modCur f).dusk = s.dusk := rfl
@[simp] theorem State.modCur_hib (f : Unit → Unit) : (s.modCur f).hib = s.hib := rfl

/-! ### `withFlight` -/

@[simp] theorem State.withFlight_units (r : InFlight) : (s.withFlight r).units = tput s.units s.focus { s.cur with flight := s.cur.flight ++ [r] } := rfl
@[simp] theorem State.withFlight_focus (r : InFlight) : (s.withFlight r).focus = s.focus := rfl
@[simp] theorem State.withFlight_issue (r : InFlight) : (s.withFlight r).issue = s.issue := rfl
@[simp] theorem State.withFlight_agenda (r : InFlight) : (s.withFlight r).agenda = s.agenda := rfl
@[simp] theorem State.withFlight_now (r : InFlight) : (s.withFlight r).now = s.now := rfl
@[simp] theorem State.withFlight_free (r : InFlight) : (s.withFlight r).free = s.free := rfl
@[simp] theorem State.withFlight_dram (r : InFlight) : (s.withFlight r).dram = s.dram := rfl
@[simp] theorem State.withFlight_sram (r : InFlight) : (s.withFlight r).sram = s.sram := rfl
@[simp] theorem State.withFlight_host (r : InFlight) : (s.withFlight r).host = s.host := rfl
@[simp] theorem State.withFlight_tier (r : InFlight) : (s.withFlight r).tier = s.tier := rfl
@[simp] theorem State.withFlight_ctl (r : InFlight) : (s.withFlight r).ctl = s.ctl := rfl
@[simp] theorem State.withFlight_clusters (r : InFlight) : (s.withFlight r).clusters = s.clusters := rfl
@[simp] theorem State.withFlight_sched (r : InFlight) : (s.withFlight r).sched = s.sched := rfl
@[simp] theorem State.withFlight_cbits (r : InFlight) : (s.withFlight r).cbits = s.cbits := rfl
@[simp] theorem State.withFlight_busy (r : InFlight) : (s.withFlight r).busy = s.busy := rfl
@[simp] theorem State.withFlight_held (r : InFlight) : (s.withFlight r).held = s.held := rfl
@[simp] theorem State.withFlight_stays (r : InFlight) : (s.withFlight r).stays = s.stays := rfl
@[simp] theorem State.withFlight_invWait (r : InFlight) : (s.withFlight r).invWait = s.invWait := rfl
@[simp] theorem State.withFlight_migrators (r : InFlight) : (s.withFlight r).migrators = s.migrators := rfl
@[simp] theorem State.withFlight_indirect (r : InFlight) : (s.withFlight r).indirect = s.indirect := rfl
@[simp] theorem State.withFlight_pcs (r : InFlight) : (s.withFlight r).pcs = s.pcs := rfl
@[simp] theorem State.withFlight_calPend (r : InFlight) : (s.withFlight r).calPend = s.calPend := rfl
@[simp] theorem State.withFlight_saved (r : InFlight) : (s.withFlight r).saved = s.saved := rfl
@[simp] theorem State.withFlight_modnum (r : InFlight) : (s.withFlight r).modnum = s.modnum := rfl
@[simp] theorem State.withFlight_leads (r : InFlight) : (s.withFlight r).leads = s.leads := rfl
@[simp] theorem State.withFlight_colls (r : InFlight) : (s.withFlight r).colls = s.colls := rfl
@[simp] theorem State.withFlight_endedColls (r : InFlight) : (s.withFlight r).endedColls = s.endedColls := rfl
@[simp] theorem State.withFlight_poolKept (r : InFlight) : (s.withFlight r).poolKept = s.poolKept := rfl
@[simp] theorem State.withFlight_out (r : InFlight) : (s.withFlight r).out = s.out := rfl
@[simp] theorem State.withFlight_darkMods (r : InFlight) : (s.withFlight r).darkMods = s.darkMods := rfl
@[simp] theorem State.withFlight_routes (r : InFlight) : (s.withFlight r).routes = s.routes := rfl
@[simp] theorem State.withFlight_versions (r : InFlight) : (s.withFlight r).versions = s.versions := rfl
@[simp] theorem State.withFlight_ports (r : InFlight) : (s.withFlight r).ports = s.ports := rfl
@[simp] theorem State.withFlight_pcie (r : InFlight) : (s.withFlight r).pcie = s.pcie := rfl
@[simp] theorem State.withFlight_nextPcie (r : InFlight) : (s.withFlight r).nextPcie = s.nextPcie := rfl
@[simp] theorem State.withFlight_hostReset (r : InFlight) : (s.withFlight r).hostReset = s.hostReset := rfl
@[simp] theorem State.withFlight_hostReads (r : InFlight) : (s.withFlight r).hostReads = s.hostReads := rfl
@[simp] theorem State.withFlight_switches (r : InFlight) : (s.withFlight r).switches = s.switches := rfl
@[simp] theorem State.withFlight_hoStart (r : InFlight) : (s.withFlight r).hoStart = s.hoStart := rfl
@[simp] theorem State.withFlight_zones (r : InFlight) : (s.withFlight r).zones = s.zones := rfl
@[simp] theorem State.withFlight_spares (r : InFlight) : (s.withFlight r).spares = s.spares := rfl
@[simp] theorem State.withFlight_woken (r : InFlight) : (s.withFlight r).woken = s.woken := rfl
@[simp] theorem State.withFlight_dueBase (r : InFlight) : (s.withFlight r).dueBase = s.dueBase := rfl
@[simp] theorem State.withFlight_bumpedAt (r : InFlight) : (s.withFlight r).bumpedAt = s.bumpedAt := rfl
@[simp] theorem State.withFlight_bumped (r : InFlight) : (s.withFlight r).bumped = s.bumped := rfl
@[simp] theorem State.withFlight_tickAt (r : InFlight) : (s.withFlight r).tickAt = s.tickAt := rfl
@[simp] theorem State.withFlight_lowTicks (r : InFlight) : (s.withFlight r).lowTicks = s.lowTicks := rfl
@[simp] theorem State.withFlight_busyAt (r : InFlight) : (s.withFlight r).busyAt = s.busyAt := rfl
@[simp] theorem State.withFlight_heldEvents (r : InFlight) : (s.withFlight r).heldEvents = s.heldEvents := rfl
@[simp] theorem State.withFlight_links (r : InFlight) : (s.withFlight r).links = s.links := rfl
@[simp] theorem State.withFlight_dies (r : InFlight) : (s.withFlight r).dies = s.dies := rfl
@[simp] theorem State.withFlight_ho (r : InFlight) : (s.withFlight r).ho = s.ho := rfl
@[simp] theorem State.withFlight_root (r : InFlight) : (s.withFlight r).root = s.root := rfl
@[simp] theorem State.withFlight_dusk (r : InFlight) : (s.withFlight r).dusk = s.dusk := rfl
@[simp] theorem State.withFlight_hib (r : InFlight) : (s.withFlight r).hib = s.hib := rfl

/-! ### `cset` -/

@[simp] theorem State.cset_units (a : Nat) (w : Word) : (s.cset a w).units = s.units := rfl
@[simp] theorem State.cset_focus (a : Nat) (w : Word) : (s.cset a w).focus = s.focus := rfl
@[simp] theorem State.cset_issue (a : Nat) (w : Word) : (s.cset a w).issue = s.issue := rfl
@[simp] theorem State.cset_agenda (a : Nat) (w : Word) : (s.cset a w).agenda = s.agenda := rfl
@[simp] theorem State.cset_now (a : Nat) (w : Word) : (s.cset a w).now = s.now := rfl
@[simp] theorem State.cset_free (a : Nat) (w : Word) : (s.cset a w).free = s.free := rfl
@[simp] theorem State.cset_dram (a : Nat) (w : Word) : (s.cset a w).dram = s.dram := rfl
@[simp] theorem State.cset_sram (a : Nat) (w : Word) : (s.cset a w).sram = s.sram := rfl
@[simp] theorem State.cset_host (a : Nat) (w : Word) : (s.cset a w).host = s.host := rfl
@[simp] theorem State.cset_tier (a : Nat) (w : Word) : (s.cset a w).tier = s.tier := rfl
@[simp] theorem State.cset_ctl (a : Nat) (w : Word) : (s.cset a w).ctl = tput s.ctl a w := rfl
@[simp] theorem State.cset_clusters (a : Nat) (w : Word) : (s.cset a w).clusters = s.clusters := rfl
@[simp] theorem State.cset_sched (a : Nat) (w : Word) : (s.cset a w).sched = s.sched := rfl
@[simp] theorem State.cset_cbits (a : Nat) (w : Word) : (s.cset a w).cbits = s.cbits := rfl
@[simp] theorem State.cset_busy (a : Nat) (w : Word) : (s.cset a w).busy = s.busy := rfl
@[simp] theorem State.cset_held (a : Nat) (w : Word) : (s.cset a w).held = s.held := rfl
@[simp] theorem State.cset_stays (a : Nat) (w : Word) : (s.cset a w).stays = s.stays := rfl
@[simp] theorem State.cset_invWait (a : Nat) (w : Word) : (s.cset a w).invWait = s.invWait := rfl
@[simp] theorem State.cset_migrators (a : Nat) (w : Word) : (s.cset a w).migrators = s.migrators := rfl
@[simp] theorem State.cset_indirect (a : Nat) (w : Word) : (s.cset a w).indirect = s.indirect := rfl
@[simp] theorem State.cset_pcs (a : Nat) (w : Word) : (s.cset a w).pcs = s.pcs := rfl
@[simp] theorem State.cset_calPend (a : Nat) (w : Word) : (s.cset a w).calPend = s.calPend := rfl
@[simp] theorem State.cset_saved (a : Nat) (w : Word) : (s.cset a w).saved = s.saved := rfl
@[simp] theorem State.cset_modnum (a : Nat) (w : Word) : (s.cset a w).modnum = s.modnum := rfl
@[simp] theorem State.cset_leads (a : Nat) (w : Word) : (s.cset a w).leads = s.leads := rfl
@[simp] theorem State.cset_colls (a : Nat) (w : Word) : (s.cset a w).colls = s.colls := rfl
@[simp] theorem State.cset_endedColls (a : Nat) (w : Word) : (s.cset a w).endedColls = s.endedColls := rfl
@[simp] theorem State.cset_poolKept (a : Nat) (w : Word) : (s.cset a w).poolKept = s.poolKept := rfl
@[simp] theorem State.cset_out (a : Nat) (w : Word) : (s.cset a w).out = s.out := rfl
@[simp] theorem State.cset_darkMods (a : Nat) (w : Word) : (s.cset a w).darkMods = s.darkMods := rfl
@[simp] theorem State.cset_routes (a : Nat) (w : Word) : (s.cset a w).routes = s.routes := rfl
@[simp] theorem State.cset_versions (a : Nat) (w : Word) : (s.cset a w).versions = s.versions := rfl
@[simp] theorem State.cset_ports (a : Nat) (w : Word) : (s.cset a w).ports = s.ports := rfl
@[simp] theorem State.cset_pcie (a : Nat) (w : Word) : (s.cset a w).pcie = s.pcie := rfl
@[simp] theorem State.cset_nextPcie (a : Nat) (w : Word) : (s.cset a w).nextPcie = s.nextPcie := rfl
@[simp] theorem State.cset_hostReset (a : Nat) (w : Word) : (s.cset a w).hostReset = s.hostReset := rfl
@[simp] theorem State.cset_hostReads (a : Nat) (w : Word) : (s.cset a w).hostReads = s.hostReads := rfl
@[simp] theorem State.cset_switches (a : Nat) (w : Word) : (s.cset a w).switches = s.switches := rfl
@[simp] theorem State.cset_hoStart (a : Nat) (w : Word) : (s.cset a w).hoStart = s.hoStart := rfl
@[simp] theorem State.cset_zones (a : Nat) (w : Word) : (s.cset a w).zones = s.zones := rfl
@[simp] theorem State.cset_spares (a : Nat) (w : Word) : (s.cset a w).spares = s.spares := rfl
@[simp] theorem State.cset_woken (a : Nat) (w : Word) : (s.cset a w).woken = s.woken := rfl
@[simp] theorem State.cset_dueBase (a : Nat) (w : Word) : (s.cset a w).dueBase = s.dueBase := rfl
@[simp] theorem State.cset_bumpedAt (a : Nat) (w : Word) : (s.cset a w).bumpedAt = s.bumpedAt := rfl
@[simp] theorem State.cset_bumped (a : Nat) (w : Word) : (s.cset a w).bumped = s.bumped := rfl
@[simp] theorem State.cset_tickAt (a : Nat) (w : Word) : (s.cset a w).tickAt = s.tickAt := rfl
@[simp] theorem State.cset_lowTicks (a : Nat) (w : Word) : (s.cset a w).lowTicks = s.lowTicks := rfl
@[simp] theorem State.cset_busyAt (a : Nat) (w : Word) : (s.cset a w).busyAt = s.busyAt := rfl
@[simp] theorem State.cset_heldEvents (a : Nat) (w : Word) : (s.cset a w).heldEvents = s.heldEvents := rfl
@[simp] theorem State.cset_links (a : Nat) (w : Word) : (s.cset a w).links = s.links := rfl
@[simp] theorem State.cset_dies (a : Nat) (w : Word) : (s.cset a w).dies = s.dies := rfl
@[simp] theorem State.cset_ho (a : Nat) (w : Word) : (s.cset a w).ho = s.ho := rfl
@[simp] theorem State.cset_root (a : Nat) (w : Word) : (s.cset a w).root = s.root := rfl
@[simp] theorem State.cset_dusk (a : Nat) (w : Word) : (s.cset a w).dusk = s.dusk := rfl
@[simp] theorem State.cset_hib (a : Nat) (w : Word) : (s.cset a w).hib = s.hib := rfl

/-! ### `csetField` -/

@[simp] theorem State.csetField_units (a lo w v : Nat) : (s.csetField a lo w v).units = s.units := rfl
@[simp] theorem State.csetField_focus (a lo w v : Nat) : (s.csetField a lo w v).focus = s.focus := rfl
@[simp] theorem State.csetField_issue (a lo w v : Nat) : (s.csetField a lo w v).issue = s.issue := rfl
@[simp] theorem State.csetField_agenda (a lo w v : Nat) : (s.csetField a lo w v).agenda = s.agenda := rfl
@[simp] theorem State.csetField_now (a lo w v : Nat) : (s.csetField a lo w v).now = s.now := rfl
@[simp] theorem State.csetField_free (a lo w v : Nat) : (s.csetField a lo w v).free = s.free := rfl
@[simp] theorem State.csetField_dram (a lo w v : Nat) : (s.csetField a lo w v).dram = s.dram := rfl
@[simp] theorem State.csetField_sram (a lo w v : Nat) : (s.csetField a lo w v).sram = s.sram := rfl
@[simp] theorem State.csetField_host (a lo w v : Nat) : (s.csetField a lo w v).host = s.host := rfl
@[simp] theorem State.csetField_tier (a lo w v : Nat) : (s.csetField a lo w v).tier = s.tier := rfl
@[simp] theorem State.csetField_ctl (a lo w v : Nat) : (s.csetField a lo w v).ctl = tput s.ctl a (setField (s.cget a) lo (BitVec.ofNat w v)) := rfl
@[simp] theorem State.csetField_clusters (a lo w v : Nat) : (s.csetField a lo w v).clusters = s.clusters := rfl
@[simp] theorem State.csetField_sched (a lo w v : Nat) : (s.csetField a lo w v).sched = s.sched := rfl
@[simp] theorem State.csetField_cbits (a lo w v : Nat) : (s.csetField a lo w v).cbits = s.cbits := rfl
@[simp] theorem State.csetField_busy (a lo w v : Nat) : (s.csetField a lo w v).busy = s.busy := rfl
@[simp] theorem State.csetField_held (a lo w v : Nat) : (s.csetField a lo w v).held = s.held := rfl
@[simp] theorem State.csetField_stays (a lo w v : Nat) : (s.csetField a lo w v).stays = s.stays := rfl
@[simp] theorem State.csetField_invWait (a lo w v : Nat) : (s.csetField a lo w v).invWait = s.invWait := rfl
@[simp] theorem State.csetField_migrators (a lo w v : Nat) : (s.csetField a lo w v).migrators = s.migrators := rfl
@[simp] theorem State.csetField_indirect (a lo w v : Nat) : (s.csetField a lo w v).indirect = s.indirect := rfl
@[simp] theorem State.csetField_pcs (a lo w v : Nat) : (s.csetField a lo w v).pcs = s.pcs := rfl
@[simp] theorem State.csetField_calPend (a lo w v : Nat) : (s.csetField a lo w v).calPend = s.calPend := rfl
@[simp] theorem State.csetField_saved (a lo w v : Nat) : (s.csetField a lo w v).saved = s.saved := rfl
@[simp] theorem State.csetField_modnum (a lo w v : Nat) : (s.csetField a lo w v).modnum = s.modnum := rfl
@[simp] theorem State.csetField_leads (a lo w v : Nat) : (s.csetField a lo w v).leads = s.leads := rfl
@[simp] theorem State.csetField_colls (a lo w v : Nat) : (s.csetField a lo w v).colls = s.colls := rfl
@[simp] theorem State.csetField_endedColls (a lo w v : Nat) : (s.csetField a lo w v).endedColls = s.endedColls := rfl
@[simp] theorem State.csetField_poolKept (a lo w v : Nat) : (s.csetField a lo w v).poolKept = s.poolKept := rfl
@[simp] theorem State.csetField_out (a lo w v : Nat) : (s.csetField a lo w v).out = s.out := rfl
@[simp] theorem State.csetField_darkMods (a lo w v : Nat) : (s.csetField a lo w v).darkMods = s.darkMods := rfl
@[simp] theorem State.csetField_routes (a lo w v : Nat) : (s.csetField a lo w v).routes = s.routes := rfl
@[simp] theorem State.csetField_versions (a lo w v : Nat) : (s.csetField a lo w v).versions = s.versions := rfl
@[simp] theorem State.csetField_ports (a lo w v : Nat) : (s.csetField a lo w v).ports = s.ports := rfl
@[simp] theorem State.csetField_pcie (a lo w v : Nat) : (s.csetField a lo w v).pcie = s.pcie := rfl
@[simp] theorem State.csetField_nextPcie (a lo w v : Nat) : (s.csetField a lo w v).nextPcie = s.nextPcie := rfl
@[simp] theorem State.csetField_hostReset (a lo w v : Nat) : (s.csetField a lo w v).hostReset = s.hostReset := rfl
@[simp] theorem State.csetField_hostReads (a lo w v : Nat) : (s.csetField a lo w v).hostReads = s.hostReads := rfl
@[simp] theorem State.csetField_switches (a lo w v : Nat) : (s.csetField a lo w v).switches = s.switches := rfl
@[simp] theorem State.csetField_hoStart (a lo w v : Nat) : (s.csetField a lo w v).hoStart = s.hoStart := rfl
@[simp] theorem State.csetField_zones (a lo w v : Nat) : (s.csetField a lo w v).zones = s.zones := rfl
@[simp] theorem State.csetField_spares (a lo w v : Nat) : (s.csetField a lo w v).spares = s.spares := rfl
@[simp] theorem State.csetField_woken (a lo w v : Nat) : (s.csetField a lo w v).woken = s.woken := rfl
@[simp] theorem State.csetField_dueBase (a lo w v : Nat) : (s.csetField a lo w v).dueBase = s.dueBase := rfl
@[simp] theorem State.csetField_bumpedAt (a lo w v : Nat) : (s.csetField a lo w v).bumpedAt = s.bumpedAt := rfl
@[simp] theorem State.csetField_bumped (a lo w v : Nat) : (s.csetField a lo w v).bumped = s.bumped := rfl
@[simp] theorem State.csetField_tickAt (a lo w v : Nat) : (s.csetField a lo w v).tickAt = s.tickAt := rfl
@[simp] theorem State.csetField_lowTicks (a lo w v : Nat) : (s.csetField a lo w v).lowTicks = s.lowTicks := rfl
@[simp] theorem State.csetField_busyAt (a lo w v : Nat) : (s.csetField a lo w v).busyAt = s.busyAt := rfl
@[simp] theorem State.csetField_heldEvents (a lo w v : Nat) : (s.csetField a lo w v).heldEvents = s.heldEvents := rfl
@[simp] theorem State.csetField_links (a lo w v : Nat) : (s.csetField a lo w v).links = s.links := rfl
@[simp] theorem State.csetField_dies (a lo w v : Nat) : (s.csetField a lo w v).dies = s.dies := rfl
@[simp] theorem State.csetField_ho (a lo w v : Nat) : (s.csetField a lo w v).ho = s.ho := rfl
@[simp] theorem State.csetField_root (a lo w v : Nat) : (s.csetField a lo w v).root = s.root := rfl
@[simp] theorem State.csetField_dusk (a lo w v : Nat) : (s.csetField a lo w v).dusk = s.dusk := rfl
@[simp] theorem State.csetField_hib (a lo w v : Nat) : (s.csetField a lo w v).hib = s.hib := rfl

/-! ### `noteBump` -/

@[simp] theorem State.noteBump_units (a lo n : Nat) : (s.noteBump a lo n).units = s.units := rfl
@[simp] theorem State.noteBump_focus (a lo n : Nat) : (s.noteBump a lo n).focus = s.focus := rfl
@[simp] theorem State.noteBump_issue (a lo n : Nat) : (s.noteBump a lo n).issue = s.issue := rfl
@[simp] theorem State.noteBump_agenda (a lo n : Nat) : (s.noteBump a lo n).agenda = s.agenda := rfl
@[simp] theorem State.noteBump_now (a lo n : Nat) : (s.noteBump a lo n).now = s.now := rfl
@[simp] theorem State.noteBump_free (a lo n : Nat) : (s.noteBump a lo n).free = s.free := rfl
@[simp] theorem State.noteBump_dram (a lo n : Nat) : (s.noteBump a lo n).dram = s.dram := rfl
@[simp] theorem State.noteBump_sram (a lo n : Nat) : (s.noteBump a lo n).sram = s.sram := rfl
@[simp] theorem State.noteBump_host (a lo n : Nat) : (s.noteBump a lo n).host = s.host := rfl
@[simp] theorem State.noteBump_tier (a lo n : Nat) : (s.noteBump a lo n).tier = s.tier := rfl
@[simp] theorem State.noteBump_ctl (a lo n : Nat) : (s.noteBump a lo n).ctl = s.ctl := rfl
@[simp] theorem State.noteBump_clusters (a lo n : Nat) : (s.noteBump a lo n).clusters = s.clusters := rfl
@[simp] theorem State.noteBump_sched (a lo n : Nat) : (s.noteBump a lo n).sched = s.sched := rfl
@[simp] theorem State.noteBump_cbits (a lo n : Nat) : (s.noteBump a lo n).cbits = s.cbits := rfl
@[simp] theorem State.noteBump_busy (a lo n : Nat) : (s.noteBump a lo n).busy = s.busy := rfl
@[simp] theorem State.noteBump_held (a lo n : Nat) : (s.noteBump a lo n).held = s.held := rfl
@[simp] theorem State.noteBump_stays (a lo n : Nat) : (s.noteBump a lo n).stays = s.stays := rfl
@[simp] theorem State.noteBump_invWait (a lo n : Nat) : (s.noteBump a lo n).invWait = s.invWait := rfl
@[simp] theorem State.noteBump_migrators (a lo n : Nat) : (s.noteBump a lo n).migrators = s.migrators := rfl
@[simp] theorem State.noteBump_indirect (a lo n : Nat) : (s.noteBump a lo n).indirect = s.indirect := rfl
@[simp] theorem State.noteBump_pcs (a lo n : Nat) : (s.noteBump a lo n).pcs = s.pcs := rfl
@[simp] theorem State.noteBump_calPend (a lo n : Nat) : (s.noteBump a lo n).calPend = s.calPend := rfl
@[simp] theorem State.noteBump_saved (a lo n : Nat) : (s.noteBump a lo n).saved = s.saved := rfl
@[simp] theorem State.noteBump_modnum (a lo n : Nat) : (s.noteBump a lo n).modnum = s.modnum := rfl
@[simp] theorem State.noteBump_leads (a lo n : Nat) : (s.noteBump a lo n).leads = s.leads := rfl
@[simp] theorem State.noteBump_colls (a lo n : Nat) : (s.noteBump a lo n).colls = s.colls := rfl
@[simp] theorem State.noteBump_endedColls (a lo n : Nat) : (s.noteBump a lo n).endedColls = s.endedColls := rfl
@[simp] theorem State.noteBump_poolKept (a lo n : Nat) : (s.noteBump a lo n).poolKept = s.poolKept := rfl
@[simp] theorem State.noteBump_out (a lo n : Nat) : (s.noteBump a lo n).out = s.out := rfl
@[simp] theorem State.noteBump_darkMods (a lo n : Nat) : (s.noteBump a lo n).darkMods = s.darkMods := rfl
@[simp] theorem State.noteBump_routes (a lo n : Nat) : (s.noteBump a lo n).routes = s.routes := rfl
@[simp] theorem State.noteBump_versions (a lo n : Nat) : (s.noteBump a lo n).versions = s.versions := rfl
@[simp] theorem State.noteBump_ports (a lo n : Nat) : (s.noteBump a lo n).ports = s.ports := rfl
@[simp] theorem State.noteBump_pcie (a lo n : Nat) : (s.noteBump a lo n).pcie = s.pcie := rfl
@[simp] theorem State.noteBump_nextPcie (a lo n : Nat) : (s.noteBump a lo n).nextPcie = s.nextPcie := rfl
@[simp] theorem State.noteBump_hostReset (a lo n : Nat) : (s.noteBump a lo n).hostReset = s.hostReset := rfl
@[simp] theorem State.noteBump_hostReads (a lo n : Nat) : (s.noteBump a lo n).hostReads = s.hostReads := rfl
@[simp] theorem State.noteBump_switches (a lo n : Nat) : (s.noteBump a lo n).switches = s.switches := rfl
@[simp] theorem State.noteBump_hoStart (a lo n : Nat) : (s.noteBump a lo n).hoStart = s.hoStart := rfl
@[simp] theorem State.noteBump_zones (a lo n : Nat) : (s.noteBump a lo n).zones = s.zones := rfl
@[simp] theorem State.noteBump_spares (a lo n : Nat) : (s.noteBump a lo n).spares = s.spares := rfl
@[simp] theorem State.noteBump_woken (a lo n : Nat) : (s.noteBump a lo n).woken = s.woken := rfl
@[simp] theorem State.noteBump_dueBase (a lo n : Nat) : (s.noteBump a lo n).dueBase = s.dueBase := rfl
@[simp] theorem State.noteBump_bumpedAt (a lo n : Nat) : (s.noteBump a lo n).bumpedAt = s.now := rfl
@[simp] theorem State.noteBump_bumped (a lo n : Nat) : (s.noteBump a lo n).bumped = (if s.bumpedAt = s.now then s.bumped else []) ++ [(a, lo, n)] := rfl
@[simp] theorem State.noteBump_tickAt (a lo n : Nat) : (s.noteBump a lo n).tickAt = s.tickAt := rfl
@[simp] theorem State.noteBump_lowTicks (a lo n : Nat) : (s.noteBump a lo n).lowTicks = s.lowTicks := rfl
@[simp] theorem State.noteBump_busyAt (a lo n : Nat) : (s.noteBump a lo n).busyAt = s.busyAt := rfl
@[simp] theorem State.noteBump_heldEvents (a lo n : Nat) : (s.noteBump a lo n).heldEvents = s.heldEvents := rfl
@[simp] theorem State.noteBump_links (a lo n : Nat) : (s.noteBump a lo n).links = s.links := rfl
@[simp] theorem State.noteBump_dies (a lo n : Nat) : (s.noteBump a lo n).dies = s.dies := rfl
@[simp] theorem State.noteBump_ho (a lo n : Nat) : (s.noteBump a lo n).ho = s.ho := rfl
@[simp] theorem State.noteBump_root (a lo n : Nat) : (s.noteBump a lo n).root = s.root := rfl
@[simp] theorem State.noteBump_dusk (a lo n : Nat) : (s.noteBump a lo n).dusk = s.dusk := rfl
@[simp] theorem State.noteBump_hib (a lo n : Nat) : (s.noteBump a lo n).hib = s.hib := rfl

/-! ### `cbump` -/

@[simp] theorem State.cbump_units (a lo w n : Nat) : (s.cbump a lo w n).units = s.units := rfl
@[simp] theorem State.cbump_focus (a lo w n : Nat) : (s.cbump a lo w n).focus = s.focus := rfl
@[simp] theorem State.cbump_issue (a lo w n : Nat) : (s.cbump a lo w n).issue = s.issue := rfl
@[simp] theorem State.cbump_agenda (a lo w n : Nat) : (s.cbump a lo w n).agenda = s.agenda := rfl
@[simp] theorem State.cbump_now (a lo w n : Nat) : (s.cbump a lo w n).now = s.now := rfl
@[simp] theorem State.cbump_free (a lo w n : Nat) : (s.cbump a lo w n).free = s.free := rfl
@[simp] theorem State.cbump_dram (a lo w n : Nat) : (s.cbump a lo w n).dram = s.dram := rfl
@[simp] theorem State.cbump_sram (a lo w n : Nat) : (s.cbump a lo w n).sram = s.sram := rfl
@[simp] theorem State.cbump_host (a lo w n : Nat) : (s.cbump a lo w n).host = s.host := rfl
@[simp] theorem State.cbump_tier (a lo w n : Nat) : (s.cbump a lo w n).tier = s.tier := rfl
@[simp] theorem State.cbump_clusters (a lo w n : Nat) : (s.cbump a lo w n).clusters = s.clusters := rfl
@[simp] theorem State.cbump_sched (a lo w n : Nat) : (s.cbump a lo w n).sched = s.sched := rfl
@[simp] theorem State.cbump_cbits (a lo w n : Nat) : (s.cbump a lo w n).cbits = s.cbits := rfl
@[simp] theorem State.cbump_busy (a lo w n : Nat) : (s.cbump a lo w n).busy = s.busy := rfl
@[simp] theorem State.cbump_held (a lo w n : Nat) : (s.cbump a lo w n).held = s.held := rfl
@[simp] theorem State.cbump_stays (a lo w n : Nat) : (s.cbump a lo w n).stays = s.stays := rfl
@[simp] theorem State.cbump_invWait (a lo w n : Nat) : (s.cbump a lo w n).invWait = s.invWait := rfl
@[simp] theorem State.cbump_migrators (a lo w n : Nat) : (s.cbump a lo w n).migrators = s.migrators := rfl
@[simp] theorem State.cbump_indirect (a lo w n : Nat) : (s.cbump a lo w n).indirect = s.indirect := rfl
@[simp] theorem State.cbump_pcs (a lo w n : Nat) : (s.cbump a lo w n).pcs = s.pcs := rfl
@[simp] theorem State.cbump_calPend (a lo w n : Nat) : (s.cbump a lo w n).calPend = s.calPend := rfl
@[simp] theorem State.cbump_saved (a lo w n : Nat) : (s.cbump a lo w n).saved = s.saved := rfl
@[simp] theorem State.cbump_modnum (a lo w n : Nat) : (s.cbump a lo w n).modnum = s.modnum := rfl
@[simp] theorem State.cbump_leads (a lo w n : Nat) : (s.cbump a lo w n).leads = s.leads := rfl
@[simp] theorem State.cbump_colls (a lo w n : Nat) : (s.cbump a lo w n).colls = s.colls := rfl
@[simp] theorem State.cbump_endedColls (a lo w n : Nat) : (s.cbump a lo w n).endedColls = s.endedColls := rfl
@[simp] theorem State.cbump_poolKept (a lo w n : Nat) : (s.cbump a lo w n).poolKept = s.poolKept := rfl
@[simp] theorem State.cbump_out (a lo w n : Nat) : (s.cbump a lo w n).out = s.out := rfl
@[simp] theorem State.cbump_darkMods (a lo w n : Nat) : (s.cbump a lo w n).darkMods = s.darkMods := rfl
@[simp] theorem State.cbump_routes (a lo w n : Nat) : (s.cbump a lo w n).routes = s.routes := rfl
@[simp] theorem State.cbump_versions (a lo w n : Nat) : (s.cbump a lo w n).versions = s.versions := rfl
@[simp] theorem State.cbump_ports (a lo w n : Nat) : (s.cbump a lo w n).ports = s.ports := rfl
@[simp] theorem State.cbump_pcie (a lo w n : Nat) : (s.cbump a lo w n).pcie = s.pcie := rfl
@[simp] theorem State.cbump_nextPcie (a lo w n : Nat) : (s.cbump a lo w n).nextPcie = s.nextPcie := rfl
@[simp] theorem State.cbump_hostReset (a lo w n : Nat) : (s.cbump a lo w n).hostReset = s.hostReset := rfl
@[simp] theorem State.cbump_hostReads (a lo w n : Nat) : (s.cbump a lo w n).hostReads = s.hostReads := rfl
@[simp] theorem State.cbump_switches (a lo w n : Nat) : (s.cbump a lo w n).switches = s.switches := rfl
@[simp] theorem State.cbump_hoStart (a lo w n : Nat) : (s.cbump a lo w n).hoStart = s.hoStart := rfl
@[simp] theorem State.cbump_zones (a lo w n : Nat) : (s.cbump a lo w n).zones = s.zones := rfl
@[simp] theorem State.cbump_spares (a lo w n : Nat) : (s.cbump a lo w n).spares = s.spares := rfl
@[simp] theorem State.cbump_woken (a lo w n : Nat) : (s.cbump a lo w n).woken = s.woken := rfl
@[simp] theorem State.cbump_dueBase (a lo w n : Nat) : (s.cbump a lo w n).dueBase = s.dueBase := rfl
@[simp] theorem State.cbump_bumpedAt (a lo w n : Nat) : (s.cbump a lo w n).bumpedAt = s.now := rfl
@[simp] theorem State.cbump_tickAt (a lo w n : Nat) : (s.cbump a lo w n).tickAt = s.tickAt := rfl
@[simp] theorem State.cbump_lowTicks (a lo w n : Nat) : (s.cbump a lo w n).lowTicks = s.lowTicks := rfl
@[simp] theorem State.cbump_busyAt (a lo w n : Nat) : (s.cbump a lo w n).busyAt = s.busyAt := rfl
@[simp] theorem State.cbump_heldEvents (a lo w n : Nat) : (s.cbump a lo w n).heldEvents = s.heldEvents := rfl
@[simp] theorem State.cbump_links (a lo w n : Nat) : (s.cbump a lo w n).links = s.links := rfl
@[simp] theorem State.cbump_dies (a lo w n : Nat) : (s.cbump a lo w n).dies = s.dies := rfl
@[simp] theorem State.cbump_ho (a lo w n : Nat) : (s.cbump a lo w n).ho = s.ho := rfl
@[simp] theorem State.cbump_root (a lo w n : Nat) : (s.cbump a lo w n).root = s.root := rfl
@[simp] theorem State.cbump_dusk (a lo w n : Nat) : (s.cbump a lo w n).dusk = s.dusk := rfl
@[simp] theorem State.cbump_hib (a lo w n : Nat) : (s.cbump a lo w n).hib = s.hib := rfl

/-! ### `setCluster` -/

@[simp] theorem State.setCluster_units (k : Nat) (c : ClusterSt) : (s.setCluster k c).units = s.units := rfl
@[simp] theorem State.setCluster_focus (k : Nat) (c : ClusterSt) : (s.setCluster k c).focus = s.focus := rfl
@[simp] theorem State.setCluster_issue (k : Nat) (c : ClusterSt) : (s.setCluster k c).issue = s.issue := rfl
@[simp] theorem State.setCluster_agenda (k : Nat) (c : ClusterSt) : (s.setCluster k c).agenda = s.agenda := rfl
@[simp] theorem State.setCluster_now (k : Nat) (c : ClusterSt) : (s.setCluster k c).now = s.now := rfl
@[simp] theorem State.setCluster_free (k : Nat) (c : ClusterSt) : (s.setCluster k c).free = s.free := rfl
@[simp] theorem State.setCluster_dram (k : Nat) (c : ClusterSt) : (s.setCluster k c).dram = s.dram := rfl
@[simp] theorem State.setCluster_sram (k : Nat) (c : ClusterSt) : (s.setCluster k c).sram = s.sram := rfl
@[simp] theorem State.setCluster_host (k : Nat) (c : ClusterSt) : (s.setCluster k c).host = s.host := rfl
@[simp] theorem State.setCluster_tier (k : Nat) (c : ClusterSt) : (s.setCluster k c).tier = s.tier := rfl
@[simp] theorem State.setCluster_ctl (k : Nat) (c : ClusterSt) : (s.setCluster k c).ctl = s.ctl := rfl
@[simp] theorem State.setCluster_clusters (k : Nat) (c : ClusterSt) : (s.setCluster k c).clusters = tput s.clusters k c := rfl
@[simp] theorem State.setCluster_sched (k : Nat) (c : ClusterSt) : (s.setCluster k c).sched = s.sched := rfl
@[simp] theorem State.setCluster_cbits (k : Nat) (c : ClusterSt) : (s.setCluster k c).cbits = s.cbits := rfl
@[simp] theorem State.setCluster_busy (k : Nat) (c : ClusterSt) : (s.setCluster k c).busy = s.busy := rfl
@[simp] theorem State.setCluster_held (k : Nat) (c : ClusterSt) : (s.setCluster k c).held = s.held := rfl
@[simp] theorem State.setCluster_stays (k : Nat) (c : ClusterSt) : (s.setCluster k c).stays = s.stays := rfl
@[simp] theorem State.setCluster_invWait (k : Nat) (c : ClusterSt) : (s.setCluster k c).invWait = s.invWait := rfl
@[simp] theorem State.setCluster_migrators (k : Nat) (c : ClusterSt) : (s.setCluster k c).migrators = s.migrators := rfl
@[simp] theorem State.setCluster_indirect (k : Nat) (c : ClusterSt) : (s.setCluster k c).indirect = s.indirect := rfl
@[simp] theorem State.setCluster_pcs (k : Nat) (c : ClusterSt) : (s.setCluster k c).pcs = s.pcs := rfl
@[simp] theorem State.setCluster_calPend (k : Nat) (c : ClusterSt) : (s.setCluster k c).calPend = s.calPend := rfl
@[simp] theorem State.setCluster_saved (k : Nat) (c : ClusterSt) : (s.setCluster k c).saved = s.saved := rfl
@[simp] theorem State.setCluster_modnum (k : Nat) (c : ClusterSt) : (s.setCluster k c).modnum = s.modnum := rfl
@[simp] theorem State.setCluster_leads (k : Nat) (c : ClusterSt) : (s.setCluster k c).leads = s.leads := rfl
@[simp] theorem State.setCluster_colls (k : Nat) (c : ClusterSt) : (s.setCluster k c).colls = s.colls := rfl
@[simp] theorem State.setCluster_endedColls (k : Nat) (c : ClusterSt) : (s.setCluster k c).endedColls = s.endedColls := rfl
@[simp] theorem State.setCluster_poolKept (k : Nat) (c : ClusterSt) : (s.setCluster k c).poolKept = s.poolKept := rfl
@[simp] theorem State.setCluster_out (k : Nat) (c : ClusterSt) : (s.setCluster k c).out = s.out := rfl
@[simp] theorem State.setCluster_darkMods (k : Nat) (c : ClusterSt) : (s.setCluster k c).darkMods = s.darkMods := rfl
@[simp] theorem State.setCluster_routes (k : Nat) (c : ClusterSt) : (s.setCluster k c).routes = s.routes := rfl
@[simp] theorem State.setCluster_versions (k : Nat) (c : ClusterSt) : (s.setCluster k c).versions = s.versions := rfl
@[simp] theorem State.setCluster_ports (k : Nat) (c : ClusterSt) : (s.setCluster k c).ports = s.ports := rfl
@[simp] theorem State.setCluster_pcie (k : Nat) (c : ClusterSt) : (s.setCluster k c).pcie = s.pcie := rfl
@[simp] theorem State.setCluster_nextPcie (k : Nat) (c : ClusterSt) : (s.setCluster k c).nextPcie = s.nextPcie := rfl
@[simp] theorem State.setCluster_hostReset (k : Nat) (c : ClusterSt) : (s.setCluster k c).hostReset = s.hostReset := rfl
@[simp] theorem State.setCluster_hostReads (k : Nat) (c : ClusterSt) : (s.setCluster k c).hostReads = s.hostReads := rfl
@[simp] theorem State.setCluster_switches (k : Nat) (c : ClusterSt) : (s.setCluster k c).switches = s.switches := rfl
@[simp] theorem State.setCluster_hoStart (k : Nat) (c : ClusterSt) : (s.setCluster k c).hoStart = s.hoStart := rfl
@[simp] theorem State.setCluster_zones (k : Nat) (c : ClusterSt) : (s.setCluster k c).zones = s.zones := rfl
@[simp] theorem State.setCluster_spares (k : Nat) (c : ClusterSt) : (s.setCluster k c).spares = s.spares := rfl
@[simp] theorem State.setCluster_woken (k : Nat) (c : ClusterSt) : (s.setCluster k c).woken = s.woken := rfl
@[simp] theorem State.setCluster_dueBase (k : Nat) (c : ClusterSt) : (s.setCluster k c).dueBase = s.dueBase := rfl
@[simp] theorem State.setCluster_bumpedAt (k : Nat) (c : ClusterSt) : (s.setCluster k c).bumpedAt = s.bumpedAt := rfl
@[simp] theorem State.setCluster_bumped (k : Nat) (c : ClusterSt) : (s.setCluster k c).bumped = s.bumped := rfl
@[simp] theorem State.setCluster_tickAt (k : Nat) (c : ClusterSt) : (s.setCluster k c).tickAt = s.tickAt := rfl
@[simp] theorem State.setCluster_lowTicks (k : Nat) (c : ClusterSt) : (s.setCluster k c).lowTicks = s.lowTicks := rfl
@[simp] theorem State.setCluster_busyAt (k : Nat) (c : ClusterSt) : (s.setCluster k c).busyAt = s.busyAt := rfl
@[simp] theorem State.setCluster_heldEvents (k : Nat) (c : ClusterSt) : (s.setCluster k c).heldEvents = s.heldEvents := rfl
@[simp] theorem State.setCluster_links (k : Nat) (c : ClusterSt) : (s.setCluster k c).links = s.links := rfl
@[simp] theorem State.setCluster_dies (k : Nat) (c : ClusterSt) : (s.setCluster k c).dies = s.dies := rfl
@[simp] theorem State.setCluster_ho (k : Nat) (c : ClusterSt) : (s.setCluster k c).ho = s.ho := rfl
@[simp] theorem State.setCluster_root (k : Nat) (c : ClusterSt) : (s.setCluster k c).root = s.root := rfl
@[simp] theorem State.setCluster_dusk (k : Nat) (c : ClusterSt) : (s.setCluster k c).dusk = s.dusk := rfl
@[simp] theorem State.setCluster_hib (k : Nat) (c : ClusterSt) : (s.setCluster k c).hib = s.hib := rfl

/-! ### `stir` -/

@[simp] theorem State.stir_units : (s.stir).units = s.units := rfl
@[simp] theorem State.stir_focus : (s.stir).focus = s.focus := rfl
@[simp] theorem State.stir_issue : (s.stir).issue = s.issue := rfl
@[simp] theorem State.stir_agenda : (s.stir).agenda = s.agenda := rfl
@[simp] theorem State.stir_now : (s.stir).now = s.now := rfl
@[simp] theorem State.stir_free : (s.stir).free = s.free := rfl
@[simp] theorem State.stir_dram : (s.stir).dram = s.dram := rfl
@[simp] theorem State.stir_sram : (s.stir).sram = s.sram := rfl
@[simp] theorem State.stir_host : (s.stir).host = s.host := rfl
@[simp] theorem State.stir_tier : (s.stir).tier = s.tier := rfl
@[simp] theorem State.stir_ctl : (s.stir).ctl = s.ctl := rfl
@[simp] theorem State.stir_clusters : (s.stir).clusters = s.clusters := rfl
@[simp] theorem State.stir_sched : (s.stir).sched = s.sched := rfl
@[simp] theorem State.stir_cbits : (s.stir).cbits = s.cbits := rfl
@[simp] theorem State.stir_busy : (s.stir).busy = s.busy := rfl
@[simp] theorem State.stir_held : (s.stir).held = s.held := rfl
@[simp] theorem State.stir_stays : (s.stir).stays = s.stays := rfl
@[simp] theorem State.stir_invWait : (s.stir).invWait = s.invWait := rfl
@[simp] theorem State.stir_migrators : (s.stir).migrators = s.migrators := rfl
@[simp] theorem State.stir_indirect : (s.stir).indirect = s.indirect := rfl
@[simp] theorem State.stir_pcs : (s.stir).pcs = s.pcs := rfl
@[simp] theorem State.stir_calPend : (s.stir).calPend = s.calPend := rfl
@[simp] theorem State.stir_saved : (s.stir).saved = s.saved := rfl
@[simp] theorem State.stir_modnum : (s.stir).modnum = s.modnum := rfl
@[simp] theorem State.stir_leads : (s.stir).leads = s.leads := rfl
@[simp] theorem State.stir_colls : (s.stir).colls = s.colls := rfl
@[simp] theorem State.stir_endedColls : (s.stir).endedColls = s.endedColls := rfl
@[simp] theorem State.stir_poolKept : (s.stir).poolKept = s.poolKept := rfl
@[simp] theorem State.stir_out : (s.stir).out = s.out := rfl
@[simp] theorem State.stir_darkMods : (s.stir).darkMods = s.darkMods := rfl
@[simp] theorem State.stir_routes : (s.stir).routes = s.routes := rfl
@[simp] theorem State.stir_versions : (s.stir).versions = s.versions := rfl
@[simp] theorem State.stir_ports : (s.stir).ports = s.ports := rfl
@[simp] theorem State.stir_pcie : (s.stir).pcie = s.pcie := rfl
@[simp] theorem State.stir_nextPcie : (s.stir).nextPcie = s.nextPcie := rfl
@[simp] theorem State.stir_hostReset : (s.stir).hostReset = s.hostReset := rfl
@[simp] theorem State.stir_hostReads : (s.stir).hostReads = s.hostReads := rfl
@[simp] theorem State.stir_switches : (s.stir).switches = s.switches := rfl
@[simp] theorem State.stir_hoStart : (s.stir).hoStart = s.hoStart := rfl
@[simp] theorem State.stir_zones : (s.stir).zones = s.zones := rfl
@[simp] theorem State.stir_spares : (s.stir).spares = s.spares := rfl
@[simp] theorem State.stir_woken : (s.stir).woken = s.woken := rfl
@[simp] theorem State.stir_dueBase : (s.stir).dueBase = s.dueBase := rfl
@[simp] theorem State.stir_bumpedAt : (s.stir).bumpedAt = s.bumpedAt := rfl
@[simp] theorem State.stir_bumped : (s.stir).bumped = s.bumped := rfl
@[simp] theorem State.stir_tickAt : (s.stir).tickAt = s.tickAt := rfl
@[simp] theorem State.stir_lowTicks : (s.stir).lowTicks = s.lowTicks := rfl
@[simp] theorem State.stir_busyAt : (s.stir).busyAt = s.now := rfl
@[simp] theorem State.stir_heldEvents : (s.stir).heldEvents = s.heldEvents := rfl
@[simp] theorem State.stir_links : (s.stir).links = s.links := rfl
@[simp] theorem State.stir_dies : (s.stir).dies = s.dies := rfl
@[simp] theorem State.stir_ho : (s.stir).ho = s.ho := rfl
@[simp] theorem State.stir_root : (s.stir).root = s.root := rfl
@[simp] theorem State.stir_dusk : (s.stir).dusk = s.dusk := rfl
@[simp] theorem State.stir_hib : (s.stir).hib = s.hib := rfl

/-! ### `setColl` -/

@[simp] theorem State.setColl_units (c : Coll) : (s.setColl c).units = s.units := rfl
@[simp] theorem State.setColl_focus (c : Coll) : (s.setColl c).focus = s.focus := rfl
@[simp] theorem State.setColl_issue (c : Coll) : (s.setColl c).issue = s.issue := rfl
@[simp] theorem State.setColl_agenda (c : Coll) : (s.setColl c).agenda = s.agenda := rfl
@[simp] theorem State.setColl_now (c : Coll) : (s.setColl c).now = s.now := rfl
@[simp] theorem State.setColl_free (c : Coll) : (s.setColl c).free = s.free := rfl
@[simp] theorem State.setColl_dram (c : Coll) : (s.setColl c).dram = s.dram := rfl
@[simp] theorem State.setColl_sram (c : Coll) : (s.setColl c).sram = s.sram := rfl
@[simp] theorem State.setColl_host (c : Coll) : (s.setColl c).host = s.host := rfl
@[simp] theorem State.setColl_tier (c : Coll) : (s.setColl c).tier = s.tier := rfl
@[simp] theorem State.setColl_ctl (c : Coll) : (s.setColl c).ctl = s.ctl := rfl
@[simp] theorem State.setColl_clusters (c : Coll) : (s.setColl c).clusters = s.clusters := rfl
@[simp] theorem State.setColl_sched (c : Coll) : (s.setColl c).sched = s.sched := rfl
@[simp] theorem State.setColl_cbits (c : Coll) : (s.setColl c).cbits = s.cbits := rfl
@[simp] theorem State.setColl_busy (c : Coll) : (s.setColl c).busy = s.busy := rfl
@[simp] theorem State.setColl_held (c : Coll) : (s.setColl c).held = s.held := rfl
@[simp] theorem State.setColl_stays (c : Coll) : (s.setColl c).stays = s.stays := rfl
@[simp] theorem State.setColl_invWait (c : Coll) : (s.setColl c).invWait = s.invWait := rfl
@[simp] theorem State.setColl_migrators (c : Coll) : (s.setColl c).migrators = s.migrators := rfl
@[simp] theorem State.setColl_indirect (c : Coll) : (s.setColl c).indirect = s.indirect := rfl
@[simp] theorem State.setColl_pcs (c : Coll) : (s.setColl c).pcs = s.pcs := rfl
@[simp] theorem State.setColl_calPend (c : Coll) : (s.setColl c).calPend = s.calPend := rfl
@[simp] theorem State.setColl_saved (c : Coll) : (s.setColl c).saved = s.saved := rfl
@[simp] theorem State.setColl_modnum (c : Coll) : (s.setColl c).modnum = s.modnum := rfl
@[simp] theorem State.setColl_leads (c : Coll) : (s.setColl c).leads = s.leads := rfl
@[simp] theorem State.setColl_colls (c : Coll) : (s.setColl c).colls = s.colls.map (fun d => if d.unit = c.unit ∧ d.serial = c.serial then c else d) := rfl
@[simp] theorem State.setColl_endedColls (c : Coll) : (s.setColl c).endedColls = s.endedColls := rfl
@[simp] theorem State.setColl_poolKept (c : Coll) : (s.setColl c).poolKept = s.poolKept := rfl
@[simp] theorem State.setColl_out (c : Coll) : (s.setColl c).out = s.out := rfl
@[simp] theorem State.setColl_darkMods (c : Coll) : (s.setColl c).darkMods = s.darkMods := rfl
@[simp] theorem State.setColl_routes (c : Coll) : (s.setColl c).routes = s.routes := rfl
@[simp] theorem State.setColl_versions (c : Coll) : (s.setColl c).versions = s.versions := rfl
@[simp] theorem State.setColl_ports (c : Coll) : (s.setColl c).ports = s.ports := rfl
@[simp] theorem State.setColl_pcie (c : Coll) : (s.setColl c).pcie = s.pcie := rfl
@[simp] theorem State.setColl_nextPcie (c : Coll) : (s.setColl c).nextPcie = s.nextPcie := rfl
@[simp] theorem State.setColl_hostReset (c : Coll) : (s.setColl c).hostReset = s.hostReset := rfl
@[simp] theorem State.setColl_hostReads (c : Coll) : (s.setColl c).hostReads = s.hostReads := rfl
@[simp] theorem State.setColl_switches (c : Coll) : (s.setColl c).switches = s.switches := rfl
@[simp] theorem State.setColl_hoStart (c : Coll) : (s.setColl c).hoStart = s.hoStart := rfl
@[simp] theorem State.setColl_zones (c : Coll) : (s.setColl c).zones = s.zones := rfl
@[simp] theorem State.setColl_spares (c : Coll) : (s.setColl c).spares = s.spares := rfl
@[simp] theorem State.setColl_woken (c : Coll) : (s.setColl c).woken = s.woken := rfl
@[simp] theorem State.setColl_dueBase (c : Coll) : (s.setColl c).dueBase = s.dueBase := rfl
@[simp] theorem State.setColl_bumpedAt (c : Coll) : (s.setColl c).bumpedAt = s.bumpedAt := rfl
@[simp] theorem State.setColl_bumped (c : Coll) : (s.setColl c).bumped = s.bumped := rfl
@[simp] theorem State.setColl_tickAt (c : Coll) : (s.setColl c).tickAt = s.tickAt := rfl
@[simp] theorem State.setColl_lowTicks (c : Coll) : (s.setColl c).lowTicks = s.lowTicks := rfl
@[simp] theorem State.setColl_busyAt (c : Coll) : (s.setColl c).busyAt = s.busyAt := rfl
@[simp] theorem State.setColl_heldEvents (c : Coll) : (s.setColl c).heldEvents = s.heldEvents := rfl
@[simp] theorem State.setColl_links (c : Coll) : (s.setColl c).links = s.links := rfl
@[simp] theorem State.setColl_dies (c : Coll) : (s.setColl c).dies = s.dies := rfl
@[simp] theorem State.setColl_ho (c : Coll) : (s.setColl c).ho = s.ho := rfl
@[simp] theorem State.setColl_root (c : Coll) : (s.setColl c).root = s.root := rfl
@[simp] theorem State.setColl_dusk (c : Coll) : (s.setColl c).dusk = s.dusk := rfl
@[simp] theorem State.setColl_hib (c : Coll) : (s.setColl c).hib = s.hib := rfl

/-! ### `setNode` -/

@[simp] theorem State.setNode_units (n : Nat) (y : Node) : (s.setNode n y).units = s.units := rfl
@[simp] theorem State.setNode_focus (n : Nat) (y : Node) : (s.setNode n y).focus = s.focus := rfl
@[simp] theorem State.setNode_issue (n : Nat) (y : Node) : (s.setNode n y).issue = s.issue := rfl
@[simp] theorem State.setNode_agenda (n : Nat) (y : Node) : (s.setNode n y).agenda = s.agenda := rfl
@[simp] theorem State.setNode_now (n : Nat) (y : Node) : (s.setNode n y).now = s.now := rfl
@[simp] theorem State.setNode_free (n : Nat) (y : Node) : (s.setNode n y).free = s.free := rfl
@[simp] theorem State.setNode_dram (n : Nat) (y : Node) : (s.setNode n y).dram = s.dram := rfl
@[simp] theorem State.setNode_sram (n : Nat) (y : Node) : (s.setNode n y).sram = s.sram := rfl
@[simp] theorem State.setNode_host (n : Nat) (y : Node) : (s.setNode n y).host = s.host := rfl
@[simp] theorem State.setNode_tier (n : Nat) (y : Node) : (s.setNode n y).tier = s.tier := rfl
@[simp] theorem State.setNode_ctl (n : Nat) (y : Node) : (s.setNode n y).ctl = s.ctl := rfl
@[simp] theorem State.setNode_clusters (n : Nat) (y : Node) : (s.setNode n y).clusters = s.clusters := rfl
@[simp] theorem State.setNode_sched (n : Nat) (y : Node) : (s.setNode n y).sched = { s.sched with nodes := tput s.sched.nodes n y } := rfl
@[simp] theorem State.setNode_cbits (n : Nat) (y : Node) : (s.setNode n y).cbits = s.cbits := rfl
@[simp] theorem State.setNode_busy (n : Nat) (y : Node) : (s.setNode n y).busy = s.busy := rfl
@[simp] theorem State.setNode_held (n : Nat) (y : Node) : (s.setNode n y).held = s.held := rfl
@[simp] theorem State.setNode_stays (n : Nat) (y : Node) : (s.setNode n y).stays = s.stays := rfl
@[simp] theorem State.setNode_invWait (n : Nat) (y : Node) : (s.setNode n y).invWait = s.invWait := rfl
@[simp] theorem State.setNode_migrators (n : Nat) (y : Node) : (s.setNode n y).migrators = s.migrators := rfl
@[simp] theorem State.setNode_indirect (n : Nat) (y : Node) : (s.setNode n y).indirect = s.indirect := rfl
@[simp] theorem State.setNode_pcs (n : Nat) (y : Node) : (s.setNode n y).pcs = s.pcs := rfl
@[simp] theorem State.setNode_calPend (n : Nat) (y : Node) : (s.setNode n y).calPend = s.calPend := rfl
@[simp] theorem State.setNode_saved (n : Nat) (y : Node) : (s.setNode n y).saved = s.saved := rfl
@[simp] theorem State.setNode_modnum (n : Nat) (y : Node) : (s.setNode n y).modnum = s.modnum := rfl
@[simp] theorem State.setNode_leads (n : Nat) (y : Node) : (s.setNode n y).leads = s.leads := rfl
@[simp] theorem State.setNode_colls (n : Nat) (y : Node) : (s.setNode n y).colls = s.colls := rfl
@[simp] theorem State.setNode_endedColls (n : Nat) (y : Node) : (s.setNode n y).endedColls = s.endedColls := rfl
@[simp] theorem State.setNode_poolKept (n : Nat) (y : Node) : (s.setNode n y).poolKept = s.poolKept := rfl
@[simp] theorem State.setNode_out (n : Nat) (y : Node) : (s.setNode n y).out = s.out := rfl
@[simp] theorem State.setNode_darkMods (n : Nat) (y : Node) : (s.setNode n y).darkMods = s.darkMods := rfl
@[simp] theorem State.setNode_routes (n : Nat) (y : Node) : (s.setNode n y).routes = s.routes := rfl
@[simp] theorem State.setNode_versions (n : Nat) (y : Node) : (s.setNode n y).versions = s.versions := rfl
@[simp] theorem State.setNode_ports (n : Nat) (y : Node) : (s.setNode n y).ports = s.ports := rfl
@[simp] theorem State.setNode_pcie (n : Nat) (y : Node) : (s.setNode n y).pcie = s.pcie := rfl
@[simp] theorem State.setNode_nextPcie (n : Nat) (y : Node) : (s.setNode n y).nextPcie = s.nextPcie := rfl
@[simp] theorem State.setNode_hostReset (n : Nat) (y : Node) : (s.setNode n y).hostReset = s.hostReset := rfl
@[simp] theorem State.setNode_hostReads (n : Nat) (y : Node) : (s.setNode n y).hostReads = s.hostReads := rfl
@[simp] theorem State.setNode_switches (n : Nat) (y : Node) : (s.setNode n y).switches = s.switches := rfl
@[simp] theorem State.setNode_hoStart (n : Nat) (y : Node) : (s.setNode n y).hoStart = s.hoStart := rfl
@[simp] theorem State.setNode_zones (n : Nat) (y : Node) : (s.setNode n y).zones = s.zones := rfl
@[simp] theorem State.setNode_spares (n : Nat) (y : Node) : (s.setNode n y).spares = s.spares := rfl
@[simp] theorem State.setNode_woken (n : Nat) (y : Node) : (s.setNode n y).woken = s.woken := rfl
@[simp] theorem State.setNode_dueBase (n : Nat) (y : Node) : (s.setNode n y).dueBase = s.dueBase := rfl
@[simp] theorem State.setNode_bumpedAt (n : Nat) (y : Node) : (s.setNode n y).bumpedAt = s.bumpedAt := rfl
@[simp] theorem State.setNode_bumped (n : Nat) (y : Node) : (s.setNode n y).bumped = s.bumped := rfl
@[simp] theorem State.setNode_tickAt (n : Nat) (y : Node) : (s.setNode n y).tickAt = s.tickAt := rfl
@[simp] theorem State.setNode_lowTicks (n : Nat) (y : Node) : (s.setNode n y).lowTicks = s.lowTicks := rfl
@[simp] theorem State.setNode_busyAt (n : Nat) (y : Node) : (s.setNode n y).busyAt = s.busyAt := rfl
@[simp] theorem State.setNode_heldEvents (n : Nat) (y : Node) : (s.setNode n y).heldEvents = s.heldEvents := rfl
@[simp] theorem State.setNode_links (n : Nat) (y : Node) : (s.setNode n y).links = s.links := rfl
@[simp] theorem State.setNode_dies (n : Nat) (y : Node) : (s.setNode n y).dies = s.dies := rfl
@[simp] theorem State.setNode_ho (n : Nat) (y : Node) : (s.setNode n y).ho = s.ho := rfl
@[simp] theorem State.setNode_root (n : Nat) (y : Node) : (s.setNode n y).root = s.root := rfl
@[simp] theorem State.setNode_dusk (n : Nat) (y : Node) : (s.setNode n y).dusk = s.dusk := rfl
@[simp] theorem State.setNode_hib (n : Nat) (y : Node) : (s.setNode n y).hib = s.hib := rfl

/-! ### `setPort` -/

@[simp] theorem State.setPort_units (p : Nat) (y : Port) : (s.setPort p y).units = s.units := rfl
@[simp] theorem State.setPort_focus (p : Nat) (y : Port) : (s.setPort p y).focus = s.focus := rfl
@[simp] theorem State.setPort_issue (p : Nat) (y : Port) : (s.setPort p y).issue = s.issue := rfl
@[simp] theorem State.setPort_agenda (p : Nat) (y : Port) : (s.setPort p y).agenda = s.agenda := rfl
@[simp] theorem State.setPort_now (p : Nat) (y : Port) : (s.setPort p y).now = s.now := rfl
@[simp] theorem State.setPort_free (p : Nat) (y : Port) : (s.setPort p y).free = s.free := rfl
@[simp] theorem State.setPort_dram (p : Nat) (y : Port) : (s.setPort p y).dram = s.dram := rfl
@[simp] theorem State.setPort_sram (p : Nat) (y : Port) : (s.setPort p y).sram = s.sram := rfl
@[simp] theorem State.setPort_host (p : Nat) (y : Port) : (s.setPort p y).host = s.host := rfl
@[simp] theorem State.setPort_tier (p : Nat) (y : Port) : (s.setPort p y).tier = s.tier := rfl
@[simp] theorem State.setPort_ctl (p : Nat) (y : Port) : (s.setPort p y).ctl = s.ctl := rfl
@[simp] theorem State.setPort_clusters (p : Nat) (y : Port) : (s.setPort p y).clusters = s.clusters := rfl
@[simp] theorem State.setPort_sched (p : Nat) (y : Port) : (s.setPort p y).sched = s.sched := rfl
@[simp] theorem State.setPort_cbits (p : Nat) (y : Port) : (s.setPort p y).cbits = s.cbits := rfl
@[simp] theorem State.setPort_busy (p : Nat) (y : Port) : (s.setPort p y).busy = s.busy := rfl
@[simp] theorem State.setPort_held (p : Nat) (y : Port) : (s.setPort p y).held = s.held := rfl
@[simp] theorem State.setPort_stays (p : Nat) (y : Port) : (s.setPort p y).stays = s.stays := rfl
@[simp] theorem State.setPort_invWait (p : Nat) (y : Port) : (s.setPort p y).invWait = s.invWait := rfl
@[simp] theorem State.setPort_migrators (p : Nat) (y : Port) : (s.setPort p y).migrators = s.migrators := rfl
@[simp] theorem State.setPort_indirect (p : Nat) (y : Port) : (s.setPort p y).indirect = s.indirect := rfl
@[simp] theorem State.setPort_pcs (p : Nat) (y : Port) : (s.setPort p y).pcs = s.pcs := rfl
@[simp] theorem State.setPort_calPend (p : Nat) (y : Port) : (s.setPort p y).calPend = s.calPend := rfl
@[simp] theorem State.setPort_saved (p : Nat) (y : Port) : (s.setPort p y).saved = s.saved := rfl
@[simp] theorem State.setPort_modnum (p : Nat) (y : Port) : (s.setPort p y).modnum = s.modnum := rfl
@[simp] theorem State.setPort_leads (p : Nat) (y : Port) : (s.setPort p y).leads = s.leads := rfl
@[simp] theorem State.setPort_colls (p : Nat) (y : Port) : (s.setPort p y).colls = s.colls := rfl
@[simp] theorem State.setPort_endedColls (p : Nat) (y : Port) : (s.setPort p y).endedColls = s.endedColls := rfl
@[simp] theorem State.setPort_poolKept (p : Nat) (y : Port) : (s.setPort p y).poolKept = s.poolKept := rfl
@[simp] theorem State.setPort_out (p : Nat) (y : Port) : (s.setPort p y).out = s.out := rfl
@[simp] theorem State.setPort_darkMods (p : Nat) (y : Port) : (s.setPort p y).darkMods = s.darkMods := rfl
@[simp] theorem State.setPort_routes (p : Nat) (y : Port) : (s.setPort p y).routes = s.routes := rfl
@[simp] theorem State.setPort_versions (p : Nat) (y : Port) : (s.setPort p y).versions = s.versions := rfl
@[simp] theorem State.setPort_ports (p : Nat) (y : Port) : (s.setPort p y).ports = tput s.ports p y := rfl
@[simp] theorem State.setPort_pcie (p : Nat) (y : Port) : (s.setPort p y).pcie = s.pcie := rfl
@[simp] theorem State.setPort_nextPcie (p : Nat) (y : Port) : (s.setPort p y).nextPcie = s.nextPcie := rfl
@[simp] theorem State.setPort_hostReset (p : Nat) (y : Port) : (s.setPort p y).hostReset = s.hostReset := rfl
@[simp] theorem State.setPort_hostReads (p : Nat) (y : Port) : (s.setPort p y).hostReads = s.hostReads := rfl
@[simp] theorem State.setPort_switches (p : Nat) (y : Port) : (s.setPort p y).switches = s.switches := rfl
@[simp] theorem State.setPort_hoStart (p : Nat) (y : Port) : (s.setPort p y).hoStart = s.hoStart := rfl
@[simp] theorem State.setPort_zones (p : Nat) (y : Port) : (s.setPort p y).zones = s.zones := rfl
@[simp] theorem State.setPort_spares (p : Nat) (y : Port) : (s.setPort p y).spares = s.spares := rfl
@[simp] theorem State.setPort_woken (p : Nat) (y : Port) : (s.setPort p y).woken = s.woken := rfl
@[simp] theorem State.setPort_dueBase (p : Nat) (y : Port) : (s.setPort p y).dueBase = s.dueBase := rfl
@[simp] theorem State.setPort_bumpedAt (p : Nat) (y : Port) : (s.setPort p y).bumpedAt = s.bumpedAt := rfl
@[simp] theorem State.setPort_bumped (p : Nat) (y : Port) : (s.setPort p y).bumped = s.bumped := rfl
@[simp] theorem State.setPort_tickAt (p : Nat) (y : Port) : (s.setPort p y).tickAt = s.tickAt := rfl
@[simp] theorem State.setPort_lowTicks (p : Nat) (y : Port) : (s.setPort p y).lowTicks = s.lowTicks := rfl
@[simp] theorem State.setPort_busyAt (p : Nat) (y : Port) : (s.setPort p y).busyAt = s.busyAt := rfl
@[simp] theorem State.setPort_heldEvents (p : Nat) (y : Port) : (s.setPort p y).heldEvents = s.heldEvents := rfl
@[simp] theorem State.setPort_links (p : Nat) (y : Port) : (s.setPort p y).links = s.links := rfl
@[simp] theorem State.setPort_dies (p : Nat) (y : Port) : (s.setPort p y).dies = s.dies := rfl
@[simp] theorem State.setPort_ho (p : Nat) (y : Port) : (s.setPort p y).ho = s.ho := rfl
@[simp] theorem State.setPort_root (p : Nat) (y : Port) : (s.setPort p y).root = s.root := rfl
@[simp] theorem State.setPort_dusk (p : Nat) (y : Port) : (s.setPort p y).dusk = s.dusk := rfl
@[simp] theorem State.setPort_hib (p : Nat) (y : Port) : (s.setPort p y).hib = s.hib := rfl

/-! ### `setZone` -/

@[simp] theorem State.setZone_units (z : Nat) (y : Zone) : (s.setZone z y).units = s.units := rfl
@[simp] theorem State.setZone_focus (z : Nat) (y : Zone) : (s.setZone z y).focus = s.focus := rfl
@[simp] theorem State.setZone_issue (z : Nat) (y : Zone) : (s.setZone z y).issue = s.issue := rfl
@[simp] theorem State.setZone_agenda (z : Nat) (y : Zone) : (s.setZone z y).agenda = s.agenda := rfl
@[simp] theorem State.setZone_now (z : Nat) (y : Zone) : (s.setZone z y).now = s.now := rfl
@[simp] theorem State.setZone_free (z : Nat) (y : Zone) : (s.setZone z y).free = s.free := rfl
@[simp] theorem State.setZone_dram (z : Nat) (y : Zone) : (s.setZone z y).dram = s.dram := rfl
@[simp] theorem State.setZone_sram (z : Nat) (y : Zone) : (s.setZone z y).sram = s.sram := rfl
@[simp] theorem State.setZone_host (z : Nat) (y : Zone) : (s.setZone z y).host = s.host := rfl
@[simp] theorem State.setZone_tier (z : Nat) (y : Zone) : (s.setZone z y).tier = s.tier := rfl
@[simp] theorem State.setZone_ctl (z : Nat) (y : Zone) : (s.setZone z y).ctl = s.ctl := rfl
@[simp] theorem State.setZone_clusters (z : Nat) (y : Zone) : (s.setZone z y).clusters = s.clusters := rfl
@[simp] theorem State.setZone_sched (z : Nat) (y : Zone) : (s.setZone z y).sched = s.sched := rfl
@[simp] theorem State.setZone_cbits (z : Nat) (y : Zone) : (s.setZone z y).cbits = s.cbits := rfl
@[simp] theorem State.setZone_busy (z : Nat) (y : Zone) : (s.setZone z y).busy = s.busy := rfl
@[simp] theorem State.setZone_held (z : Nat) (y : Zone) : (s.setZone z y).held = s.held := rfl
@[simp] theorem State.setZone_stays (z : Nat) (y : Zone) : (s.setZone z y).stays = s.stays := rfl
@[simp] theorem State.setZone_invWait (z : Nat) (y : Zone) : (s.setZone z y).invWait = s.invWait := rfl
@[simp] theorem State.setZone_migrators (z : Nat) (y : Zone) : (s.setZone z y).migrators = s.migrators := rfl
@[simp] theorem State.setZone_indirect (z : Nat) (y : Zone) : (s.setZone z y).indirect = s.indirect := rfl
@[simp] theorem State.setZone_pcs (z : Nat) (y : Zone) : (s.setZone z y).pcs = s.pcs := rfl
@[simp] theorem State.setZone_calPend (z : Nat) (y : Zone) : (s.setZone z y).calPend = s.calPend := rfl
@[simp] theorem State.setZone_saved (z : Nat) (y : Zone) : (s.setZone z y).saved = s.saved := rfl
@[simp] theorem State.setZone_modnum (z : Nat) (y : Zone) : (s.setZone z y).modnum = s.modnum := rfl
@[simp] theorem State.setZone_leads (z : Nat) (y : Zone) : (s.setZone z y).leads = s.leads := rfl
@[simp] theorem State.setZone_colls (z : Nat) (y : Zone) : (s.setZone z y).colls = s.colls := rfl
@[simp] theorem State.setZone_endedColls (z : Nat) (y : Zone) : (s.setZone z y).endedColls = s.endedColls := rfl
@[simp] theorem State.setZone_poolKept (z : Nat) (y : Zone) : (s.setZone z y).poolKept = s.poolKept := rfl
@[simp] theorem State.setZone_out (z : Nat) (y : Zone) : (s.setZone z y).out = s.out := rfl
@[simp] theorem State.setZone_darkMods (z : Nat) (y : Zone) : (s.setZone z y).darkMods = s.darkMods := rfl
@[simp] theorem State.setZone_routes (z : Nat) (y : Zone) : (s.setZone z y).routes = s.routes := rfl
@[simp] theorem State.setZone_versions (z : Nat) (y : Zone) : (s.setZone z y).versions = s.versions := rfl
@[simp] theorem State.setZone_ports (z : Nat) (y : Zone) : (s.setZone z y).ports = s.ports := rfl
@[simp] theorem State.setZone_pcie (z : Nat) (y : Zone) : (s.setZone z y).pcie = s.pcie := rfl
@[simp] theorem State.setZone_nextPcie (z : Nat) (y : Zone) : (s.setZone z y).nextPcie = s.nextPcie := rfl
@[simp] theorem State.setZone_hostReset (z : Nat) (y : Zone) : (s.setZone z y).hostReset = s.hostReset := rfl
@[simp] theorem State.setZone_hostReads (z : Nat) (y : Zone) : (s.setZone z y).hostReads = s.hostReads := rfl
@[simp] theorem State.setZone_switches (z : Nat) (y : Zone) : (s.setZone z y).switches = s.switches := rfl
@[simp] theorem State.setZone_hoStart (z : Nat) (y : Zone) : (s.setZone z y).hoStart = s.hoStart := rfl
@[simp] theorem State.setZone_zones (z : Nat) (y : Zone) : (s.setZone z y).zones = tput s.zones z y := rfl
@[simp] theorem State.setZone_spares (z : Nat) (y : Zone) : (s.setZone z y).spares = s.spares := rfl
@[simp] theorem State.setZone_woken (z : Nat) (y : Zone) : (s.setZone z y).woken = s.woken := rfl
@[simp] theorem State.setZone_dueBase (z : Nat) (y : Zone) : (s.setZone z y).dueBase = s.dueBase := rfl
@[simp] theorem State.setZone_bumpedAt (z : Nat) (y : Zone) : (s.setZone z y).bumpedAt = s.bumpedAt := rfl
@[simp] theorem State.setZone_bumped (z : Nat) (y : Zone) : (s.setZone z y).bumped = s.bumped := rfl
@[simp] theorem State.setZone_tickAt (z : Nat) (y : Zone) : (s.setZone z y).tickAt = s.tickAt := rfl
@[simp] theorem State.setZone_lowTicks (z : Nat) (y : Zone) : (s.setZone z y).lowTicks = s.lowTicks := rfl
@[simp] theorem State.setZone_busyAt (z : Nat) (y : Zone) : (s.setZone z y).busyAt = s.busyAt := rfl
@[simp] theorem State.setZone_heldEvents (z : Nat) (y : Zone) : (s.setZone z y).heldEvents = s.heldEvents := rfl
@[simp] theorem State.setZone_links (z : Nat) (y : Zone) : (s.setZone z y).links = s.links := rfl
@[simp] theorem State.setZone_dies (z : Nat) (y : Zone) : (s.setZone z y).dies = s.dies := rfl
@[simp] theorem State.setZone_ho (z : Nat) (y : Zone) : (s.setZone z y).ho = s.ho := rfl
@[simp] theorem State.setZone_root (z : Nat) (y : Zone) : (s.setZone z y).root = s.root := rfl
@[simp] theorem State.setZone_dusk (z : Nat) (y : Zone) : (s.setZone z y).dusk = s.dusk := rfl
@[simp] theorem State.setZone_hib (z : Nat) (y : Zone) : (s.setZone z y).hib = s.hib := rfl

/-! ### `setSwitch` -/

@[simp] theorem State.setSwitch_units (r : Nat) (y : Switch) : (s.setSwitch r y).units = s.units := rfl
@[simp] theorem State.setSwitch_focus (r : Nat) (y : Switch) : (s.setSwitch r y).focus = s.focus := rfl
@[simp] theorem State.setSwitch_issue (r : Nat) (y : Switch) : (s.setSwitch r y).issue = s.issue := rfl
@[simp] theorem State.setSwitch_agenda (r : Nat) (y : Switch) : (s.setSwitch r y).agenda = s.agenda := rfl
@[simp] theorem State.setSwitch_now (r : Nat) (y : Switch) : (s.setSwitch r y).now = s.now := rfl
@[simp] theorem State.setSwitch_free (r : Nat) (y : Switch) : (s.setSwitch r y).free = s.free := rfl
@[simp] theorem State.setSwitch_dram (r : Nat) (y : Switch) : (s.setSwitch r y).dram = s.dram := rfl
@[simp] theorem State.setSwitch_sram (r : Nat) (y : Switch) : (s.setSwitch r y).sram = s.sram := rfl
@[simp] theorem State.setSwitch_host (r : Nat) (y : Switch) : (s.setSwitch r y).host = s.host := rfl
@[simp] theorem State.setSwitch_tier (r : Nat) (y : Switch) : (s.setSwitch r y).tier = s.tier := rfl
@[simp] theorem State.setSwitch_ctl (r : Nat) (y : Switch) : (s.setSwitch r y).ctl = s.ctl := rfl
@[simp] theorem State.setSwitch_clusters (r : Nat) (y : Switch) : (s.setSwitch r y).clusters = s.clusters := rfl
@[simp] theorem State.setSwitch_sched (r : Nat) (y : Switch) : (s.setSwitch r y).sched = s.sched := rfl
@[simp] theorem State.setSwitch_cbits (r : Nat) (y : Switch) : (s.setSwitch r y).cbits = s.cbits := rfl
@[simp] theorem State.setSwitch_busy (r : Nat) (y : Switch) : (s.setSwitch r y).busy = s.busy := rfl
@[simp] theorem State.setSwitch_held (r : Nat) (y : Switch) : (s.setSwitch r y).held = s.held := rfl
@[simp] theorem State.setSwitch_stays (r : Nat) (y : Switch) : (s.setSwitch r y).stays = s.stays := rfl
@[simp] theorem State.setSwitch_invWait (r : Nat) (y : Switch) : (s.setSwitch r y).invWait = s.invWait := rfl
@[simp] theorem State.setSwitch_migrators (r : Nat) (y : Switch) : (s.setSwitch r y).migrators = s.migrators := rfl
@[simp] theorem State.setSwitch_indirect (r : Nat) (y : Switch) : (s.setSwitch r y).indirect = s.indirect := rfl
@[simp] theorem State.setSwitch_pcs (r : Nat) (y : Switch) : (s.setSwitch r y).pcs = s.pcs := rfl
@[simp] theorem State.setSwitch_calPend (r : Nat) (y : Switch) : (s.setSwitch r y).calPend = s.calPend := rfl
@[simp] theorem State.setSwitch_saved (r : Nat) (y : Switch) : (s.setSwitch r y).saved = s.saved := rfl
@[simp] theorem State.setSwitch_modnum (r : Nat) (y : Switch) : (s.setSwitch r y).modnum = s.modnum := rfl
@[simp] theorem State.setSwitch_leads (r : Nat) (y : Switch) : (s.setSwitch r y).leads = s.leads := rfl
@[simp] theorem State.setSwitch_colls (r : Nat) (y : Switch) : (s.setSwitch r y).colls = s.colls := rfl
@[simp] theorem State.setSwitch_endedColls (r : Nat) (y : Switch) : (s.setSwitch r y).endedColls = s.endedColls := rfl
@[simp] theorem State.setSwitch_poolKept (r : Nat) (y : Switch) : (s.setSwitch r y).poolKept = s.poolKept := rfl
@[simp] theorem State.setSwitch_out (r : Nat) (y : Switch) : (s.setSwitch r y).out = s.out := rfl
@[simp] theorem State.setSwitch_darkMods (r : Nat) (y : Switch) : (s.setSwitch r y).darkMods = s.darkMods := rfl
@[simp] theorem State.setSwitch_routes (r : Nat) (y : Switch) : (s.setSwitch r y).routes = s.routes := rfl
@[simp] theorem State.setSwitch_versions (r : Nat) (y : Switch) : (s.setSwitch r y).versions = s.versions := rfl
@[simp] theorem State.setSwitch_ports (r : Nat) (y : Switch) : (s.setSwitch r y).ports = s.ports := rfl
@[simp] theorem State.setSwitch_pcie (r : Nat) (y : Switch) : (s.setSwitch r y).pcie = s.pcie := rfl
@[simp] theorem State.setSwitch_nextPcie (r : Nat) (y : Switch) : (s.setSwitch r y).nextPcie = s.nextPcie := rfl
@[simp] theorem State.setSwitch_hostReset (r : Nat) (y : Switch) : (s.setSwitch r y).hostReset = s.hostReset := rfl
@[simp] theorem State.setSwitch_hostReads (r : Nat) (y : Switch) : (s.setSwitch r y).hostReads = s.hostReads := rfl
@[simp] theorem State.setSwitch_switches (r : Nat) (y : Switch) : (s.setSwitch r y).switches = tput s.switches r y := rfl
@[simp] theorem State.setSwitch_hoStart (r : Nat) (y : Switch) : (s.setSwitch r y).hoStart = s.hoStart := rfl
@[simp] theorem State.setSwitch_zones (r : Nat) (y : Switch) : (s.setSwitch r y).zones = s.zones := rfl
@[simp] theorem State.setSwitch_spares (r : Nat) (y : Switch) : (s.setSwitch r y).spares = s.spares := rfl
@[simp] theorem State.setSwitch_woken (r : Nat) (y : Switch) : (s.setSwitch r y).woken = s.woken := rfl
@[simp] theorem State.setSwitch_dueBase (r : Nat) (y : Switch) : (s.setSwitch r y).dueBase = s.dueBase := rfl
@[simp] theorem State.setSwitch_bumpedAt (r : Nat) (y : Switch) : (s.setSwitch r y).bumpedAt = s.bumpedAt := rfl
@[simp] theorem State.setSwitch_bumped (r : Nat) (y : Switch) : (s.setSwitch r y).bumped = s.bumped := rfl
@[simp] theorem State.setSwitch_tickAt (r : Nat) (y : Switch) : (s.setSwitch r y).tickAt = s.tickAt := rfl
@[simp] theorem State.setSwitch_lowTicks (r : Nat) (y : Switch) : (s.setSwitch r y).lowTicks = s.lowTicks := rfl
@[simp] theorem State.setSwitch_busyAt (r : Nat) (y : Switch) : (s.setSwitch r y).busyAt = s.busyAt := rfl
@[simp] theorem State.setSwitch_heldEvents (r : Nat) (y : Switch) : (s.setSwitch r y).heldEvents = s.heldEvents := rfl
@[simp] theorem State.setSwitch_links (r : Nat) (y : Switch) : (s.setSwitch r y).links = s.links := rfl
@[simp] theorem State.setSwitch_dies (r : Nat) (y : Switch) : (s.setSwitch r y).dies = s.dies := rfl
@[simp] theorem State.setSwitch_ho (r : Nat) (y : Switch) : (s.setSwitch r y).ho = s.ho := rfl
@[simp] theorem State.setSwitch_root (r : Nat) (y : Switch) : (s.setSwitch r y).root = s.root := rfl
@[simp] theorem State.setSwitch_dusk (r : Nat) (y : Switch) : (s.setSwitch r y).dusk = s.dusk := rfl
@[simp] theorem State.setSwitch_hib (r : Nat) (y : Switch) : (s.setSwitch r y).hib = s.hib := rfl

/-! ### `setMigrator` -/

@[simp] theorem State.setMigrator_units (d : Nat) (m : Migrator) : (s.setMigrator d m).units = s.units := rfl
@[simp] theorem State.setMigrator_focus (d : Nat) (m : Migrator) : (s.setMigrator d m).focus = s.focus := rfl
@[simp] theorem State.setMigrator_issue (d : Nat) (m : Migrator) : (s.setMigrator d m).issue = s.issue := rfl
@[simp] theorem State.setMigrator_agenda (d : Nat) (m : Migrator) : (s.setMigrator d m).agenda = s.agenda := rfl
@[simp] theorem State.setMigrator_now (d : Nat) (m : Migrator) : (s.setMigrator d m).now = s.now := rfl
@[simp] theorem State.setMigrator_free (d : Nat) (m : Migrator) : (s.setMigrator d m).free = s.free := rfl
@[simp] theorem State.setMigrator_dram (d : Nat) (m : Migrator) : (s.setMigrator d m).dram = s.dram := rfl
@[simp] theorem State.setMigrator_sram (d : Nat) (m : Migrator) : (s.setMigrator d m).sram = s.sram := rfl
@[simp] theorem State.setMigrator_host (d : Nat) (m : Migrator) : (s.setMigrator d m).host = s.host := rfl
@[simp] theorem State.setMigrator_tier (d : Nat) (m : Migrator) : (s.setMigrator d m).tier = s.tier := rfl
@[simp] theorem State.setMigrator_ctl (d : Nat) (m : Migrator) : (s.setMigrator d m).ctl = s.ctl := rfl
@[simp] theorem State.setMigrator_clusters (d : Nat) (m : Migrator) : (s.setMigrator d m).clusters = s.clusters := rfl
@[simp] theorem State.setMigrator_sched (d : Nat) (m : Migrator) : (s.setMigrator d m).sched = s.sched := rfl
@[simp] theorem State.setMigrator_cbits (d : Nat) (m : Migrator) : (s.setMigrator d m).cbits = s.cbits := rfl
@[simp] theorem State.setMigrator_busy (d : Nat) (m : Migrator) : (s.setMigrator d m).busy = s.busy := rfl
@[simp] theorem State.setMigrator_held (d : Nat) (m : Migrator) : (s.setMigrator d m).held = s.held := rfl
@[simp] theorem State.setMigrator_stays (d : Nat) (m : Migrator) : (s.setMigrator d m).stays = s.stays := rfl
@[simp] theorem State.setMigrator_invWait (d : Nat) (m : Migrator) : (s.setMigrator d m).invWait = s.invWait := rfl
@[simp] theorem State.setMigrator_migrators (d : Nat) (m : Migrator) : (s.setMigrator d m).migrators = tput s.migrators d m := rfl
@[simp] theorem State.setMigrator_indirect (d : Nat) (m : Migrator) : (s.setMigrator d m).indirect = s.indirect := rfl
@[simp] theorem State.setMigrator_pcs (d : Nat) (m : Migrator) : (s.setMigrator d m).pcs = s.pcs := rfl
@[simp] theorem State.setMigrator_calPend (d : Nat) (m : Migrator) : (s.setMigrator d m).calPend = s.calPend := rfl
@[simp] theorem State.setMigrator_saved (d : Nat) (m : Migrator) : (s.setMigrator d m).saved = s.saved := rfl
@[simp] theorem State.setMigrator_modnum (d : Nat) (m : Migrator) : (s.setMigrator d m).modnum = s.modnum := rfl
@[simp] theorem State.setMigrator_leads (d : Nat) (m : Migrator) : (s.setMigrator d m).leads = s.leads := rfl
@[simp] theorem State.setMigrator_colls (d : Nat) (m : Migrator) : (s.setMigrator d m).colls = s.colls := rfl
@[simp] theorem State.setMigrator_endedColls (d : Nat) (m : Migrator) : (s.setMigrator d m).endedColls = s.endedColls := rfl
@[simp] theorem State.setMigrator_poolKept (d : Nat) (m : Migrator) : (s.setMigrator d m).poolKept = s.poolKept := rfl
@[simp] theorem State.setMigrator_out (d : Nat) (m : Migrator) : (s.setMigrator d m).out = s.out := rfl
@[simp] theorem State.setMigrator_darkMods (d : Nat) (m : Migrator) : (s.setMigrator d m).darkMods = s.darkMods := rfl
@[simp] theorem State.setMigrator_routes (d : Nat) (m : Migrator) : (s.setMigrator d m).routes = s.routes := rfl
@[simp] theorem State.setMigrator_versions (d : Nat) (m : Migrator) : (s.setMigrator d m).versions = s.versions := rfl
@[simp] theorem State.setMigrator_ports (d : Nat) (m : Migrator) : (s.setMigrator d m).ports = s.ports := rfl
@[simp] theorem State.setMigrator_pcie (d : Nat) (m : Migrator) : (s.setMigrator d m).pcie = s.pcie := rfl
@[simp] theorem State.setMigrator_nextPcie (d : Nat) (m : Migrator) : (s.setMigrator d m).nextPcie = s.nextPcie := rfl
@[simp] theorem State.setMigrator_hostReset (d : Nat) (m : Migrator) : (s.setMigrator d m).hostReset = s.hostReset := rfl
@[simp] theorem State.setMigrator_hostReads (d : Nat) (m : Migrator) : (s.setMigrator d m).hostReads = s.hostReads := rfl
@[simp] theorem State.setMigrator_switches (d : Nat) (m : Migrator) : (s.setMigrator d m).switches = s.switches := rfl
@[simp] theorem State.setMigrator_hoStart (d : Nat) (m : Migrator) : (s.setMigrator d m).hoStart = s.hoStart := rfl
@[simp] theorem State.setMigrator_zones (d : Nat) (m : Migrator) : (s.setMigrator d m).zones = s.zones := rfl
@[simp] theorem State.setMigrator_spares (d : Nat) (m : Migrator) : (s.setMigrator d m).spares = s.spares := rfl
@[simp] theorem State.setMigrator_woken (d : Nat) (m : Migrator) : (s.setMigrator d m).woken = s.woken := rfl
@[simp] theorem State.setMigrator_dueBase (d : Nat) (m : Migrator) : (s.setMigrator d m).dueBase = s.dueBase := rfl
@[simp] theorem State.setMigrator_bumpedAt (d : Nat) (m : Migrator) : (s.setMigrator d m).bumpedAt = s.bumpedAt := rfl
@[simp] theorem State.setMigrator_bumped (d : Nat) (m : Migrator) : (s.setMigrator d m).bumped = s.bumped := rfl
@[simp] theorem State.setMigrator_tickAt (d : Nat) (m : Migrator) : (s.setMigrator d m).tickAt = s.tickAt := rfl
@[simp] theorem State.setMigrator_lowTicks (d : Nat) (m : Migrator) : (s.setMigrator d m).lowTicks = s.lowTicks := rfl
@[simp] theorem State.setMigrator_busyAt (d : Nat) (m : Migrator) : (s.setMigrator d m).busyAt = s.busyAt := rfl
@[simp] theorem State.setMigrator_heldEvents (d : Nat) (m : Migrator) : (s.setMigrator d m).heldEvents = s.heldEvents := rfl
@[simp] theorem State.setMigrator_links (d : Nat) (m : Migrator) : (s.setMigrator d m).links = s.links := rfl
@[simp] theorem State.setMigrator_dies (d : Nat) (m : Migrator) : (s.setMigrator d m).dies = s.dies := rfl
@[simp] theorem State.setMigrator_ho (d : Nat) (m : Migrator) : (s.setMigrator d m).ho = s.ho := rfl
@[simp] theorem State.setMigrator_root (d : Nat) (m : Migrator) : (s.setMigrator d m).root = s.root := rfl
@[simp] theorem State.setMigrator_dusk (d : Nat) (m : Migrator) : (s.setMigrator d m).dusk = s.dusk := rfl
@[simp] theorem State.setMigrator_hib (d : Nat) (m : Migrator) : (s.setMigrator d m).hib = s.hib := rfl

/-! ### `setDie` -/

@[simp] theorem State.setDie_units (d : Nat) (y : DieSt) : (s.setDie d y).units = s.units := rfl
@[simp] theorem State.setDie_focus (d : Nat) (y : DieSt) : (s.setDie d y).focus = s.focus := rfl
@[simp] theorem State.setDie_issue (d : Nat) (y : DieSt) : (s.setDie d y).issue = s.issue := rfl
@[simp] theorem State.setDie_agenda (d : Nat) (y : DieSt) : (s.setDie d y).agenda = s.agenda := rfl
@[simp] theorem State.setDie_now (d : Nat) (y : DieSt) : (s.setDie d y).now = s.now := rfl
@[simp] theorem State.setDie_free (d : Nat) (y : DieSt) : (s.setDie d y).free = s.free := rfl
@[simp] theorem State.setDie_dram (d : Nat) (y : DieSt) : (s.setDie d y).dram = s.dram := rfl
@[simp] theorem State.setDie_sram (d : Nat) (y : DieSt) : (s.setDie d y).sram = s.sram := rfl
@[simp] theorem State.setDie_host (d : Nat) (y : DieSt) : (s.setDie d y).host = s.host := rfl
@[simp] theorem State.setDie_tier (d : Nat) (y : DieSt) : (s.setDie d y).tier = s.tier := rfl
@[simp] theorem State.setDie_ctl (d : Nat) (y : DieSt) : (s.setDie d y).ctl = s.ctl := rfl
@[simp] theorem State.setDie_clusters (d : Nat) (y : DieSt) : (s.setDie d y).clusters = s.clusters := rfl
@[simp] theorem State.setDie_sched (d : Nat) (y : DieSt) : (s.setDie d y).sched = s.sched := rfl
@[simp] theorem State.setDie_cbits (d : Nat) (y : DieSt) : (s.setDie d y).cbits = s.cbits := rfl
@[simp] theorem State.setDie_busy (d : Nat) (y : DieSt) : (s.setDie d y).busy = s.busy := rfl
@[simp] theorem State.setDie_held (d : Nat) (y : DieSt) : (s.setDie d y).held = s.held := rfl
@[simp] theorem State.setDie_stays (d : Nat) (y : DieSt) : (s.setDie d y).stays = s.stays := rfl
@[simp] theorem State.setDie_invWait (d : Nat) (y : DieSt) : (s.setDie d y).invWait = s.invWait := rfl
@[simp] theorem State.setDie_migrators (d : Nat) (y : DieSt) : (s.setDie d y).migrators = s.migrators := rfl
@[simp] theorem State.setDie_indirect (d : Nat) (y : DieSt) : (s.setDie d y).indirect = s.indirect := rfl
@[simp] theorem State.setDie_pcs (d : Nat) (y : DieSt) : (s.setDie d y).pcs = s.pcs := rfl
@[simp] theorem State.setDie_calPend (d : Nat) (y : DieSt) : (s.setDie d y).calPend = s.calPend := rfl
@[simp] theorem State.setDie_saved (d : Nat) (y : DieSt) : (s.setDie d y).saved = s.saved := rfl
@[simp] theorem State.setDie_modnum (d : Nat) (y : DieSt) : (s.setDie d y).modnum = s.modnum := rfl
@[simp] theorem State.setDie_leads (d : Nat) (y : DieSt) : (s.setDie d y).leads = s.leads := rfl
@[simp] theorem State.setDie_colls (d : Nat) (y : DieSt) : (s.setDie d y).colls = s.colls := rfl
@[simp] theorem State.setDie_endedColls (d : Nat) (y : DieSt) : (s.setDie d y).endedColls = s.endedColls := rfl
@[simp] theorem State.setDie_poolKept (d : Nat) (y : DieSt) : (s.setDie d y).poolKept = s.poolKept := rfl
@[simp] theorem State.setDie_out (d : Nat) (y : DieSt) : (s.setDie d y).out = s.out := rfl
@[simp] theorem State.setDie_darkMods (d : Nat) (y : DieSt) : (s.setDie d y).darkMods = s.darkMods := rfl
@[simp] theorem State.setDie_routes (d : Nat) (y : DieSt) : (s.setDie d y).routes = s.routes := rfl
@[simp] theorem State.setDie_versions (d : Nat) (y : DieSt) : (s.setDie d y).versions = s.versions := rfl
@[simp] theorem State.setDie_ports (d : Nat) (y : DieSt) : (s.setDie d y).ports = s.ports := rfl
@[simp] theorem State.setDie_pcie (d : Nat) (y : DieSt) : (s.setDie d y).pcie = s.pcie := rfl
@[simp] theorem State.setDie_nextPcie (d : Nat) (y : DieSt) : (s.setDie d y).nextPcie = s.nextPcie := rfl
@[simp] theorem State.setDie_hostReset (d : Nat) (y : DieSt) : (s.setDie d y).hostReset = s.hostReset := rfl
@[simp] theorem State.setDie_hostReads (d : Nat) (y : DieSt) : (s.setDie d y).hostReads = s.hostReads := rfl
@[simp] theorem State.setDie_switches (d : Nat) (y : DieSt) : (s.setDie d y).switches = s.switches := rfl
@[simp] theorem State.setDie_hoStart (d : Nat) (y : DieSt) : (s.setDie d y).hoStart = s.hoStart := rfl
@[simp] theorem State.setDie_zones (d : Nat) (y : DieSt) : (s.setDie d y).zones = s.zones := rfl
@[simp] theorem State.setDie_spares (d : Nat) (y : DieSt) : (s.setDie d y).spares = s.spares := rfl
@[simp] theorem State.setDie_woken (d : Nat) (y : DieSt) : (s.setDie d y).woken = s.woken := rfl
@[simp] theorem State.setDie_dueBase (d : Nat) (y : DieSt) : (s.setDie d y).dueBase = s.dueBase := rfl
@[simp] theorem State.setDie_bumpedAt (d : Nat) (y : DieSt) : (s.setDie d y).bumpedAt = s.bumpedAt := rfl
@[simp] theorem State.setDie_bumped (d : Nat) (y : DieSt) : (s.setDie d y).bumped = s.bumped := rfl
@[simp] theorem State.setDie_tickAt (d : Nat) (y : DieSt) : (s.setDie d y).tickAt = s.tickAt := rfl
@[simp] theorem State.setDie_lowTicks (d : Nat) (y : DieSt) : (s.setDie d y).lowTicks = s.lowTicks := rfl
@[simp] theorem State.setDie_busyAt (d : Nat) (y : DieSt) : (s.setDie d y).busyAt = s.busyAt := rfl
@[simp] theorem State.setDie_heldEvents (d : Nat) (y : DieSt) : (s.setDie d y).heldEvents = s.heldEvents := rfl
@[simp] theorem State.setDie_links (d : Nat) (y : DieSt) : (s.setDie d y).links = s.links := rfl
@[simp] theorem State.setDie_dies (d : Nat) (y : DieSt) : (s.setDie d y).dies = tput s.dies d y := rfl
@[simp] theorem State.setDie_ho (d : Nat) (y : DieSt) : (s.setDie d y).ho = s.ho := rfl
@[simp] theorem State.setDie_root (d : Nat) (y : DieSt) : (s.setDie d y).root = s.root := rfl
@[simp] theorem State.setDie_dusk (d : Nat) (y : DieSt) : (s.setDie d y).dusk = s.dusk := rfl
@[simp] theorem State.setDie_hib (d : Nat) (y : DieSt) : (s.setDie d y).hib = s.hib := rfl

/-! ### `setLink` -/

@[simp] theorem State.setLink_units (n : Nat) (y : Link) : (s.setLink n y).units = s.units := rfl
@[simp] theorem State.setLink_focus (n : Nat) (y : Link) : (s.setLink n y).focus = s.focus := rfl
@[simp] theorem State.setLink_issue (n : Nat) (y : Link) : (s.setLink n y).issue = s.issue := rfl
@[simp] theorem State.setLink_agenda (n : Nat) (y : Link) : (s.setLink n y).agenda = s.agenda := rfl
@[simp] theorem State.setLink_now (n : Nat) (y : Link) : (s.setLink n y).now = s.now := rfl
@[simp] theorem State.setLink_free (n : Nat) (y : Link) : (s.setLink n y).free = s.free := rfl
@[simp] theorem State.setLink_dram (n : Nat) (y : Link) : (s.setLink n y).dram = s.dram := rfl
@[simp] theorem State.setLink_sram (n : Nat) (y : Link) : (s.setLink n y).sram = s.sram := rfl
@[simp] theorem State.setLink_host (n : Nat) (y : Link) : (s.setLink n y).host = s.host := rfl
@[simp] theorem State.setLink_tier (n : Nat) (y : Link) : (s.setLink n y).tier = s.tier := rfl
@[simp] theorem State.setLink_ctl (n : Nat) (y : Link) : (s.setLink n y).ctl = s.ctl := rfl
@[simp] theorem State.setLink_clusters (n : Nat) (y : Link) : (s.setLink n y).clusters = s.clusters := rfl
@[simp] theorem State.setLink_sched (n : Nat) (y : Link) : (s.setLink n y).sched = s.sched := rfl
@[simp] theorem State.setLink_cbits (n : Nat) (y : Link) : (s.setLink n y).cbits = s.cbits := rfl
@[simp] theorem State.setLink_busy (n : Nat) (y : Link) : (s.setLink n y).busy = s.busy := rfl
@[simp] theorem State.setLink_held (n : Nat) (y : Link) : (s.setLink n y).held = s.held := rfl
@[simp] theorem State.setLink_stays (n : Nat) (y : Link) : (s.setLink n y).stays = s.stays := rfl
@[simp] theorem State.setLink_invWait (n : Nat) (y : Link) : (s.setLink n y).invWait = s.invWait := rfl
@[simp] theorem State.setLink_migrators (n : Nat) (y : Link) : (s.setLink n y).migrators = s.migrators := rfl
@[simp] theorem State.setLink_indirect (n : Nat) (y : Link) : (s.setLink n y).indirect = s.indirect := rfl
@[simp] theorem State.setLink_pcs (n : Nat) (y : Link) : (s.setLink n y).pcs = s.pcs := rfl
@[simp] theorem State.setLink_calPend (n : Nat) (y : Link) : (s.setLink n y).calPend = s.calPend := rfl
@[simp] theorem State.setLink_saved (n : Nat) (y : Link) : (s.setLink n y).saved = s.saved := rfl
@[simp] theorem State.setLink_modnum (n : Nat) (y : Link) : (s.setLink n y).modnum = s.modnum := rfl
@[simp] theorem State.setLink_leads (n : Nat) (y : Link) : (s.setLink n y).leads = s.leads := rfl
@[simp] theorem State.setLink_colls (n : Nat) (y : Link) : (s.setLink n y).colls = s.colls := rfl
@[simp] theorem State.setLink_endedColls (n : Nat) (y : Link) : (s.setLink n y).endedColls = s.endedColls := rfl
@[simp] theorem State.setLink_poolKept (n : Nat) (y : Link) : (s.setLink n y).poolKept = s.poolKept := rfl
@[simp] theorem State.setLink_out (n : Nat) (y : Link) : (s.setLink n y).out = s.out := rfl
@[simp] theorem State.setLink_darkMods (n : Nat) (y : Link) : (s.setLink n y).darkMods = s.darkMods := rfl
@[simp] theorem State.setLink_routes (n : Nat) (y : Link) : (s.setLink n y).routes = s.routes := rfl
@[simp] theorem State.setLink_versions (n : Nat) (y : Link) : (s.setLink n y).versions = s.versions := rfl
@[simp] theorem State.setLink_ports (n : Nat) (y : Link) : (s.setLink n y).ports = s.ports := rfl
@[simp] theorem State.setLink_pcie (n : Nat) (y : Link) : (s.setLink n y).pcie = s.pcie := rfl
@[simp] theorem State.setLink_nextPcie (n : Nat) (y : Link) : (s.setLink n y).nextPcie = s.nextPcie := rfl
@[simp] theorem State.setLink_hostReset (n : Nat) (y : Link) : (s.setLink n y).hostReset = s.hostReset := rfl
@[simp] theorem State.setLink_hostReads (n : Nat) (y : Link) : (s.setLink n y).hostReads = s.hostReads := rfl
@[simp] theorem State.setLink_switches (n : Nat) (y : Link) : (s.setLink n y).switches = s.switches := rfl
@[simp] theorem State.setLink_hoStart (n : Nat) (y : Link) : (s.setLink n y).hoStart = s.hoStart := rfl
@[simp] theorem State.setLink_zones (n : Nat) (y : Link) : (s.setLink n y).zones = s.zones := rfl
@[simp] theorem State.setLink_spares (n : Nat) (y : Link) : (s.setLink n y).spares = s.spares := rfl
@[simp] theorem State.setLink_woken (n : Nat) (y : Link) : (s.setLink n y).woken = s.woken := rfl
@[simp] theorem State.setLink_dueBase (n : Nat) (y : Link) : (s.setLink n y).dueBase = s.dueBase := rfl
@[simp] theorem State.setLink_bumpedAt (n : Nat) (y : Link) : (s.setLink n y).bumpedAt = s.bumpedAt := rfl
@[simp] theorem State.setLink_bumped (n : Nat) (y : Link) : (s.setLink n y).bumped = s.bumped := rfl
@[simp] theorem State.setLink_tickAt (n : Nat) (y : Link) : (s.setLink n y).tickAt = s.tickAt := rfl
@[simp] theorem State.setLink_lowTicks (n : Nat) (y : Link) : (s.setLink n y).lowTicks = s.lowTicks := rfl
@[simp] theorem State.setLink_busyAt (n : Nat) (y : Link) : (s.setLink n y).busyAt = s.busyAt := rfl
@[simp] theorem State.setLink_heldEvents (n : Nat) (y : Link) : (s.setLink n y).heldEvents = s.heldEvents := rfl
@[simp] theorem State.setLink_links (n : Nat) (y : Link) : (s.setLink n y).links = tput s.links n y := rfl
@[simp] theorem State.setLink_dies (n : Nat) (y : Link) : (s.setLink n y).dies = s.dies := rfl
@[simp] theorem State.setLink_ho (n : Nat) (y : Link) : (s.setLink n y).ho = s.ho := rfl
@[simp] theorem State.setLink_root (n : Nat) (y : Link) : (s.setLink n y).root = s.root := rfl
@[simp] theorem State.setLink_dusk (n : Nat) (y : Link) : (s.setLink n y).dusk = s.dusk := rfl
@[simp] theorem State.setLink_hib (n : Nat) (y : Link) : (s.setLink n y).hib = s.hib := rfl

/-! ### `modPc` -/

@[simp] theorem State.modPc_units (c : Nat) (f : PcSt → PcSt) : (s.modPc c f).units = s.units := rfl
@[simp] theorem State.modPc_focus (c : Nat) (f : PcSt → PcSt) : (s.modPc c f).focus = s.focus := rfl
@[simp] theorem State.modPc_issue (c : Nat) (f : PcSt → PcSt) : (s.modPc c f).issue = s.issue := rfl
@[simp] theorem State.modPc_agenda (c : Nat) (f : PcSt → PcSt) : (s.modPc c f).agenda = s.agenda := rfl
@[simp] theorem State.modPc_now (c : Nat) (f : PcSt → PcSt) : (s.modPc c f).now = s.now := rfl
@[simp] theorem State.modPc_free (c : Nat) (f : PcSt → PcSt) : (s.modPc c f).free = s.free := rfl
@[simp] theorem State.modPc_dram (c : Nat) (f : PcSt → PcSt) : (s.modPc c f).dram = s.dram := rfl
@[simp] theorem State.modPc_sram (c : Nat) (f : PcSt → PcSt) : (s.modPc c f).sram = s.sram := rfl
@[simp] theorem State.modPc_host (c : Nat) (f : PcSt → PcSt) : (s.modPc c f).host = s.host := rfl
@[simp] theorem State.modPc_tier (c : Nat) (f : PcSt → PcSt) : (s.modPc c f).tier = s.tier := rfl
@[simp] theorem State.modPc_ctl (c : Nat) (f : PcSt → PcSt) : (s.modPc c f).ctl = s.ctl := rfl
@[simp] theorem State.modPc_clusters (c : Nat) (f : PcSt → PcSt) : (s.modPc c f).clusters = s.clusters := rfl
@[simp] theorem State.modPc_sched (c : Nat) (f : PcSt → PcSt) : (s.modPc c f).sched = s.sched := rfl
@[simp] theorem State.modPc_cbits (c : Nat) (f : PcSt → PcSt) : (s.modPc c f).cbits = s.cbits := rfl
@[simp] theorem State.modPc_busy (c : Nat) (f : PcSt → PcSt) : (s.modPc c f).busy = s.busy := rfl
@[simp] theorem State.modPc_held (c : Nat) (f : PcSt → PcSt) : (s.modPc c f).held = s.held := rfl
@[simp] theorem State.modPc_stays (c : Nat) (f : PcSt → PcSt) : (s.modPc c f).stays = s.stays := rfl
@[simp] theorem State.modPc_invWait (c : Nat) (f : PcSt → PcSt) : (s.modPc c f).invWait = s.invWait := rfl
@[simp] theorem State.modPc_migrators (c : Nat) (f : PcSt → PcSt) : (s.modPc c f).migrators = s.migrators := rfl
@[simp] theorem State.modPc_indirect (c : Nat) (f : PcSt → PcSt) : (s.modPc c f).indirect = s.indirect := rfl
@[simp] theorem State.modPc_pcs (c : Nat) (f : PcSt → PcSt) : (s.modPc c f).pcs = tput s.pcs c (f (s.pc c)) := rfl
@[simp] theorem State.modPc_calPend (c : Nat) (f : PcSt → PcSt) : (s.modPc c f).calPend = s.calPend := rfl
@[simp] theorem State.modPc_saved (c : Nat) (f : PcSt → PcSt) : (s.modPc c f).saved = s.saved := rfl
@[simp] theorem State.modPc_modnum (c : Nat) (f : PcSt → PcSt) : (s.modPc c f).modnum = s.modnum := rfl
@[simp] theorem State.modPc_leads (c : Nat) (f : PcSt → PcSt) : (s.modPc c f).leads = s.leads := rfl
@[simp] theorem State.modPc_colls (c : Nat) (f : PcSt → PcSt) : (s.modPc c f).colls = s.colls := rfl
@[simp] theorem State.modPc_endedColls (c : Nat) (f : PcSt → PcSt) : (s.modPc c f).endedColls = s.endedColls := rfl
@[simp] theorem State.modPc_poolKept (c : Nat) (f : PcSt → PcSt) : (s.modPc c f).poolKept = s.poolKept := rfl
@[simp] theorem State.modPc_out (c : Nat) (f : PcSt → PcSt) : (s.modPc c f).out = s.out := rfl
@[simp] theorem State.modPc_darkMods (c : Nat) (f : PcSt → PcSt) : (s.modPc c f).darkMods = s.darkMods := rfl
@[simp] theorem State.modPc_routes (c : Nat) (f : PcSt → PcSt) : (s.modPc c f).routes = s.routes := rfl
@[simp] theorem State.modPc_versions (c : Nat) (f : PcSt → PcSt) : (s.modPc c f).versions = s.versions := rfl
@[simp] theorem State.modPc_ports (c : Nat) (f : PcSt → PcSt) : (s.modPc c f).ports = s.ports := rfl
@[simp] theorem State.modPc_pcie (c : Nat) (f : PcSt → PcSt) : (s.modPc c f).pcie = s.pcie := rfl
@[simp] theorem State.modPc_nextPcie (c : Nat) (f : PcSt → PcSt) : (s.modPc c f).nextPcie = s.nextPcie := rfl
@[simp] theorem State.modPc_hostReset (c : Nat) (f : PcSt → PcSt) : (s.modPc c f).hostReset = s.hostReset := rfl
@[simp] theorem State.modPc_hostReads (c : Nat) (f : PcSt → PcSt) : (s.modPc c f).hostReads = s.hostReads := rfl
@[simp] theorem State.modPc_switches (c : Nat) (f : PcSt → PcSt) : (s.modPc c f).switches = s.switches := rfl
@[simp] theorem State.modPc_hoStart (c : Nat) (f : PcSt → PcSt) : (s.modPc c f).hoStart = s.hoStart := rfl
@[simp] theorem State.modPc_zones (c : Nat) (f : PcSt → PcSt) : (s.modPc c f).zones = s.zones := rfl
@[simp] theorem State.modPc_spares (c : Nat) (f : PcSt → PcSt) : (s.modPc c f).spares = s.spares := rfl
@[simp] theorem State.modPc_woken (c : Nat) (f : PcSt → PcSt) : (s.modPc c f).woken = s.woken := rfl
@[simp] theorem State.modPc_dueBase (c : Nat) (f : PcSt → PcSt) : (s.modPc c f).dueBase = s.dueBase := rfl
@[simp] theorem State.modPc_bumpedAt (c : Nat) (f : PcSt → PcSt) : (s.modPc c f).bumpedAt = s.bumpedAt := rfl
@[simp] theorem State.modPc_bumped (c : Nat) (f : PcSt → PcSt) : (s.modPc c f).bumped = s.bumped := rfl
@[simp] theorem State.modPc_tickAt (c : Nat) (f : PcSt → PcSt) : (s.modPc c f).tickAt = s.tickAt := rfl
@[simp] theorem State.modPc_lowTicks (c : Nat) (f : PcSt → PcSt) : (s.modPc c f).lowTicks = s.lowTicks := rfl
@[simp] theorem State.modPc_busyAt (c : Nat) (f : PcSt → PcSt) : (s.modPc c f).busyAt = s.busyAt := rfl
@[simp] theorem State.modPc_heldEvents (c : Nat) (f : PcSt → PcSt) : (s.modPc c f).heldEvents = s.heldEvents := rfl
@[simp] theorem State.modPc_links (c : Nat) (f : PcSt → PcSt) : (s.modPc c f).links = s.links := rfl
@[simp] theorem State.modPc_dies (c : Nat) (f : PcSt → PcSt) : (s.modPc c f).dies = s.dies := rfl
@[simp] theorem State.modPc_ho (c : Nat) (f : PcSt → PcSt) : (s.modPc c f).ho = s.ho := rfl
@[simp] theorem State.modPc_root (c : Nat) (f : PcSt → PcSt) : (s.modPc c f).root = s.root := rfl
@[simp] theorem State.modPc_dusk (c : Nat) (f : PcSt → PcSt) : (s.modPc c f).dusk = s.dusk := rfl
@[simp] theorem State.modPc_hib (c : Nat) (f : PcSt → PcSt) : (s.modPc c f).hib = s.hib := rfl

/-! ### `raiseVector` -/

@[simp] theorem State.raiseVector_units (n : Nat) : (s.raiseVector n).units = s.units := by
  unfold State.raiseVector
  split <;> rfl
@[simp] theorem State.raiseVector_focus (n : Nat) : (s.raiseVector n).focus = s.focus := by
  unfold State.raiseVector
  split <;> rfl
@[simp] theorem State.raiseVector_issue (n : Nat) : (s.raiseVector n).issue = s.issue := by
  unfold State.raiseVector
  split <;> rfl
@[simp] theorem State.raiseVector_agenda (n : Nat) : (s.raiseVector n).agenda = s.agenda := by
  unfold State.raiseVector
  split <;> rfl
@[simp] theorem State.raiseVector_now (n : Nat) : (s.raiseVector n).now = s.now := by
  unfold State.raiseVector
  split <;> rfl
@[simp] theorem State.raiseVector_free (n : Nat) : (s.raiseVector n).free = s.free := by
  unfold State.raiseVector
  split <;> rfl
@[simp] theorem State.raiseVector_dram (n : Nat) : (s.raiseVector n).dram = s.dram := by
  unfold State.raiseVector
  split <;> rfl
@[simp] theorem State.raiseVector_sram (n : Nat) : (s.raiseVector n).sram = s.sram := by
  unfold State.raiseVector
  split <;> rfl
@[simp] theorem State.raiseVector_host (n : Nat) : (s.raiseVector n).host = s.host := by
  unfold State.raiseVector
  split <;> rfl
@[simp] theorem State.raiseVector_tier (n : Nat) : (s.raiseVector n).tier = s.tier := by
  unfold State.raiseVector
  split <;> rfl
@[simp] theorem State.raiseVector_clusters (n : Nat) : (s.raiseVector n).clusters = s.clusters := by
  unfold State.raiseVector
  split <;> rfl
@[simp] theorem State.raiseVector_sched (n : Nat) : (s.raiseVector n).sched = s.sched := by
  unfold State.raiseVector
  split <;> rfl
@[simp] theorem State.raiseVector_cbits (n : Nat) : (s.raiseVector n).cbits = s.cbits := by
  unfold State.raiseVector
  split <;> rfl
@[simp] theorem State.raiseVector_busy (n : Nat) : (s.raiseVector n).busy = s.busy := by
  unfold State.raiseVector
  split <;> rfl
@[simp] theorem State.raiseVector_held (n : Nat) : (s.raiseVector n).held = s.held := by
  unfold State.raiseVector
  split <;> rfl
@[simp] theorem State.raiseVector_stays (n : Nat) : (s.raiseVector n).stays = s.stays := by
  unfold State.raiseVector
  split <;> rfl
@[simp] theorem State.raiseVector_invWait (n : Nat) : (s.raiseVector n).invWait = s.invWait := by
  unfold State.raiseVector
  split <;> rfl
@[simp] theorem State.raiseVector_migrators (n : Nat) : (s.raiseVector n).migrators = s.migrators := by
  unfold State.raiseVector
  split <;> rfl
@[simp] theorem State.raiseVector_indirect (n : Nat) : (s.raiseVector n).indirect = s.indirect := by
  unfold State.raiseVector
  split <;> rfl
@[simp] theorem State.raiseVector_pcs (n : Nat) : (s.raiseVector n).pcs = s.pcs := by
  unfold State.raiseVector
  split <;> rfl
@[simp] theorem State.raiseVector_calPend (n : Nat) : (s.raiseVector n).calPend = s.calPend := by
  unfold State.raiseVector
  split <;> rfl
@[simp] theorem State.raiseVector_saved (n : Nat) : (s.raiseVector n).saved = s.saved := by
  unfold State.raiseVector
  split <;> rfl
@[simp] theorem State.raiseVector_modnum (n : Nat) : (s.raiseVector n).modnum = s.modnum := by
  unfold State.raiseVector
  split <;> rfl
@[simp] theorem State.raiseVector_leads (n : Nat) : (s.raiseVector n).leads = s.leads := by
  unfold State.raiseVector
  split <;> rfl
@[simp] theorem State.raiseVector_colls (n : Nat) : (s.raiseVector n).colls = s.colls := by
  unfold State.raiseVector
  split <;> rfl
@[simp] theorem State.raiseVector_endedColls (n : Nat) : (s.raiseVector n).endedColls = s.endedColls := by
  unfold State.raiseVector
  split <;> rfl
@[simp] theorem State.raiseVector_poolKept (n : Nat) : (s.raiseVector n).poolKept = s.poolKept := by
  unfold State.raiseVector
  split <;> rfl
@[simp] theorem State.raiseVector_out (n : Nat) : (s.raiseVector n).out = s.out := by
  unfold State.raiseVector
  split <;> rfl
@[simp] theorem State.raiseVector_darkMods (n : Nat) : (s.raiseVector n).darkMods = s.darkMods := by
  unfold State.raiseVector
  split <;> rfl
@[simp] theorem State.raiseVector_routes (n : Nat) : (s.raiseVector n).routes = s.routes := by
  unfold State.raiseVector
  split <;> rfl
@[simp] theorem State.raiseVector_versions (n : Nat) : (s.raiseVector n).versions = s.versions := by
  unfold State.raiseVector
  split <;> rfl
@[simp] theorem State.raiseVector_ports (n : Nat) : (s.raiseVector n).ports = s.ports := by
  unfold State.raiseVector
  split <;> rfl
@[simp] theorem State.raiseVector_pcie (n : Nat) : (s.raiseVector n).pcie = s.pcie := by
  unfold State.raiseVector
  split <;> rfl
@[simp] theorem State.raiseVector_nextPcie (n : Nat) : (s.raiseVector n).nextPcie = s.nextPcie := by
  unfold State.raiseVector
  split <;> rfl
@[simp] theorem State.raiseVector_hostReset (n : Nat) : (s.raiseVector n).hostReset = s.hostReset := by
  unfold State.raiseVector
  split <;> rfl
@[simp] theorem State.raiseVector_hostReads (n : Nat) : (s.raiseVector n).hostReads = s.hostReads := by
  unfold State.raiseVector
  split <;> rfl
@[simp] theorem State.raiseVector_switches (n : Nat) : (s.raiseVector n).switches = s.switches := by
  unfold State.raiseVector
  split <;> rfl
@[simp] theorem State.raiseVector_hoStart (n : Nat) : (s.raiseVector n).hoStart = s.hoStart := by
  unfold State.raiseVector
  split <;> rfl
@[simp] theorem State.raiseVector_zones (n : Nat) : (s.raiseVector n).zones = s.zones := by
  unfold State.raiseVector
  split <;> rfl
@[simp] theorem State.raiseVector_spares (n : Nat) : (s.raiseVector n).spares = s.spares := by
  unfold State.raiseVector
  split <;> rfl
@[simp] theorem State.raiseVector_woken (n : Nat) : (s.raiseVector n).woken = s.woken := by
  unfold State.raiseVector
  split <;> rfl
@[simp] theorem State.raiseVector_dueBase (n : Nat) : (s.raiseVector n).dueBase = s.dueBase := by
  unfold State.raiseVector
  split <;> rfl
@[simp] theorem State.raiseVector_bumpedAt (n : Nat) : (s.raiseVector n).bumpedAt = s.bumpedAt := by
  unfold State.raiseVector
  split <;> rfl
@[simp] theorem State.raiseVector_bumped (n : Nat) : (s.raiseVector n).bumped = s.bumped := by
  unfold State.raiseVector
  split <;> rfl
@[simp] theorem State.raiseVector_tickAt (n : Nat) : (s.raiseVector n).tickAt = s.tickAt := by
  unfold State.raiseVector
  split <;> rfl
@[simp] theorem State.raiseVector_lowTicks (n : Nat) : (s.raiseVector n).lowTicks = s.lowTicks := by
  unfold State.raiseVector
  split <;> rfl
@[simp] theorem State.raiseVector_busyAt (n : Nat) : (s.raiseVector n).busyAt = s.busyAt := by
  unfold State.raiseVector
  split <;> rfl
@[simp] theorem State.raiseVector_heldEvents (n : Nat) : (s.raiseVector n).heldEvents = s.heldEvents := by
  unfold State.raiseVector
  split <;> rfl
@[simp] theorem State.raiseVector_links (n : Nat) : (s.raiseVector n).links = s.links := by
  unfold State.raiseVector
  split <;> rfl
@[simp] theorem State.raiseVector_dies (n : Nat) : (s.raiseVector n).dies = s.dies := by
  unfold State.raiseVector
  split <;> rfl
@[simp] theorem State.raiseVector_ho (n : Nat) : (s.raiseVector n).ho = s.ho := by
  unfold State.raiseVector
  split <;> rfl
@[simp] theorem State.raiseVector_root (n : Nat) : (s.raiseVector n).root = s.root := by
  unfold State.raiseVector
  split <;> rfl
@[simp] theorem State.raiseVector_dusk (n : Nat) : (s.raiseVector n).dusk = s.dusk := by
  unfold State.raiseVector
  split <;> rfl
@[simp] theorem State.raiseVector_hib (n : Nat) : (s.raiseVector n).hib = s.hib := by
  unfold State.raiseVector
  split <;> rfl

/-! ### `sendFrom` -/

@[simp] theorem State.sendFrom_units (p : Nat) (m : Msg) (k : Nat) : (s.sendFrom p m k).units = s.units := by
  unfold State.sendFrom
  dsimp only
  split
  · rfl
  · split <;> rfl
@[simp] theorem State.sendFrom_focus (p : Nat) (m : Msg) (k : Nat) : (s.sendFrom p m k).focus = s.focus := by
  unfold State.sendFrom
  dsimp only
  split
  · rfl
  · split <;> rfl
@[simp] theorem State.sendFrom_issue (p : Nat) (m : Msg) (k : Nat) : (s.sendFrom p m k).issue = s.issue := by
  unfold State.sendFrom
  dsimp only
  split
  · rfl
  · split <;> rfl
@[simp] theorem State.sendFrom_agenda (p : Nat) (m : Msg) (k : Nat) : (s.sendFrom p m k).agenda = s.agenda := by
  unfold State.sendFrom
  dsimp only
  split
  · rfl
  · split <;> rfl
@[simp] theorem State.sendFrom_now (p : Nat) (m : Msg) (k : Nat) : (s.sendFrom p m k).now = s.now := by
  unfold State.sendFrom
  dsimp only
  split
  · rfl
  · split <;> rfl
@[simp] theorem State.sendFrom_free (p : Nat) (m : Msg) (k : Nat) : (s.sendFrom p m k).free = s.free := by
  unfold State.sendFrom
  dsimp only
  split
  · rfl
  · split <;> rfl
@[simp] theorem State.sendFrom_dram (p : Nat) (m : Msg) (k : Nat) : (s.sendFrom p m k).dram = s.dram := by
  unfold State.sendFrom
  dsimp only
  split
  · rfl
  · split <;> rfl
@[simp] theorem State.sendFrom_sram (p : Nat) (m : Msg) (k : Nat) : (s.sendFrom p m k).sram = s.sram := by
  unfold State.sendFrom
  dsimp only
  split
  · rfl
  · split <;> rfl
@[simp] theorem State.sendFrom_host (p : Nat) (m : Msg) (k : Nat) : (s.sendFrom p m k).host = s.host := by
  unfold State.sendFrom
  dsimp only
  split
  · rfl
  · split <;> rfl
@[simp] theorem State.sendFrom_tier (p : Nat) (m : Msg) (k : Nat) : (s.sendFrom p m k).tier = s.tier := by
  unfold State.sendFrom
  dsimp only
  split
  · rfl
  · split <;> rfl
@[simp] theorem State.sendFrom_ctl (p : Nat) (m : Msg) (k : Nat) : (s.sendFrom p m k).ctl = s.ctl := by
  unfold State.sendFrom
  dsimp only
  split
  · rfl
  · split <;> rfl
@[simp] theorem State.sendFrom_clusters (p : Nat) (m : Msg) (k : Nat) : (s.sendFrom p m k).clusters = s.clusters := by
  unfold State.sendFrom
  dsimp only
  split
  · rfl
  · split <;> rfl
@[simp] theorem State.sendFrom_sched (p : Nat) (m : Msg) (k : Nat) : (s.sendFrom p m k).sched = s.sched := by
  unfold State.sendFrom
  dsimp only
  split
  · rfl
  · split <;> rfl
@[simp] theorem State.sendFrom_cbits (p : Nat) (m : Msg) (k : Nat) : (s.sendFrom p m k).cbits = s.cbits := by
  unfold State.sendFrom
  dsimp only
  split
  · rfl
  · split <;> rfl
@[simp] theorem State.sendFrom_busy (p : Nat) (m : Msg) (k : Nat) : (s.sendFrom p m k).busy = s.busy := by
  unfold State.sendFrom
  dsimp only
  split
  · rfl
  · split <;> rfl
@[simp] theorem State.sendFrom_held (p : Nat) (m : Msg) (k : Nat) : (s.sendFrom p m k).held = s.held := by
  unfold State.sendFrom
  dsimp only
  split
  · rfl
  · split <;> rfl
@[simp] theorem State.sendFrom_stays (p : Nat) (m : Msg) (k : Nat) : (s.sendFrom p m k).stays = s.stays := by
  unfold State.sendFrom
  dsimp only
  split
  · rfl
  · split <;> rfl
@[simp] theorem State.sendFrom_invWait (p : Nat) (m : Msg) (k : Nat) : (s.sendFrom p m k).invWait = s.invWait := by
  unfold State.sendFrom
  dsimp only
  split
  · rfl
  · split <;> rfl
@[simp] theorem State.sendFrom_migrators (p : Nat) (m : Msg) (k : Nat) : (s.sendFrom p m k).migrators = s.migrators := by
  unfold State.sendFrom
  dsimp only
  split
  · rfl
  · split <;> rfl
@[simp] theorem State.sendFrom_indirect (p : Nat) (m : Msg) (k : Nat) : (s.sendFrom p m k).indirect = s.indirect := by
  unfold State.sendFrom
  dsimp only
  split
  · rfl
  · split <;> rfl
@[simp] theorem State.sendFrom_pcs (p : Nat) (m : Msg) (k : Nat) : (s.sendFrom p m k).pcs = s.pcs := by
  unfold State.sendFrom
  dsimp only
  split
  · rfl
  · split <;> rfl
@[simp] theorem State.sendFrom_calPend (p : Nat) (m : Msg) (k : Nat) : (s.sendFrom p m k).calPend = s.calPend := by
  unfold State.sendFrom
  dsimp only
  split
  · rfl
  · split <;> rfl
@[simp] theorem State.sendFrom_saved (p : Nat) (m : Msg) (k : Nat) : (s.sendFrom p m k).saved = s.saved := by
  unfold State.sendFrom
  dsimp only
  split
  · rfl
  · split <;> rfl
@[simp] theorem State.sendFrom_modnum (p : Nat) (m : Msg) (k : Nat) : (s.sendFrom p m k).modnum = s.modnum := by
  unfold State.sendFrom
  dsimp only
  split
  · rfl
  · split <;> rfl
@[simp] theorem State.sendFrom_leads (p : Nat) (m : Msg) (k : Nat) : (s.sendFrom p m k).leads = s.leads := by
  unfold State.sendFrom
  dsimp only
  split
  · rfl
  · split <;> rfl
@[simp] theorem State.sendFrom_colls (p : Nat) (m : Msg) (k : Nat) : (s.sendFrom p m k).colls = s.colls := by
  unfold State.sendFrom
  dsimp only
  split
  · rfl
  · split <;> rfl
@[simp] theorem State.sendFrom_endedColls (p : Nat) (m : Msg) (k : Nat) : (s.sendFrom p m k).endedColls = s.endedColls := by
  unfold State.sendFrom
  dsimp only
  split
  · rfl
  · split <;> rfl
@[simp] theorem State.sendFrom_poolKept (p : Nat) (m : Msg) (k : Nat) : (s.sendFrom p m k).poolKept = s.poolKept := by
  unfold State.sendFrom
  dsimp only
  split
  · rfl
  · split <;> rfl
@[simp] theorem State.sendFrom_darkMods (p : Nat) (m : Msg) (k : Nat) : (s.sendFrom p m k).darkMods = s.darkMods := by
  unfold State.sendFrom
  dsimp only
  split
  · rfl
  · split <;> rfl
@[simp] theorem State.sendFrom_routes (p : Nat) (m : Msg) (k : Nat) : (s.sendFrom p m k).routes = s.routes := by
  unfold State.sendFrom
  dsimp only
  split
  · rfl
  · split <;> rfl
@[simp] theorem State.sendFrom_versions (p : Nat) (m : Msg) (k : Nat) : (s.sendFrom p m k).versions = s.versions := by
  unfold State.sendFrom
  dsimp only
  split
  · rfl
  · split <;> rfl
@[simp] theorem State.sendFrom_pcie (p : Nat) (m : Msg) (k : Nat) : (s.sendFrom p m k).pcie = s.pcie := by
  unfold State.sendFrom
  dsimp only
  split
  · rfl
  · split <;> rfl
@[simp] theorem State.sendFrom_nextPcie (p : Nat) (m : Msg) (k : Nat) : (s.sendFrom p m k).nextPcie = s.nextPcie := by
  unfold State.sendFrom
  dsimp only
  split
  · rfl
  · split <;> rfl
@[simp] theorem State.sendFrom_hostReset (p : Nat) (m : Msg) (k : Nat) : (s.sendFrom p m k).hostReset = s.hostReset := by
  unfold State.sendFrom
  dsimp only
  split
  · rfl
  · split <;> rfl
@[simp] theorem State.sendFrom_hostReads (p : Nat) (m : Msg) (k : Nat) : (s.sendFrom p m k).hostReads = s.hostReads := by
  unfold State.sendFrom
  dsimp only
  split
  · rfl
  · split <;> rfl
@[simp] theorem State.sendFrom_switches (p : Nat) (m : Msg) (k : Nat) : (s.sendFrom p m k).switches = s.switches := by
  unfold State.sendFrom
  dsimp only
  split
  · rfl
  · split <;> rfl
@[simp] theorem State.sendFrom_hoStart (p : Nat) (m : Msg) (k : Nat) : (s.sendFrom p m k).hoStart = s.hoStart := by
  unfold State.sendFrom
  dsimp only
  split
  · rfl
  · split <;> rfl
@[simp] theorem State.sendFrom_zones (p : Nat) (m : Msg) (k : Nat) : (s.sendFrom p m k).zones = s.zones := by
  unfold State.sendFrom
  dsimp only
  split
  · rfl
  · split <;> rfl
@[simp] theorem State.sendFrom_spares (p : Nat) (m : Msg) (k : Nat) : (s.sendFrom p m k).spares = s.spares := by
  unfold State.sendFrom
  dsimp only
  split
  · rfl
  · split <;> rfl
@[simp] theorem State.sendFrom_woken (p : Nat) (m : Msg) (k : Nat) : (s.sendFrom p m k).woken = s.woken := by
  unfold State.sendFrom
  dsimp only
  split
  · rfl
  · split <;> rfl
@[simp] theorem State.sendFrom_dueBase (p : Nat) (m : Msg) (k : Nat) : (s.sendFrom p m k).dueBase = s.dueBase := by
  unfold State.sendFrom
  dsimp only
  split
  · rfl
  · split <;> rfl
@[simp] theorem State.sendFrom_bumpedAt (p : Nat) (m : Msg) (k : Nat) : (s.sendFrom p m k).bumpedAt = s.bumpedAt := by
  unfold State.sendFrom
  dsimp only
  split
  · rfl
  · split <;> rfl
@[simp] theorem State.sendFrom_bumped (p : Nat) (m : Msg) (k : Nat) : (s.sendFrom p m k).bumped = s.bumped := by
  unfold State.sendFrom
  dsimp only
  split
  · rfl
  · split <;> rfl
@[simp] theorem State.sendFrom_tickAt (p : Nat) (m : Msg) (k : Nat) : (s.sendFrom p m k).tickAt = s.tickAt := by
  unfold State.sendFrom
  dsimp only
  split
  · rfl
  · split <;> rfl
@[simp] theorem State.sendFrom_lowTicks (p : Nat) (m : Msg) (k : Nat) : (s.sendFrom p m k).lowTicks = s.lowTicks := by
  unfold State.sendFrom
  dsimp only
  split
  · rfl
  · split <;> rfl
@[simp] theorem State.sendFrom_busyAt (p : Nat) (m : Msg) (k : Nat) : (s.sendFrom p m k).busyAt = s.busyAt := by
  unfold State.sendFrom
  dsimp only
  split
  · rfl
  · split <;> rfl
@[simp] theorem State.sendFrom_heldEvents (p : Nat) (m : Msg) (k : Nat) : (s.sendFrom p m k).heldEvents = s.heldEvents := by
  unfold State.sendFrom
  dsimp only
  split
  · rfl
  · split <;> rfl
@[simp] theorem State.sendFrom_links (p : Nat) (m : Msg) (k : Nat) : (s.sendFrom p m k).links = s.links := by
  unfold State.sendFrom
  dsimp only
  split
  · rfl
  · split <;> rfl
@[simp] theorem State.sendFrom_dies (p : Nat) (m : Msg) (k : Nat) : (s.sendFrom p m k).dies = s.dies := by
  unfold State.sendFrom
  dsimp only
  split
  · rfl
  · split <;> rfl
@[simp] theorem State.sendFrom_ho (p : Nat) (m : Msg) (k : Nat) : (s.sendFrom p m k).ho = s.ho := by
  unfold State.sendFrom
  dsimp only
  split
  · rfl
  · split <;> rfl
@[simp] theorem State.sendFrom_root (p : Nat) (m : Msg) (k : Nat) : (s.sendFrom p m k).root = s.root := by
  unfold State.sendFrom
  dsimp only
  split
  · rfl
  · split <;> rfl
@[simp] theorem State.sendFrom_dusk (p : Nat) (m : Msg) (k : Nat) : (s.sendFrom p m k).dusk = s.dusk := by
  unfold State.sendFrom
  dsimp only
  split
  · rfl
  · split <;> rfl
@[simp] theorem State.sendFrom_hib (p : Nat) (m : Msg) (k : Nat) : (s.sendFrom p m k).hib = s.hib := by
  unfold State.sendFrom
  dsimp only
  split
  · rfl
  · split <;> rfl

/-! ### `sendOn` -/

@[simp] theorem State.sendOn_units (p : Nat) (m : Msg) : (s.sendOn p m).units = s.units := s.sendFrom_units p m 0
@[simp] theorem State.sendOn_focus (p : Nat) (m : Msg) : (s.sendOn p m).focus = s.focus := s.sendFrom_focus p m 0
@[simp] theorem State.sendOn_issue (p : Nat) (m : Msg) : (s.sendOn p m).issue = s.issue := s.sendFrom_issue p m 0
@[simp] theorem State.sendOn_agenda (p : Nat) (m : Msg) : (s.sendOn p m).agenda = s.agenda := s.sendFrom_agenda p m 0
@[simp] theorem State.sendOn_now (p : Nat) (m : Msg) : (s.sendOn p m).now = s.now := s.sendFrom_now p m 0
@[simp] theorem State.sendOn_free (p : Nat) (m : Msg) : (s.sendOn p m).free = s.free := s.sendFrom_free p m 0
@[simp] theorem State.sendOn_dram (p : Nat) (m : Msg) : (s.sendOn p m).dram = s.dram := s.sendFrom_dram p m 0
@[simp] theorem State.sendOn_sram (p : Nat) (m : Msg) : (s.sendOn p m).sram = s.sram := s.sendFrom_sram p m 0
@[simp] theorem State.sendOn_host (p : Nat) (m : Msg) : (s.sendOn p m).host = s.host := s.sendFrom_host p m 0
@[simp] theorem State.sendOn_tier (p : Nat) (m : Msg) : (s.sendOn p m).tier = s.tier := s.sendFrom_tier p m 0
@[simp] theorem State.sendOn_ctl (p : Nat) (m : Msg) : (s.sendOn p m).ctl = s.ctl := s.sendFrom_ctl p m 0
@[simp] theorem State.sendOn_clusters (p : Nat) (m : Msg) : (s.sendOn p m).clusters = s.clusters := s.sendFrom_clusters p m 0
@[simp] theorem State.sendOn_sched (p : Nat) (m : Msg) : (s.sendOn p m).sched = s.sched := s.sendFrom_sched p m 0
@[simp] theorem State.sendOn_cbits (p : Nat) (m : Msg) : (s.sendOn p m).cbits = s.cbits := s.sendFrom_cbits p m 0
@[simp] theorem State.sendOn_busy (p : Nat) (m : Msg) : (s.sendOn p m).busy = s.busy := s.sendFrom_busy p m 0
@[simp] theorem State.sendOn_held (p : Nat) (m : Msg) : (s.sendOn p m).held = s.held := s.sendFrom_held p m 0
@[simp] theorem State.sendOn_stays (p : Nat) (m : Msg) : (s.sendOn p m).stays = s.stays := s.sendFrom_stays p m 0
@[simp] theorem State.sendOn_invWait (p : Nat) (m : Msg) : (s.sendOn p m).invWait = s.invWait := s.sendFrom_invWait p m 0
@[simp] theorem State.sendOn_migrators (p : Nat) (m : Msg) : (s.sendOn p m).migrators = s.migrators := s.sendFrom_migrators p m 0
@[simp] theorem State.sendOn_indirect (p : Nat) (m : Msg) : (s.sendOn p m).indirect = s.indirect := s.sendFrom_indirect p m 0
@[simp] theorem State.sendOn_pcs (p : Nat) (m : Msg) : (s.sendOn p m).pcs = s.pcs := s.sendFrom_pcs p m 0
@[simp] theorem State.sendOn_calPend (p : Nat) (m : Msg) : (s.sendOn p m).calPend = s.calPend := s.sendFrom_calPend p m 0
@[simp] theorem State.sendOn_saved (p : Nat) (m : Msg) : (s.sendOn p m).saved = s.saved := s.sendFrom_saved p m 0
@[simp] theorem State.sendOn_modnum (p : Nat) (m : Msg) : (s.sendOn p m).modnum = s.modnum := s.sendFrom_modnum p m 0
@[simp] theorem State.sendOn_leads (p : Nat) (m : Msg) : (s.sendOn p m).leads = s.leads := s.sendFrom_leads p m 0
@[simp] theorem State.sendOn_colls (p : Nat) (m : Msg) : (s.sendOn p m).colls = s.colls := s.sendFrom_colls p m 0
@[simp] theorem State.sendOn_endedColls (p : Nat) (m : Msg) : (s.sendOn p m).endedColls = s.endedColls := s.sendFrom_endedColls p m 0
@[simp] theorem State.sendOn_poolKept (p : Nat) (m : Msg) : (s.sendOn p m).poolKept = s.poolKept := s.sendFrom_poolKept p m 0
@[simp] theorem State.sendOn_darkMods (p : Nat) (m : Msg) : (s.sendOn p m).darkMods = s.darkMods := s.sendFrom_darkMods p m 0
@[simp] theorem State.sendOn_routes (p : Nat) (m : Msg) : (s.sendOn p m).routes = s.routes := s.sendFrom_routes p m 0
@[simp] theorem State.sendOn_versions (p : Nat) (m : Msg) : (s.sendOn p m).versions = s.versions := s.sendFrom_versions p m 0
@[simp] theorem State.sendOn_pcie (p : Nat) (m : Msg) : (s.sendOn p m).pcie = s.pcie := s.sendFrom_pcie p m 0
@[simp] theorem State.sendOn_nextPcie (p : Nat) (m : Msg) : (s.sendOn p m).nextPcie = s.nextPcie := s.sendFrom_nextPcie p m 0
@[simp] theorem State.sendOn_hostReset (p : Nat) (m : Msg) : (s.sendOn p m).hostReset = s.hostReset := s.sendFrom_hostReset p m 0
@[simp] theorem State.sendOn_hostReads (p : Nat) (m : Msg) : (s.sendOn p m).hostReads = s.hostReads := s.sendFrom_hostReads p m 0
@[simp] theorem State.sendOn_switches (p : Nat) (m : Msg) : (s.sendOn p m).switches = s.switches := s.sendFrom_switches p m 0
@[simp] theorem State.sendOn_hoStart (p : Nat) (m : Msg) : (s.sendOn p m).hoStart = s.hoStart := s.sendFrom_hoStart p m 0
@[simp] theorem State.sendOn_zones (p : Nat) (m : Msg) : (s.sendOn p m).zones = s.zones := s.sendFrom_zones p m 0
@[simp] theorem State.sendOn_spares (p : Nat) (m : Msg) : (s.sendOn p m).spares = s.spares := s.sendFrom_spares p m 0
@[simp] theorem State.sendOn_woken (p : Nat) (m : Msg) : (s.sendOn p m).woken = s.woken := s.sendFrom_woken p m 0
@[simp] theorem State.sendOn_dueBase (p : Nat) (m : Msg) : (s.sendOn p m).dueBase = s.dueBase := s.sendFrom_dueBase p m 0
@[simp] theorem State.sendOn_bumpedAt (p : Nat) (m : Msg) : (s.sendOn p m).bumpedAt = s.bumpedAt := s.sendFrom_bumpedAt p m 0
@[simp] theorem State.sendOn_bumped (p : Nat) (m : Msg) : (s.sendOn p m).bumped = s.bumped := s.sendFrom_bumped p m 0
@[simp] theorem State.sendOn_tickAt (p : Nat) (m : Msg) : (s.sendOn p m).tickAt = s.tickAt := s.sendFrom_tickAt p m 0
@[simp] theorem State.sendOn_lowTicks (p : Nat) (m : Msg) : (s.sendOn p m).lowTicks = s.lowTicks := s.sendFrom_lowTicks p m 0
@[simp] theorem State.sendOn_busyAt (p : Nat) (m : Msg) : (s.sendOn p m).busyAt = s.busyAt := s.sendFrom_busyAt p m 0
@[simp] theorem State.sendOn_heldEvents (p : Nat) (m : Msg) : (s.sendOn p m).heldEvents = s.heldEvents := s.sendFrom_heldEvents p m 0
@[simp] theorem State.sendOn_links (p : Nat) (m : Msg) : (s.sendOn p m).links = s.links := s.sendFrom_links p m 0
@[simp] theorem State.sendOn_dies (p : Nat) (m : Msg) : (s.sendOn p m).dies = s.dies := s.sendFrom_dies p m 0
@[simp] theorem State.sendOn_ho (p : Nat) (m : Msg) : (s.sendOn p m).ho = s.ho := s.sendFrom_ho p m 0
@[simp] theorem State.sendOn_root (p : Nat) (m : Msg) : (s.sendOn p m).root = s.root := s.sendFrom_root p m 0
@[simp] theorem State.sendOn_dusk (p : Nat) (m : Msg) : (s.sendOn p m).dusk = s.dusk := s.sendFrom_dusk p m 0
@[simp] theorem State.sendOn_hib (p : Nat) (m : Msg) : (s.sendOn p m).hib = s.hib := s.sendFrom_hib p m 0

/-! ### `sendAt` -/

@[simp] theorem State.sendAt_units (m : Msg) (k : Nat) : (s.sendAt m k).units = s.units := by
  unfold State.sendAt
  split
  · split
    · simp
    · rfl
  · rfl
@[simp] theorem State.sendAt_focus (m : Msg) (k : Nat) : (s.sendAt m k).focus = s.focus := by
  unfold State.sendAt
  split
  · split
    · simp
    · rfl
  · rfl
@[simp] theorem State.sendAt_issue (m : Msg) (k : Nat) : (s.sendAt m k).issue = s.issue := by
  unfold State.sendAt
  split
  · split
    · simp
    · rfl
  · rfl
@[simp] theorem State.sendAt_agenda (m : Msg) (k : Nat) : (s.sendAt m k).agenda = s.agenda := by
  unfold State.sendAt
  split
  · split
    · simp
    · rfl
  · rfl
@[simp] theorem State.sendAt_now (m : Msg) (k : Nat) : (s.sendAt m k).now = s.now := by
  unfold State.sendAt
  split
  · split
    · simp
    · rfl
  · rfl
@[simp] theorem State.sendAt_free (m : Msg) (k : Nat) : (s.sendAt m k).free = s.free := by
  unfold State.sendAt
  split
  · split
    · simp
    · rfl
  · rfl
@[simp] theorem State.sendAt_dram (m : Msg) (k : Nat) : (s.sendAt m k).dram = s.dram := by
  unfold State.sendAt
  split
  · split
    · simp
    · rfl
  · rfl
@[simp] theorem State.sendAt_sram (m : Msg) (k : Nat) : (s.sendAt m k).sram = s.sram := by
  unfold State.sendAt
  split
  · split
    · simp
    · rfl
  · rfl
@[simp] theorem State.sendAt_host (m : Msg) (k : Nat) : (s.sendAt m k).host = s.host := by
  unfold State.sendAt
  split
  · split
    · simp
    · rfl
  · rfl
@[simp] theorem State.sendAt_tier (m : Msg) (k : Nat) : (s.sendAt m k).tier = s.tier := by
  unfold State.sendAt
  split
  · split
    · simp
    · rfl
  · rfl
@[simp] theorem State.sendAt_ctl (m : Msg) (k : Nat) : (s.sendAt m k).ctl = s.ctl := by
  unfold State.sendAt
  split
  · split
    · simp
    · rfl
  · rfl
@[simp] theorem State.sendAt_clusters (m : Msg) (k : Nat) : (s.sendAt m k).clusters = s.clusters := by
  unfold State.sendAt
  split
  · split
    · simp
    · rfl
  · rfl
@[simp] theorem State.sendAt_sched (m : Msg) (k : Nat) : (s.sendAt m k).sched = s.sched := by
  unfold State.sendAt
  split
  · split
    · simp
    · rfl
  · rfl
@[simp] theorem State.sendAt_cbits (m : Msg) (k : Nat) : (s.sendAt m k).cbits = s.cbits := by
  unfold State.sendAt
  split
  · split
    · simp
    · rfl
  · rfl
@[simp] theorem State.sendAt_busy (m : Msg) (k : Nat) : (s.sendAt m k).busy = s.busy := by
  unfold State.sendAt
  split
  · split
    · simp
    · rfl
  · rfl
@[simp] theorem State.sendAt_held (m : Msg) (k : Nat) : (s.sendAt m k).held = s.held := by
  unfold State.sendAt
  split
  · split
    · simp
    · rfl
  · rfl
@[simp] theorem State.sendAt_stays (m : Msg) (k : Nat) : (s.sendAt m k).stays = s.stays := by
  unfold State.sendAt
  split
  · split
    · simp
    · rfl
  · rfl
@[simp] theorem State.sendAt_invWait (m : Msg) (k : Nat) : (s.sendAt m k).invWait = s.invWait := by
  unfold State.sendAt
  split
  · split
    · simp
    · rfl
  · rfl
@[simp] theorem State.sendAt_migrators (m : Msg) (k : Nat) : (s.sendAt m k).migrators = s.migrators := by
  unfold State.sendAt
  split
  · split
    · simp
    · rfl
  · rfl
@[simp] theorem State.sendAt_indirect (m : Msg) (k : Nat) : (s.sendAt m k).indirect = s.indirect := by
  unfold State.sendAt
  split
  · split
    · simp
    · rfl
  · rfl
@[simp] theorem State.sendAt_pcs (m : Msg) (k : Nat) : (s.sendAt m k).pcs = s.pcs := by
  unfold State.sendAt
  split
  · split
    · simp
    · rfl
  · rfl
@[simp] theorem State.sendAt_calPend (m : Msg) (k : Nat) : (s.sendAt m k).calPend = s.calPend := by
  unfold State.sendAt
  split
  · split
    · simp
    · rfl
  · rfl
@[simp] theorem State.sendAt_saved (m : Msg) (k : Nat) : (s.sendAt m k).saved = s.saved := by
  unfold State.sendAt
  split
  · split
    · simp
    · rfl
  · rfl
@[simp] theorem State.sendAt_modnum (m : Msg) (k : Nat) : (s.sendAt m k).modnum = s.modnum := by
  unfold State.sendAt
  split
  · split
    · simp
    · rfl
  · rfl
@[simp] theorem State.sendAt_leads (m : Msg) (k : Nat) : (s.sendAt m k).leads = s.leads := by
  unfold State.sendAt
  split
  · split
    · simp
    · rfl
  · rfl
@[simp] theorem State.sendAt_colls (m : Msg) (k : Nat) : (s.sendAt m k).colls = s.colls := by
  unfold State.sendAt
  split
  · split
    · simp
    · rfl
  · rfl
@[simp] theorem State.sendAt_endedColls (m : Msg) (k : Nat) : (s.sendAt m k).endedColls = s.endedColls := by
  unfold State.sendAt
  split
  · split
    · simp
    · rfl
  · rfl
@[simp] theorem State.sendAt_poolKept (m : Msg) (k : Nat) : (s.sendAt m k).poolKept = s.poolKept := by
  unfold State.sendAt
  split
  · split
    · simp
    · rfl
  · rfl
@[simp] theorem State.sendAt_darkMods (m : Msg) (k : Nat) : (s.sendAt m k).darkMods = s.darkMods := by
  unfold State.sendAt
  split
  · split
    · simp
    · rfl
  · rfl
@[simp] theorem State.sendAt_routes (m : Msg) (k : Nat) : (s.sendAt m k).routes = s.routes := by
  unfold State.sendAt
  split
  · split
    · simp
    · rfl
  · rfl
@[simp] theorem State.sendAt_versions (m : Msg) (k : Nat) : (s.sendAt m k).versions = s.versions := by
  unfold State.sendAt
  split
  · split
    · simp
    · rfl
  · rfl
@[simp] theorem State.sendAt_pcie (m : Msg) (k : Nat) : (s.sendAt m k).pcie = s.pcie := by
  unfold State.sendAt
  split
  · split
    · simp
    · rfl
  · rfl
@[simp] theorem State.sendAt_nextPcie (m : Msg) (k : Nat) : (s.sendAt m k).nextPcie = s.nextPcie := by
  unfold State.sendAt
  split
  · split
    · simp
    · rfl
  · rfl
@[simp] theorem State.sendAt_hostReset (m : Msg) (k : Nat) : (s.sendAt m k).hostReset = s.hostReset := by
  unfold State.sendAt
  split
  · split
    · simp
    · rfl
  · rfl
@[simp] theorem State.sendAt_hostReads (m : Msg) (k : Nat) : (s.sendAt m k).hostReads = s.hostReads := by
  unfold State.sendAt
  split
  · split
    · simp
    · rfl
  · rfl
@[simp] theorem State.sendAt_switches (m : Msg) (k : Nat) : (s.sendAt m k).switches = s.switches := by
  unfold State.sendAt
  split
  · split
    · simp
    · rfl
  · rfl
@[simp] theorem State.sendAt_hoStart (m : Msg) (k : Nat) : (s.sendAt m k).hoStart = s.hoStart := by
  unfold State.sendAt
  split
  · split
    · simp
    · rfl
  · rfl
@[simp] theorem State.sendAt_zones (m : Msg) (k : Nat) : (s.sendAt m k).zones = s.zones := by
  unfold State.sendAt
  split
  · split
    · simp
    · rfl
  · rfl
@[simp] theorem State.sendAt_spares (m : Msg) (k : Nat) : (s.sendAt m k).spares = s.spares := by
  unfold State.sendAt
  split
  · split
    · simp
    · rfl
  · rfl
@[simp] theorem State.sendAt_woken (m : Msg) (k : Nat) : (s.sendAt m k).woken = s.woken := by
  unfold State.sendAt
  split
  · split
    · simp
    · rfl
  · rfl
@[simp] theorem State.sendAt_dueBase (m : Msg) (k : Nat) : (s.sendAt m k).dueBase = s.dueBase := by
  unfold State.sendAt
  split
  · split
    · simp
    · rfl
  · rfl
@[simp] theorem State.sendAt_bumpedAt (m : Msg) (k : Nat) : (s.sendAt m k).bumpedAt = s.bumpedAt := by
  unfold State.sendAt
  split
  · split
    · simp
    · rfl
  · rfl
@[simp] theorem State.sendAt_bumped (m : Msg) (k : Nat) : (s.sendAt m k).bumped = s.bumped := by
  unfold State.sendAt
  split
  · split
    · simp
    · rfl
  · rfl
@[simp] theorem State.sendAt_tickAt (m : Msg) (k : Nat) : (s.sendAt m k).tickAt = s.tickAt := by
  unfold State.sendAt
  split
  · split
    · simp
    · rfl
  · rfl
@[simp] theorem State.sendAt_lowTicks (m : Msg) (k : Nat) : (s.sendAt m k).lowTicks = s.lowTicks := by
  unfold State.sendAt
  split
  · split
    · simp
    · rfl
  · rfl
@[simp] theorem State.sendAt_busyAt (m : Msg) (k : Nat) : (s.sendAt m k).busyAt = s.busyAt := by
  unfold State.sendAt
  split
  · split
    · simp
    · rfl
  · rfl
@[simp] theorem State.sendAt_heldEvents (m : Msg) (k : Nat) : (s.sendAt m k).heldEvents = s.heldEvents := by
  unfold State.sendAt
  split
  · split
    · simp
    · rfl
  · rfl
@[simp] theorem State.sendAt_links (m : Msg) (k : Nat) : (s.sendAt m k).links = s.links := by
  unfold State.sendAt
  split
  · split
    · simp
    · rfl
  · rfl
@[simp] theorem State.sendAt_dies (m : Msg) (k : Nat) : (s.sendAt m k).dies = s.dies := by
  unfold State.sendAt
  split
  · split
    · simp
    · rfl
  · rfl
@[simp] theorem State.sendAt_ho (m : Msg) (k : Nat) : (s.sendAt m k).ho = s.ho := by
  unfold State.sendAt
  split
  · split
    · simp
    · rfl
  · rfl
@[simp] theorem State.sendAt_root (m : Msg) (k : Nat) : (s.sendAt m k).root = s.root := by
  unfold State.sendAt
  split
  · split
    · simp
    · rfl
  · rfl
@[simp] theorem State.sendAt_dusk (m : Msg) (k : Nat) : (s.sendAt m k).dusk = s.dusk := by
  unfold State.sendAt
  split
  · split
    · simp
    · rfl
  · rfl
@[simp] theorem State.sendAt_hib (m : Msg) (k : Nat) : (s.sendAt m k).hib = s.hib := by
  unfold State.sendAt
  split
  · split
    · simp
    · rfl
  · rfl

/-! ### `send` -/

@[simp] theorem State.send_units (m : Msg) : (s.send m).units = s.units := s.sendAt_units m 0
@[simp] theorem State.send_focus (m : Msg) : (s.send m).focus = s.focus := s.sendAt_focus m 0
@[simp] theorem State.send_issue (m : Msg) : (s.send m).issue = s.issue := s.sendAt_issue m 0
@[simp] theorem State.send_agenda (m : Msg) : (s.send m).agenda = s.agenda := s.sendAt_agenda m 0
@[simp] theorem State.send_now (m : Msg) : (s.send m).now = s.now := s.sendAt_now m 0
@[simp] theorem State.send_free (m : Msg) : (s.send m).free = s.free := s.sendAt_free m 0
@[simp] theorem State.send_dram (m : Msg) : (s.send m).dram = s.dram := s.sendAt_dram m 0
@[simp] theorem State.send_sram (m : Msg) : (s.send m).sram = s.sram := s.sendAt_sram m 0
@[simp] theorem State.send_host (m : Msg) : (s.send m).host = s.host := s.sendAt_host m 0
@[simp] theorem State.send_tier (m : Msg) : (s.send m).tier = s.tier := s.sendAt_tier m 0
@[simp] theorem State.send_ctl (m : Msg) : (s.send m).ctl = s.ctl := s.sendAt_ctl m 0
@[simp] theorem State.send_clusters (m : Msg) : (s.send m).clusters = s.clusters := s.sendAt_clusters m 0
@[simp] theorem State.send_sched (m : Msg) : (s.send m).sched = s.sched := s.sendAt_sched m 0
@[simp] theorem State.send_cbits (m : Msg) : (s.send m).cbits = s.cbits := s.sendAt_cbits m 0
@[simp] theorem State.send_busy (m : Msg) : (s.send m).busy = s.busy := s.sendAt_busy m 0
@[simp] theorem State.send_held (m : Msg) : (s.send m).held = s.held := s.sendAt_held m 0
@[simp] theorem State.send_stays (m : Msg) : (s.send m).stays = s.stays := s.sendAt_stays m 0
@[simp] theorem State.send_invWait (m : Msg) : (s.send m).invWait = s.invWait := s.sendAt_invWait m 0
@[simp] theorem State.send_migrators (m : Msg) : (s.send m).migrators = s.migrators := s.sendAt_migrators m 0
@[simp] theorem State.send_indirect (m : Msg) : (s.send m).indirect = s.indirect := s.sendAt_indirect m 0
@[simp] theorem State.send_pcs (m : Msg) : (s.send m).pcs = s.pcs := s.sendAt_pcs m 0
@[simp] theorem State.send_calPend (m : Msg) : (s.send m).calPend = s.calPend := s.sendAt_calPend m 0
@[simp] theorem State.send_saved (m : Msg) : (s.send m).saved = s.saved := s.sendAt_saved m 0
@[simp] theorem State.send_modnum (m : Msg) : (s.send m).modnum = s.modnum := s.sendAt_modnum m 0
@[simp] theorem State.send_leads (m : Msg) : (s.send m).leads = s.leads := s.sendAt_leads m 0
@[simp] theorem State.send_colls (m : Msg) : (s.send m).colls = s.colls := s.sendAt_colls m 0
@[simp] theorem State.send_endedColls (m : Msg) : (s.send m).endedColls = s.endedColls := s.sendAt_endedColls m 0
@[simp] theorem State.send_poolKept (m : Msg) : (s.send m).poolKept = s.poolKept := s.sendAt_poolKept m 0
@[simp] theorem State.send_darkMods (m : Msg) : (s.send m).darkMods = s.darkMods := s.sendAt_darkMods m 0
@[simp] theorem State.send_routes (m : Msg) : (s.send m).routes = s.routes := s.sendAt_routes m 0
@[simp] theorem State.send_versions (m : Msg) : (s.send m).versions = s.versions := s.sendAt_versions m 0
@[simp] theorem State.send_pcie (m : Msg) : (s.send m).pcie = s.pcie := s.sendAt_pcie m 0
@[simp] theorem State.send_nextPcie (m : Msg) : (s.send m).nextPcie = s.nextPcie := s.sendAt_nextPcie m 0
@[simp] theorem State.send_hostReset (m : Msg) : (s.send m).hostReset = s.hostReset := s.sendAt_hostReset m 0
@[simp] theorem State.send_hostReads (m : Msg) : (s.send m).hostReads = s.hostReads := s.sendAt_hostReads m 0
@[simp] theorem State.send_switches (m : Msg) : (s.send m).switches = s.switches := s.sendAt_switches m 0
@[simp] theorem State.send_hoStart (m : Msg) : (s.send m).hoStart = s.hoStart := s.sendAt_hoStart m 0
@[simp] theorem State.send_zones (m : Msg) : (s.send m).zones = s.zones := s.sendAt_zones m 0
@[simp] theorem State.send_spares (m : Msg) : (s.send m).spares = s.spares := s.sendAt_spares m 0
@[simp] theorem State.send_woken (m : Msg) : (s.send m).woken = s.woken := s.sendAt_woken m 0
@[simp] theorem State.send_dueBase (m : Msg) : (s.send m).dueBase = s.dueBase := s.sendAt_dueBase m 0
@[simp] theorem State.send_bumpedAt (m : Msg) : (s.send m).bumpedAt = s.bumpedAt := s.sendAt_bumpedAt m 0
@[simp] theorem State.send_bumped (m : Msg) : (s.send m).bumped = s.bumped := s.sendAt_bumped m 0
@[simp] theorem State.send_tickAt (m : Msg) : (s.send m).tickAt = s.tickAt := s.sendAt_tickAt m 0
@[simp] theorem State.send_lowTicks (m : Msg) : (s.send m).lowTicks = s.lowTicks := s.sendAt_lowTicks m 0
@[simp] theorem State.send_busyAt (m : Msg) : (s.send m).busyAt = s.busyAt := s.sendAt_busyAt m 0
@[simp] theorem State.send_heldEvents (m : Msg) : (s.send m).heldEvents = s.heldEvents := s.sendAt_heldEvents m 0
@[simp] theorem State.send_links (m : Msg) : (s.send m).links = s.links := s.sendAt_links m 0
@[simp] theorem State.send_dies (m : Msg) : (s.send m).dies = s.dies := s.sendAt_dies m 0
@[simp] theorem State.send_ho (m : Msg) : (s.send m).ho = s.ho := s.sendAt_ho m 0
@[simp] theorem State.send_root (m : Msg) : (s.send m).root = s.root := s.sendAt_root m 0
@[simp] theorem State.send_dusk (m : Msg) : (s.send m).dusk = s.dusk := s.sendAt_dusk m 0
@[simp] theorem State.send_hib (m : Msg) : (s.send m).hib = s.hib := s.sendAt_hib m 0

/-! ### `Unit.issueResult` -/

@[simp] theorem Unit.issueResult_run (r : InFlight) : (x.issueResult r).run = x.run := rfl
@[simp] theorem Unit.issueResult_regs (r : InFlight) : (x.issueResult r).regs = x.regs := rfl
@[simp] theorem Unit.issueResult_shadow (r : InFlight) : (x.issueResult r).shadow = x.shadow := rfl
@[simp] theorem Unit.issueResult_shadowFlight (r : InFlight) : (x.issueResult r).shadowFlight = x.shadowFlight := rfl
@[simp] theorem Unit.issueResult_pc (r : InFlight) : (x.issueResult r).pc = x.pc := rfl
@[simp] theorem Unit.issueResult_handler (r : InFlight) : (x.issueResult r).handler = x.handler := rfl
@[simp] theorem Unit.issueResult_code (r : InFlight) : (x.issueResult r).code = x.code := rfl
@[simp] theorem Unit.issueResult_codeLen (r : InFlight) : (x.issueResult r).codeLen = x.codeLen := rfl
@[simp] theorem Unit.issueResult_wb (r : InFlight) : (x.issueResult r).wb = x.wb := rfl
@[simp] theorem Unit.issueResult_ab (r : InFlight) : (x.issueResult r).ab = x.ab := rfl
@[simp] theorem Unit.issueResult_cb (r : InFlight) : (x.issueResult r).cb = x.cb := rfl
@[simp] theorem Unit.issueResult_sb (r : InFlight) : (x.issueResult r).sb = x.sb := rfl
@[simp] theorem Unit.issueResult_scales (r : InFlight) : (x.issueResult r).scales = x.scales := rfl
@[simp] theorem Unit.issueResult_scaleSer (r : InFlight) : (x.issueResult r).scaleSer = x.scaleSer := rfl
@[simp] theorem Unit.issueResult_own (r : InFlight) : (x.issueResult r).own = x.own := rfl
@[simp] theorem Unit.issueResult_sl (r : InFlight) : (x.issueResult r).sl = x.sl := rfl
@[simp] theorem Unit.issueResult_la (r : InFlight) : (x.issueResult r).la = x.la := rfl
@[simp] theorem Unit.issueResult_lb (r : InFlight) : (x.issueResult r).lb = x.lb := rfl
@[simp] theorem Unit.issueResult_flight (r : InFlight) : (x.issueResult r).flight = x.flight ++ [r] := rfl
@[simp] theorem Unit.issueResult_bank (r : InFlight) : (x.issueResult r).bank = x.bank := rfl
@[simp] theorem Unit.issueResult_hloop (r : InFlight) : (x.issueResult r).hloop = x.hloop := rfl
@[simp] theorem Unit.issueResult_gated (r : InFlight) : (x.issueResult r).gated = x.gated := rfl
@[simp] theorem Unit.issueResult_afterEret (r : InFlight) : (x.issueResult r).afterEret = x.afterEret := rfl
@[simp] theorem Unit.issueResult_markPc (r : InFlight) : (x.issueResult r).markPc = x.markPc := rfl
@[simp] theorem Unit.issueResult_markSerial (r : InFlight) : (x.issueResult r).markSerial = x.markSerial := rfl
@[simp] theorem Unit.issueResult_markDone (r : InFlight) : (x.issueResult r).markDone = x.markDone := rfl
@[simp] theorem Unit.issueResult_trapCause (r : InFlight) : (x.issueResult r).trapCause = x.trapCause := rfl
@[simp] theorem Unit.issueResult_trapPc (r : InFlight) : (x.issueResult r).trapPc = x.trapPc := rfl
@[simp] theorem Unit.issueResult_trapVal (r : InFlight) : (x.issueResult r).trapVal = x.trapVal := rfl
@[simp] theorem Unit.issueResult_trapVec (r : InFlight) : (x.issueResult r).trapVec = x.trapVec := rfl
@[simp] theorem Unit.issueResult_hstat (r : InFlight) : (x.issueResult r).hstat = x.hstat := rfl
@[simp] theorem Unit.issueResult_mstat (r : InFlight) : (x.issueResult r).mstat = x.mstat := rfl
@[simp] theorem Unit.issueResult_cstat (r : InFlight) : (x.issueResult r).cstat = x.cstat := rfl
@[simp] theorem Unit.issueResult_fidstat (r : InFlight) : (x.issueResult r).fidstat = x.fidstat := rfl
@[simp] theorem Unit.issueResult_bcount (r : InFlight) : (x.issueResult r).bcount = x.bcount := rfl
@[simp] theorem Unit.issueResult_pend (r : InFlight) : (x.issueResult r).pend = x.pend := rfl
@[simp] theorem Unit.issueResult_duskTaken (r : InFlight) : (x.issueResult r).duskTaken = x.duskTaken := rfl
@[simp] theorem Unit.issueResult_atoms (r : InFlight) : (x.issueResult r).atoms = x.atoms := rfl
@[simp] theorem Unit.issueResult_serial (r : InFlight) : (x.issueResult r).serial = x.serial := rfl
@[simp] theorem Unit.issueResult_tags (r : InFlight) : (x.issueResult r).tags = x.tags := rfl
@[simp] theorem Unit.issueResult_mq (r : InFlight) : (x.issueResult r).mq = x.mq := rfl
@[simp] theorem Unit.issueResult_q0 (r : InFlight) : (x.issueResult r).q0 = x.q0 := rfl
@[simp] theorem Unit.issueResult_q1 (r : InFlight) : (x.issueResult r).q1 = x.q1 := rfl
@[simp] theorem Unit.issueResult_sclds (r : InFlight) : (x.issueResult r).sclds = x.sclds := rfl
@[simp] theorem Unit.issueResult_tlb0 (r : InFlight) : (x.issueResult r).tlb0 = x.tlb0 := rfl
@[simp] theorem Unit.issueResult_tlb1 (r : InFlight) : (x.issueResult r).tlb1 = x.tlb1 := rfl
@[simp] theorem Unit.issueResult_tlbw (r : InFlight) : (x.issueResult r).tlbw = x.tlbw := rfl
@[simp] theorem Unit.issueResult_lastSlot0 (r : InFlight) : (x.issueResult r).lastSlot0 = x.lastSlot0 := rfl
@[simp] theorem Unit.issueResult_lastSlot1 (r : InFlight) : (x.issueResult r).lastSlot1 = x.lastSlot1 := rfl
@[simp] theorem Unit.issueResult_mail (r : InFlight) : (x.issueResult r).mail = x.mail := rfl
@[simp] theorem Unit.issueResult_barIssued (r : InFlight) : (x.issueResult r).barIssued = x.barIssued := rfl
@[simp] theorem Unit.issueResult_barWaiting (r : InFlight) : (x.issueResult r).barWaiting = x.barWaiting := rfl
@[simp] theorem Unit.issueResult_pastEnd (r : InFlight) : (x.issueResult r).pastEnd = x.pastEnd := rfl
@[simp] theorem Unit.issueResult_team (r : InFlight) : (x.issueResult r).team = x.team := rfl
@[simp] theorem Unit.issueResult_member (r : InFlight) : (x.issueResult r).member = x.member := rfl
@[simp] theorem Unit.issueResult_teamSize (r : InFlight) : (x.issueResult r).teamSize = x.teamSize := rfl
@[simp] theorem Unit.issueResult_graph (r : InFlight) : (x.issueResult r).graph = x.graph := rfl
@[simp] theorem Unit.issueResult_node (r : InFlight) : (x.issueResult r).node = x.node := rfl
@[simp] theorem Unit.issueResult_queue (r : InFlight) : (x.issueResult r).queue = x.queue := rfl
@[simp] theorem Unit.issueResult_recSerial (r : InFlight) : (x.issueResult r).recSerial = x.recSerial := rfl
@[simp] theorem Unit.issueResult_card (r : InFlight) : (x.issueResult r).card = x.card := rfl
@[simp] theorem Unit.issueResult_duskDeadline (r : InFlight) : (x.issueResult r).duskDeadline = x.duskDeadline := rfl
@[simp] theorem Unit.issueResult_nextIssue (r : InFlight) : (x.issueResult r).nextIssue = x.nextIssue := rfl
@[simp] theorem Unit.issueResult_colerr (r : InFlight) : (x.issueResult r).colerr = x.colerr := rfl
@[simp] theorem Unit.issueResult_gsum1 (r : InFlight) : (x.issueResult r).gsum1 = x.gsum1 := rfl
@[simp] theorem Unit.issueResult_gsum2 (r : InFlight) : (x.issueResult r).gsum2 = x.gsum2 := rfl
@[simp] theorem Unit.issueResult_fidinj (r : InFlight) : (x.issueResult r).fidinj = x.fidinj := rfl
@[simp] theorem Unit.issueResult_injCount (r : InFlight) : (x.issueResult r).injCount = x.injCount := rfl
@[simp] theorem Unit.issueResult_calcnt (r : InFlight) : (x.issueResult r).calcnt = x.calcnt := rfl
@[simp] theorem Unit.issueResult_vgen (r : InFlight) : (x.issueResult r).vgen = x.vgen := rfl
@[simp] theorem Unit.issueResult_events (r : InFlight) : (x.issueResult r).events = x.events := rfl
@[simp] theorem Unit.issueResult_kicked (r : InFlight) : (x.issueResult r).kicked = x.kicked := rfl
@[simp] theorem Unit.issueResult_role (r : InFlight) : (x.issueResult r).role = x.role := rfl
@[simp] theorem Unit.issueResult_hostate (r : InFlight) : (x.issueResult r).hostate = x.hostate := rfl
@[simp] theorem Unit.issueResult_hofin (r : InFlight) : (x.issueResult r).hofin = x.hofin := rfl
@[simp] theorem Unit.issueResult_was (r : InFlight) : (x.issueResult r).was = x.was := rfl
@[simp] theorem Unit.issueResult_waiting (r : InFlight) : (x.issueResult r).waiting = x.waiting := rfl

/-! ### `Unit.tagDone` -/

@[simp] theorem Unit.tagDone_run (t : Nat) : (x.tagDone t).run = x.run := rfl
@[simp] theorem Unit.tagDone_regs (t : Nat) : (x.tagDone t).regs = x.regs := rfl
@[simp] theorem Unit.tagDone_shadow (t : Nat) : (x.tagDone t).shadow = x.shadow := rfl
@[simp] theorem Unit.tagDone_shadowFlight (t : Nat) : (x.tagDone t).shadowFlight = x.shadowFlight := rfl
@[simp] theorem Unit.tagDone_pc (t : Nat) : (x.tagDone t).pc = x.pc := rfl
@[simp] theorem Unit.tagDone_handler (t : Nat) : (x.tagDone t).handler = x.handler := rfl
@[simp] theorem Unit.tagDone_code (t : Nat) : (x.tagDone t).code = x.code := rfl
@[simp] theorem Unit.tagDone_codeLen (t : Nat) : (x.tagDone t).codeLen = x.codeLen := rfl
@[simp] theorem Unit.tagDone_wb (t : Nat) : (x.tagDone t).wb = x.wb := rfl
@[simp] theorem Unit.tagDone_ab (t : Nat) : (x.tagDone t).ab = x.ab := rfl
@[simp] theorem Unit.tagDone_cb (t : Nat) : (x.tagDone t).cb = x.cb := rfl
@[simp] theorem Unit.tagDone_sb (t : Nat) : (x.tagDone t).sb = x.sb := rfl
@[simp] theorem Unit.tagDone_scales (t : Nat) : (x.tagDone t).scales = x.scales := rfl
@[simp] theorem Unit.tagDone_scaleSer (t : Nat) : (x.tagDone t).scaleSer = x.scaleSer := rfl
@[simp] theorem Unit.tagDone_own (t : Nat) : (x.tagDone t).own = x.own := rfl
@[simp] theorem Unit.tagDone_sl (t : Nat) : (x.tagDone t).sl = x.sl := rfl
@[simp] theorem Unit.tagDone_la (t : Nat) : (x.tagDone t).la = x.la := rfl
@[simp] theorem Unit.tagDone_lb (t : Nat) : (x.tagDone t).lb = x.lb := rfl
@[simp] theorem Unit.tagDone_flight (t : Nat) : (x.tagDone t).flight = x.flight := rfl
@[simp] theorem Unit.tagDone_bank (t : Nat) : (x.tagDone t).bank = x.bank := rfl
@[simp] theorem Unit.tagDone_hloop (t : Nat) : (x.tagDone t).hloop = x.hloop := rfl
@[simp] theorem Unit.tagDone_gated (t : Nat) : (x.tagDone t).gated = x.gated := rfl
@[simp] theorem Unit.tagDone_afterEret (t : Nat) : (x.tagDone t).afterEret = x.afterEret := rfl
@[simp] theorem Unit.tagDone_markPc (t : Nat) : (x.tagDone t).markPc = x.markPc := rfl
@[simp] theorem Unit.tagDone_markSerial (t : Nat) : (x.tagDone t).markSerial = x.markSerial := rfl
@[simp] theorem Unit.tagDone_markDone (t : Nat) : (x.tagDone t).markDone = x.markDone := rfl
@[simp] theorem Unit.tagDone_trapCause (t : Nat) : (x.tagDone t).trapCause = x.trapCause := rfl
@[simp] theorem Unit.tagDone_trapPc (t : Nat) : (x.tagDone t).trapPc = x.trapPc := rfl
@[simp] theorem Unit.tagDone_trapVal (t : Nat) : (x.tagDone t).trapVal = x.trapVal := rfl
@[simp] theorem Unit.tagDone_trapVec (t : Nat) : (x.tagDone t).trapVec = x.trapVec := rfl
@[simp] theorem Unit.tagDone_hstat (t : Nat) : (x.tagDone t).hstat = x.hstat := rfl
@[simp] theorem Unit.tagDone_mstat (t : Nat) : (x.tagDone t).mstat = x.mstat := rfl
@[simp] theorem Unit.tagDone_cstat (t : Nat) : (x.tagDone t).cstat = x.cstat := rfl
@[simp] theorem Unit.tagDone_fidstat (t : Nat) : (x.tagDone t).fidstat = x.fidstat := rfl
@[simp] theorem Unit.tagDone_bcount (t : Nat) : (x.tagDone t).bcount = x.bcount := rfl
@[simp] theorem Unit.tagDone_pend (t : Nat) : (x.tagDone t).pend = x.pend := rfl
@[simp] theorem Unit.tagDone_duskTaken (t : Nat) : (x.tagDone t).duskTaken = x.duskTaken := rfl
@[simp] theorem Unit.tagDone_atoms (t : Nat) : (x.tagDone t).atoms = x.atoms := rfl
@[simp] theorem Unit.tagDone_serial (t : Nat) : (x.tagDone t).serial = x.serial := rfl
@[simp] theorem Unit.tagDone_tags (t : Nat) : (x.tagDone t).tags = tput x.tags t (tget 0 x.tags t - 1) := rfl
@[simp] theorem Unit.tagDone_mq (t : Nat) : (x.tagDone t).mq = x.mq := rfl
@[simp] theorem Unit.tagDone_q0 (t : Nat) : (x.tagDone t).q0 = x.q0 := rfl
@[simp] theorem Unit.tagDone_q1 (t : Nat) : (x.tagDone t).q1 = x.q1 := rfl
@[simp] theorem Unit.tagDone_sclds (t : Nat) : (x.tagDone t).sclds = x.sclds := rfl
@[simp] theorem Unit.tagDone_tlb0 (t : Nat) : (x.tagDone t).tlb0 = x.tlb0 := rfl
@[simp] theorem Unit.tagDone_tlb1 (t : Nat) : (x.tagDone t).tlb1 = x.tlb1 := rfl
@[simp] theorem Unit.tagDone_tlbw (t : Nat) : (x.tagDone t).tlbw = x.tlbw := rfl
@[simp] theorem Unit.tagDone_lastSlot0 (t : Nat) : (x.tagDone t).lastSlot0 = x.lastSlot0 := rfl
@[simp] theorem Unit.tagDone_lastSlot1 (t : Nat) : (x.tagDone t).lastSlot1 = x.lastSlot1 := rfl
@[simp] theorem Unit.tagDone_mail (t : Nat) : (x.tagDone t).mail = x.mail := rfl
@[simp] theorem Unit.tagDone_barIssued (t : Nat) : (x.tagDone t).barIssued = x.barIssued := rfl
@[simp] theorem Unit.tagDone_barWaiting (t : Nat) : (x.tagDone t).barWaiting = x.barWaiting := rfl
@[simp] theorem Unit.tagDone_pastEnd (t : Nat) : (x.tagDone t).pastEnd = x.pastEnd := rfl
@[simp] theorem Unit.tagDone_team (t : Nat) : (x.tagDone t).team = x.team := rfl
@[simp] theorem Unit.tagDone_member (t : Nat) : (x.tagDone t).member = x.member := rfl
@[simp] theorem Unit.tagDone_teamSize (t : Nat) : (x.tagDone t).teamSize = x.teamSize := rfl
@[simp] theorem Unit.tagDone_graph (t : Nat) : (x.tagDone t).graph = x.graph := rfl
@[simp] theorem Unit.tagDone_node (t : Nat) : (x.tagDone t).node = x.node := rfl
@[simp] theorem Unit.tagDone_queue (t : Nat) : (x.tagDone t).queue = x.queue := rfl
@[simp] theorem Unit.tagDone_recSerial (t : Nat) : (x.tagDone t).recSerial = x.recSerial := rfl
@[simp] theorem Unit.tagDone_card (t : Nat) : (x.tagDone t).card = x.card := rfl
@[simp] theorem Unit.tagDone_duskDeadline (t : Nat) : (x.tagDone t).duskDeadline = x.duskDeadline := rfl
@[simp] theorem Unit.tagDone_nextIssue (t : Nat) : (x.tagDone t).nextIssue = x.nextIssue := rfl
@[simp] theorem Unit.tagDone_colerr (t : Nat) : (x.tagDone t).colerr = x.colerr := rfl
@[simp] theorem Unit.tagDone_gsum1 (t : Nat) : (x.tagDone t).gsum1 = x.gsum1 := rfl
@[simp] theorem Unit.tagDone_gsum2 (t : Nat) : (x.tagDone t).gsum2 = x.gsum2 := rfl
@[simp] theorem Unit.tagDone_fidinj (t : Nat) : (x.tagDone t).fidinj = x.fidinj := rfl
@[simp] theorem Unit.tagDone_injCount (t : Nat) : (x.tagDone t).injCount = x.injCount := rfl
@[simp] theorem Unit.tagDone_calcnt (t : Nat) : (x.tagDone t).calcnt = x.calcnt := rfl
@[simp] theorem Unit.tagDone_vgen (t : Nat) : (x.tagDone t).vgen = x.vgen := rfl
@[simp] theorem Unit.tagDone_events (t : Nat) : (x.tagDone t).events = x.events := rfl
@[simp] theorem Unit.tagDone_kicked (t : Nat) : (x.tagDone t).kicked = x.kicked := rfl
@[simp] theorem Unit.tagDone_role (t : Nat) : (x.tagDone t).role = x.role := rfl
@[simp] theorem Unit.tagDone_hostate (t : Nat) : (x.tagDone t).hostate = x.hostate := rfl
@[simp] theorem Unit.tagDone_hofin (t : Nat) : (x.tagDone t).hofin = x.hofin := rfl
@[simp] theorem Unit.tagDone_was (t : Nat) : (x.tagDone t).was = x.was := rfl
@[simp] theorem Unit.tagDone_waiting (t : Nat) : (x.tagDone t).waiting = x.waiting := rfl

/-! ### `Unit.tagIssue` -/

@[simp] theorem Unit.tagIssue_run (t : Nat) : (x.tagIssue t).run = x.run := rfl
@[simp] theorem Unit.tagIssue_regs (t : Nat) : (x.tagIssue t).regs = x.regs := rfl
@[simp] theorem Unit.tagIssue_shadow (t : Nat) : (x.tagIssue t).shadow = x.shadow := rfl
@[simp] theorem Unit.tagIssue_shadowFlight (t : Nat) : (x.tagIssue t).shadowFlight = x.shadowFlight := rfl
@[simp] theorem Unit.tagIssue_pc (t : Nat) : (x.tagIssue t).pc = x.pc := rfl
@[simp] theorem Unit.tagIssue_handler (t : Nat) : (x.tagIssue t).handler = x.handler := rfl
@[simp] theorem Unit.tagIssue_code (t : Nat) : (x.tagIssue t).code = x.code := rfl
@[simp] theorem Unit.tagIssue_codeLen (t : Nat) : (x.tagIssue t).codeLen = x.codeLen := rfl
@[simp] theorem Unit.tagIssue_wb (t : Nat) : (x.tagIssue t).wb = x.wb := rfl
@[simp] theorem Unit.tagIssue_ab (t : Nat) : (x.tagIssue t).ab = x.ab := rfl
@[simp] theorem Unit.tagIssue_cb (t : Nat) : (x.tagIssue t).cb = x.cb := rfl
@[simp] theorem Unit.tagIssue_sb (t : Nat) : (x.tagIssue t).sb = x.sb := rfl
@[simp] theorem Unit.tagIssue_scales (t : Nat) : (x.tagIssue t).scales = x.scales := rfl
@[simp] theorem Unit.tagIssue_scaleSer (t : Nat) : (x.tagIssue t).scaleSer = x.scaleSer := rfl
@[simp] theorem Unit.tagIssue_own (t : Nat) : (x.tagIssue t).own = x.own := rfl
@[simp] theorem Unit.tagIssue_sl (t : Nat) : (x.tagIssue t).sl = x.sl := rfl
@[simp] theorem Unit.tagIssue_la (t : Nat) : (x.tagIssue t).la = x.la := rfl
@[simp] theorem Unit.tagIssue_lb (t : Nat) : (x.tagIssue t).lb = x.lb := rfl
@[simp] theorem Unit.tagIssue_flight (t : Nat) : (x.tagIssue t).flight = x.flight := rfl
@[simp] theorem Unit.tagIssue_bank (t : Nat) : (x.tagIssue t).bank = x.bank := rfl
@[simp] theorem Unit.tagIssue_hloop (t : Nat) : (x.tagIssue t).hloop = x.hloop := rfl
@[simp] theorem Unit.tagIssue_gated (t : Nat) : (x.tagIssue t).gated = x.gated := rfl
@[simp] theorem Unit.tagIssue_afterEret (t : Nat) : (x.tagIssue t).afterEret = x.afterEret := rfl
@[simp] theorem Unit.tagIssue_markPc (t : Nat) : (x.tagIssue t).markPc = x.markPc := rfl
@[simp] theorem Unit.tagIssue_markSerial (t : Nat) : (x.tagIssue t).markSerial = x.markSerial := rfl
@[simp] theorem Unit.tagIssue_markDone (t : Nat) : (x.tagIssue t).markDone = x.markDone := rfl
@[simp] theorem Unit.tagIssue_trapCause (t : Nat) : (x.tagIssue t).trapCause = x.trapCause := rfl
@[simp] theorem Unit.tagIssue_trapPc (t : Nat) : (x.tagIssue t).trapPc = x.trapPc := rfl
@[simp] theorem Unit.tagIssue_trapVal (t : Nat) : (x.tagIssue t).trapVal = x.trapVal := rfl
@[simp] theorem Unit.tagIssue_trapVec (t : Nat) : (x.tagIssue t).trapVec = x.trapVec := rfl
@[simp] theorem Unit.tagIssue_hstat (t : Nat) : (x.tagIssue t).hstat = x.hstat := rfl
@[simp] theorem Unit.tagIssue_mstat (t : Nat) : (x.tagIssue t).mstat = x.mstat := rfl
@[simp] theorem Unit.tagIssue_cstat (t : Nat) : (x.tagIssue t).cstat = x.cstat := rfl
@[simp] theorem Unit.tagIssue_fidstat (t : Nat) : (x.tagIssue t).fidstat = x.fidstat := rfl
@[simp] theorem Unit.tagIssue_bcount (t : Nat) : (x.tagIssue t).bcount = x.bcount := rfl
@[simp] theorem Unit.tagIssue_pend (t : Nat) : (x.tagIssue t).pend = x.pend := rfl
@[simp] theorem Unit.tagIssue_duskTaken (t : Nat) : (x.tagIssue t).duskTaken = x.duskTaken := rfl
@[simp] theorem Unit.tagIssue_atoms (t : Nat) : (x.tagIssue t).atoms = x.atoms := rfl
@[simp] theorem Unit.tagIssue_serial (t : Nat) : (x.tagIssue t).serial = x.serial := rfl
@[simp] theorem Unit.tagIssue_tags (t : Nat) : (x.tagIssue t).tags = tput x.tags t (tget 0 x.tags t + 1) := rfl
@[simp] theorem Unit.tagIssue_mq (t : Nat) : (x.tagIssue t).mq = x.mq := rfl
@[simp] theorem Unit.tagIssue_q0 (t : Nat) : (x.tagIssue t).q0 = x.q0 := rfl
@[simp] theorem Unit.tagIssue_q1 (t : Nat) : (x.tagIssue t).q1 = x.q1 := rfl
@[simp] theorem Unit.tagIssue_sclds (t : Nat) : (x.tagIssue t).sclds = x.sclds := rfl
@[simp] theorem Unit.tagIssue_tlb0 (t : Nat) : (x.tagIssue t).tlb0 = x.tlb0 := rfl
@[simp] theorem Unit.tagIssue_tlb1 (t : Nat) : (x.tagIssue t).tlb1 = x.tlb1 := rfl
@[simp] theorem Unit.tagIssue_tlbw (t : Nat) : (x.tagIssue t).tlbw = x.tlbw := rfl
@[simp] theorem Unit.tagIssue_lastSlot0 (t : Nat) : (x.tagIssue t).lastSlot0 = x.lastSlot0 := rfl
@[simp] theorem Unit.tagIssue_lastSlot1 (t : Nat) : (x.tagIssue t).lastSlot1 = x.lastSlot1 := rfl
@[simp] theorem Unit.tagIssue_mail (t : Nat) : (x.tagIssue t).mail = x.mail := rfl
@[simp] theorem Unit.tagIssue_barIssued (t : Nat) : (x.tagIssue t).barIssued = x.barIssued := rfl
@[simp] theorem Unit.tagIssue_barWaiting (t : Nat) : (x.tagIssue t).barWaiting = x.barWaiting := rfl
@[simp] theorem Unit.tagIssue_pastEnd (t : Nat) : (x.tagIssue t).pastEnd = x.pastEnd := rfl
@[simp] theorem Unit.tagIssue_team (t : Nat) : (x.tagIssue t).team = x.team := rfl
@[simp] theorem Unit.tagIssue_member (t : Nat) : (x.tagIssue t).member = x.member := rfl
@[simp] theorem Unit.tagIssue_teamSize (t : Nat) : (x.tagIssue t).teamSize = x.teamSize := rfl
@[simp] theorem Unit.tagIssue_graph (t : Nat) : (x.tagIssue t).graph = x.graph := rfl
@[simp] theorem Unit.tagIssue_node (t : Nat) : (x.tagIssue t).node = x.node := rfl
@[simp] theorem Unit.tagIssue_queue (t : Nat) : (x.tagIssue t).queue = x.queue := rfl
@[simp] theorem Unit.tagIssue_recSerial (t : Nat) : (x.tagIssue t).recSerial = x.recSerial := rfl
@[simp] theorem Unit.tagIssue_card (t : Nat) : (x.tagIssue t).card = x.card := rfl
@[simp] theorem Unit.tagIssue_duskDeadline (t : Nat) : (x.tagIssue t).duskDeadline = x.duskDeadline := rfl
@[simp] theorem Unit.tagIssue_nextIssue (t : Nat) : (x.tagIssue t).nextIssue = x.nextIssue := rfl
@[simp] theorem Unit.tagIssue_colerr (t : Nat) : (x.tagIssue t).colerr = x.colerr := rfl
@[simp] theorem Unit.tagIssue_gsum1 (t : Nat) : (x.tagIssue t).gsum1 = x.gsum1 := rfl
@[simp] theorem Unit.tagIssue_gsum2 (t : Nat) : (x.tagIssue t).gsum2 = x.gsum2 := rfl
@[simp] theorem Unit.tagIssue_fidinj (t : Nat) : (x.tagIssue t).fidinj = x.fidinj := rfl
@[simp] theorem Unit.tagIssue_injCount (t : Nat) : (x.tagIssue t).injCount = x.injCount := rfl
@[simp] theorem Unit.tagIssue_calcnt (t : Nat) : (x.tagIssue t).calcnt = x.calcnt := rfl
@[simp] theorem Unit.tagIssue_vgen (t : Nat) : (x.tagIssue t).vgen = x.vgen := rfl
@[simp] theorem Unit.tagIssue_events (t : Nat) : (x.tagIssue t).events = x.events := rfl
@[simp] theorem Unit.tagIssue_kicked (t : Nat) : (x.tagIssue t).kicked = x.kicked := rfl
@[simp] theorem Unit.tagIssue_role (t : Nat) : (x.tagIssue t).role = x.role := rfl
@[simp] theorem Unit.tagIssue_hostate (t : Nat) : (x.tagIssue t).hostate = x.hostate := rfl
@[simp] theorem Unit.tagIssue_hofin (t : Nat) : (x.tagIssue t).hofin = x.hofin := rfl
@[simp] theorem Unit.tagIssue_was (t : Nat) : (x.tagIssue t).was = x.was := rfl
@[simp] theorem Unit.tagIssue_waiting (t : Nat) : (x.tagIssue t).waiting = x.waiting := rfl

/-! ### `Unit.setBudget` -/

@[simp] theorem Unit.setBudget_run (n : Nat) : (x.setBudget n).run = x.run := rfl
@[simp] theorem Unit.setBudget_regs (n : Nat) : (x.setBudget n).regs = x.regs := rfl
@[simp] theorem Unit.setBudget_shadow (n : Nat) : (x.setBudget n).shadow = x.shadow := rfl
@[simp] theorem Unit.setBudget_shadowFlight (n : Nat) : (x.setBudget n).shadowFlight = x.shadowFlight := rfl
@[simp] theorem Unit.setBudget_pc (n : Nat) : (x.setBudget n).pc = x.pc := rfl
@[simp] theorem Unit.setBudget_handler (n : Nat) : (x.setBudget n).handler = x.handler := rfl
@[simp] theorem Unit.setBudget_code (n : Nat) : (x.setBudget n).code = x.code := rfl
@[simp] theorem Unit.setBudget_codeLen (n : Nat) : (x.setBudget n).codeLen = x.codeLen := rfl
@[simp] theorem Unit.setBudget_wb (n : Nat) : (x.setBudget n).wb = x.wb := rfl
@[simp] theorem Unit.setBudget_ab (n : Nat) : (x.setBudget n).ab = x.ab := rfl
@[simp] theorem Unit.setBudget_cb (n : Nat) : (x.setBudget n).cb = x.cb := rfl
@[simp] theorem Unit.setBudget_sb (n : Nat) : (x.setBudget n).sb = x.sb := rfl
@[simp] theorem Unit.setBudget_scales (n : Nat) : (x.setBudget n).scales = x.scales := rfl
@[simp] theorem Unit.setBudget_scaleSer (n : Nat) : (x.setBudget n).scaleSer = x.scaleSer := rfl
@[simp] theorem Unit.setBudget_own (n : Nat) : (x.setBudget n).own = x.own := rfl
@[simp] theorem Unit.setBudget_sl (n : Nat) : (x.setBudget n).sl = x.sl := rfl
@[simp] theorem Unit.setBudget_la (n : Nat) : (x.setBudget n).la = x.la := rfl
@[simp] theorem Unit.setBudget_lb (n : Nat) : (x.setBudget n).lb = x.lb := rfl
@[simp] theorem Unit.setBudget_flight (n : Nat) : (x.setBudget n).flight = x.flight := rfl
@[simp] theorem Unit.setBudget_bank (n : Nat) : (x.setBudget n).bank = x.bank := rfl
@[simp] theorem Unit.setBudget_hloop (n : Nat) : (x.setBudget n).hloop = x.hloop := rfl
@[simp] theorem Unit.setBudget_gated (n : Nat) : (x.setBudget n).gated = x.gated := rfl
@[simp] theorem Unit.setBudget_afterEret (n : Nat) : (x.setBudget n).afterEret = x.afterEret := rfl
@[simp] theorem Unit.setBudget_markPc (n : Nat) : (x.setBudget n).markPc = x.markPc := rfl
@[simp] theorem Unit.setBudget_markSerial (n : Nat) : (x.setBudget n).markSerial = x.markSerial := rfl
@[simp] theorem Unit.setBudget_markDone (n : Nat) : (x.setBudget n).markDone = x.markDone := rfl
@[simp] theorem Unit.setBudget_trapCause (n : Nat) : (x.setBudget n).trapCause = x.trapCause := rfl
@[simp] theorem Unit.setBudget_trapPc (n : Nat) : (x.setBudget n).trapPc = x.trapPc := rfl
@[simp] theorem Unit.setBudget_trapVal (n : Nat) : (x.setBudget n).trapVal = x.trapVal := rfl
@[simp] theorem Unit.setBudget_trapVec (n : Nat) : (x.setBudget n).trapVec = x.trapVec := rfl
@[simp] theorem Unit.setBudget_hstat (n : Nat) : (x.setBudget n).hstat = setField x.hstat 20 (BitVec.ofNat 12 n) := rfl
@[simp] theorem Unit.setBudget_mstat (n : Nat) : (x.setBudget n).mstat = x.mstat := rfl
@[simp] theorem Unit.setBudget_cstat (n : Nat) : (x.setBudget n).cstat = x.cstat := rfl
@[simp] theorem Unit.setBudget_fidstat (n : Nat) : (x.setBudget n).fidstat = x.fidstat := rfl
@[simp] theorem Unit.setBudget_bcount (n : Nat) : (x.setBudget n).bcount = x.bcount := rfl
@[simp] theorem Unit.setBudget_pend (n : Nat) : (x.setBudget n).pend = x.pend := rfl
@[simp] theorem Unit.setBudget_duskTaken (n : Nat) : (x.setBudget n).duskTaken = x.duskTaken := rfl
@[simp] theorem Unit.setBudget_atoms (n : Nat) : (x.setBudget n).atoms = x.atoms := rfl
@[simp] theorem Unit.setBudget_serial (n : Nat) : (x.setBudget n).serial = x.serial := rfl
@[simp] theorem Unit.setBudget_tags (n : Nat) : (x.setBudget n).tags = x.tags := rfl
@[simp] theorem Unit.setBudget_mq (n : Nat) : (x.setBudget n).mq = x.mq := rfl
@[simp] theorem Unit.setBudget_q0 (n : Nat) : (x.setBudget n).q0 = x.q0 := rfl
@[simp] theorem Unit.setBudget_q1 (n : Nat) : (x.setBudget n).q1 = x.q1 := rfl
@[simp] theorem Unit.setBudget_sclds (n : Nat) : (x.setBudget n).sclds = x.sclds := rfl
@[simp] theorem Unit.setBudget_tlb0 (n : Nat) : (x.setBudget n).tlb0 = x.tlb0 := rfl
@[simp] theorem Unit.setBudget_tlb1 (n : Nat) : (x.setBudget n).tlb1 = x.tlb1 := rfl
@[simp] theorem Unit.setBudget_tlbw (n : Nat) : (x.setBudget n).tlbw = x.tlbw := rfl
@[simp] theorem Unit.setBudget_lastSlot0 (n : Nat) : (x.setBudget n).lastSlot0 = x.lastSlot0 := rfl
@[simp] theorem Unit.setBudget_lastSlot1 (n : Nat) : (x.setBudget n).lastSlot1 = x.lastSlot1 := rfl
@[simp] theorem Unit.setBudget_mail (n : Nat) : (x.setBudget n).mail = x.mail := rfl
@[simp] theorem Unit.setBudget_barIssued (n : Nat) : (x.setBudget n).barIssued = x.barIssued := rfl
@[simp] theorem Unit.setBudget_barWaiting (n : Nat) : (x.setBudget n).barWaiting = x.barWaiting := rfl
@[simp] theorem Unit.setBudget_pastEnd (n : Nat) : (x.setBudget n).pastEnd = x.pastEnd := rfl
@[simp] theorem Unit.setBudget_team (n : Nat) : (x.setBudget n).team = x.team := rfl
@[simp] theorem Unit.setBudget_member (n : Nat) : (x.setBudget n).member = x.member := rfl
@[simp] theorem Unit.setBudget_teamSize (n : Nat) : (x.setBudget n).teamSize = x.teamSize := rfl
@[simp] theorem Unit.setBudget_graph (n : Nat) : (x.setBudget n).graph = x.graph := rfl
@[simp] theorem Unit.setBudget_node (n : Nat) : (x.setBudget n).node = x.node := rfl
@[simp] theorem Unit.setBudget_queue (n : Nat) : (x.setBudget n).queue = x.queue := rfl
@[simp] theorem Unit.setBudget_recSerial (n : Nat) : (x.setBudget n).recSerial = x.recSerial := rfl
@[simp] theorem Unit.setBudget_card (n : Nat) : (x.setBudget n).card = x.card := rfl
@[simp] theorem Unit.setBudget_duskDeadline (n : Nat) : (x.setBudget n).duskDeadline = x.duskDeadline := rfl
@[simp] theorem Unit.setBudget_nextIssue (n : Nat) : (x.setBudget n).nextIssue = x.nextIssue := rfl
@[simp] theorem Unit.setBudget_colerr (n : Nat) : (x.setBudget n).colerr = x.colerr := rfl
@[simp] theorem Unit.setBudget_gsum1 (n : Nat) : (x.setBudget n).gsum1 = x.gsum1 := rfl
@[simp] theorem Unit.setBudget_gsum2 (n : Nat) : (x.setBudget n).gsum2 = x.gsum2 := rfl
@[simp] theorem Unit.setBudget_fidinj (n : Nat) : (x.setBudget n).fidinj = x.fidinj := rfl
@[simp] theorem Unit.setBudget_injCount (n : Nat) : (x.setBudget n).injCount = x.injCount := rfl
@[simp] theorem Unit.setBudget_calcnt (n : Nat) : (x.setBudget n).calcnt = x.calcnt := rfl
@[simp] theorem Unit.setBudget_vgen (n : Nat) : (x.setBudget n).vgen = x.vgen := rfl
@[simp] theorem Unit.setBudget_events (n : Nat) : (x.setBudget n).events = x.events := rfl
@[simp] theorem Unit.setBudget_kicked (n : Nat) : (x.setBudget n).kicked = x.kicked := rfl
@[simp] theorem Unit.setBudget_role (n : Nat) : (x.setBudget n).role = x.role := rfl
@[simp] theorem Unit.setBudget_hostate (n : Nat) : (x.setBudget n).hostate = x.hostate := rfl
@[simp] theorem Unit.setBudget_hofin (n : Nat) : (x.setBudget n).hofin = x.hofin := rfl
@[simp] theorem Unit.setBudget_was (n : Nat) : (x.setBudget n).was = x.was := rfl
@[simp] theorem Unit.setBudget_waiting (n : Nat) : (x.setBudget n).waiting = x.waiting := rfl

/-! ### `Unit.clearLatches` -/

@[simp] theorem Unit.clearLatches_run : (x.clearLatches).run = x.run := rfl
@[simp] theorem Unit.clearLatches_regs : (x.clearLatches).regs = x.regs := rfl
@[simp] theorem Unit.clearLatches_shadow : (x.clearLatches).shadow = x.shadow := rfl
@[simp] theorem Unit.clearLatches_shadowFlight : (x.clearLatches).shadowFlight = x.shadowFlight := rfl
@[simp] theorem Unit.clearLatches_pc : (x.clearLatches).pc = x.pc := rfl
@[simp] theorem Unit.clearLatches_handler : (x.clearLatches).handler = x.handler := rfl
@[simp] theorem Unit.clearLatches_code : (x.clearLatches).code = x.code := rfl
@[simp] theorem Unit.clearLatches_codeLen : (x.clearLatches).codeLen = x.codeLen := rfl
@[simp] theorem Unit.clearLatches_wb : (x.clearLatches).wb = x.wb := rfl
@[simp] theorem Unit.clearLatches_ab : (x.clearLatches).ab = x.ab := rfl
@[simp] theorem Unit.clearLatches_cb : (x.clearLatches).cb = x.cb := rfl
@[simp] theorem Unit.clearLatches_sb : (x.clearLatches).sb = x.sb := rfl
@[simp] theorem Unit.clearLatches_scales : (x.clearLatches).scales = x.scales := rfl
@[simp] theorem Unit.clearLatches_scaleSer : (x.clearLatches).scaleSer = x.scaleSer := rfl
@[simp] theorem Unit.clearLatches_own : (x.clearLatches).own = x.own := rfl
@[simp] theorem Unit.clearLatches_sl : (x.clearLatches).sl = [] := rfl
@[simp] theorem Unit.clearLatches_la : (x.clearLatches).la = [] := rfl
@[simp] theorem Unit.clearLatches_lb : (x.clearLatches).lb = [] := rfl
@[simp] theorem Unit.clearLatches_flight : (x.clearLatches).flight = x.flight := rfl
@[simp] theorem Unit.clearLatches_bank : (x.clearLatches).bank = x.bank := rfl
@[simp] theorem Unit.clearLatches_hloop : (x.clearLatches).hloop = x.hloop := rfl
@[simp] theorem Unit.clearLatches_gated : (x.clearLatches).gated = x.gated := rfl
@[simp] theorem Unit.clearLatches_afterEret : (x.clearLatches).afterEret = x.afterEret := rfl
@[simp] theorem Unit.clearLatches_markPc : (x.clearLatches).markPc = x.markPc := rfl
@[simp] theorem Unit.clearLatches_markSerial : (x.clearLatches).markSerial = x.markSerial := rfl
@[simp] theorem Unit.clearLatches_markDone : (x.clearLatches).markDone = x.markDone := rfl
@[simp] theorem Unit.clearLatches_trapCause : (x.clearLatches).trapCause = x.trapCause := rfl
@[simp] theorem Unit.clearLatches_trapPc : (x.clearLatches).trapPc = x.trapPc := rfl
@[simp] theorem Unit.clearLatches_trapVal : (x.clearLatches).trapVal = x.trapVal := rfl
@[simp] theorem Unit.clearLatches_trapVec : (x.clearLatches).trapVec = x.trapVec := rfl
@[simp] theorem Unit.clearLatches_hstat : (x.clearLatches).hstat = x.hstat := rfl
@[simp] theorem Unit.clearLatches_mstat : (x.clearLatches).mstat = x.mstat := rfl
@[simp] theorem Unit.clearLatches_cstat : (x.clearLatches).cstat = x.cstat := rfl
@[simp] theorem Unit.clearLatches_fidstat : (x.clearLatches).fidstat = x.fidstat := rfl
@[simp] theorem Unit.clearLatches_bcount : (x.clearLatches).bcount = x.bcount := rfl
@[simp] theorem Unit.clearLatches_pend : (x.clearLatches).pend = x.pend := rfl
@[simp] theorem Unit.clearLatches_duskTaken : (x.clearLatches).duskTaken = x.duskTaken := rfl
@[simp] theorem Unit.clearLatches_atoms : (x.clearLatches).atoms = x.atoms := rfl
@[simp] theorem Unit.clearLatches_serial : (x.clearLatches).serial = x.serial := rfl
@[simp] theorem Unit.clearLatches_tags : (x.clearLatches).tags = x.tags := rfl
@[simp] theorem Unit.clearLatches_mq : (x.clearLatches).mq = x.mq := rfl
@[simp] theorem Unit.clearLatches_q0 : (x.clearLatches).q0 = x.q0 := rfl
@[simp] theorem Unit.clearLatches_q1 : (x.clearLatches).q1 = x.q1 := rfl
@[simp] theorem Unit.clearLatches_sclds : (x.clearLatches).sclds = x.sclds := rfl
@[simp] theorem Unit.clearLatches_tlb0 : (x.clearLatches).tlb0 = x.tlb0 := rfl
@[simp] theorem Unit.clearLatches_tlb1 : (x.clearLatches).tlb1 = x.tlb1 := rfl
@[simp] theorem Unit.clearLatches_tlbw : (x.clearLatches).tlbw = x.tlbw := rfl
@[simp] theorem Unit.clearLatches_lastSlot0 : (x.clearLatches).lastSlot0 = x.lastSlot0 := rfl
@[simp] theorem Unit.clearLatches_lastSlot1 : (x.clearLatches).lastSlot1 = x.lastSlot1 := rfl
@[simp] theorem Unit.clearLatches_mail : (x.clearLatches).mail = x.mail := rfl
@[simp] theorem Unit.clearLatches_barIssued : (x.clearLatches).barIssued = x.barIssued := rfl
@[simp] theorem Unit.clearLatches_barWaiting : (x.clearLatches).barWaiting = x.barWaiting := rfl
@[simp] theorem Unit.clearLatches_pastEnd : (x.clearLatches).pastEnd = x.pastEnd := rfl
@[simp] theorem Unit.clearLatches_team : (x.clearLatches).team = x.team := rfl
@[simp] theorem Unit.clearLatches_member : (x.clearLatches).member = x.member := rfl
@[simp] theorem Unit.clearLatches_teamSize : (x.clearLatches).teamSize = x.teamSize := rfl
@[simp] theorem Unit.clearLatches_graph : (x.clearLatches).graph = x.graph := rfl
@[simp] theorem Unit.clearLatches_node : (x.clearLatches).node = x.node := rfl
@[simp] theorem Unit.clearLatches_queue : (x.clearLatches).queue = x.queue := rfl
@[simp] theorem Unit.clearLatches_recSerial : (x.clearLatches).recSerial = x.recSerial := rfl
@[simp] theorem Unit.clearLatches_card : (x.clearLatches).card = x.card := rfl
@[simp] theorem Unit.clearLatches_duskDeadline : (x.clearLatches).duskDeadline = x.duskDeadline := rfl
@[simp] theorem Unit.clearLatches_nextIssue : (x.clearLatches).nextIssue = x.nextIssue := rfl
@[simp] theorem Unit.clearLatches_colerr : (x.clearLatches).colerr = x.colerr := rfl
@[simp] theorem Unit.clearLatches_gsum1 : (x.clearLatches).gsum1 = x.gsum1 := rfl
@[simp] theorem Unit.clearLatches_gsum2 : (x.clearLatches).gsum2 = x.gsum2 := rfl
@[simp] theorem Unit.clearLatches_fidinj : (x.clearLatches).fidinj = x.fidinj := rfl
@[simp] theorem Unit.clearLatches_injCount : (x.clearLatches).injCount = x.injCount := rfl
@[simp] theorem Unit.clearLatches_calcnt : (x.clearLatches).calcnt = x.calcnt := rfl
@[simp] theorem Unit.clearLatches_vgen : (x.clearLatches).vgen = x.vgen := rfl
@[simp] theorem Unit.clearLatches_events : (x.clearLatches).events = x.events := rfl
@[simp] theorem Unit.clearLatches_kicked : (x.clearLatches).kicked = x.kicked := rfl
@[simp] theorem Unit.clearLatches_role : (x.clearLatches).role = x.role := rfl
@[simp] theorem Unit.clearLatches_hostate : (x.clearLatches).hostate = x.hostate := rfl
@[simp] theorem Unit.clearLatches_hofin : (x.clearLatches).hofin = x.hofin := rfl
@[simp] theorem Unit.clearLatches_was : (x.clearLatches).was = x.was := rfl
@[simp] theorem Unit.clearLatches_waiting : (x.clearLatches).waiting = x.waiting := rfl

/-! ### Reading a part after writing a part -/

@[simp] theorem State.unit_setUnit (u v : Nat) (y : Unit) : (s.setUnit u y).unit v = if v = u then y else s.unit v := by
  simp [State.unit]

@[simp] theorem State.unit_modUnit (u v : Nat) (f : Unit → Unit) :
    (s.modUnit u f).unit v = if v = u then f (s.unit u) else s.unit v := by
  simp [State.modUnit]

@[simp] theorem State.cur_modCur (f : Unit → Unit) : (s.modCur f).cur = f s.cur := by
  simp [State.cur, State.modCur]

@[simp] theorem State.unit_modCur (f : Unit → Unit) (v : Nat) :
    (s.modCur f).unit v = if v = s.focus then f s.cur else s.unit v := by
  simp [State.modCur, State.cur]

@[simp] theorem State.cget_cset (a b : Nat) (w : Word) : (s.cset a w).cget b = if b = a then w else s.cget b := by
  simp only [State.cget, State.cset_ctl]
  by_cases h : b = a
  · subst h; rw [tget_tput_same, if_pos rfl]
  · rw [tget_tput_ne _ _ _ _ h, if_neg h]

@[simp] theorem State.cget_csetField (a b lo w v : Nat) : (s.csetField a lo w v).cget b =
    if b = a then setField (s.cget a) lo (BitVec.ofNat w v) else s.cget b := by
  simp only [State.csetField, State.cget_cset]

@[simp] theorem State.cluster_setCluster (k j : Nat) (c : ClusterSt) :
    (s.setCluster k c).cluster j = if j = k then c else s.cluster j := by
  simp [State.cluster]

@[simp] theorem State.node_setNode (n m : Nat) (y : Node) : (s.setNode n y).node m = if m = n then y else s.node m := by
  simp [State.node]

@[simp] theorem State.port_setPort (p q : Nat) (y : Port) : (s.setPort p y).port q = if q = p then y else s.port q := by
  simp [State.port]

@[simp] theorem State.zone_setZone (z w : Nat) (y : Zone) : (s.setZone z y).zone w = if w = z then y else s.zone w := by
  simp [State.zone]

@[simp] theorem State.switchOf_setSwitch (r q : Nat) (y : Switch) :
    (s.setSwitch r y).switchOf q = if q = r then y else s.switchOf q := by
  simp [State.switchOf]

@[simp] theorem State.migrator_setMigrator (d e : Nat) (m : Migrator) :
    (s.setMigrator d m).migrator e = if e = d then m else s.migrator e := by
  simp [State.migrator]

/-! ### One home for each part: reads that do not see a write elsewhere -/

@[simp] theorem State.unit_cset (a u : Nat) (w : Word) : (s.cset a w).unit u = s.unit u := rfl
@[simp] theorem State.unit_csetField (a lo w v u : Nat) : (s.csetField a lo w v).unit u = s.unit u := rfl
@[simp] theorem State.unit_setCluster (k u : Nat) (c : ClusterSt) : (s.setCluster k c).unit u = s.unit u := rfl
@[simp] theorem State.unit_stir (u : Nat) : s.stir.unit u = s.unit u := rfl
@[simp] theorem State.unit_setNode (n u : Nat) (y : Node) : (s.setNode n y).unit u = s.unit u := rfl
@[simp] theorem State.unit_raiseVector (n u : Nat) : (s.raiseVector n).unit u = s.unit u := by simp [State.unit]
@[simp] theorem State.unit_send (m : Msg) (u : Nat) : (s.send m).unit u = s.unit u := by simp [State.unit]
@[simp] theorem State.cget_setUnit (u a : Nat) (y : Unit) : (s.setUnit u y).cget a = s.cget a := rfl
@[simp] theorem State.cget_modUnit (u a : Nat) (f : Unit → Unit) : (s.modUnit u f).cget a = s.cget a := rfl
@[simp] theorem State.cget_setCluster (k a : Nat) (c : ClusterSt) : (s.setCluster k c).cget a = s.cget a := rfl
@[simp] theorem State.cget_stir (a : Nat) : s.stir.cget a = s.cget a := rfl
@[simp] theorem State.cluster_setUnit (u k : Nat) (y : Unit) : (s.setUnit u y).cluster k = s.cluster k := rfl
@[simp] theorem State.cluster_modUnit (u k : Nat) (f : Unit → Unit) : (s.modUnit u f).cluster k = s.cluster k := rfl
@[simp] theorem State.cluster_cset (a k : Nat) (w : Word) : (s.cset a w).cluster k = s.cluster k := rfl

/-! ### Buffers -/

@[simp] theorem Unit.buf_setBuf (b c : Buf) (m : Memory) : (x.setBuf b m).buf c = if c = b then m else x.buf c := by
  cases b <;> cases c <;> rfl

@[simp] theorem Unit.regs_setBuf (b : Buf) (m : Memory) : (x.setBuf b m).regs = x.regs := by cases b <;> rfl
@[simp] theorem Unit.gated_setBuf (b : Buf) (m : Memory) : (x.setBuf b m).gated = x.gated := by cases b <;> rfl
@[simp] theorem Unit.flight_setBuf (b : Buf) (m : Memory) : (x.setBuf b m).flight = x.flight := by cases b <;> rfl

end Sys2Proof.Machine
end

