-- ==== Sys2Proof/Certificates/Slice0/Obligations.lean ====
section
/-!
DEFINITION. The statements for the provers.  `runs` says that a slot instruction passes the checks of R111 and that its
predicate lets it execute; `withFlight` that one result is issued and nothing else changes.
-/
open Sys2Proof Sys2Proof.Machine

/-! ### Scalar slot -/

/-- R128 to R133, R135, R138, R141, R142: the two-register operations deliver their value with their latency into sD and
the scalar latches, with D set where a source carries D, and change nothing else. R136, R139, R140: bit counts, bit
reversal, extensions and funnel shifts, each with latency 1 and nothing else changed. -/
def Obligations.ScalarRegisterResults : Prop :=
  (∀ row ∈ aluRows, ∀ (o : SR) (s : State), s.runs (row.instr o) →
     exec (row.instr o) s = .next (s.withFlight (s.scalarResult o.nw (.sreg o.d.toNat) row.latency
       (row.value (s.sval o.a) (s.sval o.b)) (s.sdef o.a || s.sdef o.b)))) ∧
  (∀ (o : SR) (s : State),
     let a := s.sval o.a
     let d := s.sval o.d
     let one (v : Word) (m : Bool) : Host.Outcome State Fault Refusal :=
       .next (s.withFlight (s.scalarResult o.nw (.sreg o.d.toNat) 1 v m))
     (s.runs (.clz o) → exec (.clz o) s = one (BitVec.ofNat 64 (leadingZeros a)) (s.sdef o.a)) ∧
     (s.runs (.ctz o) → exec (.ctz o) s = one (BitVec.ofNat 64 (trailingZeros a)) (s.sdef o.a)) ∧
     (s.runs (.popc o) → exec (.popc o) s = one (BitVec.ofNat 64 (oneBitCount a)) (s.sdef o.a)) ∧
     (s.runs (.brev o) → ∃ v : Word, (∀ i < 64, bitOf v (63 - i) = bitOf a i) ∧ exec (.brev o) s = one v (s.sdef o.a)) ∧
     (o.b = 0 → s.runs (.sext o) → exec (.sext o) s = one ((a.setWidth 8).signExtend 64) (s.sdef o.a)) ∧
     (o.b = 1 → s.runs (.sext o) → exec (.sext o) s = one ((a.setWidth 16).signExtend 64) (s.sdef o.a)) ∧
     (o.b = 2 → s.runs (.sext o) → exec (.sext o) s = one ((a.setWidth 32).signExtend 64) (s.sdef o.a)) ∧
     (o.b = 0 → s.runs (.zext o) → exec (.zext o) s = one ((a.setWidth 8).setWidth 64) (s.sdef o.a)) ∧
     (o.b = 1 → s.runs (.zext o) → exec (.zext o) s = one ((a.setWidth 16).setWidth 64) (s.sdef o.a)) ∧
     (o.b = 2 → s.runs (.zext o) → exec (.zext o) s = one ((a.setWidth 32).setWidth 64) (s.sdef o.a)) ∧
     (s.runs (.fshl o) →
       exec (.fshl o) s = one (((d ++ a : BitVec 128) <<< o.b.toNat).extractLsb' 64 64) (s.sdef o.d || s.sdef o.a)) ∧
     (s.runs (.fshr o) →
       exec (.fshr o) s = one (((a ++ d : BitVec 128) >>> o.b.toNat).extractLsb' 0 64) (s.sdef o.d || s.sdef o.a)))

/-- R134, R137, R143, R144: immediates, scaled addition, constants and selection, each with latency 1 and nothing else
changed. R145, R146: comparisons and predicate operations deliver 0 or 1 into pD with latency 1 and change nothing
else. -/
def Obligations.ScalarImmediateAndPredicateResults : Prop :=
  ((∀ row ∈ immRows, ∀ (o : SI) (s : State), s.runs (row.instr o) →
     exec (row.instr o) s = .next (s.withFlight (s.scalarResult o.nw (.sreg o.d.toNat) 1
       (row.value (s.sval o.a) o.imm9) (s.sdef o.a)))) ∧
   (∀ row ∈ immShiftRows, ∀ (o : SI) (s : State), o.imm9.toNat < 64 → s.runs (row.instr o) →
     exec (row.instr o) s = .next (s.withFlight (s.scalarResult o.nw (.sreg o.d.toNat) 1
       (row.value (s.sval o.a) o.imm9) (s.sdef o.a)))) ∧
   (∀ (f : BitVec 3) (o : SR) (s : State), s.runs (.addsh f o) →
     exec (.addsh f o) s = .next (s.withFlight (s.scalarResult o.nw (.sreg o.d.toNat) 1
       (BitVec.ofNat 64 ((s.sval o.a).toNat + (s.sval o.b).toNat * 2 ^ f.toNat)) (s.sdef o.a || s.sdef o.b)))) ∧
   (∀ (o : SL) (s : State), s.runs (.movi o) →
     exec (.movi o) s = .next (s.withFlight (s.scalarResult false (.sreg o.d.toNat) 1
       (BitVec.ofInt 64 o.imm18.toInt) false))) ∧
   (∀ (o : SL) (s : State), s.runs (.movh o) →
     exec (.movh o) s = .next (s.withFlight (s.scalarResult false (.sreg o.d.toNat) 1
       (BitVec.ofNat 64 ((s.sval o.d).toNat * 2 ^ 18 + o.imm18.toNat)) (s.sdef o.d)))) ∧
   (∀ (q : BitVec 3) (o : SR) (s : State), s.runs (.sel q o) →
     exec (.sel q o) s = .next (s.withFlight (s.scalarResult o.nw (.sreg o.d.toNat) 1
       (if (s.src.preg q.toNat).1 then s.sval o.a else s.sval o.b)
       ((s.src.preg q.toNat).2 || s.sdef o.a || s.sdef o.b))))) ∧
  ((∀ row ∈ condRows, ∀ (o : SR) (s : State), s.runs (row.reg o) →
     exec (row.reg o) s = .next (s.withFlight (s.scalarResult o.nw (.preg o.d.toNat) 1
       (truth (row.holds (s.sval o.a) (s.sval o.b))) (s.sdef o.a || s.sdef o.b)))) ∧
   (∀ row ∈ condRows, ∀ (o : SI) (s : State), s.runs (row.imm o) →
     exec (row.imm o) s = .next (s.withFlight (s.scalarResult o.nw (.preg o.d.toNat) 1
       (truth (row.holds (s.sval o.a) (o.imm9.signExtend 64))) (s.sdef o.a)))) ∧
   (∀ (o : SR) (s : State),
     let a := s.src.preg o.a.toNat
     let b := s.src.preg o.b.toNat
     let pd (v m : Bool) : Host.Outcome State Fault Refusal :=
       .next (s.withFlight (s.scalarResult o.nw (.preg o.d.toNat) 1 (truth v) m))
     (s.runs (.pand o) → exec (.pand o) s = pd (a.1 && b.1) (a.2 || b.2)) ∧
     (s.runs (.por o) → exec (.por o) s = pd (a.1 || b.1) (a.2 || b.2)) ∧
     (s.runs (.pxor o) → exec (.pxor o) s = pd (a.1 != b.1) (a.2 || b.2)) ∧
     (s.runs (.pnot o) → exec (.pnot o) s = pd (!a.1) a.2)))

/-- R129, R246: a slot whose predicate does not let it execute has no effect and delivers no result. -/
def Obligations.NotExecutedHasNoEffect : Prop :=
  ∀ (i : Instr) (s : State), s.ready i → s.src.executes i = false → exec i s = .next s

/-! ### Control flow -/

/-- R148, R149, R151, R153: BRI, CALL, BR, RET and a CHK of a marked value branch to their target when the bundle ends;
BRI, BR and CHK leave the loops whose body does not hold the target, CALL and RET leave none, and CALL writes o + 32
to s55 with latency 1. Nothing else changes. -/
def Obligations.BranchesTaken : Prop :=
  (∀ (o : SB) (s : State), s.runs (.bri o) →
    exec (.bri o) s = .next ((s.branches (s.relative o.off20.toInt)).modCur
      (fun x => x.setLoops (leavesLoops (s.relative o.off20.toInt) x.loopStack)))) ∧
  (∀ (o : SB) (s : State), s.runs (.call o) →
    exec (.call o) s = .next ((s.branches (s.relative o.off20.toInt)).withFlight
      (s.scalarResult false (.sreg 55) 1 (BitVec.ofNat 64 (s.src.pc + 32)) false))) ∧
  (∀ (o : SR) (s : State), s.runs (.br o) →
    exec (.br o) s = .next ((s.branches (s.sval o.a).toNat).modCur
      (fun x => x.setLoops (leavesLoops (s.sval o.a).toNat x.loopStack)))) ∧
  (∀ (o : SR) (s : State), s.runs (.ret o) → exec (.ret o) s = .next (s.branches (s.sval o.a).toNat)) ∧
  (∀ (o : SI) (s : State), s.runs (.chk o) → s.sdef o.a = true →
    exec (.chk o) s = .next ((s.branches (s.relative o.imm9.toInt)).modCur
      (fun x => x.setLoops (leavesLoops (s.relative o.imm9.toInt) x.loopStack)))) ∧
  (∀ (o : SI) (s : State), s.runs (.chk o) → s.sdef o.a = false → exec (.chk o) s = .next s)

/-- R150: LOOP with a count of zero skips its body; any other count opens an entry from the next bundle to the last one
and changes nothing else. R5, R33, R34, R148, R150, R151: when a bundle without a system instruction ends, every
result in flight is one bundle nearer; a taken branch goes to its target with every latch zero; without one the
back-edge step of R151 gives the loop stack and the next offset; no other unit changes. R147, R161, R281: NOP, WAITC
whose bundle has waited and FENCE only let the bundle go on. Where the spec leaves a reading open, the statement holds
of the model's: log entry 23 for LOOP, and log entry 15 for FENCE, by which no SST is outstanding after its bundle. -/
def Obligations.LoopsAndBundleEnd : Prop :=
  (∀ (o : SI) (s : State), s.runs (.loop o) →
     let c := (s.sval o.a).toNat % 2 ^ 32
     let last := s.src.pc + 32 * o.imm9.toNat
     (c = 0 → exec (.loop o) s = .next { s with issue := { s.issue with skip := some (last + 32) } }) ∧
     (c ≠ 0 → exec (.loop o) s = .next (s.modCur (fun x =>
       x.setLoops ({ start := s.src.pc + 32, last := last, remaining := c } :: x.loopStack))))) ∧
  (∀ (s : State) (x0 : Machine.Unit), s.issue.snap = some x0 → s.issue.after = none →
     let t := s.finishBundle
     let x := t.unit s.focus
     x.flight = s.cur.flight.map (fun r => { r with k := r.k - 1 }) ∧
     t.issue = {} ∧ (∀ v, v ≠ s.focus → t.unit v = s.unit v) ∧
     (∀ a, s.issue.branch = some a →
       x.pc = a ∧ x.loopStack = s.cur.loopStack ∧
         ∀ k, x.sl.getD k {} = {} ∧ x.la.getD k {} = {} ∧ x.lb.getD k {} = {}) ∧
     (s.issue.branch = none →
       let b := backEdgeStep s.cur.pc s.cur.loopStack
       x.loopStack = b.1 ∧ x.pc = b.2.getD (s.issue.skip.getD (s.cur.pc + 32)))) ∧
  ((∀ s : State, s.runs .nop → exec .nop s = .next s) ∧
   (∀ (o : SR) (s : State), s.runs (.waitcTag o) → exec (.waitcTag o) s = .next s) ∧
   (∀ (o : SR) (s : State), s.runs (.waitcMask o) → exec (.waitcMask o) s = .next s) ∧
   (∀ (o : SR) (s : State), s.runs (.fence o) → exec (.fence o) s = .next s))

/-! ### Local accesses, crossing and staging -/

/-- R131, R155 to R157: LD delivers the little-endian value at its effective offset after 4 bundles; LDSP does the same,
or delivers 0 with D set where a condition of R155 holds or its address is marked. Nothing else changes. -/
def Obligations.LoadsDeliver : Prop :=
  ∀ (b : Buf) (f : BitVec 3) (o : SR) (s : State),
    (s.runs (.ld b f o) → exec (.ld b f o) s = .next (s.withFlight (s.scalarResult o.nw (.sreg o.d.toNat) 4
      (extended f (s.loaded b f o)) false))) ∧
    (s.runs (.ldsp b f o) → s.accessFault b f o = false → s.sdef o.a = false →
      exec (.ldsp b f o) s = .next (s.withFlight (s.scalarResult o.nw (.sreg o.d.toNat) 4
        (extended f (s.loaded b f o)) false))) ∧
    (s.runs (.ldsp b f o) → s.accessFault b f o = true ∨ s.sdef o.a = true →
      exec (.ldsp b f o) s = .next (s.withFlight (s.scalarResult o.nw (.sreg o.d.toNat) 4 0 true)))

/-- R84, R158, R293: ST changes the bytes of its buffer at the effective offset to those of sD, as the unit's own accesses
read them, and no other byte of any buffer; no register changes, and nothing outside the unit. In handler mode, where
the store goes to the buffer at once, the buffers are in the canonical form. -/
def Obligations.StoreWritesItsBytes : Prop :=
  ∀ (b : Buf) (f : BitVec 3) (o : SR) (s : State), s.runs (.st b f o) → 0 ≤ s.effective f o →
    (s.cur.handler = true → ∀ c, Memory.wf (s.cur.buf c) = true) →
    ∃ t, exec (.st b f o) s = .next t ∧ s.onlyFocus t ∧
      t.cur.regs = s.cur.regs ∧ t.cur.flight = s.cur.flight ∧ t.cur.pc = s.cur.pc ∧ t.cur.hstat = s.cur.hstat ∧
      ∀ (c : Buf) (a : Nat), t.cur.bget c a =
        if c = b ∧ (s.effective f o).toNat ≤ a ∧ a < (s.effective f o).toNat + accessBytes f
        then byteOf (s.sval o.d) (a - (s.effective f o).toNat) else s.cur.bget c a

/-- R159, R160: XEXT delivers a lane, its sign extension or a pair of lanes after 2 bundles; STG writes a staging register
after 1 bundle and enters no latch. Nothing else changes. R215 to R217: the tile-register instructions move the 32
bits of each governed lane unchanged in the raw form, and convert them as VCVT does otherwise: TWR to a row after 3
bundles, TRDC from a column and TRDR from a row after 4. Nothing else changes. -/
def Obligations.CrossingStagingAndTileRegisters : Prop :=
  ((∀ (f : BitVec 3) (o : SR) (s : State), s.runs (.xext f o) →
     let c : Cluster := if bitOf f 0 then .vb else .va
     let v := s.src.vsrc c o.a
     let p := s.src.vpair c o.a
     let lane (r : VReg) : BitVec 32 := r.extractLsb' (32 * o.b.toNat) 32
     (f.toNat / 2 = 0 → exec (.xext f o) s = .next (s.withFlight (s.scalarResult o.nw (.sreg o.d.toNat) 2
       ((lane v.lo).setWidth 64) v.d))) ∧
     (f.toNat / 2 = 1 → exec (.xext f o) s = .next (s.withFlight (s.scalarResult o.nw (.sreg o.d.toNat) 2
       ((lane v.lo).signExtend 64) v.d))) ∧
     (f.toNat / 2 = 2 → exec (.xext f o) s = .next (s.withFlight (s.scalarResult o.nw (.sreg o.d.toNat) 2
       (lane p.hi ++ lane p.lo) p.d)))) ∧
   (∀ (o : SR) (s : State), s.runs (.stg o) →
     exec (.stg o) s = .next (s.withFlight { s.scalarResult false (.staging o.d.toNat) 1 (s.sval o.a) false with
       group := none }))) ∧
  (∀ (c : Cluster) (o : VOps) (s : State),
     let n := o.fn.toNat % 4
     let row (r : Nat) : VVal := tget {} s.src.regs.tx (64 * n + r)
     let a := s.src.vsrc c o.va
     let g := (s.src.gov c o).1
     let raw := o.fn.toNat / 4 = 7
     let ks := Fmt.ofCode (o.fn.toNat / 4)
     let kt := Fmt.ofCode o.ty.toNat
     let moves (i : Instr) (dest : Dest) (lat : Nat) (d : Bool) (src : Nat → BitVec 32) : Prop :=
       WellFormed i = true → s.runs i →
         (raw → ∃ t, exec i s = .next t ∧ s.vectorResult t c o.nw dest g lat (d || s.gdef c o) 32 src (fun _ => 0)) ∧
         (¬ raw →
           let el := convertedElem ks.width kt.width src
             (fun _ _ v => cvtElem (.flt ks) (.flt kt) (s.src.fctx o) 0 v)
           ∃ t, exec i s = .next t ∧ s.vectorResult t c o.nw dest g lat (d || s.gdef c o) kt.width
             (fun e => BitVec.ofNat kt.width (el e).code) (fun e => (el e).fl))
     moves (.twr c o) (.row n o.vb.toNat) 3 a.d a.lane ∧
     moves (.trdc c o) (.vreg c o.vd.toNat) 4 ((List.range 64).any (fun r => (row r).d))
       (fun r => (row r).v.extractLsb' (32 * o.vb.toNat) 32) ∧
     moves (.trdr c o) (.vreg c o.vd.toNat) 4 (row o.vb.toNat).d
       (fun l => (row o.vb.toNat).v.extractLsb' (32 * l) 32))

/-- R30, R162: BAR counts the member's arrival at its next instance, once while it waits, and the wait is over exactly
when every other member of the team has arrived there or has executed END in task mode; no other unit changes. R86,
R89, R163: XFER puts the named 64 KiB unit of the tile's own buffer, or the covering entry of its cluster's region
table, in transfer from the tile to the named member; a transfer to the tile itself changes nothing. -/
def Obligations.BarrierAndTransfer : Prop :=
  (∀ (o : SR) (s : State), s.runs (.bar o) →
     let n := if s.cur.barWaiting then s.cur.barIssued else s.cur.barIssued + 1
     ∃ t, exec (.bar o) s = .next t ∧ s.onlyFocus t ∧ t.cur.barIssued = n ∧ t.cur.regs = s.cur.regs ∧
       ((∀ v ∈ s.teamUnits s.focus, v ≠ s.focus →
           n ≤ (s.unit v).barIssued ∨ (s.unit v).pastEnd = true) →
         t.cur.barWaiting = false) ∧
       ((∃ v ∈ s.teamUnits s.focus, v ≠ s.focus ∧
           ¬ (n ≤ (s.unit v).barIssued ∨ (s.unit v).pastEnd = true)) →
         t.cur.barWaiting = true)) ∧
  (∀ (o : SR) (s : State), s.runs (.xfer o) →
     let m := (s.sval o.b).toNat
     (∀ t, xferTarget (s.sval o.a) = some t → m = s.cur.member → exec (.xfer o) s = .next s) ∧
     (∀ b a, xferTarget (s.sval o.a) = some (.buf b a) → m ≠ s.cur.member →
       ∃ t, exec (.xfer o) s = .next t ∧ s.onlyFocus t ∧ t.cur.regs = s.cur.regs ∧
         tget (.owned t.cur.member) t.cur.own (ownIndex b a) = .transfer m s.cur.serial ∧
         ∀ k, k ≠ ownIndex b a →
           tget (.owned t.cur.member) t.cur.own k = tget (.owned s.cur.member) s.cur.own k) ∧
     (∀ seg a r, xferTarget (s.sval o.a) = some (.space seg a) → m ≠ s.cur.member →
       s.regionAt (clusterOf s.focus) seg s.cur.card.aspace a = some r →
       ∃ t, exec (.xfer o) s = .next t ∧ t.units = s.units ∧
         t.regionAt (clusterOf s.focus) seg s.cur.card.aspace a =
           some { r with st := .transfer s.cur.member m s.cur.serial } ∧
         ∀ k, k ≠ clusterOf s.focus → t.cluster k = s.cluster k))

/-- R91, R92, R164, R165: an ATOM on a word that translates into cluster SRAM sends one request, with its operation,
width, operand and comparand, to the engine of the word's home cluster, behind the earlier ones; without NW its
register awaits the reply; no register is written. That the address is translated by a walk of the segment directory at issue,
past the TLBs, is the model's reading (log entry 29). -/
def Obligations.AtomSendsItsRequest : Prop :=
  ∀ row ∈ atomRows, ∀ (dbl : Bool) (o : SR) (s : State) (x : Xlat) (home : Nat), s.runs (row.instr dbl o) →
    s.walkSegment s.src.card.aspace (s.sval o.a).toNat = some x → x.place = .sram home →
    ∃ t r, exec (row.instr dbl o) s = .next t ∧ t.cur.regs = s.cur.regs ∧ t.cur.flight = s.cur.flight ∧
      (t.cluster home).reqs = (s.cluster home).reqs ++ [r] ∧
      r.unit = s.focus ∧ r.op = row.op ∧ r.bytes = (if dbl then 8 else 4) ∧
      r.addr = (x.loc (s.sval o.a).toNat).addr ∧ r.v = s.sval o.b ∧ r.cmp = s.sval o.d ∧
      r.id = (if o.nw then none else some s.cur.serial) ∧
      t.cur.atoms = s.cur.atoms ++ (if o.nw then [] else
        [{ reg := o.d.toNat, id := s.cur.serial, serial := s.cur.serial, handler := s.cur.handler }]) ∧
      t.cur.serial = s.cur.serial + 1 ∧
      (∀ v, v ≠ s.focus → t.unit v = s.unit v) ∧ (∀ k, k ≠ home → t.cluster k = s.cluster k)

/-! ### Atomic engines and hand-over -/

/-- R91 to R93, R164: when an engine grants the first request of a requester, the word at its address takes the new value of
the operation, no other byte of the cluster's memory changes its value, the reply carries the prior word, the round-robin
starting point moves past the requester, and no unit changes. The word's block is stored raw, links that carry the request are
open (R460), no drain is under way, the engine's lines are 64 bytes each, by rising number, and the cluster's memory is in
canonical form. -/
def Obligations.AtomicEngineApplies : Prop :=
  ∀ (k q : Nat) (r : AtomReq) (s : State), k < 32 → s.isShed (k / 8) = false → s.diePhase (k / 8) ≤ 2 → s.duskPhase ≤ 1 →
    (r.cs = 0 ∨ s.isCompressed { place := .sram k, addr := r.addr } = false) →
    (s.cluster k).granted = some q → (s.cluster k).firstReq q = some r →
    s.wayOpen (dieAt r.unit) (k / 8) r.addr = true →
    (r.bytes = 4 ∨ r.bytes = 8) → r.addr % r.bytes = 0 →
    (s.cluster k).LinesWhole → Memory.wf (s.sramOf k) = true →
    let old := natOfBytes ((List.range r.bytes).map (fun i => s.sramGet k (r.addr + i)))
    let w := 8 * r.bytes
    let new := atomNew r.op w (BitVec.ofNat w old) (r.v.setWidth w) (r.cmp.setWidth w)
    ∃ t, exec (.atomApply k q) s = .next t ∧
      (∀ i < r.bytes, t.sramGet k (r.addr + i) = byteOf new i) ∧
      (∀ a, a < r.addr ∨ r.addr + r.bytes ≤ a → t.sramGet k a = s.sramGet k a) ∧
      (t.cluster k).replies = (s.cluster k).replies ++ (match r.id with
        | none => []
        | some id => [{ unit := r.unit, node := r.node, id := id, v := BitVec.ofNat 64 old, addr := r.addr }]) ∧
      (t.cluster k).grantFrom = (q + 1) % 18 ∧ (t.cluster k).reqs = (s.cluster k).reqs.erase r ∧ t.units = s.units

/-- R89, R93, R165, R289: a reply writes its register, with D clear, and the register awaits it no more; in a handler that
did not issue the request it waits in the bank, and no register changes, both once links from the engine are open (R460);
and a 64 KiB unit of a buffer in transfer
becomes the target's once no earlier command of its owner touches it. Where the spec leaves a reading open, the
statement holds of the model's (log entries 31 and 46). -/
def Obligations.RepliesAndHandovers : Prop :=
  (∀ (u id k : Nat) (r : AtomReply) (a : PendAtom) (s : State), u < unitCount → k < 32 →
    (∀ j < 32, ∀ p ∈ (s.cluster j).replies, p.unit = u → p.id = id → j = k ∧ p = r) →
    r ∈ (s.cluster k).replies → r.unit = u → r.id = id → r.node = none → s.wayOpen (k / 8) (dieAt u) r.addr = true →
    (s.unit u).atoms.find? (fun p => p.id == id) = some a →
    ((s.unit u).bank = none ∨ (s.unit u).handler = false ∨ a.handler = true →
      ∃ t, exec (.atomReply u id) s = .next t ∧
        tget {} (t.unit u).regs.s a.reg = { v := r.v, d := false } ∧
        (∀ n, n ≠ a.reg → tget {} (t.unit u).regs.s n = tget {} (s.unit u).regs.s n) ∧
        (∀ p ∈ (t.unit u).atoms, p.id ≠ id) ∧ (∀ v, v ≠ u → t.unit v = s.unit v)) ∧
    (∀ b, (s.unit u).bank = some b → (s.unit u).handler = true → a.handler = false →
      ∃ t, exec (.atomReply u id) s = .next t ∧ (t.unit u).regs = (s.unit u).regs ∧
        (t.unit u).bank = some { b with replies := b.replies ++ [(a.reg, r.v)] })) ∧
  (∀ (owner x m since : Nat) (s : State), owner < 512 → x < 32 →
    tget (.owned (s.unit owner).member) (s.unit owner).own x = .transfer m since →
    spansMeet [{ space := .buf owner (bufUnit x).1, lo := (bufUnit x).2, hi := (bufUnit x).2 + 65535 }]
      (s.commandSpans owner (s.unit owner) since) = false →
    ∃ t, exec (.xferHandover owner x) s = .next t ∧
      t = s.modUnit owner (fun y => { y with own := tput y.own x (.owned m) }))

/-! ### System instructions -/

/-- R274 to R277, R453: RDSYS delivers the register as it stands, with D clear, after 2 bundles, and changes nothing else;
a read of EVPOP takes the event that it returns. R59, R237, R271, R274, R275, R277, R453: WRSYS changes the writable
fields of its register and nothing else; a write of WDKICK restarts the watchdog's count. Where the spec leaves a
reading open, the statement holds of the model's (log entries 14 and 22). -/
def Obligations.SystemRegisters : Prop :=
  (∀ (o : SR) (s : State), s.runs (.rdsys o) →
     let to2 (v : Word) : State := s.withFlight (s.scalarResult o.nw (.sreg o.d.toNat) 2 v false)
     (∀ row ∈ sysRows, numBA o = row.1 → exec (.rdsys o) s = .next (to2 (row.2 s))) ∧
     (numBA o = 0x001 → s.focus < 512 → exec (.rdsys o) s = .next (to2 (BitVec.ofNat 64
       (tileIdOf s.modnum (s.focus / 128) (s.focus / 16 % 8) (s.focus % 16))))) ∧
     (numBA o = 0x002 → s.focus < 512 → exec (.rdsys o) s = .next (to2 (BitVec.ofNat 64
       ((s.src.teamSize - 1) % 16 * 2 ^ 52 + s.src.member % 16 * 2 ^ 48 + s.src.graph % 2 ^ 32 * 2 ^ 16 +
         s.src.node % 2 ^ 16)))) ∧
     (numBA o = 0x003 → s.focus < 512 → exec (.rdsys o) s = .next (to2 (BitVec.ofNat 64
       (s.src.queue % 65536 * 2 ^ 48 + s.src.recSerial % 2 ^ 48)))) ∧
     (numBA o = 0x009 → ∃ v, exec (.rdsys o) s = .next (to2 v) ∧
       (bitOf v 0 = (bitOf s.src.hstat 0 || s.src.handler)) ∧
       (bitOf v 4 = (bitOf s.src.hstat 4 || s.src.pend.any (fun p => p.cause == .dusk))) ∧
       (bitOf v 5 = (bitOf s.src.hstat 5 || s.src.pend.any (fun p => p.cause == .twilightShed))) ∧
       ∀ i < 64, i ∉ [0, 3, 4, 5] → bitOf v i = bitOf s.src.hstat i) ∧
     (numBA o = 0x802 → exec (.rdsys o) s = .next ((to2 (s.src.events.headD 0)).modCur
       (fun x => { x with events := x.events.drop 1 })))) ∧
  (∀ (o : SR) (s : State), s.runs (.wrsys o) →
     let v := s.sval o.a
     let keep (m old : Word) : Word := (old &&& ~~~m) ||| (v &&& m)
     let set (f : Machine.Unit → Machine.Unit) : Host.Outcome State Fault Refusal := .next (s.modCur f)
     (numBD o = 0x000 → exec (.wrsys o) s = set (fun x => { x with regs := { x.regs with fcsr := v &&& 0x1F1F3F } })) ∧
     (numBD o = 0x006 → exec (.wrsys o) s = set (fun x => { x with trapPc := v })) ∧
     (numBD o = 0x008 → exec (.wrsys o) s = set (fun x => { x with trapVec := v })) ∧
     (numBD o = 0x009 → exec (.wrsys o) s = set (fun x => { x with hstat := keep 0xC2 x.hstat })) ∧
     (numBD o = 0x00A → s.focus < 512 →
       exec (.wrsys o) s = set (fun x => { x with mstat := keep 0x0000FFFF000000FC x.mstat })) ∧
     (numBD o = 0x00B → exec (.wrsys o) s = set (fun x => { x with cstat := keep 0xFFFFFFFF00FF3F0E x.cstat })) ∧
     (numBD o = 0x00C → s.focus < 512 →
       exec (.wrsys o) s = set (fun x => { x with fidstat := keep 0xFFFFFFFF00000100 x.fidstat })) ∧
     (numBD o = 0x801 → exec (.wrsys o) s = set (fun x => { x with kicked := s.now })) ∧
     (numBD o = 0x803 → ∃ t, exec (.wrsys o) s = .next t ∧ t.units = s.units ∧
       (s.issue.snap.isSome = true → t.finishBundle = t.endBundle.hoack s.focus v)))

/-- R281, R282: SLD delivers the register after 16 bundles, all ones where it lies on a die in warm reset; SST writes it
when its bundle ends, and does nothing on such a die; both then set CSTAT.ERR with code 0x02 and tag 0. Where the spec
leaves a reading open, the statement holds of the model's: that SST takes effect at its bundle's end (log entry 15), and
tag 0 (log entry 48). -/
def Obligations.ControlSpaceAccess : Prop :=
  ∀ (o : SR) (s : State),
    let a := (s.sval o.a).toNat
    let inReset (t : State) : Prop := ∃ r d, cregOf a = some r ∧ r.die = some d ∧ (t.diePhase d = 3 ∨ t.diePhase d = 4)
    (s.runs (.sld o) → ¬ inReset s →
      exec (.sld o) s = .next (s.withFlight (s.scalarResult o.nw (.sreg o.d.toNat) 16 (s.ctlRead a) false))) ∧
    (s.runs (.sld o) → inReset s →
      ∃ t, exec (.sld o) s = .next t ∧ s.onlyFocus t ∧
        t.cur.flight = s.cur.flight ++ [s.scalarResult o.nw (.sreg o.d.toNat) 16 0xFFFFFFFFFFFFFFFF false] ∧
        bitOf t.cur.cstat 1 = true ∧ field t.cur.cstat 16 8 = 2 ∧ field t.cur.cstat 8 6 = 0) ∧
    (s.runs (.sst o) → s.issue.snap.isSome = true → ∃ t, exec (.sst o) s = .next t ∧ t.units = s.units ∧
      (¬ inReset t.endBundle → t.finishBundle = t.endBundle.ctlWrite a (s.sval o.b)) ∧
      (inReset t.endBundle → t.finishBundle.ctl = t.endBundle.ctl ∧ t.endBundle.onlyFocus t.finishBundle))

/-- R278 to R280, R290, R301: at the end of its bundle TRAP makes a BREAKPOINT ready with its immediate; ERET leaves
handler mode at TRAPPC, with the bank's latches and results back beside the handler's own; DUSKDONE halts a tile that
handles DUSK or TWILIGHT_SHED and else does nothing. R26, R151, R154, R293: at the end of its bundle END in task mode
writes the gated stores into the buffers, empties the loop stack and ends the task, at once where no command is left;
in handler mode, or with a delayed trap that is pending, it ends the member as faulted (R232), with its TRAPCAUSE or that
of such a trap; the handler's gated stores are discarded. Where the spec leaves a reading open, the statement holds of
the model's (log entry 14). -/
def Obligations.SystemInstructionsAtBundleEnd : Prop :=
  (∀ (s : State), s.issue.snap.isSome = true →
     (∀ o : SR, s.runs (.trap o) → ∃ t, exec (.trap o) s = .next t ∧ t.units = s.units ∧
       (t.finishBundle.unit s.focus).pend = s.cur.pend.map (fun p => { p with late := false }) ++
         [{ cause := .breakpoint, resume := none, val := BitVec.ofNat 64 (numBA o), rollback := false,
            handler := s.cur.handler }]) ∧
     (s.runs .eret → s.cur.handler = true → ∀ b, s.cur.bank = some b → b.replies = [] →
       ∃ t, exec .eret s = .next t ∧ t.units = s.units ∧
         let x := t.finishBundle.unit s.focus
         x.handler = false ∧ x.pc = s.cur.trapPc.toNat ∧ x.sl = b.sl ∧ x.la = b.la ∧ x.lb = b.lb ∧
         x.flight = b.flight ++ s.cur.flight.map (fun r => { r with k := r.k - 1 }) ∧ x.afterEret = true ∧
         x.regs.s = s.cur.regs.s ∧ x.loopStack = s.cur.regs.loops ∧ x.gated = s.cur.gated ∧ x.bank = none) ∧
     (s.runs .duskdone → ∃ t, exec .duskdone s = .next t ∧ t.units = s.units ∧
       (s.cur.duskTaken = true → (t.finishBundle.unit s.focus).run = .halted) ∧
       (s.cur.duskTaken = false → (∀ p ∈ s.cur.pend, p.cause ≠ .dusk ∧ p.cause ≠ .twilightShed) →
         (t.finishBundle.unit s.focus).run = s.cur.run))) ∧
  (∀ (s : State), s.issue.snap.isSome = true → s.issue.branch = none → s.focus < 512 → s.runs .endTask →
     (∀ c, Memory.wf (s.cur.buf c) = true) →
     ∃ t, exec .endTask s = .next t ∧ t.units = s.units ∧
       let x := t.finishBundle.unit s.focus
       x.gated = [] ∧ x.regs.loops = [] ∧
       (s.cur.handler = false → (∀ b a, mget (x.buf b) a = s.cur.bget b a) ∧
         ((∀ p ∈ s.cur.pend, p.delayed = false) → x.run = if s.cur.quiet then .ended else .ending) ∧
         ((∃ p ∈ s.cur.pend, p.delayed = true) → (x.run = if s.cur.quiet then .faulted else .faulting) ∧
           ∃ p ∈ s.cur.pend, p.delayed = true ∧ x.trapCause = p.cause.word)) ∧
       (s.cur.handler = true → (∀ b, x.buf b = s.cur.buf b) ∧ x.trapCause = s.cur.trapCause ∧
         x.run = if s.cur.quiet then .faulted else .faulting))

/-! ### Traps and marks -/

/-- R284, R289: a synchronous trap outside handler mode moves the results in flight and the latches into the bank, sets
TRAPCAUSE, TRAPPC and TRAPVAL, begins handler mode with every latch zero and no result in flight, and fetches from
TRAPVEC; the registers, the gated stores and the queued commands stay. -/
def Obligations.TrapEntry : Prop :=
  ∀ (u : Nat) (x : Machine.Unit) (c : Cause) (v : Word), x.handler = false →
    let y := x.syncTrap u c v
    y.bank = some { flight := x.flight, sl := x.sl, la := x.la, lb := x.lb, replies := [] } ∧
    y.trapCause.toNat = c.code + (if c = .dusk ∨ c = .twilightShed then 256 else 0) ∧
    y.trapPc = BitVec.ofNat 64 (x.pc % 2 ^ 17) ∧ y.trapVal = v ∧ y.handler = true ∧ y.pc = x.trapVec.toNat ∧
    y.flight = [] ∧ (∀ k, y.sl.getD k {} = {} ∧ y.la.getD k {} = {} ∧ y.lb.getD k {} = {}) ∧
    y.regs = x.regs ∧ y.gated = x.gated ∧ y.hloop = none ∧ y.q0 = x.q0 ∧ y.q1 = x.q1 ∧ y.mq = x.mq ∧ y.tags = x.tags ∧
    y.atoms = x.atoms ∧ y.run = x.run

/-- R154, R288: a synchronous cause in handler mode ends a tile's member as faulted with the second cause, its gated
stores discarded, and halts a sequencer. That TRAPCAUSE and TRAPVAL then hold those of the second cause is the model's
reading (log entry 9). -/
def Obligations.DoubleFault : Prop :=
  ∀ (u : Nat) (x : Machine.Unit) (c : Cause) (v : Word), x.handler = true →
    let y := x.syncTrap u c v
    y.trapCause = c.word ∧ y.trapVal = v ∧ (u < 512 → y.run = .faulting ∧ y.gated = [] ∧ y.regs.loops = []) ∧
    (512 ≤ u → y.run = .seqHalted ∧ y.gated = x.gated) ∧ y.handler = true ∧ y.pc = x.pc

/-- R84, R291: a mark writes every gated store into its buffer, frees the entries, sets MARKPC to its bundle's offset and
copies the registers and the results in flight into the shadow; RESTART_MARK does so to a unit whose marked bundle is in
issue, and to what its slots read. R249, R289, R294: entry with a rollback restores the shadowed registers, discards the
gated stores and every result issued since the mark, puts the shadowed results in flight into the bank, sets
HSTAT.ROLLED, and TRAPPC is MARKPC; the replies awaited since before the mark are still awaited, and those since are
not. Where the spec leaves a reading open, the statement holds of the model's (log entry 14). -/
def Obligations.MarkAndRollback : Prop :=
  ((∀ x : Machine.Unit, (∀ b, Memory.wf (x.buf b) = true) →
     let y := x.commitMark
     y.gated = [] ∧ (∀ b a, mget (y.buf b) a = x.bget b a) ∧ y.markPc = BitVec.ofNat 64 x.pc ∧
     y.shadow = x.regs ∧ y.shadowFlight = x.flight ∧ y.regs = x.regs ∧ y.flight = x.flight ∧ y.pc = x.pc ∧
     y.sl = x.sl ∧ y.la = x.la ∧ y.lb = x.lb ∧ y.scales = x.scales ∧ y.handler = x.handler) ∧
   (∀ (u : Nat) (x : Machine.Unit) (s : State), u < unitCount → s.focus = u → s.issue.snap = some x →
     bitOf (s.unit u).fetch.header 6 = true → (s.unit u).handler = false → (s.unit u).markDone = false →
     exec (.restartMark u) s = .next { s.modUnit u Unit.commitMark with
       issue := { s.issue with snap := some x.commitMark } })) ∧
  (∀ (x : Machine.Unit) (c : Cause) (r : Nat) (v : Word),
     let y := x.enterTrap c r v true
     y.regs = x.shadow ∧ y.gated = [] ∧ y.flight = [] ∧
     (∃ b, y.bank = some b ∧ b.flight = x.shadowFlight ∧ b.sl = [] ∧ b.la = [] ∧ b.lb = []) ∧
     bitOf y.hstat 1 = true ∧ (∀ i < 64, i ≠ 1 → bitOf y.hstat i = bitOf x.hstat i) ∧
     y.trapPc = BitVec.ofNat 64 (x.markPc.toNat % 2 ^ 17) ∧ y.trapCause = c.word ∧ y.trapVal = v ∧ y.handler = true ∧
     y.pc = x.trapVec.toNat ∧ (∀ a, a ∈ y.atoms ↔ a ∈ x.atoms ∧ a.serial < x.markSerial) ∧
     y.mstat = x.mstat ∧ y.cstat = x.cstat ∧ y.fidstat = x.fidstat ∧ y.bcount = x.bcount ∧ y.markPc = x.markPc ∧
     y.trapVec = x.trapVec ∧ (∀ b, y.buf b = x.buf b) ∧ y.scales = x.scales ∧ y.own = x.own)

/-- R5, R32, R33, R130: a scalar or predicate result whose latency has run out is read from its register and from latch 0
at the boundary; with NW, and for p0, from the latch alone; before that the register keeps its old value. R5, R40, R285,
R289, R297: RESULT_LANDING lands what is due for the bundle in issue and nothing before one issues, and TRAP_ENTRY takes
the first pending trap of a powered unit outside handler mode at a boundary, at TRAPVEC. Two points are the model's
reading: TRAPPC of a trap without a resume point is the bundle at the boundary where it is taken (log entry 13), and a
trap that arose while a stalled bundle stood behind its boundary is not taken there (log entry 72). -/
def Obligations.ResultsLandAndBoundaries : Prop :=
  (∀ (x : Machine.Unit) (r : InFlight) (v : Word) (d : Bool), x.flight = [r] → r.group = some .s → r.lo = v.setWidth 2048 →
     r.d = d → r.flags = 0 →
     (∀ n, r.dest = .sreg n → r.k = 0 →
       (tget {} x.landDue.regs.s n = if r.nw then tget {} x.regs.s n else { v := v, d := d }) ∧
       (∀ m, m ≠ n → tget {} x.landDue.regs.s m = tget {} x.regs.s m) ∧
       x.landDue.regs.p = x.regs.p ∧ x.landDue.regs.fcsr = x.regs.fcsr) ∧
     (∀ n, r.dest = .preg n → n < 8 → r.k = 0 →
       (x.landDue.preg n = if r.nw ∨ n = 0 then x.preg n else (bitOf v 0, d)) ∧
       (∀ m < 8, m ≠ n → x.landDue.preg m = x.preg m) ∧ x.landDue.regs.s = x.regs.s) ∧
     (r.k = 0 → x.landDue.sl.getD 0 {} = { v := v, d := d } ∧ x.landDue.flight = []) ∧
     (r.k ≠ 0 → x.landDue.regs = x.regs ∧ x.landDue.flight = [r] ∧ x.landDue.sl = x.sl)) ∧
  ((∀ (u : Nat) (x : Machine.Unit) (s : State), u < unitCount → s.focus = u → s.issue.snap = some x →
     exec (.resultLanding u) s = .next { s.modUnit u Unit.landDue with issue := { s.issue with snap := some x.landDue } }) ∧
   (∀ (u : Nat) (s : State), u < unitCount → s.issue.snap = none → exec (.resultLanding u) s = .next s) ∧
   (∀ (u : Nat) (p : Pend) (s : State), u < unitCount → (s.unit u).run = .running → (s.unit u).handler = false →
     s.powered u = true → (s.unit u).nextIssue ≤ s.now →
     (∀ r ∈ (s.unit u).flight, r.k ≠ 0 ∨ r.flags &&& r.en = 0) → p.rollback = false →
     p ∈ (s.unit u).pend → (∀ q ∈ (s.unit u).pend, q ≠ p → p.order < q.order) →
     (s.unit u).waiting = false ∨ p.late = false →
     ∃ t, exec (.trapEntry u) s = .next t ∧ (∀ v, v ≠ u → t.unit v = s.unit v) ∧
       (t.unit u).trapCause = p.cause.word ∧ (t.unit u).trapVal = p.val ∧
       (t.unit u).trapPc = BitVec.ofNat 64 (p.resume.getD (s.unit u).pc % 2 ^ 17) ∧ (t.unit u).handler = true ∧
       (t.unit u).pc = (s.unit u).trapVec.toNat ∧ (t.unit u).regs = (s.unit u).regs))

/-- R42, R112, R163, R276, R278 to R280: outside their modes ERET, TRAP, DUSKDONE, SLD, SST and XFER, standing alone, trap
with PRIVILEGE and have no effect of their own. That TRAPVAL then names their OP field, bundle bit 16 of slot 0, is the
model's choice (log entry 82). -/
def Obligations.PrivilegeTraps : Prop :=
  ∀ (s : State), s.issue.snap = none →
    let traps (i : Instr) : Prop := exec i s = .next (s.modCur (fun x => x.syncTrap s.focus .privilege 0x1000))
    (s.focus < 512 → s.cur.handler = false → traps .eret ∧ traps .duskdone) ∧
    (∀ o, s.focus < 512 → s.cur.handler = true → WellFormed (.trap o) = true → traps (.trap o)) ∧
    (∀ o, s.focus < 512 → WellFormed (.sld o) = true → traps (.sld o)) ∧
    (∀ o, s.focus < 512 → WellFormed (.sst o) = true → traps (.sst o)) ∧
    (∀ o, 512 ≤ s.focus → s.focus < unitCount → WellFormed (.xfer o) = true → traps (.xfer o)) ∧
    (512 ≤ s.focus → s.focus < unitCount → traps .duskdone)

/-- R76, R155: LD and ST, standing alone with permitted operands, trap on the first condition of R155 that holds: MISALIGN
with TRAPVAL the effective offset, LOCAL_BOUNDS with the offset or the first byte outside the buffer, OWNERSHIP with
the offset; nothing else happens. Where the exact offset needs more than 64 bits, TRAPVAL holding its low 64 is the
model's choice (log entry 84). -/
def Obligations.LocalAccessTraps : Prop :=
  ∀ (b : Buf) (f : BitVec 3) (o : SR) (s : State) (i : Instr), (i = .ld b f o ∨ i = .st b f o) →
    WellFormed i = true → s.focus < unitCount → s.issue.snap = none →
    o.d.toNat < 56 → o.a.toNat < 61 → s.src.executes i = true → (s.src.preg o.p.toNat).2 = false →
    s.sdef o.a = false → s.sdef o.d = false →
    let ea := s.effective f o
    let traps (c : Cause) (v : Word) : Prop := exec i s = .next (s.modCur (fun x => x.syncTrap s.focus c v))
    (ea % (accessBytes f : Nat) ≠ 0 → traps .misalign (BitVec.ofInt 64 ea)) ∧
    (ea % (accessBytes f : Nat) = 0 → ea < 0 → traps .localBounds (BitVec.ofInt 64 ea)) ∧
    (ea % (accessBytes f : Nat) = 0 → 0 ≤ ea → (bufSize s.focus b : Int) < ea + (accessBytes f : Nat) →
      traps .localBounds (BitVec.ofInt 64 (max (bufSize s.focus b : Int) ea))) ∧
    (ea % (accessBytes f : Nat) = 0 → 0 ≤ ea → ea + (accessBytes f : Nat) ≤ (bufSize s.focus b : Int) →
      s.src.owns s.focus b ea.toNat = false → traps .ownership (BitVec.ofInt 64 ea))

/-! ### Vector slots -/

/-- R167, R168, R170 to R173: the two-operand and one-operand integer instructions and VMAD deliver, in every governed
lane after 2 bundles, the element results of R173 modulo 2^w, with D set where a source or the mask carries it, and
change nothing else. R174, R175: the shifts and funnel shifts by the low bits of an element, or by fn where fn is
below the width and not zero; nothing else changes. -/
def Obligations.VectorIntegerResults : Prop :=
  ((∀ row ∈ vecRows, ∀ (c : Cluster) (o : VOps) (s : State), WellFormed (row.instr c o) = true → s.runs (row.instr c o) →
     let w := 8 * 2 ^ o.ty.toNat
     let a := s.vin c o o.va
     let b := s.vin c o o.vb
     ∃ t, exec (row.instr c o) s = .next t ∧
       s.intResult t c o (a.d || b.d) w (fun e => row.value (opSigned o) w (a.elem w e) (b.elem w e))) ∧
   (∀ row ∈ vecUnaryRows, ∀ (c : Cluster) (o : VOps) (s : State), WellFormed (row.instr c o) = true →
     s.runs (row.instr c o) →
     let w := 8 * 2 ^ o.ty.toNat
     let a := s.vin c o o.va
     ∃ t, exec (row.instr c o) s = .next t ∧ s.intResult t c o a.d w (fun e => row.value w (a.elem w e))) ∧
   (∀ (c : Cluster) (o : VOps) (s : State), WellFormed (.vmad c o) = true → s.runs (.vmad c o) →
     let w := 8 * 2 ^ o.ty.toNat
     let a := s.vin c o o.va
     let b := s.vin c o o.vb
     let z := s.vin c o o.vc
     ∃ t, exec (.vmad c o) s = .next t ∧
       s.intResult t c o (a.d || b.d || z.d) w (fun e => a.elem w e * b.elem w e + z.elem w e))) ∧
  ((∀ row ∈ vecShiftRows, ∀ (c : Cluster) (o : VOps) (s : State), WellFormed (row.instr c o) = true →
     s.runs (row.instr c o) →
     let w := 8 * 2 ^ o.ty.toNat
     let a := s.vin c o o.va
     let b := s.vin c o o.vb
     (o.fn = 0 → ∃ t, exec (row.instr c o) s = .next t ∧
       s.intResult t c o (a.d || b.d) w (fun e => row.value w (a.elem w e) ((b.elem w e).toNat % w))) ∧
     (o.fn ≠ 0 → o.fn.toNat < w → ∃ t, exec (row.instr c o) s = .next t ∧
       s.intResult t c o a.d w (fun e => row.value w (a.elem w e) o.fn.toNat))) ∧
   (∀ (left : Bool) (c : Cluster) (o : VOps) (s : State),
     let i : Instr := if left then .vfshl c o else .vfshr c o
     let shift (w : Nat) (x y : BitVec w) (n : Nat) : BitVec w := if left then funnelLeft w x y n else funnelRight w x y n
     WellFormed i = true → s.runs i →
     let w := 8 * 2 ^ o.ty.toNat
     let a := s.vin c o o.va
     let b := s.vin c o o.vb
     let z := s.vin c o o.vc
     (o.fn = 0 → ∃ t, exec i s = .next t ∧
       s.intResult t c o (a.d || b.d || z.d) w (fun e => shift w (a.elem w e) (b.elem w e) ((z.elem w e).toNat % w))) ∧
     (o.fn ≠ 0 → o.fn.toNat < w → ∃ t, exec i s = .next t ∧
       s.intResult t c o (a.d || b.d) w (fun e => shift w (a.elem w e) (b.elem w e) o.fn.toNat))))

/-- R176 to R178: VCMP writes every bit of its mask: the lane is governed and the condition holds for each of its
elements; VSEL writes every lane, from va where the mask holds and from vb elsewhere; VMOVI writes its constant.
Nothing else changes. R219: the mask instructions give the bits that the governing mask selects of AND, OR, XOR, NOT,
a copy and the non-zero lanes of a register; KPOPC, KFIRST and the move to a register fill the governed lanes; each
after 2 bundles; nothing else changes. -/
def Obligations.VectorCompareSelectAndMasks : Prop :=
  ((∀ (c : Cluster) (o : VOps) (s : State), WellFormed (.vcmp c o) = true → s.runs (.vcmp c o) →
     let w := 8 * 2 ^ o.ty.toNat
     let a := s.vin c o o.va
     let b := s.vin c o o.vb
     ∃ t m, exec (.vcmp c o) s = .next t ∧
       s.maskResult t c o.nw o.vd.toNat (BitVec.allOnes 64) (a.d || b.d || s.gdef c o) (bitOf (m : Mask)) ∧
       ∀ l < 64, (bitOf m l = true ↔ s.governs c o l = true ∧
         ∀ e < elemCount w, laneOfElem w e = l → condHolds o.fn.toNat (a.elem w e) (b.elem w e))) ∧
   (∀ (c : Cluster) (o : VOps) (s : State), WellFormed (.vsel c o) = true → s.runs (.vsel c o) →
     let w := if o.ty = 3 then 64 else 32
     let a := s.vin c o o.va
     let b := s.vin c o o.vb
     ∃ t, exec (.vsel c o) s = .next t ∧
       s.vectorResult t c o.nw (if o.ty = 3 then .vpair c o.vd.toNat else .vreg c o.vd.toNat) (BitVec.allOnes 64) 2
         (a.d || b.d || s.gdef c o) w (fun l => if s.governs c o l then a.elem w l else b.elem w l) (fun _ => 0)) ∧
   (∀ (c : Cluster) (o : VOps) (s : State), WellFormed (.vmovi c o) = true → s.runs (.vmovi c o) →
     let w := 8 * 2 ^ o.ty.toNat
     ∃ t, exec (.vmovi c o) s = .next t ∧
       s.intResult t c o false w (fun _ => BitVec.ofInt w (o.fn ++ (o.vc ++ (o.vb ++ o.va)) : BitVec 23).toInt))) ∧
  (∀ (c : Cluster) (o : VOps) (s : State),
     let a := s.src.regs.mask c o.va.toNat
     let b := s.src.regs.mask c o.vb.toNat
     let v := s.src.vsrc c o.va
     let g := (s.src.gov c o).1
     let gives (i : Instr) (d : Bool) (bit : Nat → Bool) : Prop := WellFormed i = true → s.runs i →
       ∃ t, exec i s = .next t ∧ s.maskResult t c o.nw o.vd.toNat g (d || s.gdef c o) bit
     let fills (i : Instr) (lane : Nat → BitVec 32) : Prop := WellFormed i = true → s.runs i →
       ∃ t, exec i s = .next t ∧ s.vectorResult t c o.nw (.vreg c o.vd.toNat) g 2 (a.d || s.gdef c o) 32 lane (fun _ => 0)
     gives (.kand c o) (a.d || b.d) (fun l => bitOf a.v l && bitOf b.v l) ∧
     gives (.kor c o) (a.d || b.d) (fun l => bitOf a.v l || bitOf b.v l) ∧
     gives (.kxor c o) (a.d || b.d) (fun l => bitOf a.v l != bitOf b.v l) ∧
     gives (.knot c o) a.d (fun l => !bitOf a.v l) ∧
     gives (.kmov c o) a.d (fun l => bitOf a.v l) ∧
     gives (.kmovVk c o) v.d (fun l => decide (v.lane l ≠ 0)) ∧
     fills (.kpopc c o) (fun _ => BitVec.ofNat 32 (oneBitsOf 64 a.v)) ∧
     fills (.kfirst c o) (fun _ => BitVec.ofNat 32 (trailingZeros a.v)) ∧
     fills (.kmovKv c o) (fun l => if bitOf a.v l then 0xFFFFFFFF else 0))

/-- R192 to R195: VRND steps the generator of every governed lane and delivers its random word after 2 bundles, after a
reseed from va where fn[43] is 1, and leaves the other lanes' generators; VSFCK delivers the Morton or the Hilbert key
of three coordinates into a pair after 3 bundles. -/
def Obligations.RandomAndKeys : Prop :=
  (∀ (seed : Bool) (c : Cluster) (o : VOps) (s : State),
    let i : Instr := if seed then .vrndSeed c o else .vrnd c o
    WellFormed i = true → s.runs i →
    let a := s.src.vsrc c o.va
    let x (l : Nat) : BitVec 64 := if seed then seedOf l (a.lane l) else s.src.regs.genWord c l
    ∃ t u, exec i s = .next t ∧ s.onlyFocus t ∧
      s.vectorResult u c o.nw (.vreg c o.vd.toNat) (s.src.gov c o).1 2 ((seed && a.d) || s.gdef c o) 32
        (fun l => randomWord (xorshift (x l))) (fun _ => 0) ∧
      t.cur.flight = u.cur.flight ∧ t.cur.regs.s = s.cur.regs.s ∧ t.cur.regs.va = s.cur.regs.va ∧
      t.cur.regs.vb = s.cur.regs.vb ∧
      ∀ l < 64, t.cur.regs.genWord c l = if s.governs c o l then xorshift (x l) else s.cur.regs.genWord c l) ∧
  (∀ (c : Cluster) (o : VOps) (s : State),
    let a := s.src.vsrc c o.va
    let b := s.src.vsrc c o.vb
    let z := s.src.vsrc c o.vc
    let m := a.d || b.d || z.d || s.gdef c o
    (WellFormed (.vsfckMor c o) = true → s.runs (.vsfckMor c o) →
      ∃ t key, exec (.vsfckMor c o) s = .next t ∧
        s.vectorResult t c o.nw (.vpair c o.vd.toNat) (s.src.gov c o).1 3 m 64 key (fun _ => 0) ∧
        ∀ l < 64, s.governs c o l = true → ∀ i < 64, bitOf (key l) i = mortonBit (a.lane l) (b.lane l) (z.lane l) i) ∧
    (WellFormed (.vsfckHil c o) = true → s.runs (.vsfckHil c o) →
      ∃ t, exec (.vsfckHil c o) s = .next t ∧
        s.vectorResult t c o.nw (.vpair c o.vd.toNat) (s.src.gov c o).1 3 m 64
          (fun l => BitVec.ofNat 64 (hilbert ((a.lane l).toNat % 2 ^ 21) ((b.lane l).toNat % 2 ^ 21)
            ((z.lane l).toNat % 2 ^ 21))) (fun _ => 0)))

/-- R171, R179 to R183: the floating instructions deliver in every governed lane, after their latency, the result of the
operation that R180 to R183 name, with the flags of the governed elements, and change nothing else. Where the spec
leaves a reading open, the statement holds of the model's (log entries 10 and 11). R51: rounding a magnitude m to a
multiple of 2^n: toward zero it is the quotient, toward an infinity the neighbour on that side, to nearest the nearer
neighbour with ties to even or away from zero; inexact exactly where a part is lost. -/
def Obligations.VectorFloatResults : Prop :=
  ((∀ row ∈ floatRows, ∀ (c : Cluster) (o : VOps) (s : State), WellFormed (row.instr c o) = true →
     s.runs (row.instr c o) →
     let k := Fmt.ofCode o.ty.toNat
     let w := k.width
     let a := s.src.vsrc c o.va
     let b := s.src.vsrc c o.vb
     let el (e : Nat) : FRes :=
       row.op k (s.src.fctx o) (s.randomBits c o w e) (a.elem w e).toNat (b.elem w e).toNat
     ∃ t, exec (row.instr c o) s = .next t ∧
       s.vectorResult t c o.nw (.vreg c o.vd.toNat) (s.src.gov c o).1 row.latency
         (a.d || b.d || (s.src.randomOp c o).d || s.gdef c o) w (fun e => BitVec.ofNat w (el e).code) (fun e => (el e).fl)) ∧
   (∀ row ∈ floatUnaryRows, ∀ (c : Cluster) (o : VOps) (s : State), WellFormed (row.instr c o) = true →
     s.runs (row.instr c o) →
     let k := Fmt.ofCode o.ty.toNat
     let w := k.width
     let a := s.src.vsrc c o.va
     let el (e : Nat) : FRes := row.op k (s.src.fctx o) (s.randomBits c o w e) (a.elem w e).toNat
     ∃ t, exec (row.instr c o) s = .next t ∧
       s.vectorResult t c o.nw (.vreg c o.vd.toNat) (s.src.gov c o).1 row.latency
         (a.d || (s.src.randomOp c o).d || s.gdef c o) w (fun e => BitVec.ofNat w (el e).code) (fun e => (el e).fl)) ∧
   (∀ (neg : Bool) (c : Cluster) (o : VOps) (s : State),
     let i : Instr := if neg then .vfnma c o else .vfma c o
     WellFormed i = true → s.runs i →
     let k := Fmt.ofCode o.ty.toNat
     let w := k.width
     let a := s.src.vsrc c o.va
     let b := s.src.vsrc c o.vb
     let z := s.src.vsrc c o.vc
     let el (e : Nat) : FRes :=
       k.fma (s.src.fctx o) neg (a.elem w e).toNat (b.elem w e).toNat (z.elem w e).toNat
     ∃ t, exec i s = .next t ∧
       s.vectorResult t c o.nw (.vreg c o.vd.toNat) (s.src.gov c o).1 4 (a.d || b.d || z.d || s.gdef c o) w
         (fun e => BitVec.ofNat w (el e).code) (fun e => (el e).fl))) ∧
  (∀ (m n q : Nat) (s : Bool), 0 < n →
     let r (mode : Nat) : Nat := (({ m := m, e := 0 } : Mag).roundAt n mode s q).1
     (∀ mode, (({ m := m, e := 0 } : Mag).roundAt n mode s q).2 = decide (m % 2 ^ n ≠ 0)) ∧
     r 1 = m / 2 ^ n ∧
     (r 2 = if s then (m + 2 ^ n - 1) / 2 ^ n else m / 2 ^ n) ∧
     (r 3 = if s then m / 2 ^ n else (m + 2 ^ n - 1) / 2 ^ n) ∧
     (2 * ((r 0 : Int) * 2 ^ n - m).natAbs ≤ 2 ^ n ∧
       (2 * ((r 0 : Int) * 2 ^ n - m).natAbs = 2 ^ n → r 0 % 2 = 0)) ∧
     (2 * ((r 4 : Int) * 2 ^ n - m).natAbs ≤ 2 ^ n ∧
       (2 * ((r 4 : Int) * 2 ^ n - m).natAbs = 2 ^ n → m < r 4 * 2 ^ n)))

/-- R171, R184 to R191: VCVT converts the low elements of each lane in place and clears the rest, after 3 bundles; VDOT
delivers the packed dot product after 5; VTRIM the merged triple's component after 8; nothing else changes. Where the
spec leaves a reading open, the statement holds of the model's: the flags of VTRIM (log entry 25), the sign of a zero maximum
(log entry 94), infinity times zero in VDOT (log entry 10) and the sign of an E4M3 overflow (log entry 111). -/
def Obligations.VectorConvertDotTrim : Prop :=
  (∀ (c : Cluster) (o : VOps) (s : State), WellFormed (.vcvt c o) = true → s.runs (.vcvt c o) →
    let ws := (vcvtFrom o).width
    let wt := (vcvtTo o).width
    let a := s.src.vsrc c o.va
    let el := convertedElem ws wt a.lane
      (fun l k v => cvtElem (vcvtFrom o) (vcvtTo o) (s.src.fctx o) (qBits (s.src.randomOp c o) l k) v)
    ∃ t, exec (.vcvt c o) s = .next t ∧
      s.vectorResult t c o.nw (.vreg c o.vd.toNat) (s.src.gov c o).1 3
        (a.d || (s.src.randomOp c o).d || s.gdef c o) wt (fun e => BitVec.ofNat wt (el e).code) (fun e => (el e).fl)) ∧
  (∀ (c : Cluster) (o : VOps) (s : State), WellFormed (.vdot c o) = true → s.runs (.vdot c o) →
    let a := s.src.vsrc c o.va
    let b := s.src.vsrc c o.vb
    let acc := bitOf o.fn 0
    let z : VSrc := if acc then s.src.vsrc c o.vc else s.src.randomOp c o
    let four (v : VSrc) (l : Nat) : List Nat := (List.range 4).map (fun k => (v.elem 8 (4 * l + k)).toNat)
    let el (l : Nat) : FRes := dotLane (Fmt.ofCode o.ty.toNat) (s.src.fctx o) (qBits z l 0) (four a l) (four b l)
      (if acc then some (z.lane l).toNat else none)
    ∃ t, exec (.vdot c o) s = .next t ∧
      s.vectorResult t c o.nw (.vreg c o.vd.toNat) (s.src.gov c o).1 5 (a.d || b.d || z.d || s.gdef c o) 32
        (fun l => BitVec.ofNat 32 (el l).code) (fun l => (el l).fl)) ∧
  (∀ p ∈ ([(Instr.vtrimX, trimX), (Instr.vtrimM, fun m1 m2 _ _ => (trimMax m1 m2).noNX), (Instr.vtrimXb, trimXb)] :
      List ((Cluster → VOps → Instr) × (Nat → Nat → Nat → Nat → FRes))),
    ∀ (c : Cluster) (o : VOps) (s : State), WellFormed (p.1 c o) = true → s.runs (p.1 c o) →
    let m := s.src.vpair c o.va
    let a := s.src.vsrc c o.vb
    let b := s.src.vsrc c o.vc
    let el (l : Nat) : FRes := p.2 (m.lane l).toNat (m.hi.extractLsb' (32 * l) 32).toNat (a.lane l).toNat (b.lane l).toNat
    ∃ t, exec (p.1 c o) s = .next t ∧
      s.vectorResult t c o.nw (.vreg c o.vd.toNat) (s.src.gov c o).1 8 (m.d || a.d || b.d || s.gdef c o) 32
        (fun l => BitVec.ofNat 32 (el l).code) (fun l => (el l).fl))

/-! ### Vector data -/

/-- R197, R199, R203, R204: VLD, VLDU, VLDS and VLDX deliver in every governed lane the little-endian values of the bytes
at their elements' addresses, gated stores included, after 6 bundles, or 10 for VLDX; nothing else changes. -/
def Obligations.VectorLoads : Prop :=
  ∀ (c : Cluster) (o : VOps) (s : State),
    let b := opBuf o
    let w := 8 * 2 ^ o.ty.toNat
    let one (i : Instr) (k v : Nat) (addr : Nat → Int) : Prop :=
      WellFormed i = true → s.runs i → ∃ t, exec i s = .next t ∧
        s.vectorResult t c o.nw (if v = 64 then .vpair c o.vd.toNat else .vreg c o.vd.toNat) (s.src.gov c o).1 k
          (s.gdef c o) v (fun e => BitVec.ofNat v (s.bytesAt b (addr e).toNat (v / 8))) (fun _ => 0)
    one (.vld c o) 6 32 (fun e => s.vbase c o + opOffset12 o + 4 * e) ∧
    one (.vldu c o) 6 32 (fun e => s.vbase c o + opOffset6 o + 4 * e) ∧
    one (.vlds c o) 6 w (fun e => s.strided c o e) ∧
    one (.vldx c o) 10 w (fun e => s.indexed c o w e)

/-- R199, R203, R205: VST, VSTB, VSTS and VSTX write the bytes of their governed elements to the elements' addresses, VSTB
those that its enables select, the highest element last, and no other byte of any buffer; nothing else changes. -/
def Obligations.VectorStores : Prop :=
  ∀ (c : Cluster) (o : VOps) (s : State), s.buffersCanonical →
    let b := opBuf o
    let w := 8 * 2 ^ o.ty.toNat
    let d := s.src.vsrc c o.vd
    let p := s.vin c o o.vd
    let one (i : Instr) (n v : Nat) (on : Nat → Prop) (addr : Nat → Int) (byte : Nat → Nat → Byte) : Prop :=
      WellFormed i = true → s.runs i → (∀ e < elemCount v, on e → 0 ≤ addr e) →
        ∃ t, exec i s = .next t ∧ s.storeFrame t ∧ s.storedAs t b n on (elemCount v) addr byte
    one (.vst c o) 4 32 (fun e => s.governs c o e = true) (fun e => s.vbase c o + opOffset12 o + 4 * e)
      (fun e j => byteOf (d.lane e) j) ∧
    one (.vstb c o) 1 8 (fun e => s.governs c o (e / 4) = true ∧ bitOf (s.src.vsrc c o.vb).lo e = true)
      (fun e => s.vbase c o + opOffset6 o + e) (fun e _ => d.elem 8 e) ∧
    one (.vsts c o) (w / 8) w (fun e => s.governs c o (laneOfElem w e) = true) (fun e => s.strided c o e)
      (fun e j => byteOf (p.elem w e) j) ∧
    one (.vstx c o) (w / 8) w (fun e => s.governs c o (laneOfElem w e) = true) (fun e => s.indexed c o w e)
      (fun e j => byteOf (p.elem w e) j)

/-- R206 to R209: XBC broadcasts a scalar with its D; XCOPY copies a register of the other cluster; VPERM takes element j
of va, j the index modulo the elements of the register; VSLIDE slides whole lanes over va and vb. Nothing else
changes. -/
def Obligations.CrossPermuteSlide : Prop :=
  ∀ (c : Cluster) (o : VOps) (s : State),
    let w := 8 * 2 ^ o.ty.toNat
    let v := if o.ty = 3 then 64 else 32
    let dest : Dest := if o.ty = 3 then .vpair c o.vd.toNat else .vreg c o.vd.toNat
    let g := (s.src.gov c o).1
    let a := s.vin c o o.va
    let b := s.vin c o o.vb
    let i := s.src.vsrc c o.vb
    let x := s.src.vop (otherCluster c) (o.ty == 3) o.va
    (WellFormed (.xbc c o) = true → s.runs (.xbc c o) → ∃ t, exec (.xbc c o) s = .next t ∧
      s.vectorResult t c o.nw dest g 2 (s.sdef o.va || s.gdef c o) w (fun _ => (s.sval o.va).setWidth w) (fun _ => 0)) ∧
    (WellFormed (.xcopy c o) = true → s.runs (.xcopy c o) → ∃ t, exec (.xcopy c o) s = .next t ∧
      s.vectorResult t c o.nw dest g 2 (x.d || s.gdef c o) v (fun l => x.elem v l) (fun _ => 0)) ∧
    (WellFormed (.vperm c o) = true → s.runs (.vperm c o) → ∃ t, exec (.vperm c o) s = .next t ∧
      s.vectorResult t c o.nw dest g 3 (a.d || i.d || s.gdef c o) w
        (fun e => a.elem w ((if w = 64 then (i.lane e).toNat else (i.elem w e).toNat) % elemCount w)) (fun _ => 0)) ∧
    (WellFormed (.vslide c o) = true → s.runs (.vslide c o) → ∃ t, exec (.vslide c o) s = .next t ∧
      s.vectorResult t c o.nw dest g 2 (a.d || b.d || s.gdef c o) v
        (fun l => if l + o.vc.toNat < 64 then a.elem v (l + o.vc.toNat) else b.elem v (l + o.vc.toNat - 64))
        (fun _ => 0))

/-- R210, R211: VRED delivers to every governed lane of a group the fold of the group's governed elements in ascending
lane order, after 4 bundles, VSCAN the fold of those up to the lane, after 5; the first enters as read; a floating
fold applies the operation named by fn[47:45] to codes after DAZ. Nothing else changes. Where the spec leaves a
reading open, the statement holds of the model's (log entry 24). -/
def Obligations.GroupReductions : Prop :=
  ∀ (scan : Bool) (c : Cluster) (o : VOps) (s : State),
    let i : Instr := if scan then .vscan c o else .vred c o
    WellFormed i = true → s.runs i → o.vc.toNat < 7 →
    let k := o.fn.toNat / 4
    let lat := if scan then 5 else 4
    (bitOf o.fn 1 = false →
      let w := 8 * 2 ^ o.ty.toNat
      let h := perLane w
      let a := s.vin c o o.va
      ∃ t, exec i s = .next t ∧
        s.vectorResult t c o.nw (if o.ty = 3 then .vpair c o.vd.toNat else .vreg c o.vd.toNat) (s.src.gov c o).1 lat
          (a.d || s.gdef c o) w
          (fun e => (groupFold (groupOp k (opSigned o)) ((s.groupLanes c o scan (laneOfElem w e)).map
            (fun m => a.elem w (h * m + e % h)))).getD 0) (fun _ => 0)) ∧
    (bitOf o.fn 1 = true →
      let f := Fmt.ofCode o.ty.toNat
      let w := f.width
      let h := perLane w
      let a := s.src.vsrc c o.va
      let t0 := s.src.fctx o
      let op (x y : Nat) : Nat :=
        (if k = 0 then f.add { t0 with daz := false } 0 x y else f.minMax { t0 with daz := false } (k == 2) x y).code
      ∃ t fl, exec i s = .next t ∧
        s.vectorResult t c o.nw (.vreg c o.vd.toNat) (s.src.gov c o).1 lat (a.d || s.gdef c o) w
          (fun e => BitVec.ofNat w ((groupFold op ((s.groupLanes c o scan (laneOfElem w e)).map
            (fun m => f.afterDaz t0 (a.elem w (h * m + e % h)).toNat))).getD 0)) fl)

/-- R212 to R214: SPUSH writes the lanes of its governed lanes, ascending, behind the words of its stream, and counts
them; SPOP delivers the first words to the first governed lanes and 0 to the rest after 6 bundles, and takes them;
SBAL pads the stream with zero words to a multiple of 64 and delivers the pad count after 8; SCNT delivers the count
after 2. -/
def Obligations.StreamsPushAndPop : Prop :=
  ∀ (c : Cluster) (o : VOps) (s : State), s.buffersCanonical →
    let q := o.fn.toNat % 4
    let st := s.streamAt o
    let u := if o.ty = 3 then 2 else 1
    let gl := s.governedLanes c o
    let a := s.vin c o o.va
    let pad := (64 - st.count % 64) % 64
    let got := min gl.length (st.count / u)
    (WellFormed (.spush c o) = true → s.runs (.spush c o) → st.count + u * gl.length ≤ 8192 →
      ∃ t, exec (.spush c o) s = .next t ∧ s.onlyFocus t ∧ t.cur.flight = s.cur.flight ∧ t.cur.regs.va = s.cur.regs.va ∧
        t.cur.regs.vb = s.cur.regs.vb ∧ t.cur.regs.s = s.cur.regs.s ∧
        tget {} t.cur.regs.streams q = { head := st.head, count := st.count + u * gl.length } ∧
        (∀ n (h : n < gl.length), ∀ j < 4 * u, t.cur.bget .sb (s.wordAt o (st.count + u * n + j / 4) + j % 4) =
          byteOf (if u = 2 then a.elem 64 gl[n] else (a.lane gl[n]).setWidth 64) j) ∧
        (∀ (b : Buf) (y : Nat), (b ≠ .sb ∨ ∀ p < u * gl.length, ¬ (s.wordAt o (st.count + p) ≤ y ∧
          y < s.wordAt o (st.count + p) + 4)) → t.cur.bget b y = s.cur.bget b y)) ∧
    (WellFormed (.spop c o) = true → s.runs (.spop c o) →
      ∃ t v, exec (.spop c o) s = .next t ∧ s.onlyFocus t ∧
        s.vectorResult v c o.nw (if o.ty = 3 then .vpair c o.vd.toNat else .vreg c o.vd.toNat) (s.src.gov c o).1 6
          (s.gdef c o) (32 * u) (fun l => if gl.idxOf l < got then
            BitVec.ofNat (32 * u) (s.bytesAt .sb (s.wordAt o (u * gl.idxOf l)) 4 +
              (if u = 2 then 2 ^ 32 * s.bytesAt .sb (s.wordAt o (u * gl.idxOf l + 1)) 4 else 0)) else 0) (fun _ => 0) ∧
        t.cur.flight = v.cur.flight ∧ t.cur.regs.s = s.cur.regs.s ∧ (∀ b y, t.cur.bget b y = s.cur.bget b y) ∧
        tget {} t.cur.regs.streams q = { head := (st.head + u * got) % 8192, count := st.count - u * got }) ∧
    (WellFormed (.sbal c o) = true → s.runs (.sbal c o) → st.count + pad ≤ 8192 →
      ∃ t v, exec (.sbal c o) s = .next t ∧ s.onlyFocus t ∧
        s.vectorResult v c o.nw (.vreg c o.vd.toNat) (s.src.gov c o).1 8 (s.gdef c o) 32
          (fun _ => BitVec.ofNat 32 pad) (fun _ => 0) ∧
        t.cur.flight = v.cur.flight ∧ t.cur.regs.s = s.cur.regs.s ∧
        tget {} t.cur.regs.streams q = { head := st.head, count := st.count + pad } ∧
        (∀ p < pad, ∀ j < 4, t.cur.bget .sb (s.wordAt o (st.count + p) + j) = 0) ∧
        (∀ (b : Buf) (y : Nat), (b ≠ .sb ∨ ∀ p < pad, ¬ (s.wordAt o (st.count + p) ≤ y ∧
          y < s.wordAt o (st.count + p) + 4)) → t.cur.bget b y = s.cur.bget b y)) ∧
    (WellFormed (.scnt c o) = true → s.runs (.scnt c o) → ∃ t, exec (.scnt c o) s = .next t ∧
      s.vectorResult t c o.nw (.vreg c o.vd.toNat) (s.src.gov c o).1 2 (s.gdef c o) 32
        (fun _ => BitVec.ofNat 32 st.count) (fun _ => 0))

/-! ### Matrix and copy commands -/

/-- R82, R118, R126, R221, R241, R244, R246, R256, R261, R265: an executed matrix or copy-slot command only enters its
queue, counts toward its tag and keeps its staging registers as they stand; an SCLD of a tile buffer instead keeps the
1,024 bytes that it names and takes no queue place; COLL and REPART take a mailbox entry; CPYM takes a place in the
matrix queue for its follow-on, which names the CPYM. Where the spec leaves a reading open, the statement holds of the
model's (log entry 16). -/
def Obligations.CommandsEnterTheirQueues : Prop :=
  (∀ row ∈ matrixRows, ∀ (o : MOps) (s : State), s.runs (row.1 o) →
    ∃ m, exec (row.1 o) s = .next (s.modCur (fun x => x.withMatrix m)) ∧ m.isNew s row.2 o ∧ m.after = none ∧
      m.serial = s.cur.serial) ∧
  (∀ row ∈ copyRows, ∀ (e : Engine) (o : COps) (s : State), s.runs (row e o) →
    ∃ c, exec (row e o) s = .next (s.modCur (fun x => x.withCopy c)) ∧ c.isNew s (row e o) e o ∧ c.phase = .queued) ∧
  (∀ (e : Engine) (o : COps) (s : State), s.runs (.scld e o) →
    ∃ c, c.isNew s (.scld e o) e o ∧ c.left = 8 ∧
      (4 ≤ o.from → exec (.scld e o) s = .next (s.modCur (fun x => x.withCopy c)) ∧ c.phase = .queued) ∧
      (o.from < 4 → exec (.scld e o) s = .next (s.modCur (fun x =>
          { x with serial := x.serial + 1, tags := tput x.tags c.tag (tget 0 x.tags c.tag + 1), sclds := x.sclds ++ [c] })) ∧
        c.phase = .moved ∧ c.got = [(0, (List.range 1024).map (fun i =>
          s.src.bget (bufOf o.from) ((c.stg.getD 0 0).toNat % 2 ^ 20 + i)))])) ∧
  (∀ (i : Instr) (e : Engine) (o : COps) (s : State), (i = .coll e o ∨ i = .repart e o) → s.runs i →
    ∃ c, exec i s = .next (s.modCur (fun x => { x.withCopy c with
        mail := x.mail ++ [{ serial := c.serial, pc := c.pc, tag := c.tag, coll := o.flags.toNat % 4 }] })) ∧
      c.isNew s i e o ∧ c.phase = .queued) ∧
  (∀ row ∈ matrixRows.take 4, ∀ (e : Engine) (o : COps) (m0 : MOps) (s : State), s.runs (.cpym e o) →
    decodeMatrix (((tget 0 s.src.regs.stg (32 + 8 * o.blk.toNat + 7)).setWidth 32).setWidth 48) = .ok (row.1 m0) →
    ∃ c m, exec (.cpym e o) s = .next (s.modCur (fun x => (x.withCopy c).withMatrix m)) ∧
      c.isNew s (.cpym e o) e o ∧ c.phase = .queued ∧ m.isNew s row.2 m0 ∧ m.after = some c.serial ∧ m.serial = c.serial + 1)

/-- R82, R218, R230, R231, R239, R240, R312: the next command of the matrix queue starts once no conflict holds it, the one
before it has read its operands, at most one is running and the cluster is below SHADE3; its level is the lower of FIDMAX and
the cluster's limit; D clocks after its start its operands are read. R231, R232, R236, R239, R252, R320: 64 clocks after its
last run the oldest command ends it. Without a detection in a nominal slice its bytes of C and of the destination lie in the
buffers and its tag completes; with one it runs again and MSTAT.REPLAYS counts it, up to three times; then C is written back as
its record holds it, its tag completes, MSTAT.LIMIT is set and FIDELITY_REPLAY_LIMIT is pending with the offset and the tag of
the command. Where the spec leaves a reading open, the statement holds of the model's (log entry 12). -/
def Obligations.MatrixCommandsRun : Prop :=
  ((∀ (u : Nat) (m : MCmd) (s : State), u < 512 → (s.unit u).mq.find? (fun n => n.started.isNone) = some m →
     s.powered u = true → (s.unit u).run ≠ .frozen → (s.unit u).run ≠ .halted → m.after = none →
     (∀ n ∈ (s.unit u).mq, n.started.isSome = true → n.opsRead = true) →
     ((s.unit u).mq.filter (fun n => n.started.isSome)).length < 2 → s.shadeOf (clusterOf u) < 3 →
     s.matrixClear u m = true → (s.unit u).rowsPending m.tileRegs = false →
     (∀ n ∈ (s.unit u).mq, n.serial < m.serial → ∀ r ∈ n.scaleWrites, r ∉ m.scaleReads) →
     let limit := s.fidlimOf (clusterOf u)
     let level := if m.floating then min (s.unit u).card.fidmax limit else 0
     ∃ r f, r.scales = m.scales ∧ r.tx = (s.unit u).regs.tx ∧
       exec (.matrixCommandStart u) s = .next (s.modUnit u (fun x => { x with
         fidstat := f
         mq := x.mq.map (fun n => if n.serial = m.serial then
           { m with started := some s.now, level := level, record := some r } else n) })) ∧
       (m.floating = false → f = (s.unit u).fidstat) ∧
       (m.floating = true → (field f 14 2).toNat = level ∧ (field f 12 2).toNat = limit ∧
         (bitOf f 8 = (bitOf (s.unit u).fidstat 8 || decide (level < (s.unit u).card.fidmax))) ∧
         ∀ i < 64, i ∉ [8, 12, 13, 14, 15] → bitOf f i = bitOf (s.unit u).fidstat i)) ∧
   (∀ (u t0 : Nat) (m : MCmd) (s : State), u < 512 →
     (s.unit u).mq.find? (fun n => n.started.isSome && !n.opsRead) = some m → m.started = some t0 →
     s.powered u = true → t0 + 25 * clocksD m.var m.o.shape ≤ s.now →
     exec (.matrixOperandsRead u) s = .next (s.modUnit u (fun x => { x with
       mq := x.mq.map (fun n => if n.serial = m.serial then { n with opsRead := true } else n) })))) ∧
  (∀ (u t0 : Nat) (m : MCmd) (ms : List MCmd) (r : MRecord) (ds : List Detection) (s : State), u < 512 →
     (s.unit u).mq = m :: ms → m.record = some r → m.opsRead = true → m.started = some t0 →
     t0 + 25 * (clocksD m.var m.o.shape * (1 + m.replays) + 64) ≤ s.now → s.powered u = true → (s.unit u).run = .running →
     (∀ n ∈ ms, n.serial ≠ m.serial) → (∀ b, Memory.wf ((s.unit u).buf b) = true) →
     let o := (s.unit u).matrixRun m r
     let nominal := ∃ d ∈ m.detections o ds, m.level ≤ d.slice
     let last (bs : List (Nat × Byte)) (a : Nat) : Option Byte := (bs.reverse.find? (fun p => p.1 == a)).map (·.2)
     ∃ t, exec (.matrixCommandComplete u ds) s = .next t ∧ (∀ v, v ≠ u → t.unit v = s.unit v) ∧
       (t.unit u).regs = (s.unit u).regs ∧
       (¬ nominal →
         (∀ a, (t.unit u).bget .cb a = (last o.cb a).getD ((s.unit u).bget .cb a)) ∧
         (∀ a, (t.unit u).bget .ab a = (last o.ab a).getD ((s.unit u).bget .ab a)) ∧
         (∀ a, (t.unit u).bget .wb a = (s.unit u).bget .wb a) ∧ (∀ a, (t.unit u).bget .sb a = (s.unit u).bget .sb a) ∧
         (t.unit u).mstat = (s.unit u).mstat ||| o.mstat ∧ (t.unit u).mq.map (·.serial) = ms.map (·.serial) ∧
         tget 0 (t.unit u).tags m.o.tag.toNat = tget 0 (s.unit u).tags m.o.tag.toNat - 1) ∧
       (nominal → (∀ b a, b ≠ .cb → (t.unit u).bget b a = (s.unit u).bget b a)) ∧
       (nominal → m.replays < 3 → (∀ a, (t.unit u).bget .cb a = (s.unit u).bget .cb a) ∧
         (t.unit u).mq = { m with replays := m.replays + 1 } :: ms ∧ (t.unit u).tags = (s.unit u).tags ∧
         (field (t.unit u).mstat 32 16).toNat = min 0xFFFF ((field (s.unit u).mstat 32 16).toNat + 1)) ∧
       (nominal → 3 ≤ m.replays →
         (∀ a, (t.unit u).bget .cb a = if ∃ p ∈ o.cb, p.1 = a then mget r.cb a else (s.unit u).bget .cb a) ∧
         (t.unit u).mq.map (·.serial) = ms.map (·.serial) ∧ tget 0 (t.unit u).tags m.o.tag.toNat = tget 0 (s.unit u).tags m.o.tag.toNat - 1 ∧
         bitOf (t.unit u).mstat 7 = true ∧
         (t.unit u).pend = (s.unit u).pend ++ [
           { cause := .fidelityReplayLimit, resume := none,
             val := BitVec.ofNat 64 (m.pc % 2 ^ 32 * 2 ^ 32 + m.o.tag.toNat), rollback := false, handler := m.handler,
             tag := m.o.tag.toNat, arose := s.now, late := (s.unit u).waiting }]))

/-- R248, R249, R251: the engine of a powered unit pre-translates the first command of its queue that needs it. One whose
operands all lie in tile buffers, and which no condition of R248 refuses, may then start; one that a condition refuses stays
queued, and the trap that rolls the member back is pending with the cause and the address. R82, R254, R257, R258, R262, R269,
R270: a translated command starts once no conflict, no CFENCE and no closed link holds it. Where every piece lies in tile
buffers, its bytes are all read and land at the start: every byte of a piece holds what its source held, or the fill pattern,
and every other byte is as before. A WALK begins; an FSEND or FFETCH whose module cannot be reached ends with the error 0x03.
Where the spec leaves a reading open, the statement holds of the model's: log entries 21 and 67, and log entry 36 for the time at
which pieces of tile buffers are read and land. -/
def Obligations.CopiesTranslateAndStart : Prop :=
  (∀ (u : Nat) (e : Engine) (c0 c : CCmd) (s : State), u < unitCount →
     ((s.unit u).queueOf e).find? (fun d => d.phase == .queued && !d.untranslated && !d.refused) = some c0 →
     (s.unit u).run = .running → s.powered u = true →
     s.readIndex u c0 = some c → farSpaceEnd u c = .done → c.fields.1 ≠ 0x08 →
     ((∀ sd ∈ c.sides u, sd.operand.code < 4) → s.preChecks u c = .done →
       exec (.copyPretranslation u e) s =
         .next (s.modUnit u (fun x => x.withCommand e c.serial { c with phase := .translated }))) ∧
     (∀ t d cause a, s.translateAll u e c (c.sides u) = (t, d, .faults cause a) → c.handler = false → d.handler = false →
       ∃ t', exec (.copyPretranslation u e) s = .next t' ∧ (t'.unit u).run = .running ∧
         (t'.unit u).pend = (s.unit u).pend ++
           [{ cause := cause, resume := none, val := BitVec.ofNat 64 a, rollback := true, handler := false,
              tag := c.tag, arose := s.now }] ∧
         (t'.unit u).regs = (s.unit u).regs ∧ (t'.unit u).tags = (s.unit u).tags)) ∧
  (∀ (u : Nat) (e : Engine) (id : Nat) (c : CCmd) (s : State), u < unitCount → (s.unit u).command e id = some c →
     c.phase = .translated → (s.unit u).run = .running → s.powered u = true → s.copyClear u c = true →
     (s.unit u).fenced id = false → s.shedWait { c with runs := s.pieces u c } = false →
     s.linkWait u { c with runs := s.pieces u c } = false →
     (∀ d ∈ (s.unit u).queueOf e, d.serial < id → s.mayStart u d = false) →
     (1 ≤ c.fields.1 → c.fields.1 ≤ 5 → (∀ v b, Memory.wf ((s.unit v).buf b) = true) →
       c.old = [] → c.gate = [] → c.got = [] → c.lost = [] → c.err = none → c.stop = none →
       (∀ r ∈ s.pieces u c, r.wrote = false ∧ r.scs = 0 ∧ r.dcs = 0 ∧ (∃ v b, r.dst.place = .buf v b) ∧
         (∀ l, r.src = some l → ∃ v b, l.place = .buf v b) ∧ (r.src = none → r.lit.length = r.len)) →
       (s.pieces u c).Pairwise (fun p q => p.dst.place ≠ q.dst.place ∨ p.dst.addr + p.len ≤ q.dst.addr ∨
         q.dst.addr + q.len ≤ p.dst.addr) →
       ∃ t d, exec (.copyCommandStart u e id []) s = .next t ∧ (t.unit u).command e id = some d ∧ d.phase = .moved ∧ d.err = none ∧
         (∀ r ∈ s.pieces u c, ∀ i < r.len, t.locGet (r.dst.plus i) =
           match r.src with
           | some l => s.locGet (l.plus i)
           | none => r.lit.getD i 0) ∧
         (∀ l, (∀ r ∈ s.pieces u c, l.place = r.dst.place → l.addr < r.dst.addr ∨ r.dst.addr + r.len ≤ l.addr) →
           t.locGet l = s.locGet l)) ∧
     (∀ lost, c.fields.1 = 0x10 → ∃ t d, exec (.copyCommandStart u e id lost) s = .next t ∧
       (t.unit u).command e id = some d ∧ d.phase = .started ∧ d.err = c.err ∧ ∀ v, v ≠ u → t.unit v = s.unit v) ∧
     (∀ lost, c.fields.1 = 0x11 ∨ c.fields.1 = 0x12 → s.reachable c.remote.1 = false →
       exec (.copyCommandStart u e id lost) s =
         .next (s.modUnit u (fun x => x.withCommand e id { c with phase := .moved, err := some 3, peer := true }))))

/-- R83, R126, R252, R261, R262, R271, R409, R410: 288 ns after the start of its slot a DRAM read delivers, or loses, the
pieces it carries, and what is due lands: where that is one piece for a tile buffer, its bytes hold what their source held. A
command whose writes have had their slots, and whose pieces have landed, frees its place and completes its tag with no trap;
after an error it sets CSTAT.ERR with its code and tag and leaves a COPY_ACCESS pending with the offset, code and tag; an SCLD
that is due writes its scale register; a CFENCE with no earlier command left completes. Where the spec leaves a reading open,
the statement holds of the model's (log entries 34 and 70). -/
def Obligations.CopyCommandsComplete : Prop :=
  (∀ (u : Nat) (e : Engine) (id i q t0 : Nat) (r : Run) (err : Option Byte) (c : CCmd) (s : State), u < unitCount →
    let s' := s.placeEngine u e
    let d := s'.deliver u c q err
    (s'.unit u).command e id = some c → c.nextDram = some i → c.runs[i]? = some r → r.req = some q →
    (∃ y, c.reqs[q]? = some y ∧ y.slot = some t0) → (s'.unit u).firstRead e t0 = true → s'.powered u = true → t0 + ns 288 ≤ s'.now →
    c.phase = .started → c.stop = none → (s'.unit u).run = .running → (∀ x, err = some x → x = 1 ∨ x = 6) → d.arrived = false →
    s'.heldUp u d = false → (∀ p ∈ c.runs, s'.resetDie p = none) → c.fields.1 ≠ 6 →
    (d.landing s'.now = [] → exec (.dramReadDelivery u e id err) s = .next (s'.modUnit u (fun x => x.withCommand e id d))) ∧
    ∀ j p, c.runs[j]? = some p → p.req = some q → j ∉ c.lost →
      (err = none → p.scs = 0 → j ∉ d.lost → ∀ l, p.src = some l → tget [] d.got j = s'.locReadFor u c l p.len ∧
        (∀ v b, d.landing s'.now = [(j, p)] → d.lost = [] → p.dcs = 0 → p.dst.place = .buf v b → l.place = .dram →
          (∀ a w, Memory.wf ((s'.unit a).buf w) = true) → c.old = [] →
          ∃ t, exec (.dramReadDelivery u e id err) s = .next t ∧
            (∀ k < p.len, t.locGet (p.dst.plus k) = s'.locGet (l.plus k)) ∧
            (∀ y : Loc, y.place ≠ p.dst.place ∨ y.addr < p.dst.addr ∨ p.dst.addr + p.len ≤ y.addr → t.locGet y = s'.locGet y))) ∧
      (∀ x, err = some x → j ∈ d.lost ∧ d.err = some (c.err.getD x))) ∧
  (∀ (u : Nat) (e : Engine) (id : Nat) (err : Option Byte) (data : List Byte) (c : CCmd) (s : State), u < unitCount →
    let s' := s.placeEngine u e
    (s'.unit u).command e id = some c → c.phase = .moved → (s'.unit u).run = .running → s'.powered u = true →
    c.writesLanded s'.now = true → (∀ r ∈ c.runs, r.wrote = true) → c.fields.1 ≤ 6 ∨ c.fields.1 = 8 →
    (∀ x, err = some x → peerCode x = true) →
    ∃ t, exec (.copyCommandComplete u e id err data) s = .next t ∧ (t.unit u).command e id = none ∧
      (t.unit u).regs = (s'.unit u).regs ∧ (∀ v, v ≠ u → t.unit v = s'.unit v) ∧
      (c.err = none →
        tget 0 (t.unit u).tags c.tag = tget 0 (s'.unit u).tags c.tag - 1 ∧ (t.unit u).pend = (s'.unit u).pend) ∧
      (∀ code, c.err = some code → c.peer = false →
        bitOf (t.unit u).cstat 1 = true ∧ field (t.unit u).cstat 16 8 = code ∧
        (t.unit u).pend = (s'.unit u).pend ++ [{ cause := .copyAccess, resume := none,
                                                 val := BitVec.ofNat 64 (c.pc % 2 ^ 32 * 2 ^ 32 + code.toNat * 256 + c.tag % 64),
                                                 rollback := false, handler := c.handler, tag := c.tag, arose := s'.now,
                                                 late := (s'.unit u).waiting }])) ∧
  (∀ (u id : Nat) (c : CCmd) (s : State), u < 512 →
    ((s.unit u).sclds ++ (s.unit u).q0 ++ (s.unit u).q1).find? (fun d => d.serial == id && d.isScld) = some c →
    c.err = none → c.lost = [] → c.phase = .moved → c.left = 0 → (s.unit u).run = .running → s.powered u = true →
    ∃ t, exec (.scldLanding u id) s = .next t ∧
      (∀ k < 512, ¬ c.serial < scaleSerial (s.unit u).scaleSer (scldReg c.fields.2) k →
        field (tget 0 (t.unit u).scales (scldReg c.fields.2)) (16 * k) 16 =
          field (ofBytes 8192 (c.got.flatMap (·.2)) : ScaleReg) (16 * k) 16) ∧
      (∀ r, r ≠ scldReg c.fields.2 → tget 0 (t.unit u).scales r = tget 0 (s.unit u).scales r) ∧
      tget 0 (t.unit u).tags c.tag = tget 0 (s.unit u).tags c.tag - 1 ∧
      (∀ d ∈ (t.unit u).sclds ++ (t.unit u).q0 ++ (t.unit u).q1, d.serial ≠ c.serial) ∧
      (t.unit u).regs = (s.unit u).regs) ∧
  (∀ (u id : Nat) (c : CCmd) (o : COps) (e : Engine) (s : State), u < unitCount →
    ((s.unit u).q0 ++ (s.unit u).q1).find? (fun d => d.serial == id &&
      (match d.op with | .cfence _ _ => true | _ => false)) = some c → c.op = .cfence e o → c.err = none →
    (∀ d ∈ (s.unit u).q0 ++ (s.unit u).q1 ++ (s.unit u).sclds, id ≤ d.serial) → (s.unit u).run = .running → s.powered u = true →
    exec (.cfenceStart u id) s = .next (s.modUnit u (fun x => x.withoutCommand c.engine c)))

/-! ### Collectives -/

/-- R265, R327, R328, R345: a COLL or REPART whose conflicts are clear is received by the comm master of its cluster, where its
record has no translation with the outcome RECORD_TRANSLATION; a peer on another module that the command needs and that answers
PEER_DARK or TWILIGHT makes it wait, or end with that answer where PATIENCE is 0; once its waits exceed PATIENCE the command
has the outcome of the last reply. R331 to R333, R345, R428, R499: a credit moves the sender's next chunk to its receiver, and
one that finds the comm master at rest is kept and answered with PEER_DARK or TWILIGHT (the module being awake, and links
towards the receiver open, R460); a receiver's request for a chunk that
was sent is answered with the kept bytes, one for the next chunk acts as a credit, and either is answered with the outcome of a
command that has ended; a chunk that a member has lost is asked for again; a report that a chunk is applied is recorded, and
the kept copy is released once every receiver has reported; a peer's outcome other than OK ends the command that needs it.
Where the spec leaves a reading open, the statement holds of the model's (log entries 45 and 87). -/
def Obligations.CollectivesSend : Prop :=
  ((∀ (u id : Nat) (keyless : Bool) (q : CCmd) (s : State), u < 512 →
     ((s.unit u).q0 ++ (s.unit u).q1).find? (fun c => c.serial == id && (c.fields.1 == 0x0A || c.fields.1 == 0x0B)) = some q →
     q.phase = .queued → s.copyClear u q = true → (s.unit u).fenced id = false → s.mastersRun u = true →
     (s.unit u).run = .running →
     let a := (s.unit u).card.coll.getD (field q.fields.2.flags 0 2).toNat 0
     (rangeVia (s.walkerXlat u (s.unit u).card.aspace) a 128 false = none →
       ∃ c, c.unit = u ∧ c.serial = id ∧ c.tag = q.tag ∧ c.ended = some 0x13 ∧ c.noWord = true ∧
         exec (.collDispatch u id keyless) s = .next (State.review
           { (s.modUnit u (fun x => x.modQueued id (fun d => { d with phase := .moved }))) with colls := s.colls ++ [c] })) ∧
     (∀ t, s.collOf u id = none → s.startColl u (s.unit u) q keyless = some t →
       exec (.collDispatch u id keyless) s = .next t.review ∧ (∃ c ∈ t.colls, c.unit = u ∧ c.serial = id ∧ c.tag = q.tag) ∧
       ∀ v, (t.unit v).regs = (s.unit v).regs ∧
         (t.unit v).q0 = (if v = u then ((s.unit u).modQueued id (fun d => { d with phase := .moved })).q0 else (s.unit v).q0))) ∧
   (∀ (u id : Nat) (c : Coll) (s : State), u < 512 → s.collOf u id = some c → c.ended = none → s.mastersRun u = true →
     s.fabricWaits = false →
     (∀ m code, m < c.nmem → c.modOf m ≠ s.modnum → c.needs m = true →
       (∀ f < c.nmem, c.modOf f ≠ s.modnum → s.reachable (c.modOf f) = true) →
       ((code = 3 ∨ code = 4) → (∀ f < c.nmem, c.modOf f = s.modnum → f = c.member) →
         ∃ t d, exec (.peerStatusReply u id ⟨m, code, false⟩) s = .next t ∧ t.units = s.units ∧ t.collOf u id = some d ∧
           (recPatience c.rcd = 0 → d.ended = some code) ∧
           (recPatience c.rcd ≠ 0 → d.ended = none ∧ d.status = c.status ||| 64 ∧
             d.waitFrom = some (c.waitFrom.getD s.now) ∧ d.waitCode = code)) ∧
       (code ≠ 0 → ∃ t d, exec (.peerStatusReply u id ⟨m, code, true⟩) s = .next t ∧ t.units = s.units ∧
         t.collOf u id = some d ∧ d.ended = some (if (code = 3 ∨ code = 4) ∧ 128 ≤ c.status then code else 0x15))) ∧
     (∀ t0, c.waitFrom = some t0 → us 1000 * recPatience c.rcd < c.waited + (s.now - t0) →
       ∃ t, exec (.patienceExpiry u id) s = .next t ∧ t.units = s.units ∧
         t.collOf u id = some { c with ended := some c.waitCode }))) ∧
  (∀ (u id m : Nat) (p : Peer) (c : Coll) (s : State), u < 512 → s.collOf u id = some c → s.fabricWaits = false →
     s.masterDark u = true → c.isFor p = true → p.member = m → c.ended = none → m < c.nmem → c.modOf m ≠ s.modnum →
     ∃ d, exec (.credit u id p) s = .next ((s.send (.status p.mod p.group p.step (if s.noon then 4 else 3) false)).setColl d) ∧
       tget 0 d.credits m = tget 0 c.credits m + 1 ∧ (∀ k, k ≠ m → tget 0 d.credits k = tget 0 c.credits k) ∧
       { d with credits := c.credits } = c) ∧
  (∀ (u id m t : Nat) (p : Peer) (c : Coll) (s : State), u < 512 → s.collOf u id = some c → s.mastersRun u = true →
     s.fabricWaits = false → c.isFor p = true → p.member = m →
     (∀ bs, c.ended = none → m < c.nmem → c.modOf m ≠ s.modnum → c.nextFor m = some (t, bs) → s.chunkWay c m t = true →
       ∃ d, exec (.credit u id p) s =
           .next ((s.send (.chunk (c.modOf m) c.group c.step c.member m t (c.landing t) bs)).setColl d).review ∧
         d.sent = c.sent ++ [(m, t)] ∧ (∀ k, tget 0 d.credits k = tget 0 c.credits k) ∧
         { d with sent := c.sent, credits := c.credits, waitOn := c.waitOn } = c) ∧
     (c.ended = none → (m, t) ∈ c.sent → s.chunkWay c m t = true → exec (.chunkRequest u id p ⟨t, false⟩) s =
       .next (s.send (.chunk (c.modOf m) c.group c.step c.member m t (c.landing t) (c.keptChunk m t)))) ∧
     (∀ bs, c.ended = none → m < c.nmem → c.modOf m ≠ s.modnum → c.nextFor m = some (t, bs) → (m, t) ∉ c.sent →
       s.chunkWay c m t = true →
       ∃ d, exec (.chunkRequest u id p ⟨t, false⟩) s =
           .next ((s.send (.chunk (c.modOf m) c.group c.step c.member m t (c.landing t) bs)).setColl d).review ∧
         { d with credits := c.credits, waitOn := c.waitOn } = { c with sent := c.sent ++ [(m, t)] }) ∧
     (∀ e, c.ended = some e → exec (.chunkRequest u id p ⟨t, false⟩) s =
       .next (s.send (.status p.mod p.group p.step e true))) ∧
     (∀ h, c.ended = none → c.reduces = false → c.held.find? (fun h => h.sender == m && h.t == t) = some h →
       exec (.chunkRequest u id p ⟨t, true⟩) s =
         .next ((s.send (.request (c.modOf m) c.group c.step m c.member t)).setColl { c with
           inSlots := c.inSlots.filter (· != h), inPool := c.inPool.filter (· != h)
           granted := tput c.granted m (tget 0 c.granted m + 1) })) ∧
     (c.modOf m ≠ s.modnum → (m, t) ∈ c.sent → (m, t) ∉ c.acks →
       let all := (recTargets c.rcd c.member t).all (fun k => (c.acks ++ [(m, t)]).contains (k, t))
       exec (.chunkApplied u id m t) s = .next (s.setColl { c with
         waitOn := c.waitOn.filter (fun w => w.member != m || w.own)
         acks := c.acks ++ [(m, t)]
         kept := if !c.repart && all then tdel c.kept t else c.kept }).review))

/-- R331 to R333: a chunk of a copy or all-gather that is next from its sender, at a member that holds no other, is
written at its place in LOCAL_OUT, counted and reported applied; no other byte of any place changes; the module is awake and
links from the sender are open (R460, R483). A member that has
ended answers with its outcome, and a chunk that was applied before is only reported again. R266, R334, R342, R343: a
repartition that has exchanged counts knows the owner of each of its records; a collective that has ended, or all of
whose chunks are applied, completes its tag, leaves its mailbox entry and queue place, and an outcome other than OK is
pending as COLLECTIVE_FAULT with the offset, the outcome and the tag. Where the spec leaves a reading open, the
statement holds of the model's (log entries 45 and 87). -/
def Obligations.CollectivesReceiveAndComplete : Prop :=
  (∀ (u id f t : Nat) (p : Peer) (data : List Byte) (c : Coll) (s : State), u < 512 → s.collOf u id = some c → c.unit = u →
     s.fabricWaits = false → c.isFor p = true → p.member = f → s.wayOpen (s.dieOfMember c f) (dieOf u) (c.landsFrom f t) = true →
     (∀ e, c.ended = some e → exec (.chunk u id p t data) s = .next (s.send (.status p.mod p.group p.step e true))) ∧
     (c.ended = none → s.mastersRun u = true → c.modOf f ≠ s.modnum → c.repart = false → (f, t) ∈ c.applied →
       data.length = recChunk c.rcd →
       exec (.chunk u id p t data) s = .next (s.send (.applied (c.modOf f) c.group c.step f c.member t))) ∧
     (c.ended = none → s.mastersRun u = true → c.modOf f ≠ s.modnum → c.repart = false → isReduction c.rcd = false →
       data.length = recChunk c.rcd → f < c.nmem → c.isNext { sender := f, t := t, data := data } = true →
       (f, t) ∉ c.applied → c.inSlots = [] → c.inPool = [] → c.parts = [] → 0 < recNat c.rcd 0x0C 2 →
       tget 0 c.granted f ≠ 0 → s.present c = true → (∀ b, Memory.wf ((s.unit u).buf b) = true) →
       let place : Place := .buf u (localRange c.wout).buf
       let at0 := (localRange c.wout).off + (recLands c.rcd f t).toNat
       ∃ t' d, exec (.chunk u id p t data) s = .next t' ∧ t'.collOf u id = some d ∧ (f, t) ∈ d.applied ∧
         d.delivered = c.delivered + 1 ∧ d.inSlots = [] ∧
         (∀ i < data.length, t'.locGet { place := place, addr := at0 + i } = data.getD i 0) ∧
         (∀ l : Loc, (l.place ≠ place ∨ l.addr < at0 ∨ at0 + data.length ≤ l.addr) → t'.locGet l = s.locGet l) ∧
         (∀ v, (t'.unit v).regs = (s.unit v).regs))) ∧
  ((∀ (u id : Nat) (hists counts : List (List Nat)) (c : Coll) (s : State), u < 512 → s.collOf u id = some c →
     c.unit = u → c.serial = id → c.ended = none → c.repart = true → c.counts = [] → recBalanced c.rcd = false →
     c.member < c.nmem → s.localMember c c.member = some c →
     (∀ m < c.nmem, c.modOf m = s.modnum → ∃ d, s.localMember c m = some d ∧ s.mastersRun d.unit = true ∧
       recBalanced d.rcd = false ∧ (d.unit = u → d.serial = id → d = c)) →
     let splits := splitters 8 c.nmem (s.heldRead c (recNat c.rcd 0x30 8) (8 * (c.nmem - 1)))
     ∃ t d, exec (.repartCounts u id hists counts) s = .next t ∧ t.collOf u id = some d ∧ d.counts.length = c.nmem ∧
       d.owners = c.kept.map (fun p => fixedOwner splits (recordKey c.rcd p.2)) ∧ t.units = s.units ∧ t.dram = s.dram ∧
       ∀ m < c.nmem, c.modOf m ≠ s.modnum →
         d.counts.getD m [] = (List.range (c.nmem + 2)).map (fun i => (counts.getD m []).getD i 0)) ∧
   (∀ (u id pool n : Nat) (c : Coll) (s : State), u < 512 → s.collOf u id = some c → c.unit = u → c.serial = id →
     c.repart = false → s.mastersRun u = true → c.node = some n → savedOf (tget [] s.saved n) u = none →
     (s.unit u).team = some n → (s.unit u).run = .running → c.noWord = true →
     (c.ended = none → c.finished = true → ∃ t, exec (.completionWord u id none pool) s = .next t ∧
       t.collOf u id = none ∧ (∃ x ∈ t.endedColls, x.unit = u ∧ x.group = c.group ∧ x.step = c.step ∧ x.outcome = 0) ∧
       tget 0 (t.unit u).tags c.tag = tget 0 (s.unit u).tags c.tag - 1 ∧ (t.unit u).pend = (s.unit u).pend ∧
       (∀ m ∈ (t.unit u).mail, m.serial ≠ id) ∧ (∀ d ∈ (t.unit u).q0 ++ (t.unit u).q1, d.serial ≠ id) ∧
       (t.unit u).regs = (s.unit u).regs ∧ ∀ v, v ≠ u → t.unit v = s.unit v) ∧
     (∀ e, c.ended = some e → e ≠ 0 → ∃ t, exec (.completionWord u id none pool) s = .next t ∧
       t.collOf u id = none ∧ (∃ x ∈ t.endedColls, x.unit = u ∧ x.group = c.group ∧ x.step = c.step ∧ x.outcome = e) ∧
       tget 0 (t.unit u).tags c.tag = tget 0 (s.unit u).tags c.tag - 1 ∧
       (t.unit u).pend = (s.unit u).pend ++ [{ cause := .collectiveFault, resume := none,
                                               val := BitVec.ofNat 64 (c.pc % 2 ^ 32 * 2 ^ 32 + e * 2 ^ 16 + c.tag % 64),
                                               rollback := false, handler := c.handler, tag := c.tag, arose := s.now,
                                               late := (s.unit u).waiting }] ∧
       (∀ m ∈ (t.unit u).mail, m.serial ≠ id))))

/-! ### Scheduler -/

/-- R372, R374, R377, R379 to R382: the scheduler takes the next record of the queue whose turn it is: HEAD moves on by
one and the record stands behind the earlier ones, at once ended with REFUSED_RECORD and its reason where R377 refuses
it; a ring without a translation stops its queue with QERR 2. A record that has ended, or a marker behind completed
records, completes: its TAKEs apply and its completion record is written, or SCHSTAT.CWLOST is set. R16, R23, R87,
R379, R380, R384: the ready team whose turn it is starts on free tiles with the initial state of R23, or ends with
HOST_OWNED where the host owns a unit of a footprint; a team whose members have all ended with every command complete
ends DONE, or FAULTED with the cause of its lowest faulted member, and its tiles and region-table entries are free.
Where the spec leaves a reading open, the statement holds of the model's (log entry 38). -/
def Obligations.RecordsAndTeams : Prop :=
  ((∀ (q : Nat) (s : State), q < queueCount → s.consumes = true → s.nextQueue = some q →
     let at0 := s.qRing q + 128 * (s.qHead q % 2 ^ s.qLog q)
     let n := s.sched.nextNode
     let g := (tget {} s.sched.queues q).openGraph.map (fun g => tget default s.sched.graphs g)
     (s.vread false (s.qAspace q) at0 128 = none →
       ∃ t, exec (.launchRecord q) s = .next t ∧ t.qEn q = false ∧ t.cfield (qAddr q 0x18) 32 8 = 2 ∧
         t.qHead q = s.qHead q ∧ t.units = s.units ∧ t.dram = s.dram ∧ t.sched.nodes = s.sched.nodes) ∧
     (∀ r, s.vread false (s.qAspace q) at0 128 = some r →
       (s.recordRefusal q r).1 ≠ 0 ∨ s.grantsBlocked (s.qMask q) (s.qAspace q) r = false →
       ∃ t, exec (.launchRecord q) s = .next t ∧ t.qHead q = (s.qHead q + 1) % 2 ^ 32 ∧ t.sched.nextNode = n + 1 ∧
         t.hasNode n = true ∧ (t.node n).queue = q ∧ (t.node n).serial = (tget {} s.sched.queues q).serial ∧
         (t.node n).cword = recNat r 0x10 8 ∧ t.units = s.units ∧ t.dram = s.dram ∧
         ∀ reason, s.recordReason (s.qAspace q) (s.qMask q) g (match g with | some g => g.nodes | none => 0) r
             (if lrKind r = 0 then s.vread false (s.qAspace q) (recNat r 8 8) 256 else none) = some reason →
           (t.node n).phase = .ended ∧ (t.node n).status = 2 ∧ (t.node n).detail = reason)) ∧
   (∀ (n : Nat) (s : State), s.hasNode n = true → s.noon = true → s.takesFit (s.node n).mask (s.node n).grants = true →
     (s.node n).phase = .ended ∨ ((s.node n).phase = .waiting ∧ (s.node n).marker = true ∧
       ∀ p ∈ s.graphNodes (s.node n).graph, p.1 < n → p.2.phase = .done) →
     let x := s.node n
     let s1 := s.applyTakes x.mask x.aspace x.grants
     ∃ t, exec (.recordCompletion n) s = .next t ∧ (t.node n).phase = .done ∧ (t.node n).status = x.status ∧
       (x.cword = 0 → t.dram = s.dram ∧ t.units = s.units) ∧
       (x.cword ≠ 0 → ∀ t1, s1.vwrite false x.aspace x.cword (completionRecord x) = some t1 →
         t.dram = t1.dram ∧ t.sram = t1.sram ∧ t.units = t1.units) ∧
       (x.cword ≠ 0 → s1.vwrite false x.aspace x.cword (completionRecord x) = none →
         bitOf (t.cget (scb + 0x28)) 2 = true ∧ t.dram = s.dram))) ∧
  ((∀ (n k f level : Nat) (r : Round) (frames : List Nat) (s : State), s.hasNode n = true →
     s.nextTeam = some (n, level, r) → (s.node n).phase = .ready → s.fits n k f = true →
     let x := s.node n
     (∀ i, s.hostOwned x k = some i → ∃ t, exec (.teamStart n k f frames) s = .next t ∧ (t.node n).phase = .ended ∧
       (t.node n).status = 5 ∧ (t.node n).detail = i ∧ t.units = s.units ∧ t.dram = s.dram) ∧
     (∀ code s1 xs, s.hostOwned x k = none → cardInit x.card = false →
       s.vread false x.aspace (cardCode x.card) (cardCodeLen x.card) = some code →
       s.stageFeet x [] frames (List.range (cardNfoot x.card)) = (s1, .inl xs) →
       ∃ t, exec (.teamStart n k f frames) s = .next t ∧ (t.node n).phase = .resident ∧ (t.node n).cluster = k ∧
         (t.node n).first = f ∧
         (∀ m < cardTeam x.card,
           let y := t.unit (16 * k + f + m)
           y.run = .running ∧ y.handler = false ∧ y.pc = recNat x.card 4 4 ∧ y.trapVec = BitVec.ofNat 64 (recNat x.card 8 4) ∧
           (tget {} y.regs.s 1).v = BitVec.ofNat 64 (recNat x.card 0x20 8) ∧ (tget {} y.regs.s 2).v = BitVec.ofNat 64 m ∧
           (tget {} y.regs.s 3).v = BitVec.ofNat 64 (cardTeam x.card) ∧
           (∀ i, i ≠ 1 → i ≠ 2 → i ≠ 3 → tget {} y.regs.s i = {}) ∧ y.regs.fcsr = 0 ∧ y.regs.loops = [] ∧ y.flight = [] ∧
           y.gated = [] ∧ y.member = m ∧ y.team = some n ∧ y.code = mwrite [] 0 code ∧ (∀ b, y.buf b = []) ∧
           y.markPc = BitVec.ofNat 64 (recNat x.card 4 4) ∧ y.shadow = y.regs) ∧
         ∀ v, (v < 16 * k + f ∨ 16 * k + f + cardTeam x.card ≤ v) → t.unit v = s1.unit v)) ∧
   (∀ (n : Nat) (s : State), s.hasNode n = true → s.noon = true → (s.node n).phase = .resident →
     (∀ u ∈ (s.node n).units, ((s.unit u).run = .ended ∨ (s.unit u).run = .faulted) ∧ (s.unit u).quiet = true) →
     (∀ c ∈ s.colls, c.node ≠ some n) →
     ∃ t, exec (.nodeComplete n) s = .next t ∧ (t.node n).phase = .ended ∧
       ((∀ u ∈ (s.node n).units, (s.unit u).run = .ended) → (t.node n).status = 0 ∧ (t.node n).detail = 0) ∧
       (∀ us u vs, (s.node n).units = us ++ u :: vs → (∀ w ∈ us, (s.unit w).run = .ended) → (s.unit u).run = .faulted →
         (t.node n).status = 3 ∧ (t.node n).detail = (s.unit u).trapCause.toNat % 256) ∧
       (∀ u ∈ (s.node n).units, t.unit u = { s.unit u with run := .idle, team := none, pend := [] }) ∧
       (∀ v, v ∉ (s.node n).units → t.unit v = s.unit v) ∧ ∀ r ∈ (t.cluster (s.node n).cluster).regions, r.node ≠ some n))

/-- R28, R29, R253, R296, R298, R384, R385: a team whose tiles a higher level needs, whose die is fenced, or that has used its
quantum before a waiting team of its level, is saved with the registers of its members and leaves its tiles, and without a
place for it SCHSTAT.SWAPFULL is set; the swapped team whose turn it is goes on with its registers, buffers and pc; at a
quantum boundary of a cluster that it may use, a team that has waited four rotations gains one level. Where the spec leaves a
reading open, the statement holds of the model's (log entries 37 and 38). -/
def Obligations.TeamsSwap : Prop :=
  (∀ (n : Nat) (s : State), s.hasNode n = true → s.mayYield (s.node n) = true →
    let v := s.node n
    let swaps (i : Instr) : Prop :=
      (s.swapPlace v = none → exec i s = .next (s.csetField (scb + 0x28) 1 1 1)) ∧
      (∀ p is, s.swapPlace v = some (p, is) → (∀ u ∈ v.units, (s.unit u).matrixStill = true ∧
          ∀ c ∈ (s.unit u).q0 ++ (s.unit u).q1, c.phase ≠ .started ∧ c.phase ≠ .moved ∧ c.stop = none) →
        ∃ t, exec i s = .next t ∧ (t.node n).phase = .swapped ∧ (t.node n).place = some p ∧ (t.node n).slots = is ∧
          (∀ u ∈ v.units, t.unit u = (s.unit u).tilePart) ∧ (∀ u, u ∉ v.units → t.unit u = s.unit u) ∧
          (tget [] t.saved n).map (·.1) = v.units ∧
          (∀ e ∈ tget [] t.saved n, e.2.regs = (s.unit e.1).regs ∧ e.2.pc = (s.unit e.1).pc ∧
            ∀ b, e.2.buf b = (s.unit e.1).buf b) ∧ (p = .shadow → t.dram = s.dram))
    (s.fenced v = true ∨ s.wanted v (fun a b => decide (a < b)) = true → swaps (.preempt n)) ∧
    (v.quantumFrom + s.quantum (s.levelOf v) ≤ s.now → s.wanted v (fun a b => a == b) = true → swaps (.quantumExpiry n))) ∧
  (∀ (n level : Nat) (r : Round) (s : State), s.hasNode n = true → s.nextTeam = some (n, level, r) →
    (s.node n).phase = .swapped → (tget [] s.saved n).map (·.1) = (s.node n).units →
    (∀ e ∈ tget [] s.saved n, e.2.run = .frozen ∧ e.2.was = .running) → (∀ c ∈ s.colls, c.node ≠ some n) →
    ∃ t, exec (.teamResume n) s = .next t ∧ (t.node n).phase = .resident ∧ (t.node n).place = none ∧
      (∀ e ∈ tget [] s.saved n, (t.unit e.1).run = .running ∧ (t.unit e.1).regs = e.2.regs ∧ (t.unit e.1).pc = e.2.pc ∧
        (t.unit e.1).handler = e.2.handler ∧ ∀ b, (t.unit e.1).buf b = e.2.buf b) ∧
      ∀ v, v ∉ (s.node n).units → t.unit v = s.unit v) ∧
  (∀ (n : Nat) (s : State), s.hasNode n = true →
    (s.node n).phase = .ready ∨ (s.node n).phase = .swapped → (s.node n).promoted = 0 → s.levelOf (s.node n) ≠ 0 →
    s.quantumEnds (s.node n).mask = true → (s.node n).waitFrom + 4 * s.rotationLength (s.node n) ≤ s.now →
    exec (.teamPromotion n) s = .next (((s.setNode n { s.node n with promoted := 1 }).noteBump (scb + 0x28) 16 1).csetField
      (scb + 0x28) 16 16 (min 0xFFFF (s.cfield (scb + 0x28) 16 16 + 1))))

/-! ### Registers of the control space, the host and the fabric -/

/-- R371, R372, R387, R388, R416, R442, R445, R481, R483: what a write of a queue's, the scheduler's, the bridge's, the power
block's and the Dusk block's registers stores, and where it is ignored; every other register of the control space and all
else keeps its value. A TAIL of an enabled queue also wakes a sleeping module; one further than the ring from HEAD stops the
queue with QERR 1 and raises vector 0, and any other posts the doorbell's event, whose word and receiver are the model's
choice (log entry 80). -/
def Obligations.QueueAndBlockWrites : Prop :=
  ∀ (v : Word) (s : State),
    (∀ q < queueCount,
      (2 ^ s.qLog q < ((field v 0 32).toNat + 2 ^ 32 - s.qHead q) % 2 ^ 32 →
        ∃ t, exec (.tailWrite q v) s = .next t ∧ t.qEn q = false ∧ t.cfield (qAddr q 0x18) 32 8 = 1 ∧
          (∀ a, a ∉ [qAddr q 8, qAddr q 0x18, brb + 0x98] → t.cget a = s.cget a) ∧
          { t with ctl := s.ctl } = { s with woken := s.woken || (s.qEn q && !s.awake) }) ∧
      (((field v 0 32).toNat + 2 ^ 32 - s.qHead q) % 2 ^ 32 ≤ 2 ^ s.qLog q →
        exec (.tailWrite q v) s = .next ((({ s with woken := s.woken || (s.qEn q && !s.awake) } : State).csetField
          (qAddr q 0x10) 0 32 (field v 0 32).toNat).postNotice 0 q)) ∧
      (s.qEn q = true → exec (.qringWrite q v) s = .next s) ∧
      (s.qEn q = false → ∃ t, exec (.qringWrite q v) s = .next t ∧ { t with ctl := s.ctl } = s ∧
        (∀ a, a ≠ qAddr q 0 → t.cget a = s.cget a) ∧
        t.qRing q = (field v 12 40).toNat * 4096 ∧ t.qLog q = if (field v 56 4).toNat < 4 then 4 else (field v 56 4).toNat) ∧
      (∃ t, exec (.qcfgWrite q v) s = .next t ∧ { t with ctl := s.ctl } = s ∧ t.qEn q = bitOf v 37 ∧
        (∀ a, a ∉ [qAddr q 8, qAddr q 0x18] → t.cget a = s.cget a) ∧
        t.qHead q = s.qHead q ∧ (bitOf v 37 = true → t.cfield (qAddr q 0x18) 32 8 = 0) ∧
        (s.qEn q = true → t.qAspace q = s.qAspace q ∧ t.qMask q = s.qMask q ∧ t.qFloor q = s.qFloor q ∧
          t.qWeight q = s.qWeight q) ∧
        (s.qEn q = false → t.qAspace q = (field v 48 16).toNat ∧ t.qMask q = (field v 0 32).toNat ∧
          t.qFloor q = (field v 38 2).toNat ∧ t.qWeight q = max 1 (field v 40 8).toNat))) ∧
    (exec (.stageszWrite v) s = .next (if 128 < (field v 0 8).toNat ∨ ∃ c ∈ s.colls, c.slots ≠ 0 then s
      else s.cset (scb + 0x10) (BitVec.ofNat 64 (field v 0 8).toNat))) ∧
    (s.slotsUsed ≠ 0 → ∀ b, exec (.swapAreaWrite b v) s = .next s) ∧
    (s.slotsUsed = 0 →
      exec (.swapAreaWrite true v) s = .next (if 4096 < (field v 0 13).toNat then s
        else s.cset (scb + 0x20) (BitVec.ofNat 64 (field v 0 13).toNat)) ∧
      exec (.swapAreaWrite false v) s = .next (s.cset (scb + 0x18) (v &&& 0x000FFFFFFFE00000))) ∧
    (∀ second, exec (.brctlWrite ⟨v, second⟩) s = .next { s.cset brb (v &&& 1) with hostReset := bitOf v 0 && second }) ∧
    (exec (.plctlWrite v) s = .next (s.cset pwb (v &&& 0xFFFFFFFF))) ∧
    (s.noon = false → exec (.plnWrite v) s = .next s) ∧
    (s.noon = true → ∃ t, exec (.plnWrite v) s = .next t ∧ { t with ctl := s.ctl } = s ∧
      (∀ a, a ∉ [dcb + 0x10, dcb + 0x48] → t.cget a = s.cget a) ∧
      t.plCount = min 4096 (field v 0 13).toNat ∧
      t.cfield (dcb + 0x48) 32 32 = ceilGb (65536 * t.plUnits) % 2 ^ 32 ∧
      t.cfield (dcb + 0x48) 0 1 = if ceilGb (65536 * t.plUnits) ≤ 640 then 1 else 0) ∧
    (exec (.hibcfgWrite v) s = .next (if s.poolUsed ≠ 0 then s
      else s.cset (dcb + 0x18) (BitVec.ofNat 64
        (if 800 ≤ (field v 0 12).toNat ∧ (field v 0 12).toNat ≤ 2000 then (field v 0 12).toNat else 1000))))

/-- R282, R315, R316, R321, R371, R391: FIDLIM keeps two bits and ignores 11; COLERR stores the trims and clears a count field
written as zero; GSUM is cleared by a write of zero; FIDINJ is stored but for its reserved bits, and a set EN restarts its
numbering; registers of a die in warm reset take no write. A write at a control address is that of its register, and nothing
where no register backs the address, which is the model's choice (log entry 63); BRCTL that makes this module the bridge keeps
its host port in reset where another one is the bridge already, which no register of this module tells (log entry 49). Where
the spec leaves a reading open, the statement holds of the model's (log entry 26). -/
def Obligations.FidelityAndControlWrites : Prop :=
  ∀ (v : Word) (s : State),
    (∀ k < 32, exec (.fidlimWrite k v) s = .next (if s.diePhase (k / 8) = 3 ∨ s.diePhase (k / 8) = 4 ∨ field v 0 2 = 3 then s
      else s.cset (fidlimAddr k) (v &&& 3))) ∧
    (∀ u < 512, (s.diePhase (u / 128) = 3 ∨ s.diePhase (u / 128) = 4) → ∀ n < 64, ∀ second,
      exec (.colerrWrite u n v) s = .next s ∧ exec (.gsumWrite u second v) s = .next s ∧
      exec (.fidinjWrite u v) s = .next s) ∧
    (∀ u < 512, s.diePhase (u / 128) ≠ 3 → s.diePhase (u / 128) ≠ 4 →
      (∀ n < 64, ∃ w : Word, exec (.colerrWrite u n v) s = .next (s.modUnit u (fun x => { x with colerr := tput x.colerr n w })) ∧
        field w 54 10 = field v 54 10 ∧
        field w 27 27 = (if field v 27 27 = 0 then 0 else field (tget 0 (s.unit u).colerr n) 27 27) ∧
        field w 0 27 = (if field v 0 27 = 0 then 0 else field (tget 0 (s.unit u).colerr n) 0 27)) ∧
      exec (.gsumWrite u false v) s = .next (if v = 0 then s.modUnit u (fun x => { x with gsum1 := 0 }) else s) ∧
      exec (.gsumWrite u true v) s = .next (if v = 0 then s.modUnit u (fun x => { x with gsum2 := 0 }) else s) ∧
      exec (.fidinjWrite u v) s =
        .next (s.modUnit u (fun x => { x with fidinj := v &&& 0xB00000FFFFFFFFFF, injCount := if bitOf v 63 then 0 else x.injCount }))) ∧
    (∀ a : BitVec 40, cregOf a.toNat = none → exec (.controlRegisterWrite a v) s = .next s) ∧
    (∀ q < queueCount,
      exec (.controlRegisterWrite (BitVec.ofNat 40 (qAddr q 0x00)) v) s = exec (.qringWrite q v) s ∧
      exec (.controlRegisterWrite (BitVec.ofNat 40 (qAddr q 0x08)) v) s = exec (.qcfgWrite q v) s ∧
      exec (.controlRegisterWrite (BitVec.ofNat 40 (qAddr q 0x10)) v) s = exec (.tailWrite q v) s ∧
      exec (.controlRegisterWrite (BitVec.ofNat 40 (qAddr q 0x18)) v) s = .next s) ∧
    (∀ k < 32, exec (.controlRegisterWrite (BitVec.ofNat 40 (fidlimAddr k)) v) s = exec (.fidlimWrite k v) s) ∧
    exec (.controlRegisterWrite (BitVec.ofNat 40 trb) v) s = .next (s.cset trb (v &&& 0x3FFFFF00000)) ∧
    (bitOf v 0 = false ∨ bitOf (s.cget brb) 0 = true → exec (.controlRegisterWrite (BitVec.ofNat 40 brb) v) s =
      .next { s.cset brb (v &&& 1) with hostReset := bitOf v 0 && s.hostReset }) ∧
    (bitOf v 0 = true → bitOf (s.cget brb) 0 = false → ∃ second, exec (.controlRegisterWrite (BitVec.ofNat 40 brb) v) s =
      .next { s.cset brb (v &&& 1) with hostReset := second, free := s.free + 1 }) ∧
    exec (.controlRegisterWrite (BitVec.ofNat 40 pwb) v) s = exec (.plctlWrite v) s

/-- R407, R419, R442 to R444, R494: the host's aligned 8-byte accesses of BAR0 reach the control space of the member they name,
and those of BAR2 the DRAM that BRWIN names; an absent or dark member is counted in HOSTDROP and reads as all ones; another
module's is sent on, served there, or answered PEER_DARK in Dusk, and its answer goes back to the host; any other access of
BAR0 is answered as unsupported. A completion of a host read delivers its bytes to the piece, or to the module, that asked.
Where the spec leaves a reading open, the statement holds of the model's (log entries 49, 63 and 69). -/
def Obligations.HostAccesses : Prop :=
  (∀ (offset size n : Nat) (v : Word) (s : State), offset < 2 ^ 35 →
    (bitOf (s.cget brb) 0 = true → s.hostReset = false → s.dusk.midnight = false →
      (size ≠ 8 ∨ offset % 8 ≠ 0 → ∀ w, exec (.hostBar0Access ⟨.pcie, offset⟩ size w v) s =
        .next { s with out := s.out ++ [.unsupported] }) ∧
      (size = 8 → offset % 8 = 0 →
        (s.memberModule (offset / 2 ^ 31) = none ∨
            (s.memberModule (offset / 2 ^ 31) = some n ∧ n ≠ s.modnum ∧ n ∈ s.darkMods) →
          exec (.hostBar0Access ⟨.pcie, offset⟩ size true v) s = .next (s.cbump (brb + 0x90) 0 32 1) ∧
          exec (.hostBar0Access ⟨.pcie, offset⟩ size false v) s = .next { s.cbump (brb + 0x90) 0 32 1 with
            out := s.out ++ [.hostData (List.replicate 8 0xFF)] }) ∧
        (s.memberModule (offset / 2 ^ 31) = some n → n ≠ s.modnum → s.reachable n = true →
          exec (.hostBar0Access ⟨.pcie, offset⟩ size true v) s =
            .next (s.send (.hostCtl n (scb + offset % 2 ^ 31) true v)) ∧
          exec (.hostBar0Access ⟨.pcie, offset⟩ size false v) s =
            .next { s.send (.hostCtl n (scb + offset % 2 ^ 31) false v) with hostReads := s.hostReads ++ [(n, 8)] }) ∧
        (s.memberModule (offset / 2 ^ 31) = some s.modnum →
          exec (.hostBar0Access ⟨.pcie, offset⟩ size true v) s = .next (s.ctlWrite (scb + offset % 2 ^ 31) v) ∧
          ((cregOf (scb + offset % 2 ^ 31)).isSome = true → exec (.hostBar0Access ⟨.pcie, offset⟩ size false v) s =
            .next { s with out := s.out ++ [.hostData (toBytes (s.ctlRead (scb + offset % 2 ^ 31)) 8)] })))) ∧
    (s.noon = false → s.dusk.midnight = false → ∀ write, exec (.hostBar0Access ⟨.bridge n, offset⟩ size write v) s =
      .next (s.send (.answer n 3))) ∧
    (s.noon = true → s.dusk.midnight = false →
      exec (.hostBar0Access ⟨.bridge n, offset⟩ size true v) s = .next (s.ctlWrite (scb + offset % 2 ^ 31) v) ∧
      ((cregOf (scb + offset % 2 ^ 31)).isSome = true → exec (.hostBar0Access ⟨.bridge n, offset⟩ size false v) s =
        .next (s.send (.hostAnswer n (toBytes (s.ctlRead (scb + offset % 2 ^ 31)) 8))))) ∧
    ((n, 8) ∈ s.hostReads → ∀ w, exec (.hostBar0Access ⟨.answer n, offset⟩ size w v) s =
      .next { s with hostReads := s.hostReads.erase (n, 8), out := s.out ++ [.hostData (toBytes v 8)] })) ∧
  (∀ (offset : Nat) (data : List Byte) (s : State), offset < 2 ^ 36 → bitOf (s.cget brb) 0 = true →
    s.hostReset = false → s.dusk.midnight = false → s.memberModule (s.cfield (brb + 0x88) 60 4) = some s.modnum →
    s.serving = true →
    let a := s.cfield (brb + 0x88) 36 6 * 2 ^ 36 + offset
    populated a = true → populated (a + data.length - 1) = true →
      exec (.hostBar2Access ⟨.pcie, offset⟩ true data) s = .next (s.dwrite a data) ∧
      exec (.hostBar2Access ⟨.pcie, offset⟩ false data) s =
        .next { s with out := s.out ++ [.hostData ((List.range data.length).map (fun i => s.dget (a + i)))] }) ∧
  (∀ (id : Nat) (p : PcieRead) (data : List Byte) (s : State), s.pcie.find? (fun q => q.id == id) = some p →
    data.length = p.len →
    (∀ c : CCmd, p.origin = none → p.node = none → (s.unit p.unit).command .c0 p.serial = some c →
      ((s.unit p.unit).command .c1 p.serial = none) →
      exec (.pcieCompletion id data) s = .next ({ s with pcie := s.pcie.filter (fun q => q.id != id) }.modUnit p.unit
        (fun x => x.modCmd .c0 p.serial (fun d => { d with got := tput d.got p.piece data })))) ∧
    (∀ src, p.origin = some src → exec (.pcieCompletion id data) s =
      .next (({ s with pcie := s.pcie.filter (fun q => q.id != id) } : State).send (.reply src data))))

/-- R270, R419, R435 to R438, R440, R441, R444, R467: on a port that is up a good flit in order is acknowledged once and
counted in the buffer of its class, which sends PAUSE above 3/4 and RESUME below 1/2; a bad one is NAKed; what the peer has
acknowledged leaves the replay buffer; a NAK replays from its flit, and the eighth failure of one flit takes the port down
with cause 3; PAUSE and RESUME stop and start one class; an enabled port trains, and a training ends it up or down with its
cause; a rekey raises the epoch. Notices of peers are kept, and a request of a peer is answered. Where the spec leaves
a reading open, the statement holds of the model's (log entries 59, 60 and 61). -/
def Obligations.FabricEvents : Prop :=
  (∀ (p cls seq acked left : Nat) (s : State), p < 16 → cls < 4 → s.portUp p = true →
    exec (.flitReceive p cls ⟨seq, acked, left⟩ false) s = .next (s.sendOn p (.nak p seq)) ∧
    ((∀ f ∈ (s.port p).replay, acked ≤ f.1) →
      (seq = (s.port p).rxSeq →
        (cls = 0 → exec (.flitReceive p cls ⟨seq, acked, left⟩ true) s =
          .next ((s.setPort p { s.port p with rxSeq := seq + 1 }).sendOn p (.ack p seq))) ∧
        (cls ≠ 0 → ∃ t, exec (.flitReceive p cls ⟨seq, acked, left⟩ true) s = .next t ∧ (t.port p).rxSeq = seq + 1 ∧
          tget 0 (t.port p).buffered cls = tget 0 (s.port p).buffered cls - left + 1 ∧
          (3 * Config.classBuffer cls < 4 * (tget 0 (s.port p).buffered cls - left + 1) → cls ∈ (t.port p).pausing) ∧
          (2 * (tget 0 (s.port p).buffered cls - left + 1) < Config.classBuffer cls →
            (t.port p).pausing = (s.port p).pausing.erase cls))) ∧
      (seq < (s.port p).rxSeq → exec (.flitReceive p cls ⟨seq, acked, left⟩ true) s = .next (s.sendOn p (.ack p seq))) ∧
      ((s.port p).rxSeq < seq →
        exec (.flitReceive p cls ⟨seq, acked, left⟩ true) s = .next (s.sendOn p (.nak p (s.port p).rxSeq)))) ∧
    ((s.port p).waiting = [] → (s.port p).paused = [] → seq < (s.port p).rxSeq →
      ((s.port p).replay.filter (fun f => decide (acked ≤ f.1))).length < 512 →
      ∃ t, exec (.flitReceive p cls ⟨seq, acked, left⟩ true) s = .next t ∧ (t.port p).replay =
        (s.port p).replay.filter (fun f => decide (acked ≤ f.1)) ++ [((s.port p).txSeq, .ack p seq, 0)]) ∧
    ((∃ f ∈ (s.port p).replay, f.1 = seq) → ∃ t, exec (.nak p seq) s = .next t ∧ t.dram = s.dram ∧
      ((s.port p).replay.head?.map (·.1) ≠ some seq ∨ (s.port p).fails < 7 →
        (t.port p).replay = (s.port p).replay.filter (fun f => decide (seq ≤ f.1)) ∧ t.portState p = s.portState p ∧
        t.units = s.units ∧
        (t.port p).fails = (if (s.port p).replay.head?.map (·.1) = some seq then (s.port p).fails + 1 else 1)) ∧
      ((s.port p).replay.head?.map (·.1) = some seq → 7 ≤ (s.port p).fails →
        t.portState p = 0 ∧ t.cfield (fabAddr p + 8) 16 8 = 3 ∧ (t.port p).replay = [])) ∧
    (cls ≠ 0 → cls ∉ (s.port p).paused → ∃ t, exec (.pauseClass p cls) s = .next t ∧
      (t.port p).paused = (s.port p).paused ++ [cls] ∧ t.portState p = 3 ∧ t.out = s.out) ∧
    (cls ∈ (s.port p).paused → (s.port p).waiting = [] → ∃ t, exec (.resumeClass p cls) s = .next t ∧
      (t.port p).paused = (s.port p).paused.erase cls ∧
      t.portState p = (if (s.port p).paused.erase cls = [] then 2 else 3) ∧ t.out = s.out) ∧
    ((s.port p).keyedSeq + 2 ^ 40 ≤ (s.port p).txSeq ∨ (s.port p).keyedAt + us 86400000000 ≤ s.now →
      exec (.linkRekey p) s = .next (s.setPort p { s.port p with
        epoch := ((s.port p).epoch + 1) % 2 ^ 32, keyedAt := s.now, keyedSeq := (s.port p).txSeq }))) ∧
  (∀ (p : Nat) (v : Word) (s : State), p < 16 → bitOf v 0 = true → bitOf (s.cget (fabAddr p)) 0 = false →
    ∃ t, exec (.portEnable p v) s = .next t ∧ t.portState p = 1 ∧ t.out = s.out ++ [.capability p capabilities] ∧
      { t with ctl := s.ctl, out := s.out } = s) ∧
  (∀ (p peer : Nat) (vers : List (Nat × Nat)) (auth : Bool) (s : State), p < 16 → s.portState p = 1 →
    ∃ t, exec (.portTrained p peer vers auth) s = .next t ∧ t.dram = s.dram ∧
      (common vers 0 = 0 → t.portState p = 0 ∧ t.cfield (fabAddr p + 8) 16 8 = 1) ∧
      (common vers 0 ≠ 0 → auth = false → t.portState p = 0 ∧ t.cfield (fabAddr p + 8) 16 8 = 2) ∧
      (common vers 0 ≠ 0 → auth = true → t.portState p = 2 ∧ t.cfield (fabAddr p + 8) 16 8 = 0 ∧
        t.cfield (fabAddr p + 8) 48 16 = peer % 65536 ∧ (t.port p).epoch = ((s.port p).epoch + 1) % 2 ^ 32)) ∧
  (∀ (m : Nat) (serial : Word) (s : State),
    (m ∉ s.darkMods → ∃ t, exec (.darkNotice m) s = .next t ∧ t.darkMods = s.darkMods ++ [m] ∧ t.units = s.units ∧
      t.dram = s.dram ∧ ∀ r ∈ t.hostReads, r.1 ≠ m) ∧
    (m ∈ s.darkMods → exec (.darkNotice m) s = .next s) ∧
    (∃ t, exec (.dawnNotice m serial) s = .next t ∧ m ∉ t.darkMods ∧ t.units = s.units ∧ t.dram = s.dram) ∧
    (∃ t, exec (.coldNotice m) s = .next t ∧ m ∉ t.darkMods ∧ t.units = s.units ∧ t.colls.length = s.colls.length ∧
      ∀ c ∈ t.colls, (∃ e ∈ c.mems, e.1 = m) → c.ended.isSome = true)) ∧
  (∀ (src : Nat) (write : Bool) (space : FabSpace) (a : Word) (data : List Byte) (s : State), s.dusk.midnight = false →
    (s.noon = false → exec (.fabricRequest src write space a data) s = .next (s.send (.answer src 3))) ∧
    (s.noon = true → exec (.fabricRequest src write .status a data) s = .next (s.send (.answer src 0))) ∧
    (s.noon = true → s.serving = true → space ≠ .host → space ≠ .status →
      ((∃ q ∈ pageParts a.toNat data.length, s.walk (space == .seg) 0 q.1 = none) →
        exec (.fabricRequest src write space a data) s = .next (s.send (.answer src 0x13))) ∧
      ((∀ q ∈ pageParts a.toNat data.length, ∃ x, s.walk (space == .seg) 0 q.1 = some x ∧
          (if write then x.w else x.r) = true ∧ x.place = .dram) →
        (write = true → ∀ t, s.vwrite (space == .seg) 0 a.toNat data = some t →
          exec (.fabricRequest src write space a data) s = .next (t.send (.answer src 0))) ∧
        (write = false → ∀ bs, s.vread (space == .seg) 0 a.toNat data.length = some bs →
          exec (.fabricRequest src write space a data) s = .next (s.send (.reply src bs))))) ∧
    (s.noon = true → s.serving = true → space = .host → bitOf (s.cget brb) 0 = true → s.hostReset = false →
      (write = true → exec (.fabricRequest src write space a data) s = .next { s with
        host := mwrite s.host a.toNat data, out := s.out ++ [.pcieWrite a.toNat data] }) ∧
      (write = false → ∃ t, exec (.fabricRequest src write space a data) s = .next t ∧
        t.out = s.out ++ [.pcieRead s.nextPcie a.toNat data.length] ∧ t.nextPcie = s.nextPcie + 1 ∧
        ∃ r, t.pcie = s.pcie ++ [r] ∧ r.id = s.nextPcie ∧ r.origin = some src ∧ r.len = data.length)))

/-! ### Migration, translation and the calendar -/

/-- R23, R391, R399 to R406, R419, R483: a GO at an idle migrator at Noon in PL0 puts its page's frames under HOLD, or
ends with the result of the check that fails; with every count zero the page moves, HOLD is cleared and the request
ends MOVED and begins its stay; where a count is above zero 50 µs later its frames are remapped and copied instead, and
the request ends REMAPPED; that hub service sequencer 0 gets the result's event is the model's choice (log entry 80). An
eviction moves the page to host memory at once, or ends SKIPPED. R391, R399, R401, R403, R405: FOLD waits for the old
frames of the page, and frees their entries, page by page, once their counts are zero; REL and the 16th completion end a stay; a
TLB invalidation drops every matching entry and is BUSY until every command that holds one has gone. Where the spec
leaves a reading open, the statement holds of the model's (log entries 39 and 64). -/
def Obligations.MigrationsAndTranslation : Prop :=
  (∀ (d : Nat) (s : State), d < 4 →
     ((s.migrator d).page = none → s.noon = true →
       (s.serving = false → ∀ i, (i = .migrateGo d ∧ s.mdstHost d = false ∨ i = .evictGo d ∧ s.mdstHost d = true) →
         exec i s = .next (s.setMigrator d { s.migrator d with asked := true })) ∧
       (s.serving = true → s.mdstHost d = false →
         (∀ r, s.requestPage d = .inr r → ∃ t, exec (.migrateGo d) s = .next t ∧ (t.migrator d).page = none ∧
           t.cfield (migAddr d + 0x18) 0 8 = r % 256 ∧ t.held = s.held ∧ t.dram = s.dram) ∧
         (∀ x, s.requestPage d = .inl x → ∃ t, exec (.migrateGo d) s = .next t ∧ (t.migrator d).page = some x ∧
           t.held = s.held ++ x.frames ∧ (t.migrator d).since = s.now ∧ t.dram = s.dram ∧ t.units = s.units)) ∧
       (s.serving = true → s.mdstHost d = true →
         (∀ r, s.requestPage d = .inr r → ∃ t, exec (.evictGo d) s = .next t ∧ t.cfield (migAddr d + 0x18) 0 8 = r % 256 ∧
           t.dram = s.dram ∧ t.host = s.host) ∧
         (∀ x, s.requestPage d = .inl x → s.countsZero x = false → ∃ t, exec (.evictGo d) s = .next t ∧
           t.cfield (migAddr d + 0x18) 0 8 = 7 ∧ t.dram = s.dram ∧ t.host = s.host) ∧
         (∀ x, s.requestPage d = .inl x → s.countsZero x = true → ∃ t, exec (.evictGo d) s = .next t ∧
           (t.migrator d).page = none ∧ t.cfield (migAddr d + 0x18) 0 8 = 0 ∧ tget 99 t.stays x.stayKey = 0 ∧
           t.host = (s.movePage x true (s.mdstFrame d x)).host))) ∧
     (∀ x, (s.migrator d).page = some x → (s.migrator d).copying = false →
       (∀ t, s.now < (s.migrator d).since + us 50 → (s.migrator d).since + us 50 ≤ t →
         (s.countsAt t).migrator d = { s.migrator d with late := !(s.countsZero x) }) ∧
       (s.countsZero x = true → (x.place = .dram → (s.migrator d).late = false) →
         ∃ t, exec (.migrationCountsZero d) s = .next t ∧ (t.migrator d).page = none ∧
         t.cfield (migAddr d + 0x18) 0 8 = 0 ∧ tget 99 t.stays x.stayKey = 0 ∧
         t.held = s.held.filter (fun k => !((s.migrator d).hold.contains k)) ∧
         t.dram = (s.movePage x false (s.migrator d).target).dram) ∧
       ((s.migrator d).late = true → x.place = .dram →
         (tget [] s.indirect (stackDie x.base)).length + x.frames.length ≤ 1024 →
         (∀ f ∈ x.frames, ∀ e ∈ tget [] s.indirect (stackDie x.base), e.old ≠ f) → x.frames.Nodup →
         ∃ t, exec (.migrationFallback d) s = .next t ∧ (t.migrator d).copying = true ∧ (t.migrator d).page = some x ∧
           tget [] t.indirect (stackDie x.base) = tget [] s.indirect (stackDie x.base) ++
             (List.range x.frames.length).map (fun i =>
               { old := x.base / 65536 + i, src := x.base / 65536 + i, new := (s.migrator d).target + i, copying := true }) ∧
           t.held = s.held.filter (fun k => !((s.migrator d).hold.contains k)) ∧ t.dram = s.dram)) ∧
     (∀ x, (s.migrator d).page = some x → (s.migrator d).copying = true →
       ∃ t, exec (.migrationCopyEnd d) s = .next t ∧ (t.migrator d).page = none ∧ (t.migrator d).copying = false ∧
         t.cfield (migAddr d + 0x18) 0 8 = 1 ∧ tget 99 t.stays x.stayKey = 0 ∧
         (∀ e ∈ tget [] t.indirect (stackDie x.base), e.old ∈ x.frames → e.copying = false) ∧
         ∀ u, u ≠ hubSeq0 → t.unit u = s.unit u)) ∧
  ((∀ (d : Nat) (s : State), d < 4 →
     (∀ x a, s.pageOf (s.mva d).1 (s.mva d).2 = some (x, a) →
       (∃ t, exec (.fold d) s = .next t ∧ { t with migrators := s.migrators } = s ∧
         ∀ k, k ∈ (t.migrator d).folding.flatten ↔ k ∈ (s.migrator d).folding.flatten ∨
           ∃ e ∈ s.indirect.flatMap (·.2), e.old = k ∧ e.copying = false ∧ e.new ∈ x.frames) ∧
       exec (.rel d) s = .next { s with stays := tdel s.stays x.stayKey }) ∧
     ∃ t, exec (.foldComplete d) s = .next t ∧ t.dram = s.dram ∧ t.units = s.units ∧
       (∀ g, g ∈ (t.migrator d).folding ↔ g ∈ (s.migrator d).folding ∧ ∃ k ∈ g, s.busyOf k ≠ 0) ∧
       ∀ g ∈ (s.migrator d).folding, (∀ k ∈ g, s.busyOf k = 0) → ∀ p ∈ t.indirect, ∀ e ∈ p.2, e.old ∉ g) ∧
   (∀ (page : Nat) (s : State), ∃ t, exec (.stayEnd page) s = .next t ∧ { t with stays := s.stays } = s ∧
     (∀ p, p ∈ t.stays ↔ p ∈ s.stays ∧ (p.1 ≠ page ∨ p.2 < 16))) ∧
   (∀ (v : Word) (s : State), bitOf v 63 = true → bitOf (s.cget (trb + 0x20)) 0 = false → field v 61 2 ≠ 3 →
     ∃ t, exec (.tlbinv v) s = .next t ∧ bitOf (t.cget (trb + 0x20)) 0 = true ∧ t.dram = s.dram ∧
       (∀ e ∈ t.units, ∀ x ∈ e.2.tlb0 ++ e.2.tlb1 ++ e.2.tlbw, invMatches v (s.cfield (trb + 0x18) 0 36 * 65536) x = false) ∧
       t.invWait = s.holders (invMatches v (s.cfield (trb + 0x18) 0 36 * 65536))) ∧
   (∀ s : State, (∀ p ∈ s.invWait, s.commandAlive p = false) →
     ∃ t, exec .tlbInvalidationDone s = .next t ∧ bitOf (t.cget (trb + 0x20)) 0 = false ∧ t.invWait = [] ∧ t.units = s.units))

/-- R408, R411 to R414, R482: a row whose count comes to PCCFG.AT calls for the next rotation of its channel as an alert
rotation, unless that one is one already, and before any refresh; every 38 rotations a refresh unit takes from the allowance,
or calls for a free rotation where that is zero; a rotation that is taken has no slots and is counted; an alert rotation resets
the counts of the rows whose alert was raised in the rotation before it, and an idle one raises the allowance. R462, R463: a
die link that may be retrained trains at its width and rate, or fails by its spares; it is up again within 100 µs, sends what
was not acknowledged, and collectives that waited for a link go on, or it fails with code 2 and event 0x22; replays are
counted. Where the spec leaves a reading open, the statement holds of the model's (log entries 27, 42, 47, 51, 60 and 75). -/
def Obligations.CalendarEvents : Prop :=
  (∀ (q : PcSt) (r : Nat), r ≤ q.freeFrom r ∧ q.freeFrom r ∉ q.blocked ++ q.alerts ++ q.refreshes) ∧
  (∀ (p : Nat) (s : State), p < 1536 →
    let pcstat := calAddr (p / 64) (p % 64) + 0x88
    let n := s.now / rotationTime
    (∀ row c, s.selfRefresh = false →
      let k := tget 0 (s.pc p).rows row + c
      let rows := tput (s.pc p).rows row k
      let owed : Prop := ∃ a ∈ (s.pc p).alerting, a.1 = row
      (k < s.rowLimit p ∨ owed →
        exec (.alert ⟨p, row, c⟩) s = .next (s.modPc p (fun q => { q with rows := rows }))) ∧
      (s.rowLimit p ≤ k → ¬ owed → n + 1 ∈ (s.pc p).alerts →
        ∃ t, exec (.alert ⟨p, row, c⟩) s = .next t ∧ { t with pcs := s.pcs } = s ∧
          t.pc p = { s.pc p with rows := rows, alerting := (s.pc p).alerting ++ [(row, n + 1)] }) ∧
      (s.rowLimit p ≤ k → ¬ owed → n + 1 ∉ (s.pc p).alerts →
        ∃ t, exec (.alert ⟨p, row, c⟩) s = .next t ∧ t.dram = s.dram ∧ (∀ u, (t.unit u).regs = (s.unit u).regs) ∧
          (t.pc p).alerts = (s.pc p).alerts ++ [n + 1] ∧ (t.pc p).alerting = (s.pc p).alerting ++ [(row, n + 1)] ∧
          (t.pc p).rows = rows ∧ (n + 1 ∈ (s.pc p).refreshes → n + 1 ∉ (t.pc p).refreshes) ∧
          (n + 1 ∉ (s.pc p).refreshes → (t.pc p).refreshes = (s.pc p).refreshes))) ∧
    (∀ r rs, (s.pc p).alerts = r :: rs → r * rotationTime ≤ s.now → s.selfRefresh = false →
      ∃ t, exec (.alertRotation p) s = .next t ∧ r ∉ (t.pc p).alerts ∧ r ∈ (t.pc p).blocked ∧
        (∀ a, a ∈ (t.pc p).alerting ↔ a ∈ (s.pc p).alerting ∧ a.2 ≠ r) ∧
        (∀ row, (row, r) ∈ (s.pc p).alerting → tget 0 (t.pc p).rows row = 0) ∧
        (∀ row, (row, r) ∉ (s.pc p).alerting → tget 0 (t.pc p).rows row = tget 0 (s.pc p).rows row) ∧
        t.cfield pcstat 32 32 = min (2 ^ 32 - 1) (s.cfield pcstat 32 32 + 1) ∧ t.dram = s.dram) ∧
    (let k := max (s.pc p).due s.dueBase + 1
     38 * rotationTime * k ≤ s.now → s.selfRefresh = false →
      ∃ t, exec (.refreshUnitDue p) s = .next t ∧ (∀ u, (t.unit u).regs = (s.unit u).regs) ∧ (t.pc p).due = k ∧
      (s.cfield pcstat 0 4 = 0 → t.cfield pcstat 0 4 = 0 ∧
        (t.pc p).refreshes = (s.pc p).refreshes ++ [(s.pc p).freeFrom (max (38 * k) ((s.now + rotationTime - 1) / rotationTime))]) ∧
      (s.cfield pcstat 0 4 ≠ 0 → (t.pc p).refreshes = (s.pc p).refreshes ∧ t.units = s.units ∧
        t.cfield pcstat 0 4 = s.cfield pcstat 0 4 - 1)) ∧
    (∀ r, (s.pc p).refreshes.find? (fun r => decide (r * rotationTime ≤ s.now)) = some r → s.selfRefresh = false →
      ∃ t, exec (.refreshRotation p) s = .next t ∧ r ∉ (t.pc p).refreshes ∧
      r ∈ (t.pc p).blocked ∧ t.cfield pcstat 8 24 = min (2 ^ 24 - 1) (s.cfield pcstat 8 24 + 1) ∧ t.dram = s.dram) ∧
    ((∀ r ∈ (s.pc p).refreshes, s.now < r * rotationTime) → s.now % rotationTime = 0 → s.selfRefresh = false →
      n ∉ (s.pc p).blocked ++ (s.pc p).alerts ++ (s.pc p).refreshes →
      s.cfield pcstat 0 4 < 8 → s.slotWanted p = false → s.ownersCompute p = true →
      ∃ t, exec (.refreshRotation p) s = .next t ∧ n ∈ (t.pc p).blocked ∧
        t.cfield pcstat 0 4 = s.cfield pcstat 0 4 + 1 ∧ t.dram = s.dram)) ∧
  (∀ (n : Nat) (s : State), n < 24 →
    (s.linkPaused n = true ∧ (s.linkOf n).unacked = 0 ∨ s.linkUp n = false →
      let code := spareFailure (s.cget (dlbAddr n + 0x20)) (s.cget (dlbAddr n + 0x18)) (s.cfield (dlbAddr n + 8) 24 4)
        (s.cfield (dlbAddr n) 4 2)
      ∃ t, exec (.retrain n) s = .next t ∧ t.linkUp n = false ∧ t.dram = s.dram ∧
        (code = 0 → bitOf (t.cget (dlbAddr n + 8)) 2 = true ∧ (t.linkOf n).trainFrom = s.now ∧ t.units = s.units ∧
          (t.linkOf n).width = s.cfield (dlbAddr n) 4 2 ∧ (t.linkOf n).rate = s.cfield (dlbAddr n) 8 2) ∧
        (code ≠ 0 → s.hoStart = none → bitOf (t.cget (dlbAddr n + 8)) 2 = false ∧ t.cfield (dlbAddr n + 8) 16 8 = code ∧
          (t.unit 584).events = (s.unit 584).events ++ [BitVec.ofNat 64 (0x22 * 2 ^ 56 + code * 256 + n)])) ∧
    (bitOf (s.cget (dlbAddr n + 8)) 2 = true → s.now ≤ (s.linkOf n).trainFrom + us 100 →
      let flits : List Msg := (List.range (s.linkOf n).unacked).map (fun i => .flit (16 + n) i)
      ∃ t, exec (.trainingDone n) s = .next t ∧ t.units = s.units ∧ t.dram = s.dram ∧ t.linkUp n = true ∧
        (∃ l, t.out = s.out ++ flits ++ l) ∧
        (s.colls = [] → t.out = s.out ++ flits ∧ { t with ctl := s.ctl, out := s.out } = s) ∧
        bitOf (t.cget (dlbAddr n + 8)) 2 = false ∧ t.cfield (dlbAddr n + 8) 4 2 = (s.linkOf n).width % 4 ∧
        t.cfield (dlbAddr n + 8) 8 2 = (s.linkOf n).rate % 4 ∧ t.cfield (dlbAddr n + 8) 16 8 = 0) ∧
    (bitOf (s.cget (dlbAddr n + 8)) 2 = true → (s.linkOf n).trainFrom + us 100 ≤ s.now → s.hoStart = none →
      ∃ t, exec (.trainTimeout n) s = .next t ∧ t.linkUp n = false ∧ bitOf (t.cget (dlbAddr n + 8)) 2 = false ∧
        t.cfield (dlbAddr n + 8) 16 8 = 2 ∧
        (t.unit 584).events = (s.unit 584).events ++ [BitVec.ofNat 64 (0x22 * 2 ^ 56 + 2 * 256 + n)]) ∧
    (∀ count, ∃ t, exec (.linkRetry n count) s = .next t ∧ t.dram = s.dram ∧ t.linkUp n = s.linkUp n ∧
      t.cfield (dlbAddr n + 0x10) 0 32 = min (2 ^ 32 - 1) (s.cfield (dlbAddr n + 0x10) 0 32 + count)))

/-! ### Power and cooling -/

/-- R479, R480, R488: an evaluation raises the current level by one above CLIM, at most once in 20 ns, and gives the
thermal level of the hottest junction; the level falls by one after 2 µs of low current; a droop holds SHADE2 for 1
µs. R476 to R478: a region that may switch on closes stage 1; each later stage closes 100 ns after the one before it, or
pauses while an adjacent region is high, until the pauses reach 20 µs and the rest closes in halves; 100 ns after the
last stage the region is on. Where the spec leaves a reading open, the statement holds of the model's (log entry 41). -/
def Obligations.ShadeAndRegions : Prop :=
  (∀ (k : Nat) (s : State), k < 32 →
     (∀ current tj, (s.cluster k).evalAt ≤ s.now → s.dusk.midnight = false →
       (∀ p ∈ s.sched.nodes, (s.node p.1).phase ≠ .resident) →
       ∃ t, exec (.shadeEvaluation k current tj) s = .next t ∧ (t.cluster k).evalAt = s.now + ns 10 ∧
         t.cfield (cllimAddr k) 16 16 = tj % 65536 ∧
         (s.cfield (cllimAddr k) 0 16 < current → (s.cluster k).curLevel < 3 →
           ((s.cluster k).curLevel = 0 ∨ (s.cluster k).curChange + ns 20 ≤ s.now) →
           (t.cluster k).curLevel = (s.cluster k).curLevel + 1 ∧ (t.cluster k).curChange = s.now) ∧
         (current ≤ s.cfield (cllimAddr k) 0 16 → (t.cluster k).curLevel = (s.cluster k).curLevel) ∧
         (1100 ≤ tj → (t.cluster k).thermal = 3) ∧ (tj ≤ 970 → (t.cluster k).thermal = 0) ∧
         ((s.cluster k).thermal = 0 → 1000 ≤ tj → tj < 1050 → (t.cluster k).thermal = 1)) ∧
     (∀ t0, (s.cluster k).lowFrom = some t0 → (s.cluster k).curLevel ≠ 0 →
       t0 + us 2 ≤ s.now → (s.cluster k).curChange + us 2 ≤ s.now →
       exec (.currentLevelFall k) s = .next (s.setCluster k { s.cluster k with
         curLevel := (s.cluster k).curLevel - 1, curChange := s.now })) ∧
     (∀ u, u < 512 → u / 16 = k → exec (.coreDroop u) s =
       .next (s.setCluster k { s.cluster k with droopUntil := some (s.now + us 1) })) ∧
     (∀ t0, (s.cluster k).droopUntil = some t0 → t0 ≤ s.now → exec (.droopExpiry k) s =
       .next (s.setCluster k { s.cluster k with droopUntil := none }))) ∧
  (∀ (r : Nat) (s : State), r < 544 →
     let x := s.switchOf r
     (s.awake = true → s.isShed (regionCluster r / 8) = false → s.dieSilent (regionCluster r / 8) = false → x.phase = .off →
       (r < 512 → s.coreOn (r / 16) = true ∧ ∀ i < 16, i / 4 < r % 16 / 4 → s.tileOn (16 * (r / 16) + i) = true) →
       exec (.regionSwitchOn r) s = .next (s.setSwitch r { phase := .switching, halves := 2, lastAt := s.now })) ∧
     (x.phase = .switching → x.halves < 16 →
       (x.pausedFrom = none → x.lastAt + ns 100 ≤ s.now → ∀ outputs,
         (s.adjacentHigh outputs r = true → x.paused < us 20 →
           exec (.stageDue r outputs) s = .next (s.setSwitch r { x with pausedFrom := some s.now })) ∧
         (s.adjacentHigh outputs r = false ∨ us 20 ≤ x.paused → exec (.stageDue r outputs) s = .next (s.setSwitch r { x with
           halves := x.halves + (if us 20 ≤ x.paused then 1 else 2), lastAt := s.now, pausedFrom := none }))) ∧
       (∀ t0, x.pausedFrom = some t0 →
         (∀ outputs, s.adjacentHigh outputs r = false → x.paused + (s.now - t0) < us 20 →
           exec (.stagePauseEnd ⟨r, outputs⟩) s = .next (s.setSwitch r { x with
           paused := x.paused + (s.now - t0), halves := x.halves + 2, lastAt := s.now, pausedFrom := none })) ∧
         (us 20 ≤ x.paused + (s.now - t0) → exec (.switchPauseLimit r) s = .next (s.setSwitch r { x with
           paused := us 20, halves := x.halves + 1, lastAt := s.now, pausedFrom := none })))) ∧
     (x.phase = .switching → 16 ≤ x.halves → x.lastAt + ns 100 ≤ s.now → (∀ d < 4, (s.migrator d).asked = false) →
       ∃ t, exec (.regionOn r) s = .next t ∧ (t.switchOf r).phase = .on ∧ t.units = s.units ∧ t.ctl = s.ctl))

/-- R412, R478, R480 to R483, R485 to R489: an idle module enters the deepest power state that LATTOL admits, and a wake
event brings it back to PL0; at the tick MODPWR follows the module's power and MODPWR.FLOOR rises above MODLIM; a
valid FLOWSTAT of a bound target updates its zone and ends its loss, 50 ms without one loses the zone, an interrupt reads it
at once, and the first valid message of another target binds it to the zone that it names, or, where that has its target,
leaves it unused with event 0x31. Where the spec leaves a reading open, the statement holds of the model's (log entries 41,
50 and 62). -/
def Obligations.PowerStatesAndZones : Prop :=
  (∀ s : State, s.idle = true → s.waking = false → s.plState < s.deepest → s.hoStart = none →
    ∃ t, exec .powerStateEntry s = .next t ∧ t.plState = s.deepest ∧ t.dram = s.dram ∧
      (2 ≤ s.deepest → ∀ r < 544, (t.switchOf r).phase = .off) ∧
      (t.unit 585).events = (s.unit 585).events ++ [BitVec.ofNat 64 (0x33 * 2 ^ 56 + s.deepest)]) ∧
  (∀ (cause : WakeCause) (s : State), s.plState = 1 → s.dusk.midnight = false → s.wakes cause = true → s.hoStart = none →
    (∀ d < 4, (s.migrator d).asked = false) →
    ∃ t, exec (.powerStateExit cause) s = .next t ∧ t.plState = 0 ∧
      t.cfield (pwb + 8) 32 32 = min (2 ^ 32 - 1) (s.cfield (pwb + 8) 32 32 + 1) ∧ t.busyAt = s.busyAt ∧ t.dram = s.dram ∧
      (t.unit 585).events = (s.unit 585).events ++ [BitVec.ofNat 64 (0x33 * 2 ^ 56)]) ∧
  (∀ (powers : List Nat) (w : Nat) (s : State), s.tickAt ≤ s.now → s.dusk.midnight = false →
    let lim := s.cfield (pwb + 0x10) 0 16
    ∃ t, exec (.millisecondTick powers w) s = .next t ∧ t.tickAt = s.now + us 1000 ∧
      t.cfield (pwb + 0x18) 0 16 = w % 65536 ∧ t.dram = s.dram ∧
      (lim < w → t.moduleFloor = min 3 (s.moduleFloor + 1)) ∧
      (95 * lim < 100 * w → w ≤ lim → t.moduleFloor = s.moduleFloor ∧ t.lowTicks = 0) ∧
      (100 * w ≤ 95 * lim → s.lowTicks < 4 → t.moduleFloor = s.moduleFloor ∧ t.lowTicks = s.lowTicks + 1) ∧
      (100 * w ≤ 95 * lim → 4 ≤ s.lowTicks → t.moduleFloor = s.moduleFloor - 1 ∧ t.lowTicks = 0)) ∧
  (∀ (z target : Nat) (msg : List Byte) (s : State), z < 8 → s.dusk.midnight = false →
    (s.zoneOf target = some z → ∃ t, exec (.flowstat target msg) s = .next t ∧ t.dram = s.dram ∧ t.units = s.units ∧
      (validFlow z msg = true → t.cfield (clb + 0x80 + 8 * z) 0 16 = recNat msg 2 2 ∧
        t.cfield (clb + 0x80 + 8 * z) 16 16 = recNat msg 4 2 ∧ t.cfield (clb + 0x80 + 8 * z) 32 16 = recNat msg 6 2 ∧
        (t.zone z).lastValid = s.now ∧ (t.zone z).lost = false)) ∧
    (s.now < (s.zone z).sentAt + us 10000 → exec (.ibi z) s = .next (s.send (.flowRead z))) ∧
    ((s.zone z).lost = false → (s.zone z).lastValid + us 50000 ≤ s.now →
      ∃ t, exec (.zoneLost z) s = .next t ∧ (t.zone z).lost = true ∧ (t.zone z).lostFrom = s.now ∧ (t.zone z).floor = 3 ∧
        t.cfield (clb + 0x80 + 8 * z) 56 2 = 2) ∧
    (∀ i : Instr, (i = .hotJoin target msg ∨ i = .flowstat target msg ∧ target ∉ s.spares) →
      (∀ k < 8, (s.zone k).target ≠ some target) → validFlow z msg = true →
      ((s.zone z).target = none → ∃ t, exec i s = .next t ∧ t.dram = s.dram ∧ t.units = s.units ∧
        (t.zone z).target = some target ∧ (t.zone z).lastValid = s.now ∧
        ∀ k, k ≠ z → (t.zone k).target = (s.zone k).target) ∧
      ((s.zone z).target.isSome = true → s.hoStart = none → ∃ t, exec i s = .next t ∧ t.dram = s.dram ∧
        target ∈ t.spares ∧ (∀ k, (t.zone k).target = (s.zone k).target ∧ (t.zone k).lastValid = (s.zone k).lastValid) ∧
        (t.unit 585).events = (s.unit 585).events ++ [BitVec.ofNat 64 (0x31 * 2 ^ 56 + z)])))

/-! ### Die links and warm reset -/

/-- R437, R459 to R461, R463: a link pauses unless its die would have no hub link left, which FAILCODE 4 records; an idle link's
lanes are tested and the failures stored; the eighth failure of one flit takes the link down, and a good flit acknowledges
what was sent. R465, R466, R468: each step of a warm reset is taken in its phase and refused outside it: FENCE, then with no
team resident phase 1; QUIESCE, then with every busy count zero or after LIM µs phase 2 and DRAINED; the write-back and
WBDONE. FENCE and QUIESCE may be withdrawn in phases 1 and 2. Where the spec leaves a reading open, the statement holds of
the model's: log entries 42 and 51, and log entry 60 for the port numbers 16 + n of the constructors for die link n. -/
def Obligations.LinksAndWarmReset : Prop :=
  (∀ (n : Nat) (s : State), n < 24 →
    (s.linkPaused n = true → exec (.linkPause n) s = .next s) ∧
    (s.linkPaused n = false → (16 ≤ n ∨ ∃ k < 4, n / 4 * 4 + k ≠ n ∧ s.linkUp (n / 4 * 4 + k) = true ∧
        s.linkPaused (n / 4 * 4 + k) = false) →
      exec (.linkPause n) s = .next (s.csetField (dlbAddr n) 0 1 1)) ∧
    (s.linkPaused n = false → n < 16 → (∀ k < 4, n / 4 * 4 + k ≠ n → s.linkUp (n / 4 * 4 + k) = false ∨
        s.linkPaused (n / 4 * 4 + k) = true) →
      exec (.linkPause n) s = .next (s.csetField (dlbAddr n + 8) 16 8 4)) ∧
    (∃ t, exec (.linkUnpause n) s = .next t ∧ t.linkPaused n = false ∧ t.linkUp n = s.linkUp n ∧ t.units = s.units ∧
      t.dram = s.dram ∧ (s.colls = [] → t = s.csetField (dlbAddr n) 0 1 0)) ∧
    (s.linkPaused n = true → (s.linkOf n).unacked = 0 →
      exec (.diag n) s = .next ((s.csetField (dlbAddr n + 8) 3 1 1).setLink n { s.linkOf n with diagFrom := s.now })) ∧
    (bitOf (s.cget (dlbAddr n + 8)) 3 = true → ∀ (bad : Word) (spare : BitVec 4), exec (.diagDone n bad spare) s =
      .next (((s.cset (dlbAddr n + 0x18) bad).csetField (dlbAddr n + 8) 24 4 spare.toNat).csetField (dlbAddr n + 8) 3 1 0)) ∧
    (∀ seq,
      let k := if (s.linkOf n).failing = seq then (s.linkOf n).fails + 1 else 1
      ∃ t, exec (.nak (16 + n) seq) s = .next t ∧ t.dram = s.dram ∧
      (k < 8 → (t.linkOf n).failing = seq ∧ (t.linkOf n).fails = k ∧ t.linkUp n = s.linkUp n) ∧
      (8 ≤ k → (t.linkOf n).fails = 0 ∧ t.linkUp n = false)) ∧
    (∀ cls seq acked left, cls < 4 → ∃ t, exec (.flitReceive (16 + n) cls ⟨seq, acked, left⟩ true) s = .next t ∧
      (t.linkOf n).unacked = 0 ∧ t.units = s.units ∧ t.dram = s.dram ∧
      (s.colls = [] → t = s.setLink n { s.linkOf n with unacked := 0, failing := 0, fails := 0 }))) ∧
  (∀ (d : Nat) (s : State), d < 4 → s.hoStart = none →
    (s.diePhase d = 0 → exec (.dieFence d) s = .next (s.cset (drbAddr d) 1)) ∧
    (s.diePhase d ≠ 0 → exec (.dieFence d) s = .next (s.csetField (drbAddr d + 8) 11 1 1)) ∧
    (s.diePhase d = 0 → s.fenceSet d = true →
      (∀ p ∈ s.sched.nodes, p.2.phase ≠ .resident ∨ p.2.cluster / 8 ≠ d) →
      ∃ t, exec (.teamsout d) s = .next t ∧ t.diePhase d = 1 ∧ t.dram = s.dram ∧
        (t.unit 584).events = (s.unit 584).events ++ [BitVec.ofNat 64 (0x23 * 2 ^ 56 + 256 + d)]) ∧
    (s.diePhase d = 1 → ∃ t, exec (.dieQuiesce d) s = .next t ∧ t.cget (drbAddr d) = 3 ∧ t.units = s.units ∧
      t.dram = s.dram ∧ t.diePhase d = 1) ∧
    (s.diePhase d ≠ 1 → exec (.dieQuiesce d) s = .next (s.csetField (drbAddr d + 8) 11 1 1)) ∧
    (s.diePhase d = 1 → s.quiesceSet d = true → ∀ i : Instr,
      (i = .drained d ∧ s.countsClear d = true ∨
        i = .drlimExpiry d ∧ (s.dieOfNum d).limFrom + us (s.cfield (drbAddr d + 0x10) 0 16) ≤ s.now) →
      ∃ t, exec i s = .next t ∧ t.diePhase d = 2 ∧ t.drainedSet d = true ∧ t.dram = s.dram ∧
        (t.unit 584).events = (s.unit 584).events ++ [BitVec.ofNat 64 (0x23 * 2 ^ 56 + 2 * 256 + d)]) ∧
    (s.diePhase d = 1 ∨ s.diePhase d = 2 → ∃ t, exec (.dieUnfence d) s = .next t ∧ t.diePhase d = 0 ∧
      t.cget (drbAddr d) = 0 ∧ t.drainedSet d = false ∧ t.wbdoneSet d = false ∧ t.dram = s.dram ∧
      ∀ k, k / 8 = d → ∀ r ∈ (t.cluster k).reqs, r.held = false) ∧
    (s.diePhase d ≠ 1 → s.diePhase d ≠ 2 → exec (.dieUnfence d) s = .next (s.csetField (drbAddr d + 8) 11 1 1)) ∧
    (s.diePhase d = 2 → ∃ t, exec (.wback d) s = .next t ∧ t.diePhase d = 2 ∧ t.dram = s.dram ∧
      (∀ k, k / 8 = d → (t.cluster k).lines = []) ∧ ∀ u < 512, u / 128 = d → (t.unit u).tlb0 = [] ∧ (t.unit u).tlb1 = []) ∧
    (s.diePhase d ≠ 2 → exec (.wback d) s = .next (s.csetField (drbAddr d + 8) 11 1 1)) ∧
    (s.diePhase d = 2 → (s.dieOfNum d).writing = true → ∃ t, exec (.wbdone d) s = .next t ∧ t.wbdoneSet d = true ∧
      t.diePhase d = 2 ∧ t.units = s.units ∧ t.dram = s.dram))

/-! ### Root services, Dusk and Dawn -/

/-- R445, R450, R452 to R454, R456, R468, R497: a GO answers BUSY while a handover runs or a die is shed or in reset, refuses
an image set that fails, and else loads it; HOACK 3 in time starts the new images; a missed deadline ends the handover; WDKICK
restarts a count whose end halts its sequencer and posts an event, whose word and receiver are the model's choice (log entry
80), and the root restarts a halted one, where it was a comm master as the spare of the one it appoints; EVPOP takes the oldest
event; a report that is asked for is made once. Where the spec leaves a reading open, the statement holds of the model's (log
entries 43, 53 and 55). -/
def Obligations.RootServices : Prop :=
  (∀ (v : Word) (s : State), bitOf v 0 = true → s.noon = true →
    ((s.ho.goAt.isSome = true ∨ ∃ d < 4, s.isShed d = true ∨ s.diePhase d ≠ 0) →
      ∃ t, exec (.handoverGo v) s = .next t ∧ t.cfield (rob + 0x18) 0 8 = 7 ∧ { t with ctl := s.ctl } = s) ∧
    (s.ho.goAt = none → (∀ d < 4, s.isShed d = false ∧ s.diePhase d = 0) →
      (∀ code, s.refusal (s.readImages (s.cget rob).toNat) = some code →
        ∃ t, exec (.handoverGo v) s = .next t ∧ t.cfield (rob + 0x18) 0 8 = code % 256 ∧ { t with ctl := s.ctl } = s) ∧
      (s.refusal (s.readImages (s.cget rob).toNat) = none →
        ∃ t, exec (.handoverGo v) s = .next t ∧ t.ho.goAt = some s.now ∧ t.ho.idle = s.readImages (s.cget rob).toNat ∧
          ∀ u, 512 ≤ u → u < 587 → (t.unit u).hostate = 1 ∧ (t.unit u).run = (s.unit u).run ∧ (t.unit u).regs = (s.unit u).regs))) ∧
  (∀ (u g : Nat) (s : State), 512 ≤ u → u < 587 → s.ho.goAt = some g → s.hoStart = none →
    (s.now ≤ g + us 100000 → (∀ w, 512 ≤ w → w < 587 → (s.unit w).run ≠ .seqHalted) → ∃ t, exec (.hoack u 3) s = .next t ∧ t.hoStart = some s.now ∧
      ∀ w, 512 ≤ w → w < 587 → (t.unit w).run = .running ∧ (t.unit w).role = true ∧ (t.unit w).hostate = 2 ∧
        (t.unit w).pc = imgEntry (tget [] s.ho.idle (seqKind w)) ∧ (t.unit w).events = []) ∧
    (g + us 100000 ≤ s.now → ∃ t, exec .handoverDeadline s = .next t ∧ t.ho.goAt = none ∧ t.hoStart = none ∧
      t.cfield (rob + 0x18) 0 8 = 8)) ∧
  (∀ (u : Nat) (s : State), 512 ≤ u → u < 587 →
    exec (.wdkick u) s = .next (s.modUnit u (fun x => { x with kicked := s.now })) ∧
    exec (.evpop u) s = .next (s.modUnit u (fun x => { x with events := x.events.drop 1 })) ∧
    ((s.unit u).run = .running → s.powered u = true → (s.unit u).kicked + us 10000 ≤ s.now →
      exec (.watchdogExpiry u) s = .next ((s.modUnit u (fun x => { x with run := .seqHalted })).postNotice 3 u)) ∧
    ((s.unit u).run = .seqHalted → s.hoStart = none → s.ho.goAt = none →
      (u ≠ s.masterOf (clusterOf u) ∨ ∀ c ∈ s.colls, c.ended.isSome = true) →
      ∃ t, exec (.sequencerRestart u) s = .next t ∧ (t.unit u).run = .running ∧ (t.unit u).pc = imgEntry (s.imageOf u) ∧
        (t.unit u).regs = {} ∧ (∀ v, v ≠ u → t.unit v = s.unit v) ∧
        (u < 576 → u = s.masterOf (clusterOf u) → t.masterOf (clusterOf u) ≠ u))) ∧
  (∀ (v : Word) (s : State), bitOf v 0 = true → s.root.att = none →
    ∃ t nonce, exec (.attgo v) s = .next t ∧ t.root.att = some (nonce, (s.cget (rob + 0x60)).toNat / 64 * 64) ∧
      nonce.length = 32 ∧ { t with root := s.root } = s) ∧
  (∀ (nonce : List Byte) (a : Nat) (s : State), s.root.att = some (nonce, a) →
    ∃ t, exec .attestationReport s = .next t ∧ t.root.att = none ∧ t.units = s.units ∧
      (populated a = false → t.dram = s.dram ∧ t.host = mwrite s.host a (s.report nonce)) ∧
      (populated a = true → t.host = s.host))

/-- R300, R301, R303, R416, R419, R427, R429, R433, R488, R492: every cause of Dusk begins it at Noon: phase 1, and each
tile that runs has a DUSK pending with a budget of 2,048 bundles and 20 µs; a tile whose budget or time is spent halts
and DSTAT.OVERRUN is set. A sag sheds the first die of ORDER, whose tiles have TWILIGHT_SHED pending; TSHED later the
next one follows, and TREADMIT after the sag the most recent one returns. Where the spec leaves a reading open, the
statement holds of the model's: log entry 44, and log entry 56 for the bytes that READY.SYSGB counts. -/
def Obligations.DuskAndTwilightBegin : Prop :=
  (∀ (i : Instr) (k : Nat) (s : State), tsorted s.units = true → s.noon = true → s.dusk.dawn = false → s.ho.goAt = none →
    (i = .dctlForce ∨ i = .pfWarnL true ∨
      (i = .thermalTrip k ∧ k < 32 ∧ ∃ t0, (s.cluster k).hotFrom = some t0 ∧ t0 + us 10000 ≤ s.now) ∨
      (i = .hubZoneLost ∧ (s.zone 4).lost = true ∧ (s.zone 4).lostFrom + us 500000 ≤ s.now)) →
    ∃ t, exec i s = .next t ∧ t.duskPhase = 1 ∧ t.dusk.warnAt = s.now ∧ t.dusk.forced = decide (i ≠ .pfWarnL true) ∧
      t.dram = s.dram ∧
      ∀ p ∈ s.units, p.1 < 512 → (s.unit p.1).run = .running → (∀ n, (s.unit p.1).team = some n → (s.node n).leaving = false) →
        (t.unit p.1).pend = (s.unit p.1).pend ++
          [{ cause := .dusk, resume := none, val := 0, rollback := false, handler := (s.unit p.1).handler }] ∧
        (t.unit p.1).duskDeadline = some (s.now + us 20) ∧ (t.unit p.1).budget = 2048 ∧
        (t.unit p.1).run = .running ∧ (t.unit p.1).regs = (s.unit p.1).regs) ∧
  (∀ s : State, ∃ t, exec (.pfWarnL false) s = .next t ∧ t.dusk.warn = false ∧ t.dusk.supply = true ∧
    { t with dusk := s.dusk, free := s.free } = s) ∧
  (∀ (u : Nat) (s : State), u < 512 → (s.unit u).run = .running → s.dusk.shedding = none →
    ((s.unit u).duskDeadline.isSome = true → (s.unit u).budget = 0 → ∃ t, exec (.duskBudgetExpiry u) s = .next t ∧
      (t.unit u).run = .halted ∧ (t.unit u).regs = (s.unit u).regs ∧ (t.unit u).pc = (s.unit u).pc ∧
      bitOf (t.unit u).hstat 7 = true ∧ (s.noon = false → t.cfield (dcb + 0x30) 17 1 = 1) ∧
      ∀ v, v ≠ u → t.unit v = s.unit v) ∧
    (∀ t0, (s.unit u).duskDeadline = some t0 → t0 ≤ s.now → (∃ p ∈ s.units, p.1 = u) →
      ∃ t, exec .duskTimeLimit s = .next t ∧ (t.unit u).run = .halted ∧ (t.unit u).regs = (s.unit u).regs ∧
        bitOf (t.unit u).hstat 7 = true)) ∧
  (∀ (d : Nat) (s : State), tsorted s.units = true → s.dusk.sag = false → s.noon = true → s.serving = true →
    s.dusk.shedding = none →
    (∀ e < 4, s.isShed e = false ∧ s.diePhase e = 0) → 0 < s.cfield (dcb + 0x20) 16 3 → s.cfield (dcb + 0x20) 0 4 = d →
    d < 4 → s.ho.goAt = none →
    ∃ t, exec (.pfSagL true) s = .next t ∧ t.dusk.sag = true ∧ t.dusk.sagFrom = s.now ∧ t.dusk.shedAt = s.now ∧
      ((∃ p ∈ s.units, p.1 < 512 ∧ p.1 / 128 = d ∧ (s.unit p.1).run = .running) → t.dusk.shedding = some d ∧
        t.isShed d = false ∧
        ∀ p ∈ s.units, p.1 < 512 → p.1 / 128 = d → (s.unit p.1).run = .running →
          (∀ n, (s.unit p.1).team = some n → (s.node n).leaving = false) →
          (t.unit p.1).pend = (s.unit p.1).pend ++ [{ cause := .twilightShed, resume := none, val := BitVec.ofNat 64 d,
                                                      rollback := false, handler := (s.unit p.1).handler }]) ∧
      ((∀ p ∈ s.units, p.1 < 512 → p.1 / 128 = d → (s.unit p.1).run = .idle ∧ (s.unit p.1).mq = [] ∧
          (s.unit p.1).q0 = [] ∧ (s.unit p.1).q1 = []) →
        t.dusk.shedding = none ∧ t.isShed d = true ∧ t.dusk.shed = d :: s.dusk.shed)) ∧
  (∀ (d : Nat) (s : State), s.dusk.sag = true → s.noon = true → s.serving = true → s.dusk.shedding = none → s.ho.goAt = none →
    s.nextShed = some d → s.dusk.shedAt + us 1000 * s.cfield (dcb + 0x28) 0 16 ≤ s.now →
    (∃ p ∈ s.units, p.1 < 512 ∧ p.1 / 128 = d ∧ (s.unit p.1).run = .running) →
    ∃ t, exec .tshedExpiry s = .next t ∧ t.dusk.shedding = some d ∧ t.dusk.shedAt = s.now) ∧
  (∀ (d : Nat) (ds : List Nat) (s : State), s.dusk.sag = false → s.noon = true → s.dusk.shed = d :: ds →
    d < 4 → s.diePhase d = 0 → s.dusk.sagFrom + us 1000 * s.cfield (dcb + 0x28) 32 16 ≤ s.now → s.colls = [] →
    ∃ t, exec .treadmitExpiry s = .next t ∧ t.isShed d = false ∧ t.dusk.shed = ds ∧
      ∀ p ∈ s.units, p.1 < 512 → p.1 / 128 = d → (s.unit p.1).run = .halted → (s.unit p.1).was = .running →
        (t.unit p.1).run = .running ∧ (t.unit p.1).regs = (s.unit p.1).regs ∧ bitOf (t.unit p.1).hstat 6 = true ∧
        (t.unit p.1).budget = 0) ∧
  (∀ (cap usable cycles : Nat) (fault : Bool) (s : State),
    (s.dusk.readyAt + us 100000 ≤ s.now → ∃ t, exec .readyRefresh s = .next t ∧ t.cfield (dcb + 0x48) 8 8 =
      ceilGb ((sysBytes s.image).length + (s.teamOrder.map (fun n => (Config.teamEncoding (s.teamContext n)).length)).sum) % 256 ∧
      t.units = s.units ∧ t.dram = s.dram) ∧
    (s.dusk.midnight = false → (∀ t0, s.dusk.refreshed = some t0 → t0 + us 100000 ≤ s.now) →
      ∃ t, exec (.rsvstatRefresh cap usable cycles fault) s = .next t ∧
      { t with ctl := s.ctl, dusk := s.dusk } = s ∧ t.dusk.chargedAt = s.now ∧
      t.cfield (dcb + 0x50) 48 16 = cap % 65536 ∧
      (s.dusk.refreshed = none → t.cfield (dcb + 0x50) 0 16 = min (cap % 65536) (usable % 65536)) ∧
      (s.dusk.refreshed.isSome = true → t.cfield (dcb + 0x50) 0 16 =
        min (cap % 65536) (if s.charging then s.usableNow else min s.usableNow (usable % 65536))) ∧
      t.cfield (dcb + 0x50) 16 16 = max (s.cfield (dcb + 0x50) 16 16) (min 65535 cycles) ∧
      bitOf (t.cget (dcb + 0x50)) 32 = (bitOf (s.cget (dcb + 0x50)) 32 || fault)))

/-- R418 to R426, R430, R431, R446, R449, R501: once every tile has halted the drain begins, then writes the system state, team
contexts and list units one by one; it seals when everything is written, at 2.5 s, or at the reserve floor, and the module is
in Midnight with its memory lost and the storage tier kept. An outright loss of supply seals nothing. A Dawn that may begin
does, a warning in it returns to Midnight, and its end wakes the module to Noon, but where an image is refused; a module reset
clears its units and memories. R319, R466, R478: the reset of a die loses its units and sets FIDLIM to 2; 200 µs later its
sequencers start at phase 4; its links train; it is admitted in phase 5, and phase 0 follows. Where the spec leaves a reading
open, the statement holds of the model's (log entries 42, 44, 51, 56 and 58; 43 for what a module reset keeps, the tier and
NVLAST among it, 57 for the choice among manifests, and 1 and 2 for the contents of units and memories after a reset). -/
def Obligations.DrainMidnightAndDawn : Prop :=
  (∀ s : State, s.duskPhase = 1 → Memory.wf s.tier = true →
    (∀ p ∈ s.units, p.1 < 512 → (s.unit p.1).halted = true) →
    ∃ t, exec .drain s = .next t ∧ t.duskPhase = 2 ∧ t.dusk.sysDone = false ∧ t.dusk.drained = [] ∧
      t.dusk.entries = s.dusk.plan ∧ mread t.tier (t.areaBase t.dusk.area) 4 = [0, 0, 0, 0]) ∧
  (∀ s : State, s.duskPhase = 2 →
    (s.dusk.sysDone = false → s.roomFor (sysBytes s.drainImage).length = true → ∃ t, exec .drain s = .next t ∧
      t.dusk.sysDone = true ∧ (tget {} t.hib s.dusk.area).sys = s.drainImage ∧
      t.tier = mwrite s.tier s.dusk.off (sysBytes s.drainImage) ∧
      t.units = s.units ∧ t.dram = s.dram) ∧
    (∀ n ns v, s.dusk.sysDone = true → s.dusk.teams = n :: ns →
      (∀ p ∈ s.teamContext n, p.2.enginesStill s.now = true) →
      v = (if (s.node n).phase = .swapped then s else (s.node n).units.foldl State.settleCopies s) →
      v.roomFor (Config.teamEncoding (v.teamContext n)).length = true → ∃ t, exec .drain s = .next t ∧ t.dusk.teams = ns ∧
        tget [] (tget {} t.hib v.dusk.area).teams n = v.teamContext n ∧ t.units = v.units ∧
        t.tier = mwrite v.tier v.dusk.off (Config.teamEncoding (v.teamContext n))) ∧
    (∀ i is l, s.dusk.sysDone = true → s.dusk.teams = [] → s.dusk.entries = i :: is →
      s.dusk.unit < plLen (s.listEntry i) → s.unitPlace (s.listEntry i) s.dusk.unit = some l →
      (∀ p ∈ s.dusk.drained, p.1 ≠ l) → s.roomFor 65536 = true → ∃ t, exec .drain s = .next t ∧
        t.tier = mwrite s.tier s.dusk.off (s.locRead l 65536) ∧ t.dusk.drained = s.dusk.drained ++ [(l, s.dusk.off)] ∧
        t.dusk.unit = s.dusk.unit + 1 ∧ tget 0 t.dusk.done i = tget 0 s.dusk.done i + 1 ∧ t.dram = s.dram)) ∧
  (∀ (i : Instr) (s : State), s.duskPhase = 2 →
    (i = .drainComplete ∧ s.dusk.sysDone = true ∧ s.dusk.teams = [] ∧ s.dusk.entries = [] ∨
      i = .drainTimeLimit ∧ s.dusk.warnAt + us 2500000 ≤ s.now ∨ i = .reserveFloor) →
    ∃ t, exec i s = .next t ∧ t.dusk.midnight = true ∧ t.units = [] ∧ t.dram = [] ∧ t.sram = [] ∧ t.hib = s.hib ∧
      t.dusk.sleptAt = s.now) ∧
  (∀ s : State, s.dusk.midnight = false → ∃ t, exec .supplyCut s = .next t ∧ t.dusk.midnight = true ∧ t.tier = s.tier ∧
    t.units = [] ∧ t.dram = [] ∧ t.sram = [] ∧ t.dusk.supply = false) ∧
  (∀ s : State, s.mayDawn = true → s.dusk.dawn = false → ∃ t, exec .dawn s = .next t ∧ t.dusk.dawn = true ∧
    t.duskPhase = 5 ∧ t.dusk.midnight = true ∧ t.dram = s.dram ∧ t.tier = s.tier) ∧
  (∀ s : State, s.dusk.dawn = true → s.dusk.midnight = true → s.duskPhase = 5 →
    (∃ t, exec (.pfWarnL true) s = .next t ∧ t.dusk.dawn = false ∧ t.dusk.midnight = true ∧ t.duskPhase = 3 ∧
      t.tier = s.tier ∧ t.cget (dcb + 0x40) = s.cget (dcb + 0x40)) ∧
    ((∀ a, s.judge ≠ (1, some a)) → ∃ t, exec .dawn s = .next t ∧ t.dram = s.dram ∧ t.tier = s.tier ∧
      ((s.boot zeros48).bootRefused = true → t.dusk.midnight = true ∧ t.duskPhase = 5) ∧
      ((s.boot zeros48).bootRefused = false → t.dusk.midnight = false ∧ t.dusk.dawn = false ∧ t.duskPhase = 0 ∧
        t.cfield (dcb + 0x30) 24 8 = s.judge.1))) ∧
  (∀ s : State, tsorted s.ctl = true → ∃ t, exec .moduleReset s = .next t ∧ t.dram = [] ∧ t.sram = [] ∧ t.tier = s.tier ∧
    t.sched = {} ∧ t.colls = [] ∧ t.dusk.midnight = false ∧ (∀ u < 512, t.unit u = {}) ∧
    t.cget (dcb + 0x40) = s.cget (dcb + 0x40)) ∧
  (∀ (d : Nat) (s : State), d < 4 → s.hoStart = none →
    (s.mayReset d = true → ∃ t, exec (.dieReset d) s = .next t ∧ t.diePhase d = 3 ∧ t.dram = s.dram ∧ t.sram = s.sram ∧
      (∀ u < 512, u / 128 = d → (t.unit u).regs = {} ∧ (t.unit u).run = .idle ∧ ∀ b, (t.unit u).buf b = []) ∧
      (∀ k, k / 8 = d → t.cget (fidlimAddr k) = 2) ∧ ∀ u < 512, u / 128 ≠ d → t.unit u = s.unit u) ∧
    (s.mayReset d = false → exec (.dieReset d) s = .next (s.csetField (drbAddr d + 8) 11 1 1)) ∧
    (s.diePhase d = 3 → (s.dieOfNum d).resetFrom + us 200 ≤ s.now → ∃ t, exec (.dieResetRelease d) s = .next t ∧
      t.diePhase d = 4 ∧ t.dram = s.dram ∧
      ∀ i < 16, (t.unit (512 + 16 * d + i)).run = .running ∧
        (t.unit (512 + 16 * d + i)).pc = imgEntry (s.imageOf (512 + 16 * d + i))) ∧
    (s.diePhase d = 4 → ∃ t, exec (.dieTrain d) s = .next t ∧ t.diePhase d = 4 ∧ t.dram = s.dram ∧
      ∀ n ∈ dieLinks d, t.linkUp n = false) ∧
    (s.diePhase d ≠ 4 → exec (.dieTrain d) s = .next (s.csetField (drbAddr d + 8) 11 1 1) ∧
      exec (.dieAdmit d) s = .next (s.csetField (drbAddr d + 8) 11 1 1)) ∧
    (s.diePhase d = 4 → (∀ n ∈ dieLinks d, s.linkUp n = true) → ∃ t, exec (.dieAdmit d) s = .next t ∧ t.diePhase d = 5 ∧
      t.cget (drbAddr d) = 0 ∧ t.dram = s.dram) ∧
    (s.diePhase d = 5 → ∃ t, exec (.dieAdmitDone d) s = .next t ∧ t.diePhase d = 0 ∧ t.drainedSet d = false ∧
      t.wbdoneSet d = false ∧ t.dram = s.dram))

/-! ### Encodings -/

/-- R105, R109, R116 to R118, R147: decoding the scalar word of a well-formed instruction gives it back with every
operand, and a word that decodes is the word of the well-formed instruction that it decodes to. -/
def Obligations.ScalarDecodeEncode : Prop :=
  (∀ (i : Instr) (w : BitVec 32), WellFormed i = true → encodeScalar i = some w → decodeScalar w = .ok i) ∧
  (∀ (i : Instr) (w : BitVec 32), decodeScalar w = .ok i → WellFormed i = true ∧ encodeScalar i = some w)

/-- R105, R109, R119 to R125: decoding the vector, matrix or copy word of a well-formed instruction gives it back with
every operand, in the slot of its cluster or engine; a word that decodes is the word of the well-formed instruction
that it decodes to; and a bundle is read from its 256 bits as they were put together. -/
def Obligations.SlotDecodeEncode : Prop :=
  (∀ (i : Instr) (op : Nat) (c : Cluster) (o : VOps) (w : BitVec 48), WellFormed i = true → vectorOf i = some (op, c, o) →
    encodeVector i = some w → decodeVector c w = .ok i) ∧
  (∀ (i : Instr) (w : BitVec 48), WellFormed i = true → encodeMatrix i = some w → decodeMatrix w = .ok i) ∧
  (∀ (i : Instr) (op : Nat) (e : Engine) (o : COps) (w : BitVec 32), WellFormed i = true → copyOf i = some (op, e, o) →
    encodeCopy i = some w → decodeCopy e w = .ok i) ∧
  (∀ (i : Instr) (c : Cluster) (w : BitVec 48), decodeVector c w = .ok i →
    WellFormed i = true ∧ encodeVector i = some w ∧ ∃ op o, vectorOf i = some (op, c, o)) ∧
  (∀ (i : Instr) (w : BitVec 48), decodeMatrix w = .ok i → WellFormed i = true ∧ encodeMatrix i = some w) ∧
  (∀ (i : Instr) (e : Engine) (w : BitVec 32), decodeCopy e w = .ok i →
    WellFormed i = true ∧ encodeCopy i = some w ∧ ∃ op o, copyOf i = some (op, e, o)) ∧
  (∀ b : Bundle, bundleOf b.word = b)

/-- R116 to R125, R242: words written out from the encodings of the spec decode to the instructions that they stand for. -/
def Obligations.WordsDecode : Prop :=
  decodeScalar 0x00185101 = .ok (.add { nw := false, pn := false, p := 0, b := 6, a := 5, d := 4 }) ∧
  decodeScalar 0x23456111 = .ok (.movh { imm18 := 0x23456, d := 4 }) ∧
  decodeScalar 0x400031EB = .ok (.ld .sb 2 { nw := false, pn := false, p := 0, b := 0, a := 3, d := 7 }) ∧
  decodeVector .va 0x00001C614423 =
    .ok (.vfma .va { vd := 4, va := 5, vb := 6, vc := 7, mask := 0, neg := false, rnd := 0, ty := 0, nw := false, fn := 0 }) ∧
  decodeMatrix 0x0000080606C4 =
    .ok (.mm { shape := 4, fa := 3, fb := 3, acc := 0, set := 8, tag := 1, rnd := 0, asrc := true, base := 0 })

/-! ### Steps -/

/-- R31, R106, R111 (and log entries 5 and 6 for the order of events): a step runs the first event of the agenda at its
time; with an empty agenda, the unit in focus that reaches a boundary where its bundle issues runs the one instruction
that the bundle's bytes decode to, in the state in which BUNDLE_ISSUE has opened the bundle, its mark has committed and what
is due in it has landed, and the bundle ends; a BAR counts its arrival, and its bundle issues once every member has
arrived; where no bundle issues, time goes on by one clock. As time goes on, what memory delivers and takes, tests, limits
and buffers take effect; where none is under way, only the time changes. Where the spec leaves a reading open, the
statement holds of the model's (log entry 20). -/
def Obligations.StepRunsDecodedInstruction : Prop :=
  (∀ (s t : State) (c : Nat) (i : Instr) (rest : List (Nat × Instr)), s.agenda = (c, i) :: rest →
    exec i (State.passTo { s with agenda := rest } c) = .next t → t.issue.snap = none → step s = .next t) ∧
  (∀ (s : State) (c : Nat), s.copies = [] → (∀ p ∈ s.ports, p.2.pausing = []) → (∀ m ∈ s.migrators, m.2.page = none) →
    (∀ l ∈ s.links, bitOf (s.cget (dlbAddr l.1 + 8)) 3 = false) → s.passTo c = { s with now := max s.now c }) ∧
  (∀ (s t : State) (k : Nat) (i : Instr), s.agenda = [] → s.focus < unitCount →
    let s0 : State := { s.passTo s.cur.nextIssue with focus := s.focus }
    s0.atEdge s.focus = true → s0.atBoundary s.focus = (t, true) →
    let x := t.unit s.focus
    let b := bundleOf (ofBytes 256 (mread x.code x.pc 32))
    let runsIn (y : Machine.Unit) : Prop :=
      let o := t.openBundle s.focus y b
      let m := if x.marks b then o.inIssue s.focus Unit.commitMark else o
      step s = match exec i (m.inIssue s.focus Unit.landDue) with
        | .next t' => .next t'.finishBundle
        | .fault f => .fault f
        | .refused f => .refused f
    k < 6 → b.valid k = true → (∀ j < 6, j ≠ k → b.valid j = false) → b.decodeSlot k = .ok i →
    ((∀ o, i ≠ .bar o) ∨ x.landDue.executes i = false → runsIn x) ∧
    (∀ o, i = .bar o → x.landDue.executes i = true → runsIn x.arrive)) ∧
  (∀ (u : Nat) (s t : State), u < unitCount → (s.unit u).run = .running → (s.unit u).nextIssue ≤ s.now →
    s.powered u = true → ({ s with focus := u } : State).atBoundary u = (t, true) →
    let x := t.unit u
    let b := bundleOf (ofBytes 256 (mread x.code x.pc 32))
    exec (.bundleIssue u) s = .next (t.openBundle u (if x.landDue.bars b then x.arrive else x) b)) ∧
  (∀ s t : State, s.agenda = [] → s.focus < unitCount →
    let s0 : State := { s.passTo s.cur.nextIssue with focus := s.focus }
    s0.atEdge s.focus = true ∧ s0.atBoundary s.focus = (t, false) ∨ s0.atEdge s.focus = false ∧ t = s0 →
    t.issue.snap = none → step s = .next (t.passTo (t.now + period t.focus)))

/-! ### Reset and invariants -/

/-- R316, R319, R387, R408, R414, R416, R449, R459, R465, R481, R484, R486: after reset every register for which the spec
gives a reset value holds it, MEAS0 to MEAS5 among them. -/
def Obligations.ResetRegisters : Prop :=
  let s := State.reset
  (∀ k < 32, s.cget (fidlimAddr k) = 2) ∧ (∀ i < 6, s.meas i = List.replicate 48 0) ∧
  s.cget scb = 0 ∧ s.cget (scb + 8) = 0x07D003E801F400FA ∧ s.cget (scb + 0x10) = 16 ∧ s.cget (scb + 0x18) = 0 ∧
  s.cget (scb + 0x20) = 0 ∧
  (∀ k < 24, ∀ c < 64, s.cfield (calAddr k c + 0x80) 0 16 = 4096) ∧
  s.cfield (dcb + 0x18) 0 12 = 1000 ∧ s.cfield (dcb + 0x20) 16 3 = 3 ∧ s.cfield (dcb + 0x20) 0 16 = 0x0123 ∧
  s.cfield (dcb + 0x28) 32 16 = 100 ∧ s.cfield (dcb + 0x28) 0 16 = 5 ∧
  (∀ n < 24, s.cfield (dlbAddr n + 0x28) 32 16 = 100 ∧ s.cfield (dlbAddr n + 0x28) 0 32 = 64) ∧
  (∀ d < 4, s.cfield (drbAddr d + 0x10) 0 16 = 100) ∧
  s.cfield pwb 0 32 = 0 ∧ s.cfield (pwb + 0x10) 0 16 = 2800 ∧
  (∀ k < 32, s.cfield (pwb + 0x200 + 8 * k) 0 16 = 900) ∧ (∀ d < 4, s.cfield (pwb + 0x400 + 8 * d) 0 16 = 60) ∧
  (∀ z < 8, s.cfield (clb + 8 * z) 32 16 = 450 ∧
    (s.cfield (clb + 8 * z) 0 16, s.cfield (clb + 8 * z) 16 16) =
      if z < 4 then (20, 100) else if z = 5 ∨ z = 6 then (15, 60) else (10, 40))

/-- The model's own invariants hold at reset: every memory is in canonical form, the tables of units and of control
registers are in order, every buffer is in canonical form and every atomic engine's line is whole (log entry 2). -/
def Obligations.ResetCanonical : Prop :=
  State.reset.ModuleMemory ∧ State.reset.TablesOrdered ∧ State.reset.EveryBuffer ∧ State.reset.EveryLine

/-- Log entry 2: whatever a step does, from any state whose DRAM, cluster SRAM, host memory and storage tier are in
canonical form, they are so afterwards: equal contents are equal data. -/
def Obligations.StepKeepsModuleMemory : Prop :=
  ∀ s t : State, s.ModuleMemory → step s = .next t → t.ModuleMemory

/-- Whatever a step does, from any state in which units and control registers are listed in order and once, they are so
afterwards, so that each unit and each register has one home. -/
def Obligations.StepKeepsTablesOrdered : Prop :=
  ∀ s t : State, s.TablesOrdered → step s = .next t → t.TablesOrdered

/-- Log entry 2, R75, R91: whatever a step does, every buffer of every context that the module holds stays in canonical
form, and every line that an atomic engine holds stays 64 bytes, listed in order. -/
def Obligations.StepKeepsBuffersAndLines : Prop :=
  ∀ s t : State, step s = .next t →
    (s.EveryBuffer → t.EveryBuffer) ∧ (s.EveryLine → t.EveryLine)
end

