-- ==== Sys2Proof/Laws/Coll.lean ====
section
/-!
SUPPORT. What the collectives of a module can do as they send and look at their peers: they change themselves and what goes out by
the ports, and nothing else of the machine.
-/
namespace Sys2Proof.Machine

/-- `t` is `s` after collectives have talked: nothing but they, the ports and what has gone out differs, and what had gone out
before still has. -/
structure State.Talks (s t : State) : Prop where
  rest : { t with colls := s.colls, out := s.out, ports := s.ports } = s
  sent : ∃ l, t.out = s.out ++ l

theorem State.Talks.refl (s : State) : s.Talks s := ⟨rfl, [], (List.append_nil _).symm⟩

theorem State.Talks.trans {s t v : State} (h : s.Talks t) (k : t.Talks v) : s.Talks v := by
  obtain ⟨l, hl⟩ := h.sent
  obtain ⟨m, hm⟩ := k.sent
  refine ⟨?_, l ++ m, by rw [hm, hl, List.append_assoc]⟩
  have := congrArg (fun x : State => { x with colls := s.colls, out := s.out, ports := s.ports }) k.rest
  exact this.trans h.rest

/-- A sequence of steps that each only talk only talks. -/
theorem State.Talks.foldl {α : Type} {f : State → α → State} (h : ∀ (s : State) (a : α), s.Talks (f s a)) (l : List α) (s : State) :
    s.Talks (l.foldl f s) := by
  induction l generalizing s with
  | nil => exact .refl s
  | cons a l ih => exact (h s a).trans (ih (f s a))

theorem State.Talks.setPort (s : State) (p : Nat) (x : Port) : s.Talks (s.setPort p x) :=
  ⟨rfl, [], (List.append_nil _).symm⟩

theorem State.Talks.setColl (s : State) (c : Coll) : s.Talks (s.setColl c) := ⟨rfl, [], (List.append_nil _).symm⟩

theorem State.Talks.sendAt (s : State) (m : Msg) (k : Nat) : s.Talks (s.sendAt m k) := by
  unfold State.sendAt
  split
  · split
    · unfold State.sendFrom
      dsimp only
      split
      · exact .setPort s _ _
      · split
        · exact ⟨rfl, _, rfl⟩
        · exact .setPort s _ _
    · exact .setPort s _ _
  · exact ⟨rfl, _, rfl⟩

theorem State.Talks.send (s : State) (m : Msg) : s.Talks (s.send m) := .sendAt s m 0

theorem State.Talks.reviewBy (n : Nat) (s : State) : s.Talks (s.reviewBy n) := by
  induction n generalizing s with
  | zero => exact .refl s
  | succ n ih =>
    unfold State.reviewBy
    dsimp only
    split
    · exact .refl s
    · exact State.Talks.trans (t := { s with colls := s.colls.map s.reviewColl }) ⟨rfl, [], (List.append_nil _).symm⟩ (ih _)

theorem State.Talks.review (s : State) : s.Talks s.review := .reviewBy _ s

theorem State.Talks.sendNext (s : State) (c : Coll) (m : Nat) : s.Talks (s.sendNext c m) := by
  unfold State.sendNext
  split
  · exact .setColl s c
  · split
    · exact .setColl s c
    · exact (State.Talks.send s _).trans (.setColl _ _)

theorem State.Talks.sendHeld (s : State) (u serial : Nat) : s.Talks (s.sendHeld u serial) := by
  unfold State.sendHeld
  split
  · exact .refl s
  · refine .foldl (fun s m => ?_) _ s
    cases s.collOf u serial with
    | none => exact .refl s
    | some c => exact .sendNext s c m

theorem State.Talks.requestMissing (s : State) (mod : Nat) (c : Coll) : s.Talks (s.requestMissing mod c) := by
  unfold State.requestMissing
  split
  · exact .refl s
  · refine .foldl (fun s f => ?_) _ s
    split
    · exact .foldl (fun s t => .send s _) _ s
    · exact .refl s

theorem State.Talks.resendKept (s : State) (c : Coll) : s.Talks (s.resendKept c) := .foldl (fun s _ => .send s _) _ s

theorem State.Talks.pickUp (s : State) (u serial : Nat) : s.Talks (s.pickUp u serial) := by
  unfold State.pickUp
  split
  · exact .refl s
  · split
    · exact .refl s
    · dsimp only
      refine .trans ?_ (.sendHeld _ u serial)
      split
      · refine .trans ?_ (.resendKept _ _)
        exact .trans (.setColl s _) (.foldl (fun s m => .requestMissing s m _) _ _)
      · exact .trans (.setColl s _) (.foldl (fun s m => .requestMissing s m _) _ _)

/-- What taking up the collectives of the module can do (R332, R333, R346, R473). -/
theorem State.Talks.pickUpAll (s : State) : s.Talks s.pickUpAll := by
  unfold State.pickUpAll
  refine .trans ?_ (.review _)
  exact .foldl (fun s (p : Nat × Nat) => .pickUp s p.1 p.2) _ s

/-! ### The fields that talk leaves as they are -/

theorem State.Talks.units {s t : State} (h : s.Talks t) : t.units = s.units := by have := congrArg State.units h.rest; exact this
theorem State.Talks.dram {s t : State} (h : s.Talks t) : t.dram = s.dram := by have := congrArg State.dram h.rest; exact this
theorem State.Talks.sram {s t : State} (h : s.Talks t) : t.sram = s.sram := by have := congrArg State.sram h.rest; exact this
theorem State.Talks.host {s t : State} (h : s.Talks t) : t.host = s.host := by have := congrArg State.host h.rest; exact this
theorem State.Talks.tier {s t : State} (h : s.Talks t) : t.tier = s.tier := by have := congrArg State.tier h.rest; exact this
theorem State.Talks.ctl {s t : State} (h : s.Talks t) : t.ctl = s.ctl := by have := congrArg State.ctl h.rest; exact this
theorem State.Talks.clusters {s t : State} (h : s.Talks t) : t.clusters = s.clusters := by have := congrArg State.clusters h.rest; exact this
theorem State.Talks.unit {s t : State} (h : s.Talks t) (u : Nat) : t.unit u = s.unit u := by
  unfold State.unit
  rw [h.units]
theorem State.Talks.cget {s t : State} (h : s.Talks t) (a : Nat) : t.cget a = s.cget a := by
  unfold State.cget
  rw [h.ctl]

/-- With no collective, taking them up does nothing. -/
theorem State.pickUpAll_nil {s : State} (h : s.colls = []) : s.pickUpAll = s := by
  simp [State.pickUpAll, State.review, State.reviewBy, h]

/-! ### Ways over die-to-die links -/

@[simp] theorem State.wayOpen_self (s : State) (a addr : Nat) : s.wayOpen a a addr = true := by simp [State.wayOpen]

end Sys2Proof.Machine
end

