-- ==== Sys2Proof/Laws/Ops.lean ====
section
/-!
SUPPORT. What the shared operations can do, said once: a slot instruction, a step, bit fields, and the operations that
write memories, each of which keeps the canonical form.
-/
namespace Sys2Proof.Machine

/-! ### Bit fields -/

@[simp] theorem bitOf_setField {n w : Nat} (x : BitVec n) (lo : Nat) (v : BitVec w) (i : Nat) (h : i < n) :
    bitOf (setField x lo v) i = if lo ≤ i ∧ i < lo + w then bitOf v (i - lo) else bitOf x i := by
  simp only [bitOf, setField, BitVec.getLsbD_or, BitVec.getLsbD_and, BitVec.getLsbD_not, BitVec.getLsbD_shiftLeft,
    BitVec.getLsbD_setWidth, BitVec.getLsbD_allOnes, h, decide_true, Bool.true_and]
  by_cases h1 : lo ≤ i
  · by_cases h2 : i < lo + w
    · rw [if_pos ⟨h1, h2⟩]
      have : i - lo < w := by omega
      have h3 : i - lo < n := by omega
      simp [this, h3, show ¬ i < lo by omega]
    · rw [if_neg (fun e => h2 e.2)]
      have : ¬ i - lo < w := by omega
      simp [this, BitVec.getLsbD_of_ge v (i - lo) (by omega)]
  · rw [if_neg (fun e => h1 e.1)]
    simp [show i < lo by omega]

@[simp] theorem bitOf_field {n : Nat} (x : BitVec n) (lo w i : Nat) :
    bitOf (field x lo w) i = (decide (i < w) && bitOf x (lo + i)) := by
  simp [bitOf, field, BitVec.getLsbD_extractLsb']

/-- A field reads as it was written. -/
theorem field_setField_same {n w : Nat} (x : BitVec n) (lo : Nat) (v : BitVec w) (h : lo + w ≤ n) :
    field (setField x lo v) lo w = v := by
  apply BitVec.eq_of_getLsbD_eq
  intro i hi
  have a := bitOf_field (setField x lo v) lo w i
  rw [bitOf_setField x lo v (lo + i) (by omega), if_pos (by omega)] at a
  simpa [bitOf, hi] using a

/-- Writing a field leaves a field that does not meet it. -/
theorem field_setField_ne {n w : Nat} (x : BitVec n) (lo : Nat) (v : BitVec w) (lo' w' : Nat)
    (hn : lo' + w' ≤ n) (h : lo' + w' ≤ lo ∨ lo + w ≤ lo') : field (setField x lo v) lo' w' = field x lo' w' := by
  apply BitVec.eq_of_getLsbD_eq
  intro i hi
  have a := bitOf_field (setField x lo v) lo' w' i
  rw [bitOf_setField x lo v (lo' + i) (by omega), if_neg (by omega)] at a
  have b := bitOf_field x lo' w' i
  simpa [bitOf, hi] using a.trans b.symm

/-! ### Slot instructions -/

/-- A slot instruction that runs has its effect. -/
theorem slotStep_runs {s : State} {i : Instr} {eff : State → State} (h : s.runs i) : s.slotStep i eff = .next (eff s) := by
  obtain ⟨⟨h1, h2⟩, h3⟩ := h
  unfold State.slotStep
  rw [if_neg (by omega)]
  split
  · simp
  · rcases h2 with h2 | h2
    · contradiction
    · simp [h2]

/-- A slot instruction whose predicate does not let it execute changes nothing. -/
theorem slotStep_not_executed {s : State} {i : Instr} {eff : State → State} (h : s.ready i)
    (h3 : s.src.executes i = false) : s.slotStep i eff = .next s := by
  obtain ⟨h1, h2⟩ := h
  unfold State.slotStep
  rw [if_neg (by omega)]
  split
  · simp [h3]
  · rcases h2 with h2 | h2
    · contradiction
    · simp [h2, h3]

/-- All that a slot instruction can do: stop where the unit in focus does not exist, have its effect, change nothing, or
trap. -/
theorem slotStep_cases (s : State) (i : Instr) (eff : State → State) :
    (unitCount ≤ s.focus ∧ s.slotStep i eff = .fault (.noSuchPart s.focus)) ∨
    (s.runs i ∧ s.slotStep i eff = .next (eff s)) ∨
    (s.ready i ∧ s.src.executes i = false ∧ s.slotStep i eff = .next s) ∨
    (∃ c v, s.issue.snap.isSome = false ∧ s.slotFault s.focus i = some (c, v) ∧
      s.slotStep i eff = .next (s.modCur (fun x => x.syncTrap s.focus c v))) := by
  by_cases h1 : unitCount ≤ s.focus
  · exact .inl ⟨h1, by unfold State.slotStep; rw [if_pos h1]⟩
  · have h1 : s.focus < unitCount := by omega
    by_cases hr : s.issue.snap.isSome = true ∨ s.slotFault s.focus i = none
    · by_cases h3 : s.src.executes i = true
      · exact .inr (.inl ⟨⟨⟨h1, hr⟩, h3⟩, slotStep_runs ⟨⟨h1, hr⟩, h3⟩⟩)
      · have h3 : s.src.executes i = false := by simpa using h3
        exact .inr (.inr (.inl ⟨⟨h1, hr⟩, h3, slotStep_not_executed ⟨h1, hr⟩ h3⟩))
    · obtain ⟨ha, hb⟩ := not_or.1 hr
      have ha : s.issue.snap.isSome = false := by simpa using ha
      obtain ⟨⟨c, v⟩, hb⟩ := Option.ne_none_iff_exists'.1 hb
      refine .inr (.inr (.inr ⟨c, v, ha, hb, ?_⟩))
      unfold State.slotStep
      rw [if_neg (by omega), ha]
      simp [hb]

/-- A property that the effect, and a trap on the unit in focus, keep is kept by a slot instruction. -/
theorem slotStep_keeps {P : State → Prop} {s t : State} {i : Instr} {eff : State → State} (hs : P s) (he : P (eff s))
    (ht : ∀ c v, P (s.modCur (fun x => x.syncTrap s.focus c v))) (h : s.slotStep i eff = .next t) : P t := by
  rcases slotStep_cases s i eff with ⟨-, e⟩ | ⟨-, e⟩ | ⟨-, -, e⟩ | ⟨c, v, -, -, e⟩ <;> rw [e] at h <;> cases h
  · exact he
  · exact hs
  · exact ht c v

/-! ### Steps -/

/-- A bundle's slots run one after another, so a property that every instruction keeps is kept by them all. -/
theorem runSlots_keeps {P : State → Prop} (hp : ∀ i s t, P s → exec i s = .next t → P t) :
    ∀ (is : List Instr) {s t : State}, P s → runSlots is s = .next t → P t
  | [], s, t, hs, h => by cases h; exact hs
  | i :: is, s, t, hs, h => by
    unfold runSlots at h
    split at h
    · next u hu => exact runSlots_keeps hp is (hp i s u hs hu) h
    · contradiction
    · contradiction

/-- A property that every instruction and the end of a bundle keep is kept by the end of a bundle in issue. -/
theorem finish_keeps {P : State → Prop} (hp : ∀ i s t, P s → exec i s = .next t → P t)
    (hf : ∀ s : State, P s → P s.finishBundle) {s t : State} (hs : P s) (h : finish s = .next t) : P t := by
  unfold finish at h
  split at h
  · cases h; exact hs
  · split at h
    · next u hu => cases h; exact hf u (runSlots_keeps hp _ hs hu)
    · contradiction
    · contradiction

/-- A property of the module that every instruction, the end of a bundle and the passing of time keep is kept by a step. -/
theorem step_keeps {P : State → Prop} (hp : ∀ i s t, P s → exec i s = .next t → P t)
    (hf : ∀ s : State, P s → P s.finishBundle)
    (ha : ∀ (s : State) (a : List (Nat × Instr)), P s → P { s with agenda := a })
    (ht : ∀ (s : State) (n : Nat), P s → P (s.passTo n))
    {s t : State} (hs : P s) (h : step s = .next t) : P t := by
  unfold step at h
  split at h
  · unfold stepOf at h
    split at h
    · next u hu => exact finish_keeps hp hf (hp _ _ u (ht _ _ (ha s _ hs)) hu) h
    · contradiction
    · contradiction
  · split at h
    · next u hu =>
      have hu : P u := hp _ _ u (ht s _ hs) hu
      split at h
      · exact finish_keeps hp hf hu h
      · cases h; exact ht u _ hu
    · contradiction
    · contradiction

/-! ### Memories of the module -/

/-- States that agree on their memories are canonical together. -/
theorem State.ModuleMemory.of_eq {s t : State} (h : s.ModuleMemory) (h1 : t.dram = s.dram) (h2 : t.host = s.host)
    (h3 : t.tier = s.tier) (h4 : t.sram = s.sram) : t.ModuleMemory := by
  unfold State.ModuleMemory State.sramOf at *
  rw [h1, h2, h3, h4]; exact h

theorem State.ModuleMemory.dput {s : State} (h : s.ModuleMemory) (pa : Nat) (b : Byte) : (s.dput pa b).ModuleMemory :=
  ⟨Memory.wf_foldl _ (fun _ a hm => Memory.wf_mput a b hm) _ h.1, h.2.1, h.2.2.1, h.2.2.2⟩

theorem State.ModuleMemory.dwrite (bs : List Byte) : ∀ {s : State} (pa : Nat), s.ModuleMemory → (s.dwrite pa bs).ModuleMemory := by
  induction bs with
  | nil => exact fun _ h => h
  | cons b bs ih => exact fun pa h => ih (pa + 1) (h.dput pa b)

/-- The SRAM of one cluster replaced by a canonical memory. -/
theorem State.ModuleMemory.setSram {s : State} (h : s.ModuleMemory) (k : Nat) {m : Memory} (hm : Memory.wf m = true) :
    ({ s with sram := tput s.sram k m } : State).ModuleMemory := by
  refine ⟨h.1, h.2.1, h.2.2.1, fun j => ?_⟩
  unfold State.sramOf
  rw [tget_tput]
  split
  · exact hm
  · exact h.2.2.2 j

theorem State.ModuleMemory.setCluster {s : State} (h : s.ModuleMemory) (k : Nat) (c : ClusterSt) :
    (s.setCluster k c).ModuleMemory := h.of_eq rfl rfl rfl rfl

theorem State.ModuleMemory.setUnit {s : State} (h : s.ModuleMemory) (u : Nat) (x : Unit) :
    (s.setUnit u x).ModuleMemory := h.of_eq rfl rfl rfl rfl

theorem State.ModuleMemory.cset {s : State} (h : s.ModuleMemory) (a : Nat) (w : Word) :
    (s.cset a w).ModuleMemory := h.of_eq rfl rfl rfl rfl

theorem State.ModuleMemory.sramPut {s : State} (h : s.ModuleMemory) (k a : Nat) (b : Byte) :
    (s.sramPut k a b).ModuleMemory := by
  have h1 := h.setSram k (Memory.wf_mput a b (h.2.2.2 k))
  unfold State.sramPut
  dsimp only
  split
  · exact h1
  · exact h1.setCluster k _

theorem State.ModuleMemory.locPut {s : State} (h : s.ModuleMemory) (l : Loc) (b : Byte) : (s.locPut l b).ModuleMemory := by
  unfold State.locPut
  split
  · exact h.setUnit _ _
  · exact h.sramPut _ _ b
  · exact h.dput _ b
  · exact ⟨h.1, Memory.wf_mput _ b h.2.1, h.2.2.1, h.2.2.2⟩
  · exact h
  · exact h

theorem State.ModuleMemory.locWrite (bs : List Byte) :
    ∀ {s : State} (l : Loc), s.ModuleMemory → (s.locWrite l bs).ModuleMemory := by
  induction bs with
  | nil => exact fun _ h => h
  | cons b bs ih => exact fun l h => ih _ (h.locPut l b)

theorem State.ModuleMemory.engineWrite {s : State} (h : s.ModuleMemory) (u serial b : Nat) (l : Loc) (bs : List Byte) :
    (s.engineWrite u serial b l bs).ModuleMemory := by
  unfold State.engineWrite State.keepOld State.keepBytes
  exact State.ModuleMemory.locWrite bs l (h.setUnit _ _)

theorem State.ModuleMemory.writeBackLines {s : State} (h : s.ModuleMemory) (k : Nat) : (s.writeBackLines k).ModuleMemory := by
  unfold State.writeBackLines
  exact (h.setSram k (Memory.wf_foldl _ (fun _ l hm => Memory.wf_mwrite _ l.2 hm) _ (h.2.2.2 k))).setCluster k _

/-! ### Buffers of a unit -/

theorem Unit.BuffersCanonical.setBuf {x : Unit} (h : x.BuffersCanonical) (b : Buf) {m : Memory} (hm : Memory.wf m = true) :
    (x.setBuf b m).BuffersCanonical := by
  intro c
  rw [Unit.buf_setBuf]
  split
  · exact hm
  · exact h c

theorem Unit.BuffersCanonical.bput {x : Unit} (h : x.BuffersCanonical) (b : Buf) (bs : List (Nat × Byte)) :
    (x.bput b bs).BuffersCanonical := by
  intro c
  unfold Unit.bput
  rw [Unit.buf_setBuf]
  split
  · exact Memory.wf_mwriteEach bs (h b)
  · cases c
    · exact h .wb
    · exact h .ab
    · exact h .cb
    · exact h .sb

theorem Unit.BuffersCanonical.commitGated {x : Unit} (h : x.BuffersCanonical) : x.commitGated.BuffersCanonical := by
  unfold Unit.commitGated
  have : ∀ (l : List Gated) (y : Unit), y.BuffersCanonical →
      (l.foldl (fun y e => y.setBuf e.buf (mwriteEach (y.buf e.buf) e.bytes)) y).BuffersCanonical := by
    intro l
    induction l with
    | nil => exact fun _ hy => hy
    | cons e l ih => exact fun y hy => ih _ (hy.setBuf e.buf (Memory.wf_mwriteEach e.bytes (hy e.buf)))
  exact fun c => this x.gated x h c

theorem Unit.BuffersCanonical.store {x : Unit} (h : x.BuffersCanonical) (b : Buf) (es : List (List (Nat × Byte))) :
    (x.store b es).BuffersCanonical := by
  unfold Unit.store
  split
  · have : ∀ (l : List (List (Nat × Byte))) (y : Unit), y.BuffersCanonical →
        (l.foldl (fun y bs => y.bput b bs) y).BuffersCanonical := by
      intro l
      induction l with
      | nil => exact fun _ hy => hy
      | cons e l ih => exact fun y hy => ih _ (hy.bput b e)
    exact this es x h
  · exact fun c => h c

/-- Every context of the module stays canonical when a canonical unit is put in place. -/
theorem State.EveryBuffer.setUnit {s : State} (h : s.EveryBuffer) (u : Nat) {x : Unit} (hx : x.BuffersCanonical) :
    (s.setUnit u x).EveryBuffer :=
  ⟨forall_tput (P := fun (p : Nat × Unit) => p.2.BuffersCanonical) h.1 hx, h.2.1, h.2.2.1, h.2.2.2⟩

/-- A unit of a module whose contexts are canonical is canonical. -/
theorem State.EveryBuffer.unit {s : State} (h : s.EveryBuffer) (u : Nat) : (s.unit u).BuffersCanonical :=
  forall_tget (P := Unit.BuffersCanonical) u h.1 (fun b => by cases b <;> rfl)

/-! ### Tables of the module -/

theorem State.TablesOrdered.setUnit {s : State} (h : s.TablesOrdered) (u : Nat) (x : Unit) : (s.setUnit u x).TablesOrdered :=
  ⟨tsorted_tput u x h.1, h.2⟩

theorem State.TablesOrdered.cset {s : State} (h : s.TablesOrdered) (a : Nat) (w : Word) : (s.cset a w).TablesOrdered :=
  ⟨h.1, tsorted_tput a w h.2⟩

/-! ### The bundle in issue -/

/-- Nothing comes about in a bundle where none is in issue. -/
theorem State.inIssue_of_none {s : State} (u : Nat) (f : Unit → Unit) (h : s.issue.snap = none) : s.inIssue u f = s := by
  simp [State.inIssue, h]

/-- What comes about in a unit's bundle changes the unit, and what its slots see of it, alike. -/
theorem State.inIssue_of_some {s : State} {u : Nat} {y : Unit} (f : Unit → Unit) (h : s.issue.snap = some y) (hu : s.focus = u) :
    s.inIssue u f = { s.modUnit u f with issue := { s.issue with snap := some (f y) } } := by
  simp [State.inIssue, h, hu]

end Sys2Proof.Machine
end

