-- ==== Sys2Proof/Laws/PerInstr.lean ====
section
/-!
SUPPORT. Facts about every instruction as syntax, one lemma for each constructor: an instruction has a word in at most one
kind of slot (R105, R116, R119, R122, R125), and a step that is no slot instruction has none.
-/
namespace Sys2Proof.Laws.OneSlot

/-- In how many kinds of slot an instruction has a word. -/
def kinds (i : Instr) : Nat :=
  (if (encodeScalar i).isSome then 1 else 0) + (if (encodeVector i).isSome then 1 else 0) +
    (if (encodeMatrix i).isSome then 1 else 0) + (if (encodeCopy i).isSome then 1 else 0)

/-- An instruction has a word in at most one kind of slot, and a word exactly where it has one of them. -/
def Statement (i : Instr) : Prop := kinds i = if (encode i).isSome then 1 else 0

theorem nop : Statement .nop := rfl
theorem add (o : SR) : Statement (.add o) := rfl
theorem sub (o : SR) : Statement (.sub o) := rfl
theorem and (o : SR) : Statement (.and o) := rfl
theorem or (o : SR) : Statement (.or o) := rfl
theorem xor (o : SR) : Statement (.xor o) := rfl
theorem andn (o : SR) : Statement (.andn o) := rfl
theorem orn (o : SR) : Statement (.orn o) := rfl
theorem xnor (o : SR) : Statement (.xnor o) := rfl
theorem shl (o : SR) : Statement (.shl o) := rfl
theorem shr (o : SR) : Statement (.shr o) := rfl
theorem sar (o : SR) : Statement (.sar o) := rfl
theorem rol (o : SR) : Statement (.rol o) := rfl
theorem ror (o : SR) : Statement (.ror o) := rfl
theorem mul (o : SR) : Statement (.mul o) := rfl
theorem mulh (o : SR) : Statement (.mulh o) := rfl
theorem mulhs (o : SR) : Statement (.mulhs o) := rfl
theorem div (o : SR) : Statement (.div o) := rfl
theorem divs (o : SR) : Statement (.divs o) := rfl
theorem rem (o : SR) : Statement (.rem o) := rfl
theorem rems (o : SR) : Statement (.rems o) := rfl
theorem min (o : SR) : Statement (.min o) := rfl
theorem max (o : SR) : Statement (.max o) := rfl
theorem mins (o : SR) : Statement (.mins o) := rfl
theorem maxs (o : SR) : Statement (.maxs o) := rfl
theorem clz (o : SR) : Statement (.clz o) := rfl
theorem ctz (o : SR) : Statement (.ctz o) := rfl
theorem popc (o : SR) : Statement (.popc o) := rfl
theorem brev (o : SR) : Statement (.brev o) := rfl
theorem sext (o : SR) : Statement (.sext o) := rfl
theorem zext (o : SR) : Statement (.zext o) := rfl
theorem fshl (o : SR) : Statement (.fshl o) := rfl
theorem fshr (o : SR) : Statement (.fshr o) := rfl
theorem addsh (f : BitVec 3) (o : SR) : Statement (.addsh f o) := rfl
theorem addi (o : SI) : Statement (.addi o) := rfl
theorem andi (o : SI) : Statement (.andi o) := rfl
theorem ori (o : SI) : Statement (.ori o) := rfl
theorem xori (o : SI) : Statement (.xori o) := rfl
theorem shli (o : SI) : Statement (.shli o) := rfl
theorem shri (o : SI) : Statement (.shri o) := rfl
theorem sari (o : SI) : Statement (.sari o) := rfl
theorem movi (o : SL) : Statement (.movi o) := rfl
theorem movh (o : SL) : Statement (.movh o) := rfl
theorem sel (f : BitVec 3) (o : SR) : Statement (.sel f o) := rfl
theorem setpEq (o : SR) : Statement (.setpEq o) := rfl
theorem setpNe (o : SR) : Statement (.setpNe o) := rfl
theorem setpLt (o : SR) : Statement (.setpLt o) := rfl
theorem setpLts (o : SR) : Statement (.setpLts o) := rfl
theorem setpLe (o : SR) : Statement (.setpLe o) := rfl
theorem setpLes (o : SR) : Statement (.setpLes o) := rfl
theorem pand (o : SR) : Statement (.pand o) := rfl
theorem por (o : SR) : Statement (.por o) := rfl
theorem pxor (o : SR) : Statement (.pxor o) := rfl
theorem pnot (o : SR) : Statement (.pnot o) := rfl
theorem setpiEq (o : SI) : Statement (.setpiEq o) := rfl
theorem setpiNe (o : SI) : Statement (.setpiNe o) := rfl
theorem setpiLt (o : SI) : Statement (.setpiLt o) := rfl
theorem setpiLts (o : SI) : Statement (.setpiLts o) := rfl
theorem setpiLe (o : SI) : Statement (.setpiLe o) := rfl
theorem setpiLes (o : SI) : Statement (.setpiLes o) := rfl
theorem bri (o : SB) : Statement (.bri o) := rfl
theorem call (o : SB) : Statement (.call o) := rfl
theorem br (o : SR) : Statement (.br o) := rfl
theorem ret (o : SR) : Statement (.ret o) := rfl
theorem loop (o : SI) : Statement (.loop o) := rfl
theorem chk (o : SI) : Statement (.chk o) := rfl
theorem endTask : Statement .endTask := rfl
theorem ld (buf : Buf) (f : BitVec 3) (o : SR) : Statement (.ld buf f o) := by cases buf <;> rfl
theorem ldsp (buf : Buf) (f : BitVec 3) (o : SR) : Statement (.ldsp buf f o) := by cases buf <;> rfl
theorem st (buf : Buf) (f : BitVec 3) (o : SR) : Statement (.st buf f o) := by cases buf <;> rfl
theorem xext (f : BitVec 3) (o : SR) : Statement (.xext f o) := rfl
theorem stg (o : SR) : Statement (.stg o) := rfl
theorem waitcTag (o : SR) : Statement (.waitcTag o) := rfl
theorem waitcMask (o : SR) : Statement (.waitcMask o) := rfl
theorem bar (o : SR) : Statement (.bar o) := rfl
theorem xfer (o : SR) : Statement (.xfer o) := rfl
theorem atomAdd (dbl : Bool) (o : SR) : Statement (.atomAdd dbl o) := by cases dbl <;> rfl
theorem atomAnd (dbl : Bool) (o : SR) : Statement (.atomAnd dbl o) := by cases dbl <;> rfl
theorem atomOr (dbl : Bool) (o : SR) : Statement (.atomOr dbl o) := by cases dbl <;> rfl
theorem atomXor (dbl : Bool) (o : SR) : Statement (.atomXor dbl o) := by cases dbl <;> rfl
theorem atomMin (dbl : Bool) (o : SR) : Statement (.atomMin dbl o) := by cases dbl <;> rfl
theorem atomMax (dbl : Bool) (o : SR) : Statement (.atomMax dbl o) := by cases dbl <;> rfl
theorem atomMins (dbl : Bool) (o : SR) : Statement (.atomMins dbl o) := by cases dbl <;> rfl
theorem atomMaxs (dbl : Bool) (o : SR) : Statement (.atomMaxs dbl o) := by cases dbl <;> rfl
theorem atomXchg (dbl : Bool) (o : SR) : Statement (.atomXchg dbl o) := by cases dbl <;> rfl
theorem atomCas (dbl : Bool) (o : SR) : Statement (.atomCas dbl o) := by cases dbl <;> rfl
theorem rdsys (o : SR) : Statement (.rdsys o) := rfl
theorem wrsys (o : SR) : Statement (.wrsys o) := rfl
theorem trap (o : SR) : Statement (.trap o) := rfl
theorem eret : Statement .eret := rfl
theorem duskdone : Statement .duskdone := rfl
theorem fence (o : SR) : Statement (.fence o) := rfl
theorem sld (o : SR) : Statement (.sld o) := rfl
theorem sst (o : SR) : Statement (.sst o) := rfl
theorem vadd (c : Cluster) (o : VOps) : Statement (.vadd c o) := rfl
theorem vsub (c : Cluster) (o : VOps) : Statement (.vsub c o) := rfl
theorem vmul (c : Cluster) (o : VOps) : Statement (.vmul c o) := rfl
theorem vmulh (c : Cluster) (o : VOps) : Statement (.vmulh c o) := rfl
theorem vmad (c : Cluster) (o : VOps) : Statement (.vmad c o) := rfl
theorem vand (c : Cluster) (o : VOps) : Statement (.vand c o) := rfl
theorem vor (c : Cluster) (o : VOps) : Statement (.vor c o) := rfl
theorem vxor (c : Cluster) (o : VOps) : Statement (.vxor c o) := rfl
theorem vandn (c : Cluster) (o : VOps) : Statement (.vandn c o) := rfl
theorem vshl (c : Cluster) (o : VOps) : Statement (.vshl c o) := rfl
theorem vshr (c : Cluster) (o : VOps) : Statement (.vshr c o) := rfl
theorem vsar (c : Cluster) (o : VOps) : Statement (.vsar c o) := rfl
theorem vrot (c : Cluster) (o : VOps) : Statement (.vrot c o) := rfl
theorem vfshl (c : Cluster) (o : VOps) : Statement (.vfshl c o) := rfl
theorem vfshr (c : Cluster) (o : VOps) : Statement (.vfshr c o) := rfl
theorem vmin (c : Cluster) (o : VOps) : Statement (.vmin c o) := rfl
theorem vmax (c : Cluster) (o : VOps) : Statement (.vmax c o) := rfl
theorem vabs (c : Cluster) (o : VOps) : Statement (.vabs c o) := rfl
theorem vneg (c : Cluster) (o : VOps) : Statement (.vneg c o) := rfl
theorem vcmp (c : Cluster) (o : VOps) : Statement (.vcmp c o) := rfl
theorem vsel (c : Cluster) (o : VOps) : Statement (.vsel c o) := rfl
theorem vclz (c : Cluster) (o : VOps) : Statement (.vclz c o) := rfl
theorem vpopc (c : Cluster) (o : VOps) : Statement (.vpopc c o) := rfl
theorem vmovi (c : Cluster) (o : VOps) : Statement (.vmovi c o) := rfl
theorem vfadd (c : Cluster) (o : VOps) : Statement (.vfadd c o) := rfl
theorem vfsub (c : Cluster) (o : VOps) : Statement (.vfsub c o) := rfl
theorem vfmul (c : Cluster) (o : VOps) : Statement (.vfmul c o) := rfl
theorem vfma (c : Cluster) (o : VOps) : Statement (.vfma c o) := rfl
theorem vfnma (c : Cluster) (o : VOps) : Statement (.vfnma c o) := rfl
theorem vfmin (c : Cluster) (o : VOps) : Statement (.vfmin c o) := rfl
theorem vfmax (c : Cluster) (o : VOps) : Statement (.vfmax c o) := rfl
theorem vcvt (c : Cluster) (o : VOps) : Statement (.vcvt c o) := rfl
theorem vdot (c : Cluster) (o : VOps) : Statement (.vdot c o) := rfl
theorem vexp2 (c : Cluster) (o : VOps) : Statement (.vexp2 c o) := rfl
theorem vlog2 (c : Cluster) (o : VOps) : Statement (.vlog2 c o) := rfl
theorem vrcp (c : Cluster) (o : VOps) : Statement (.vrcp c o) := rfl
theorem vrsq (c : Cluster) (o : VOps) : Statement (.vrsq c o) := rfl
theorem vfdiv (c : Cluster) (o : VOps) : Statement (.vfdiv c o) := rfl
theorem vfsqrt (c : Cluster) (o : VOps) : Statement (.vfsqrt c o) := rfl
theorem vtrimX (c : Cluster) (o : VOps) : Statement (.vtrimX c o) := rfl
theorem vtrimM (c : Cluster) (o : VOps) : Statement (.vtrimM c o) := rfl
theorem vtrimXb (c : Cluster) (o : VOps) : Statement (.vtrimXb c o) := rfl
theorem vrnd (c : Cluster) (o : VOps) : Statement (.vrnd c o) := rfl
theorem vrndSeed (c : Cluster) (o : VOps) : Statement (.vrndSeed c o) := rfl
theorem vsfckMor (c : Cluster) (o : VOps) : Statement (.vsfckMor c o) := rfl
theorem vsfckHil (c : Cluster) (o : VOps) : Statement (.vsfckHil c o) := rfl
theorem vld (c : Cluster) (o : VOps) : Statement (.vld c o) := rfl
theorem vst (c : Cluster) (o : VOps) : Statement (.vst c o) := rfl
theorem vldu (c : Cluster) (o : VOps) : Statement (.vldu c o) := rfl
theorem vstb (c : Cluster) (o : VOps) : Statement (.vstb c o) := rfl
theorem vlds (c : Cluster) (o : VOps) : Statement (.vlds c o) := rfl
theorem vsts (c : Cluster) (o : VOps) : Statement (.vsts c o) := rfl
theorem vldx (c : Cluster) (o : VOps) : Statement (.vldx c o) := rfl
theorem vstx (c : Cluster) (o : VOps) : Statement (.vstx c o) := rfl
theorem xbc (c : Cluster) (o : VOps) : Statement (.xbc c o) := rfl
theorem xcopy (c : Cluster) (o : VOps) : Statement (.xcopy c o) := rfl
theorem vperm (c : Cluster) (o : VOps) : Statement (.vperm c o) := rfl
theorem vslide (c : Cluster) (o : VOps) : Statement (.vslide c o) := rfl
theorem vred (c : Cluster) (o : VOps) : Statement (.vred c o) := rfl
theorem vscan (c : Cluster) (o : VOps) : Statement (.vscan c o) := rfl
theorem spush (c : Cluster) (o : VOps) : Statement (.spush c o) := rfl
theorem spop (c : Cluster) (o : VOps) : Statement (.spop c o) := rfl
theorem sbal (c : Cluster) (o : VOps) : Statement (.sbal c o) := rfl
theorem scnt (c : Cluster) (o : VOps) : Statement (.scnt c o) := rfl
theorem twr (c : Cluster) (o : VOps) : Statement (.twr c o) := rfl
theorem trdc (c : Cluster) (o : VOps) : Statement (.trdc c o) := rfl
theorem trdr (c : Cluster) (o : VOps) : Statement (.trdr c o) := rfl
theorem kand (c : Cluster) (o : VOps) : Statement (.kand c o) := rfl
theorem kor (c : Cluster) (o : VOps) : Statement (.kor c o) := rfl
theorem kxor (c : Cluster) (o : VOps) : Statement (.kxor c o) := rfl
theorem knot (c : Cluster) (o : VOps) : Statement (.knot c o) := rfl
theorem kpopc (c : Cluster) (o : VOps) : Statement (.kpopc c o) := rfl
theorem kfirst (c : Cluster) (o : VOps) : Statement (.kfirst c o) := rfl
theorem kmov (c : Cluster) (o : VOps) : Statement (.kmov c o) := rfl
theorem kmovVk (c : Cluster) (o : VOps) : Statement (.kmovVk c o) := rfl
theorem kmovKv (c : Cluster) (o : VOps) : Statement (.kmovKv c o) := rfl
theorem mm (o : MOps) : Statement (.mm o) := rfl
theorem mmsN24 (o : MOps) : Statement (.mmsN24 o) := rfl
theorem mmsN48 (o : MOps) : Statement (.mmsN48 o) := rfl
theorem mmt (o : MOps) : Statement (.mmt o) := rfl
theorem azero (o : MOps) : Statement (.azero o) := rfl
theorem ascl (o : MOps) : Statement (.ascl o) := rfl
theorem acvt (o : MOps) : Statement (.acvt o) := rfl
theorem cpy (e : Engine) (o : COps) : Statement (.cpy e o) := rfl
theorem cpym (e : Engine) (o : COps) : Statement (.cpym e o) := rfl
theorem gath (e : Engine) (o : COps) : Statement (.gath e o) := rfl
theorem scat (e : Engine) (o : COps) : Statement (.scat e o) := rfl
theorem fill (e : Engine) (o : COps) : Statement (.fill e o) := rfl
theorem cmpr (e : Engine) (o : COps) : Statement (.cmpr e o) := rfl
theorem scld (e : Engine) (o : COps) : Statement (.scld e o) := rfl
theorem pref (e : Engine) (o : COps) : Statement (.pref e o) := rfl
theorem cfence (e : Engine) (o : COps) : Statement (.cfence e o) := rfl
theorem coll (e : Engine) (o : COps) : Statement (.coll e o) := rfl
theorem repart (e : Engine) (o : COps) : Statement (.repart e o) := rfl
theorem walk (e : Engine) (o : COps) : Statement (.walk e o) := rfl
theorem fsend (e : Engine) (o : COps) : Statement (.fsend e o) := rfl
theorem ffetch (e : Engine) (o : COps) : Statement (.ffetch e o) := rfl
theorem bundleIssue (u : Nat) : Statement (.bundleIssue u) := rfl
theorem restartMark (u : Nat) : Statement (.restartMark u) := rfl
theorem resultLanding (u : Nat) : Statement (.resultLanding u) := rfl
theorem trapEntry (u : Nat) : Statement (.trapEntry u) := rfl
theorem preempt (team : Nat) : Statement (.preempt team) := rfl
theorem teamResume (team : Nat) : Statement (.teamResume team) := rfl
theorem launchRecord (q : Nat) : Statement (.launchRecord q) := rfl
theorem teamStart (node cluster first : Nat) (frames : List Nat) : Statement (.teamStart node cluster first frames) := rfl
theorem nodeComplete (node : Nat) : Statement (.nodeComplete node) := rfl
theorem recordCompletion (rec : Nat) : Statement (.recordCompletion rec) := rfl
theorem quantumExpiry (team : Nat) : Statement (.quantumExpiry team) := rfl
theorem teamPromotion (node : Nat) : Statement (.teamPromotion node) := rfl
theorem tailWrite (q : Nat) (v : Word) : Statement (.tailWrite q v) := rfl
theorem qcfgWrite (q : Nat) (v : Word) : Statement (.qcfgWrite q v) := rfl
theorem qringWrite (q : Nat) (v : Word) : Statement (.qringWrite q v) := rfl
theorem stageszWrite (v : Word) : Statement (.stageszWrite v) := rfl
theorem swapAreaWrite (slots : Bool) (v : Word) : Statement (.swapAreaWrite slots v) := rfl
theorem shadeEvaluation (k current tj : Nat) : Statement (.shadeEvaluation k current tj) := rfl
theorem currentLevelFall (k : Nat) : Statement (.currentLevelFall k) := rfl
theorem coreDroop (u : Nat) : Statement (.coreDroop u) := rfl
theorem droopExpiry (k : Nat) : Statement (.droopExpiry k) := rfl
theorem xferHandover (owner : Nat) (x : Nat) : Statement (.xferHandover owner x) := rfl
theorem atomApply (k requester : Nat) : Statement (.atomApply k requester) := rfl
theorem atomReply (u id : Nat) : Statement (.atomReply u id) := rfl
theorem copyPretranslation (u : Nat) (e : Engine) : Statement (.copyPretranslation u e) := rfl
theorem copyCommandStart (u : Nat) (e : Engine) (id : Nat) (lost : List (Nat × Byte)) : Statement (.copyCommandStart u e id lost) := rfl
theorem dramReadDelivery (u : Nat) (e : Engine) (id : Nat) (err : Option Byte) : Statement (.dramReadDelivery u e id err) := rfl
theorem copyCommandComplete (u : Nat) (e : Engine) (id : Nat) (err : Option Byte) (data : List Byte) : Statement (.copyCommandComplete u e id err data) := rfl
theorem scldLanding (u id : Nat) : Statement (.scldLanding u id) := rfl
theorem cfenceStart (u id : Nat) : Statement (.cfenceStart u id) := rfl
theorem matrixCommandStart (u : Nat) : Statement (.matrixCommandStart u) := rfl
theorem matrixOperandsRead (u : Nat) : Statement (.matrixOperandsRead u) := rfl
theorem matrixCommandComplete (u : Nat) (detected : List Detection) : Statement (.matrixCommandComplete u detected) := rfl
theorem collDispatch (u id : Nat) (keyless : Bool) : Statement (.collDispatch u id keyless) := rfl
theorem credit (u id : Nat) (peer : Peer) : Statement (.credit u id peer) := rfl
theorem chunk (u id : Nat) (peer : Peer) (t : Nat) (data : List Byte) : Statement (.chunk u id peer t data) := rfl
theorem chunkRequest (u id : Nat) (peer : Peer) (ask : ChunkAsk) : Statement (.chunkRequest u id peer ask) := rfl
theorem repartCounts (u id : Nat) (hists : List (List Nat)) (counts : List (List Nat)) : Statement (.repartCounts u id hists counts) := rfl
theorem peerStatusReply (u id : Nat) (reply : PeerReply) : Statement (.peerStatusReply u id reply) := rfl
theorem patienceExpiry (u id : Nat) : Statement (.patienceExpiry u id) := rfl
theorem completionWord (u id : Nat) (err : Option Byte) (pool : Nat) : Statement (.completionWord u id err pool) := rfl
theorem fabricRequest (src : Nat) (write : Bool) (space : FabSpace) (addr : Word) (data : List Byte) : Statement (.fabricRequest src write space addr data) := rfl
theorem flitReceive (port cls : Nat) (head : FlitHead) (good : Bool) : Statement (.flitReceive port cls head good) := rfl
theorem nak (port seq : Nat) : Statement (.nak port seq) := rfl
theorem pauseClass (port cls : Nat) : Statement (.pauseClass port cls) := rfl
theorem resumeClass (port cls : Nat) : Statement (.resumeClass port cls) := rfl
theorem darkNotice (mod : Nat) : Statement (.darkNotice mod) := rfl
theorem dawnNotice (mod : Nat) (serial : Word) : Statement (.dawnNotice mod serial) := rfl
theorem coldNotice (mod : Nat) : Statement (.coldNotice mod) := rfl
theorem portEnable (port : Nat) (v : Word) : Statement (.portEnable port v) := rfl
theorem portTrained (port peer : Nat) (vers : List (Nat × Nat)) (auth : Bool) : Statement (.portTrained port peer vers auth) := rfl
theorem linkRekey (port : Nat) : Statement (.linkRekey port) := rfl
theorem hostBar0Access (addr : HostAddr) (size : Nat) (write : Bool) (v : Word) : Statement (.hostBar0Access addr size write v) := rfl
theorem hostBar2Access (addr : HostAddr) (write : Bool) (data : List Byte) : Statement (.hostBar2Access addr write data) := rfl
theorem brctlWrite (w : BridgeWrite) : Statement (.brctlWrite w) := rfl
theorem handoverGo (v : Word) : Statement (.handoverGo v) := rfl
theorem hoack (u : Nat) (v : Word) : Statement (.hoack u v) := rfl
theorem wdkick (u : Nat) : Statement (.wdkick u) := rfl
theorem watchdogExpiry (u : Nat) : Statement (.watchdogExpiry u) := rfl
theorem sequencerRestart (u : Nat) : Statement (.sequencerRestart u) := rfl
theorem evpop (u : Nat) : Statement (.evpop u) := rfl
theorem attgo (v : Word) : Statement (.attgo v) := rfl
theorem pfWarnL (asserted : Bool) : Statement (.pfWarnL asserted) := rfl
theorem duskBudgetExpiry (u : Nat) : Statement (.duskBudgetExpiry u) := rfl
theorem pfSagL (asserted : Bool) : Statement (.pfSagL asserted) := rfl
theorem plnWrite (v : Word) : Statement (.plnWrite v) := rfl
theorem hibcfgWrite (v : Word) : Statement (.hibcfgWrite v) := rfl
theorem rsvstatRefresh (cap usable cycles : Nat) (fault : Bool) : Statement (.rsvstatRefresh cap usable cycles fault) := rfl
theorem tlbinv (v : Word) : Statement (.tlbinv v) := rfl
theorem migrateGo (d : Nat) : Statement (.migrateGo d) := rfl
theorem evictGo (d : Nat) : Statement (.evictGo d) := rfl
theorem migrationCountsZero (d : Nat) : Statement (.migrationCountsZero d) := rfl
theorem migrationFallback (d : Nat) : Statement (.migrationFallback d) := rfl
theorem migrationCopyEnd (d : Nat) : Statement (.migrationCopyEnd d) := rfl
theorem fold (d : Nat) : Statement (.fold d) := rfl
theorem foldComplete (d : Nat) : Statement (.foldComplete d) := rfl
theorem rel (d : Nat) : Statement (.rel d) := rfl
theorem stayEnd (page : Nat) : Statement (.stayEnd page) := rfl
theorem alert (act : RowCount) : Statement (.alert act) := rfl
theorem alertRotation (pc : Nat) : Statement (.alertRotation pc) := rfl
theorem refreshUnitDue (pc : Nat) : Statement (.refreshUnitDue pc) := rfl
theorem refreshRotation (pc : Nat) : Statement (.refreshRotation pc) := rfl
theorem linkPause (n : Nat) : Statement (.linkPause n) := rfl
theorem linkUnpause (n : Nat) : Statement (.linkUnpause n) := rfl
theorem diag (n : Nat) : Statement (.diag n) := rfl
theorem diagDone (n : Nat) (bad : Word) (spareBad : BitVec 4) : Statement (.diagDone n bad spareBad) := rfl
theorem retrain (n : Nat) : Statement (.retrain n) := rfl
theorem trainingDone (n : Nat) : Statement (.trainingDone n) := rfl
theorem trainTimeout (n : Nat) : Statement (.trainTimeout n) := rfl
theorem linkRetry (n count : Nat) : Statement (.linkRetry n count) := rfl
theorem dieFence (d : Nat) : Statement (.dieFence d) := rfl
theorem dieQuiesce (d : Nat) : Statement (.dieQuiesce d) := rfl
theorem dieUnfence (d : Nat) : Statement (.dieUnfence d) := rfl
theorem wback (d : Nat) : Statement (.wback d) := rfl
theorem dieReset (d : Nat) : Statement (.dieReset d) := rfl
theorem dieTrain (d : Nat) : Statement (.dieTrain d) := rfl
theorem dieAdmit (d : Nat) : Statement (.dieAdmit d) := rfl
theorem teamsout (d : Nat) : Statement (.teamsout d) := rfl
theorem drained (d : Nat) : Statement (.drained d) := rfl
theorem drlimExpiry (d : Nat) : Statement (.drlimExpiry d) := rfl
theorem wbdone (d : Nat) : Statement (.wbdone d) := rfl
theorem dieResetRelease (d : Nat) : Statement (.dieResetRelease d) := rfl
theorem dieAdmitDone (d : Nat) : Statement (.dieAdmitDone d) := rfl
theorem regionSwitchOn (r : Nat) : Statement (.regionSwitchOn r) := rfl
theorem stageDue (r : Nat) (outputs : List (Nat × List Nat)) : Statement (.stageDue r outputs) := rfl
theorem switchPauseLimit (r : Nat) : Statement (.switchPauseLimit r) := rfl
theorem regionOn (r : Nat) : Statement (.regionOn r) := rfl
theorem millisecondTick (powers : List Nat) (modulePower : Nat) : Statement (.millisecondTick powers modulePower) := rfl
theorem flowstat (target : Nat) (msg : List Byte) : Statement (.flowstat target msg) := rfl
theorem ibi (z : Nat) : Statement (.ibi z) := rfl
theorem hotJoin (target : Nat) (msg : List Byte) : Statement (.hotJoin target msg) := rfl
theorem zoneLost (z : Nat) : Statement (.zoneLost z) := rfl
theorem thermalTrip (k : Nat) : Statement (.thermalTrip k) := rfl
theorem powerStateExit (cause : WakeCause) : Statement (.powerStateExit cause) := rfl
theorem plctlWrite (v : Word) : Statement (.plctlWrite v) := rfl
theorem fidlimWrite (k : Nat) (v : Word) : Statement (.fidlimWrite k v) := rfl
theorem colerrWrite (u n : Nat) (v : Word) : Statement (.colerrWrite u n v) := rfl
theorem gsumWrite (u : Nat) (second : Bool) (v : Word) : Statement (.gsumWrite u second v) := rfl
theorem fidinjWrite (u : Nat) (v : Word) : Statement (.fidinjWrite u v) := rfl
theorem controlRegisterWrite (addr : BitVec 40) (v : Word) : Statement (.controlRegisterWrite addr v) := rfl
theorem stagePauseEnd (x : RegionDraw) : Statement (.stagePauseEnd x) := rfl
theorem pcieCompletion (id : Nat) (data : List Byte) : Statement (.pcieCompletion id data) := rfl
theorem chunkApplied (u id byMember t : Nat) : Statement (.chunkApplied u id byMember t) := rfl
theorem moduleReset : Statement .moduleReset := rfl
theorem handoverDeadline : Statement .handoverDeadline := rfl
theorem attestationReport : Statement .attestationReport := rfl
theorem dctlForce : Statement .dctlForce := rfl
theorem duskTimeLimit : Statement .duskTimeLimit := rfl
theorem drain : Statement .drain := rfl
theorem drainComplete : Statement .drainComplete := rfl
theorem drainTimeLimit : Statement .drainTimeLimit := rfl
theorem reserveFloor : Statement .reserveFloor := rfl
theorem tshedExpiry : Statement .tshedExpiry := rfl
theorem treadmitExpiry : Statement .treadmitExpiry := rfl
theorem dawn : Statement .dawn := rfl
theorem readyRefresh : Statement .readyRefresh := rfl
theorem tlbInvalidationDone : Statement .tlbInvalidationDone := rfl
theorem hubZoneLost : Statement .hubZoneLost := rfl
theorem powerStateEntry : Statement .powerStateEntry := rfl
theorem supplyCut : Statement .supplyCut := rfl

end Sys2Proof.Laws.OneSlot
end

