-- ==== Sys2Proof/Tests/Slice0.lean ====
section
/-!
SUPPORT. The model's own tests: ill-formed terms that the checks refuse, words written out from the encodings of the spec,
and for each statement concrete states and operands that meet its hypotheses.
-/
open Sys2Proof Sys2Proof.Machine

namespace Sys2Proof.Tests

/-! ### Operands -/

/-- Plain operands of the four scalar formats. -/
def sr (d a b : BitVec 6) : SR := { nw := false, pn := false, p := 0, b := b, a := a, d := d }
def si (d a : BitVec 6) (i : BitVec 9) : SI := { imm9 := i, nw := false, pn := false, p := 0, a := a, d := d }
def sl (d : BitVec 6) (i : BitVec 18) : SL := { imm18 := i, d := d }
def sb (i : BitVec 20) : SB := { off20 := i, pn := false, p := 0 }

/-- Plain vector operands. -/
def vo (d a b c : BitVec 6) (ty : BitVec 3) (fn : BitVec 5) : VOps :=
  { vd := d, va := a, vb := b, vc := c, mask := 0, neg := false, rnd := 0, ty := ty, nw := false, fn := fn }

/-- Plain matrix and copy operands. -/
def mo (shape fa fb : BitVec 3) (acc : BitVec 2) (set : BitVec 4) (tag : BitVec 6) : MOps :=
  { shape := shape, fa := fa, fb := fb, acc := acc, set := set, tag := tag, rnd := 0, asrc := false, base := 0 }
def co (flags : BitVec 14) (tag : BitVec 6) (blk : BitVec 2) : COps :=
  { flags := flags, pn := false, p := 0, tag := tag, blk := blk }

/-! ### Well-formedness: one ill-formed term for each check -/

/-- R110, R116, R118: fields that must be zero, NW and F of the scalar slot. -/
theorem test_wellFormed_scalar :
    WellFormed (.add (sr 4 5 6)) = true ∧
    WellFormed (.clz (sr 4 5 1)) = false ∧ WellFormed (.br (sr 1 5 0)) = false ∧
    WellFormed (.br { sr 0 5 0 with nw := true }) = false ∧ WellFormed (.chk (si 1 0 0)) = false ∧
    WellFormed (.ld .sb 7 (sr 1 2 0)) = false ∧ WellFormed (.st .sb 4 (sr 1 2 0)) = false ∧
    WellFormed (.xext 6 (sr 1 2 0)) = false ∧ WellFormed (.stg (sr 1 2 1)) = false ∧
    WellFormed (.waitcTag (sr 0 1 2)) = false ∧ WellFormed (.waitcMask (sr 0 1 2)) = false ∧
    WellFormed (.bar (sr 0 0 1)) = false ∧ WellFormed (.xfer (sr 1 2 3)) = false ∧
    WellFormed (.wrsys { sr 1 2 3 with nw := true }) = false ∧ WellFormed (.trap (sr 1 0 0)) = false ∧
    WellFormed (.fence (sr 0 0 1)) = false ∧ WellFormed (.sst (sr 1 2 3)) = false ∧
    WellFormed (.sld (sr 1 2 3)) = false ∧ WellFormed (.pnot (sr 1 2 3)) = false := by decide

/-- R119, R120, R184: reserved types, rounding, fn, unused register fields, NEG of an unmasked slot and NW of a store. -/
theorem test_wellFormed_vector :
    WellFormed (.vadd .va (vo 1 2 3 0 2 0)) = true ∧
    WellFormed (.vadd .va (vo 1 2 3 4 2 0)) = false ∧ WellFormed (.vadd .va (vo 1 2 3 0 4 0)) = false ∧
    WellFormed (.vadd .va (vo 1 2 3 0 2 1)) = false ∧ WellFormed (.vadd .va { vo 1 2 3 0 2 0 with rnd := 1 }) = false ∧
    WellFormed (.vadd .va { vo 1 2 3 0 2 0 with neg := true }) = false ∧
    WellFormed (.vmul .va (vo 1 2 3 0 3 0)) = false ∧ WellFormed (.vcmp .va (vo 1 2 3 0 2 6)) = false ∧
    WellFormed (.vcvt .va (vo 1 2 0 0 7 3)) = false ∧ WellFormed (.vcvt .va (vo 1 2 0 0 0 30)) = false ∧
    WellFormed (.vst .va { vo 1 2 0 0 0 0 with nw := true }) = false ∧ WellFormed (.vrnd .va (vo 1 0 0 0 2 1)) = false ∧
    WellFormed (.kmovVk .va (vo 1 2 0 0 0 0)) = false := by decide

/-- R122 to R124: shape, formats, accumulate, rounding, A source and scale base of the matrix slot. -/
theorem test_wellFormed_matrix :
    WellFormed (.mm (mo 2 3 3 0 0 0)) = true ∧
    WellFormed (.mm (mo 5 3 3 0 0 0)) = false ∧ WellFormed (.mm (mo 2 7 3 0 0 0)) = false ∧
    WellFormed (.mm (mo 2 0 7 0 0 0)) = false ∧ WellFormed (.mm (mo 2 0 2 0 0 0)) = false ∧
    WellFormed (.mm (mo 2 3 3 3 0 0)) = false ∧ WellFormed (.mm (mo 2 5 5 2 0 0)) = false ∧
    WellFormed (.mm { mo 2 3 3 0 0 0 with rnd := 1 }) = false ∧ WellFormed (.mm { mo 2 3 3 0 0 0 with base := 1 }) = false ∧
    WellFormed (.azero (mo 2 1 0 0 0 0)) = false ∧ WellFormed (.azero { mo 2 0 0 0 0 0 with asrc := true }) = false ∧
    WellFormed (.ascl { mo 2 0 0 0 0 0 with rnd := 5 }) = false := by decide

/-- R125: flags that a copy-slot opcode does not list. -/
theorem test_wellFormed_copy :
    WellFormed (.cfence .c0 (co 0 1 0)) = true ∧ WellFormed (.cfence .c0 (co 1 1 0)) = false ∧
    WellFormed (.coll .c0 (co 4 1 0)) = false ∧ WellFormed (.walk .c0 (co 0x0E00 1 0)) = false := by decide

/-! ### Words written out from the spec's encodings -/

/-- R116, R118: OP at [5:0], D at [11:6], A at [17:12], B at [23:18], the predicate at [27:24], NW at 28, F at [31:29]. -/
theorem test_decode_scalar :
    decodeScalar 0b000_0_0_000_000110_000101_000100_000001 = .ok (.add (sr 4 5 6)) ∧
    decodeScalar 0x23456111 = .ok (.movh (sl 4 0x23456)) ∧
    decodeScalar 0b010_0_0_000_000000_000011_000111_101011 = .ok (.ld .sb 2 (sr 7 3 0)) ∧
    decodeScalar 0x6028923A = .ok (.atomCas true (sr 8 9 10)) := by decide

theorem test_decode_flow_and_system :
    decodeScalar 0x000C5023 = .ok (.loop (si 0 5 3)) ∧
    decodeScalar 0x0000E1FB = .ok (.rdsys (sr 7 14 0)) ∧ decodeScalar 0x200091BB = .ok (.wrsys (sr 6 9 0)) ∧
    decodeScalar 0x4001103B = .ok (.trap (sr 0 17 0)) ∧ decodeScalar 0x6000003B = .ok .eret ∧
    decodeScalar 0x8000003B = .ok .duskdone ∧ decodeScalar 0xC000513B = .ok (.sld (sr 4 5 0)) ∧
    decodeScalar 0xE018503B = .ok (.sst (sr 0 5 6)) ∧ decodeScalar 0 = .ok .nop := by decide

/-- R105, R119, R120: OP at [7:0], then vd, va, vb, vc of 6 bits, MASK at [34:32], NEG, RND, TYPE, NW and FN. -/
theorem test_decode_vector_arithmetic :
    decodeVector .va 0b00000_0_000_000_0_000_000111_000110_000101_000100_00100011 = .ok (.vfma .va (vo 4 5 6 7 0 0)) ∧
    decodeVector .va 0x18DA24010327 = .ok (.vcvt .va { vo 3 4 0 9 1 3 with rnd := 5, mask := 2, neg := true }) ∧
    decodeVector .va 0x09800C204831 = .ok (.vsfckHil .va (vo 8 1 2 3 3 1)) ∧
    decodeVector .vb 0xF900FFFF4718 = .ok (.vmovi .vb (vo 7 0x3D 0x3F 0x3F 2 0x1F)) := by decide

theorem test_decode_vector_data :
    decodeVector .va 0x400000308140 = .ok (.vld .va (vo 1 2 3 0 0 8)) ∧
    decodeVector .vb 0xC003F0718543 = .ok (.vstb .vb { vo 5 6 7 0x3C 0 0x18 with mask := 3 }) ∧
    decodeVector .va 0x41001802CA4C = .ok (.vred .va (vo 10 11 0 6 2 8)) ∧
    decodeVector .va 0x11000000C04E = .ok (.spush .va (vo 0 3 0 0 2 2)) ∧
    decodeVector .va 0x08800051C052 = .ok (.twr .va (vo 0 7 5 0 1 1)) := by decide

/-- R122, R123, R242: SHAPE at [2:0], the variant at [5:3], then the formats, accumulate, set, tag, rounding, A source and
scale base. -/
theorem test_decode_matrix :
    decodeMatrix 0b0000000000000000_0100_0_000_001001_0101_01_001_000_000_011 =
      .ok (.mm { mo 3 0 1 1 5 9 with base := 4 }) ∧
    decodeMatrix 0x0000800CA48A = .ok (.mmsN24 { mo 2 2 2 2 2 3 with base := 8 }) ∧
    decodeMatrix 0x0000080606C4 = .ok (.mm { mo 4 3 3 0 8 1 with asrc := true }) ∧
    decodeMatrix 0x000000084024 = .ok (.azero (mo 4 0 0 0 1 2)) ∧
    decodeMatrix 0x00000710C02A = .ok (.ascl { mo 2 0 0 0 3 4 with rnd := 7 }) ∧
    decodeMatrix 0x0000000C8632 = .ok (.acvt (mo 2 0 3 0 2 3)) := by decide

/-- R125: OP at [5:0], block at [7:6], tag at [13:8], P at [16:14], PN at 17, flags at [31:18]. -/
theorem test_decode_copy :
    decodeCopy .c0 0b01_101_001_000000_0_000_001001_01_000001 = .ok (.cpy .c0 (co 0b01_101_001_000000 9 1)) ∧
    decodeCopy .c1 0x0C024201 = .ok (.cpy .c1 { co 0b00_001_100_000000 2 0 with pn := true, p := 1 }) ∧
    decodeCopy .c0 0x081414C7 = .ok (.scld .c0 (co 0b00_001_000_000101 20 3)) ∧
    decodeCopy .c0 0x00000509 = .ok (.cfence .c0 (co 0 5 0)) ∧ decodeCopy .c1 0x0004048A = .ok (.coll .c1 (co 1 4 2)) ∧
    decodeCopy .c0 0x00000110 = .ok (.walk .c0 (co 0 1 0)) := by decide

/-- R109, R110, R118, R120, R125: reserved words are refused at the bit of the field. -/
theorem test_decode_refuses :
    decodeScalar 0x0000003F = .bad 0 ∧ decodeVector .va 0x00000000001A = .bad 0 ∧ decodeCopy .c0 0x0000000C = .bad 0 ∧
    decodeMatrix 0x000000000038 = .bad 3 ∧ decodeMatrix 0x000100000000 = .bad 32 := by decide

/-- R105: the slots of a bundle lie at bits 16, 48, 96, 144, 192 and 224. -/
theorem test_bundle_layout :
    (bundleOf (1#256 <<< 16)).s = 1 ∧ (bundleOf (1#256 <<< 48)).va = 1 ∧ (bundleOf (1#256 <<< 96)).vb = 1 ∧
    (bundleOf (1#256 <<< 144)).m = 1 ∧ (bundleOf (1#256 <<< 192)).c0 = 1 ∧ (bundleOf (1#256 <<< 224)).c1 = 1 := by decide

/-! ### Witnesses: states and operands that meet the hypotheses of the statements

Each theorem `witness_<statement>` shows, clause by clause, concrete values under the hypotheses of that statement. -/

/-- A tile in task mode whose bundle is in issue, after its checks. -/
def w0 : State := { issue := { snap := some {} } }

/-- The same of a unit `u` in the state `x`. -/
def wOf (u : Nat) (x : Machine.Unit) : State := { units := [(u, x)], focus := u, issue := { snap := some x } }

/-- A unit `u` in the state `x`, between bundles. -/
def wAt (u : Nat) (x : Machine.Unit) : State := { units := [(u, x)], focus := u }

theorem witness_ScalarRegisterResults :
    (∀ row ∈ aluRows, w0.runs (row.instr (sr 55 60 60))) ∧
    (w0.runs (.clz (sr 0 1 0)) ∧ w0.runs (.ctz (sr 0 1 0)) ∧ w0.runs (.popc (sr 0 1 0)) ∧ w0.runs (.brev (sr 0 1 0))) ∧
    (∀ b < 3, w0.runs (.sext (sr 55 1 (BitVec.ofNat 6 b))) ∧ w0.runs (.zext (sr 55 1 (BitVec.ofNat 6 b)))) ∧
    (∀ b ∈ [0, 63], w0.runs (.fshl (sr 4 5 b)) ∧ w0.runs (.fshr (sr 4 5 b))) := by
  unfold State.runs State.ready; and_intros <;> decide

theorem witness_ScalarImmediateAndPredicateResults :
    (∀ row ∈ immRows, ∀ i ∈ [0x0FF, 0x100], w0.runs (row.instr (si 4 5 i))) ∧
    (∀ row ∈ immShiftRows, ∀ i ∈ [0, 63], i.toNat < 64 ∧ w0.runs (row.instr (si 4 5 i))) ∧
    w0.runs (.addsh 7 (sr 4 5 6)) ∧ w0.runs (.movi (sl 4 0x20000)) ∧ w0.runs (.movh (sl 55 0x3FFFF)) ∧
    w0.runs (.sel 7 (sr 4 5 6)) ∧
    (∀ row ∈ condRows, w0.runs (row.reg (sr 0 5 6)) ∧ w0.runs (row.imm (si 7 5 0x1FF))) ∧
    w0.runs (.pand (sr 7 0 7)) ∧ w0.runs (.por (sr 1 2 3)) ∧ w0.runs (.pxor (sr 1 2 3)) ∧ w0.runs (.pnot (sr 1 2 0)) := by
  unfold State.runs State.ready; and_intros <;> decide

theorem witness_NotExecutedHasNoEffect :
    w0.ready (.add { sr 4 5 6 with p := 1 }) ∧ w0.src.executes (.add { sr 4 5 6 with p := 1 }) = false ∧
    w0.ready (.bri { sb 1 with pn := true }) ∧ w0.src.executes (.bri { sb 1 with pn := true }) = false := by
  unfold State.ready; and_intros <;> decide

/-- A tile with a marked value in s5 and two open loops. -/
def wMarked : State := wOf 3 { regs := { s := [(5, { v := 7, d := true })], loops := [⟨32, 64, 2⟩, ⟨0, 96, 5⟩] }, pc := 64 }

theorem witness_BranchesTaken :
    w0.runs (.bri (sb 0x80000)) ∧ w0.runs (.call (sb 0x7FFFF)) ∧ w0.runs (.br (sr 0 5 0)) ∧ w0.runs (.ret (sr 0 55 0)) ∧
    (wMarked.runs (.chk (si 0 5 0x100)) ∧ wMarked.sdef 5 = true) ∧ (w0.runs (.chk (si 0 5 1)) ∧ w0.sdef 5 = false) := by
  unfold State.runs State.ready; and_intros <;> decide

theorem witness_LoopsAndBundleEnd :
    (w0.runs (.loop (si 0 5 1)) ∧ (w0.sval 5).toNat % 2 ^ 32 = 0) ∧
    (wMarked.runs (.loop (si 0 5 0xFF)) ∧ (wMarked.sval 5).toNat % 2 ^ 32 ≠ 0) ∧
    (w0.issue.snap = some {} ∧ w0.issue.after = none ∧ w0.issue.branch = none) ∧
    (w0.branches 96).issue.branch = some 96 ∧
    w0.runs .nop ∧ w0.runs (.waitcTag (sr 0 63 0)) ∧ w0.runs (.waitcMask (sr 0 5 0)) ∧ w0.runs (.fence (sr 0 0 0)) := by
  unfold State.runs State.ready; and_intros <;> decide

theorem witness_LoadsDeliver :
    w0.runs (.ld .sb 7 (sr 4 5 0)) ∧
    (w0.runs (.ldsp .sb 3 (sr 4 5 0)) ∧ w0.accessFault .sb 3 (sr 4 5 0) = false ∧ w0.sdef 5 = false) ∧
    (w0.runs (.ldsp .sb 3 (sr 4 5 0x3F)) ∧ w0.accessFault .sb 3 (sr 4 5 0x3F) = true) ∧
    (wMarked.runs (.ldsp .ab 0 (sr 4 5 0)) ∧ wMarked.sdef 5 = true) := by
  unfold State.runs State.ready; and_intros <;> decide

theorem witness_StoreWritesItsBytes :
    (w0.runs (.st .wb 0 (sr 4 5 0)) ∧ 0 ≤ w0.effective 0 (sr 4 5 0) ∧ w0.cur.handler = false) ∧
    ((wOf 511 { handler := true }).runs (.st .cb 3 (sr 4 5 0x1F)) ∧
      0 ≤ (wOf 511 { handler := true }).effective 3 (sr 4 5 0x1F) ∧
      ∀ c, Memory.wf ((wOf 511 { handler := true }).cur.buf c) = true) := by
  unfold State.runs State.ready
  refine ⟨by decide, by decide, by decide, fun c => by cases c <;> rfl⟩

theorem witness_CrossingStagingAndTileRegisters :
    (∀ f < 6, w0.runs (.xext (BitVec.ofNat 3 f) (sr 4 6 63))) ∧ w0.runs (.stg (sr 63 5 0)) ∧
    (∀ i ∈ [Instr.twr .va (vo 0 7 63 0 0 31), .trdc .vb (vo 1 0 5 0 0 28), .trdr .va (vo 1 0 63 0 0 31),
            .twr .vb (vo 0 7 5 0 1 1), .trdc .va (vo 1 0 5 0 0 4), .trdr .vb (vo 1 0 5 0 2 3)],
      WellFormed i = true ∧ w0.runs i) := by
  unfold State.runs State.ready; and_intros <;> decide

/-- A team of two tiles, of which the second has not arrived. -/
def wTeam : State :=
  { units := [(0, { team := some 1 }), (1, { team := some 1, member := 1 })], issue := { snap := some { team := some 1 } } }

theorem witness_BarrierAndTransfer :
    (w0.runs (.bar (sr 0 0 0)) ∧ ∀ v ∈ w0.teamUnits 0, v = 0) ∧
    (wTeam.runs (.bar (sr 0 0 0)) ∧ ∃ v ∈ wTeam.teamUnits 0, v ≠ 0 ∧
      ¬ (1 ≤ (wTeam.unit v).barIssued ∨ (wTeam.unit v).pastEnd = true)) := by
  unfold State.runs State.ready; and_intros <;> decide

/-- A transfer of the last unit of WB, of AB and of a listed range of cluster space to member 1, and to the tile itself. -/
def wXfer : State :=
  let x : Machine.Unit :=
    { regs := { s := [(4, { v := 0x80000000000F0000 }), (5, { v := 0x1040 }), (6, { v := 1 }), (7, { v := 0 })] }, teamSize := 2 }
  { wOf 0 x with clusters := [(0, { regions := [{ seg := false, aspace := 0, base := 0x1000, units := 2, st := .owned 0, node := none }] })] }

theorem witness_BarrierAndTransfer_xfer :
    (wXfer.runs (.xfer (sr 0 4 7)) ∧ (wXfer.sval 7).toNat = wXfer.cur.member ∧
      xferTarget (wXfer.sval 4) = some (.buf .wb 0xF0000)) ∧
    (wXfer.runs (.xfer (sr 0 4 6)) ∧ (wXfer.sval 6).toNat ≠ wXfer.cur.member) ∧
    (wXfer.runs (.xfer (sr 0 5 6)) ∧ xferTarget (wXfer.sval 5) = some (.space false 0x1040) ∧
      (wXfer.regionAt (clusterOf wXfer.focus) false wXfer.cur.card.aspace 0x1040).isSome = true) := by
  unfold State.runs State.ready; and_intros <;> decide

/-- A memory that holds words. -/
def memOf (ws : List (Nat × Word)) : Memory := ws.foldl (fun m p => mwrite m p.1 ((List.range 8).map (byteOf p.2))) []

/-- Tables that map segment 0 of address space 0 to granule 0 of cluster 31. -/
def wSeg : State := { w0 with dram := memOf [(8, 0x8001), (0x8000, 0x10001), (0x10000, 0xF800D)] }

theorem witness_AtomSendsItsRequest :
    (∀ row ∈ atomRows, wSeg.runs (row.instr false (sr 4 5 6)) ∧ wSeg.runs (row.instr true (sr 4 5 6))) ∧
    (wSeg.walkSegment wSeg.src.card.aspace (wSeg.sval 5).toNat).map (·.place) = some (.sram 31) := by
  unfold State.runs State.ready; and_intros <;> decide

/-- A request at the last word of a line, of the last requester of cluster 31, and a pending reply. -/
def wEngine : State :=
  { clusters := [(31, { reqs := [⟨17, 511, none, false, some 3, .cas, 8, 56, 0, 1, 0⟩], lines := [(0, List.replicate 64 1)] })] }

theorem witness_AtomicEngineApplies :
    let r : AtomReq := ⟨17, 511, none, false, some 3, .cas, 8, 56, 0, 1, 0⟩
    wEngine.isShed 3 = false ∧ wEngine.diePhase 3 ≤ 2 ∧ wEngine.duskPhase ≤ 1 ∧ r.cs = 0 ∧ (wEngine.cluster 31).granted = some 17 ∧
    wEngine.wayOpen (dieAt r.unit) (31 / 8) r.addr = true ∧
    (wEngine.cluster 31).firstReq 17 = some r ∧ (r.bytes = 4 ∨ r.bytes = 8) ∧ r.addr % r.bytes = 0 ∧
    (wEngine.cluster 31).LinesWhole ∧ Memory.wf (wEngine.sramOf 31) = true := by
  unfold ClusterSt.LinesWhole; and_intros <;> decide

/-- Tile 511 awaits a reply, outside and inside a handler. -/
def wReply (x : Machine.Unit) : State :=
  { units := [(511, { x with atoms := [⟨9, 3, 3, false⟩] })], clusters := [(31, { replies := [⟨511, none, 3, 7, 8⟩] })] }

theorem witness_RepliesAndHandovers :
    (∀ x ∈ [({} : Machine.Unit), { handler := true, bank := some ⟨[], [], [], [], []⟩ }],
      (∀ j < 32, ∀ p ∈ ((wReply x).cluster j).replies, p.unit = 511 → p.id = 3 → j = 31 ∧ p = ⟨511, none, 3, 7, 8⟩) ∧
      (⟨511, none, 3, 7, 8⟩ : AtomReply) ∈ ((wReply x).cluster 31).replies ∧ (wReply x).wayOpen (31 / 8) (dieAt 511) 8 = true ∧
      ((wReply x).unit 511).atoms.find? (fun p => p.id == 3) = some ⟨9, 3, 3, false⟩) ∧
    ((wReply {}).unit 511).bank = none ∧ ((wReply { handler := true, bank := some ⟨[], [], [], [], []⟩ }).unit 511).handler = true ∧
    (let s := wAt 511 { own := [(31, .transfer 1 5)] }
     tget (.owned 0) (s.unit 511).own 31 = .transfer 1 5 ∧
     spansMeet [{ space := .buf 511 (bufUnit 31).1, lo := (bufUnit 31).2, hi := (bufUnit 31).2 + 65535 }]
      (s.commandSpans 511 (s.unit 511) 5) = false) := by
  and_intros <;> decide

/-- RDSYS and WRSYS of a register by number. -/
def rsys (n : Nat) : SR := sr 4 (BitVec.ofNat 6 n) (BitVec.ofNat 6 (n / 64))
def wsys (n : Nat) : SR := sr (BitVec.ofNat 6 n) 5 (BitVec.ofNat 6 (n / 64))

theorem witness_SystemRegisters :
    (∀ n ∈ sysRows.map (·.1) ++ [0x001, 0x002, 0x003, 0x009], numBA (rsys n) = n ∧ w0.runs (.rdsys (rsys n))) ∧
    (numBA (rsys 0x802) = 0x802 ∧ (wOf 585 { events := [7] }).runs (.rdsys (rsys 0x802))) ∧
    (∀ n ∈ [0x000, 0x006, 0x008, 0x009, 0x00A, 0x00B, 0x00C], numBD (wsys n) = n ∧ w0.runs (.wrsys (wsys n))) ∧
    (∀ n ∈ [0x801, 0x803], numBD (wsys n) = n ∧ (wOf 586 {}).runs (.wrsys (wsys n)) ∧
      (wOf 586 {}).issue.snap.isSome = true) := by
  unfold State.runs State.ready; and_intros <;> decide

/-- A comm sequencer whose s5 names FIDLIM of cluster 31, whose die runs, or is in warm reset. -/
def wCtl (ctl : Tbl Word) : State :=
  { wOf 512 { regs := { s := [(5, { v := BitVec.ofNat 64 (fidlimAddr 31) })] } } with ctl := ctl }

theorem witness_ControlSpaceAccess :
    (∀ ctl ∈ [[], [(drbAddr 3 + 8, 3)], [(drbAddr 3 + 8, 4)]],
      (wCtl ctl).runs (.sld (sr 4 5 0)) ∧ (wCtl ctl).runs (.sst (sr 0 5 6)) ∧ (wCtl ctl).issue.snap.isSome = true) ∧
    (cregOf ((wCtl []).sval 5).toNat).bind CReg.die = some 3 ∧
    (wCtl []).diePhase 3 = 0 ∧ (wCtl []).endBundle.diePhase 3 = 0 ∧ (wCtl [(drbAddr 3 + 8, 3)]).diePhase 3 = 3 ∧
    (wCtl [(drbAddr 3 + 8, 4)]).endBundle.diePhase 3 = 4 := by
  unfold State.runs State.ready; and_intros <;> decide

/-- A tile in its handler, with the task's results and latches in the bank. -/
def wHandler : State := wOf 511 { handler := true, bank := some ⟨[], [{ v := 3 }], [], [], []⟩, duskTaken := true, trapPc := 64 }

/-- One scalar result. -/
def rOf (dest : Dest) (k : Nat) (v : Word) : InFlight :=
  { dest := dest, group := some .s, nw := false, lo := v.setWidth 2048, hi := 0, gov := 0, d := true, flags := 0, en := 0,
    k := k, pc := 0 }

/-- A trap that is ready. -/
def pOf (c : Cause) (v : Word) : Pend := { cause := c, resume := none, val := v, rollback := false, handler := false }

/-- A tile whose END finds the limit of a replay pending. -/
def wDelayed : State := wOf 511 { pend := [pOf .fidelityReplayLimit 63] }

theorem witness_SystemInstructionsAtBundleEnd :
    w0.runs (.trap (sr 0 63 63)) ∧ wHandler.runs (.trap (sr 0 0 0)) ∧
    (wHandler.runs .eret ∧ wHandler.cur.handler = true ∧ wHandler.cur.bank = some ⟨[], [{ v := 3 }], [], [], []⟩) ∧
    (wHandler.runs .duskdone ∧ wHandler.cur.duskTaken = true) ∧
    (w0.runs .duskdone ∧ w0.cur.duskTaken = false ∧ ∀ p ∈ w0.cur.pend, p.cause ≠ .dusk ∧ p.cause ≠ .twilightShed) ∧
    (w0.runs .endTask ∧ w0.issue.branch = none ∧ w0.cur.handler = false) ∧
    (wHandler.runs .endTask ∧ wHandler.issue.branch = none) ∧
    (wDelayed.runs .endTask ∧ wDelayed.cur.handler = false ∧ wDelayed.issue.branch = none ∧
      ∃ p ∈ wDelayed.cur.pend, p.delayed = true) ∧ (∀ p ∈ w0.cur.pend, p.delayed = false) ∧
    (∀ c, Memory.wf (w0.cur.buf c) = true) ∧ (∀ c, Memory.wf (wHandler.cur.buf c) = true) ∧
    (∀ c, Memory.wf (wDelayed.cur.buf c) = true) := by
  unfold State.runs State.ready
  and_intros <;> first | decide | exact fun c => by cases c <;> rfl

theorem witness_TrapEntry_DoubleFault :
    ({} : Machine.Unit).handler = false ∧ ({ handler := true } : Machine.Unit).handler = true := by decide

/-- A tile whose bundle in issue is an empty one that is marked. -/
def wMark : State := wOf 511 { run := .running, code := [(0, 0x40)], codeLen := 32 }

theorem witness_MarkAndRollback :
    (∀ b, Memory.wf (({ wb := [(5, 1)] } : Machine.Unit).buf b) = true) ∧
    wMark.issue.snap = some (wMark.unit 511) ∧ wMark.focus = 511 ∧ bitOf (wMark.unit 511).fetch.header 6 = true ∧
    (wMark.unit 511).handler = false ∧ (wMark.unit 511).markDone = false := by
  refine ⟨fun b => by cases b <;> rfl, ?_⟩
  and_intros <;> decide

/-- A tile with one result in flight and two pending traps. -/
def wPend : State :=
  wAt 511 { run := .running, flight := [rOf (.sreg 55) 1 7], trapVec := 96,
            pend := [pOf .breakpoint 0, pOf .dusk 1] }

theorem witness_ResultsLandAndBoundaries :
    (∀ r ∈ [rOf (.sreg 55) 0 7, rOf (.preg 0) 0 1, rOf (.preg 7) 0 1, rOf (.sreg 0) 1 7],
      ({ flight := [r] } : Machine.Unit).flight = [r] ∧ r.group = some .s ∧ (∃ v : Word, r.lo = v.setWidth 2048) ∧ r.flags = 0) ∧
    (let x : Machine.Unit := { flight := [rOf (.sreg 55) 0 7] }
     (wOf 586 x).focus = 586 ∧ (wOf 586 x).issue.snap = some x ∧ (wAt 586 x).issue.snap = none) ∧
    ((wPend.unit 511).run = .running ∧ (wPend.unit 511).handler = false ∧ wPend.powered 511 = true ∧
      (wPend.unit 511).nextIssue ≤ wPend.now ∧
      (∀ r ∈ (wPend.unit 511).flight, r.k ≠ 0 ∨ r.flags &&& r.en = 0) ∧ (wPend.unit 511).waiting = false ∧
      (pOf .dusk 1 : Pend) ∈ (wPend.unit 511).pend ∧
      ∀ q ∈ (wPend.unit 511).pend, q ≠ pOf .dusk 1 →
        (pOf .dusk 1 : Pend).order < q.order) := by
  refine ⟨?_, ⟨rfl, rfl, rfl⟩, by and_intros <;> decide⟩
  intro r h
  simp only [List.mem_cons, List.not_mem_nil, or_false] at h
  rcases h with rfl | rfl | rfl | rfl <;> exact ⟨rfl, rfl, ⟨_, rfl⟩, rfl⟩

theorem witness_PrivilegeTraps :
    (wAt 0 {}).issue.snap = none ∧ (wAt 0 {}).cur.handler = false ∧ (wAt 511 { handler := true }).cur.handler = true ∧
    WellFormed (.trap (sr 0 63 63)) = true ∧ WellFormed (.sld (sr 4 5 0)) = true ∧ WellFormed (.sst (sr 0 5 6)) = true ∧
    WellFormed (.xfer (sr 0 5 6)) = true ∧ 512 ≤ (wAt 586 {}).focus ∧ (wAt 586 {}).focus < unitCount := by decide

/-- Tile 511 with offsets in s5, s6 and s7, and a unit of WB that another member owns. -/
def wLocal : State :=
  wAt 511 { regs := { s := [(5, { v := 3 }), (6, { v := 0xFFFF8 }), (7, { v := 0xF0000 })] }, own := [(15, .owned 1)] }

theorem witness_LocalAccessTraps :
    (∀ p ∈ [((3 : BitVec 3), sr 55 5 0), (3, sr 0 8 0x3F), (3, sr 0 6 1), (3, sr 0 7 0)],
      ∀ i ∈ [Instr.ld .wb p.1 p.2, .st .wb p.1 p.2], WellFormed i = true ∧ wLocal.src.executes i = true ∧
        p.2.d.toNat < 56 ∧ p.2.a.toNat < 61 ∧ (wLocal.src.preg p.2.p.toNat).2 = false ∧ wLocal.sdef p.2.a = false ∧
        wLocal.sdef p.2.d = false) ∧
    wLocal.effective 3 (sr 55 5 0) = 3 ∧ wLocal.effective 3 (sr 0 8 0x3F) = -8 ∧
    wLocal.effective 3 (sr 0 6 1) = 0x100000 ∧ bufSize 511 .wb = 0x100000 ∧
    wLocal.effective 3 (sr 0 7 0) = 0xF0000 ∧ wLocal.src.owns 511 .wb 0xF0000 = false := by
  and_intros <;> decide

/-- Well-formed and run by the tile of `w0`. -/
def fits (i : Instr) : Bool := WellFormed i && w0.src.executes i

theorem fits_spec (i : Instr) (h : fits i = true) : WellFormed i = true ∧ w0.runs i := by
  simp only [fits, Bool.and_eq_true] at h
  exact ⟨h.1, ⟨by decide, .inl rfl⟩, h.2⟩

theorem witness_VectorIntegerResults :
    (∀ row ∈ vecRows, fits (row.instr .va (vo 1 2 3 0 0 0)) = true) ∧ fits (.vadd .vb (vo 14 2 4 0 3 0)) = true ∧
    fits (.vmax .vb { vo 14 2 4 0 3 1 with mask := 7, neg := true }) = true ∧
    (∀ row ∈ vecUnaryRows, fits (row.instr .vb (vo 1 2 0 0 2 0)) = true) ∧ fits (.vmad .va (vo 1 2 3 4 1 0)) = true ∧
    (∀ row ∈ vecShiftRows, fits (row.instr .va (vo 1 2 3 0 0 0)) = true ∧ fits (row.instr .va (vo 1 2 0 0 0 7)) = true ∧
      fits (row.instr .va (vo 2 4 0 0 3 31)) = true) ∧
    (∀ i ∈ [Instr.vfshl .va (vo 1 2 3 4 2 0), .vfshr .va (vo 1 2 3 4 2 0), .vfshl .vb (vo 1 2 3 0 0 7), .vfshr .vb (vo 1 2 3 0 2 31)],
      fits i = true) := by
  and_intros <;> decide

theorem witness_VectorCompareSelectAndMasks :
    ∀ i ∈ [Instr.vcmp .va (vo 7 2 3 0 0 0), .vcmp .vb { vo 1 2 4 0 3 5 with mask := 7, neg := true },
           .vsel .va (vo 2 4 6 0 3 0), .vsel .vb (vo 1 2 3 0 2 0), .vmovi .va (vo 1 0x3F 0x3F 0x3F 2 0x1F),
           .vmovi .vb (vo 2 0 0 0 3 0x10), .kand .va (vo 1 2 7 0 0 0), .kor .vb (vo 1 2 7 0 0 0), .kxor .va (vo 1 2 7 0 0 0),
           .knot .va (vo 1 2 0 0 0 0), .kmov .va (vo 1 0 0 0 0 0), .kmovVk .va (vo 7 31 0 0 0 1), .kpopc .va (vo 31 7 0 0 2 0),
           .kfirst .vb (vo 31 7 0 0 2 0), .kmovKv .va (vo 31 7 0 0 0 2)], fits i = true := by decide

theorem witness_RandomAndKeys :
    fits (.vrnd .va (vo 1 0 0 0 2 0)) = true ∧ fits (.vrndSeed .vb (vo 1 2 0 0 2 1)) = true ∧
    fits (.vsfckMor .va (vo 2 1 2 3 3 0)) = true ∧ fits (.vsfckHil .vb (vo 4 1 2 3 3 1)) = true := by decide

theorem witness_VectorFloatResults :
    (∀ row ∈ floatRows, fits (row.instr .va (vo 1 2 3 0 0 0)) = true ∧ fits (row.instr .vb (vo 1 2 3 0 2 0)) = true) ∧
    (∀ row ∈ floatUnaryRows, fits (row.instr .va (vo 1 2 0 0 0 0)) = true) ∧
    fits (.vfma .va { vo 1 2 3 4 1 0 with rnd := 1 }) = true ∧ fits (.vfnma .vb { vo 1 2 3 4 0 0 with rnd := 4 }) = true ∧
    fits (.vfadd .va { vo 1 2 3 9 1 0 with rnd := 5 }) = true := by
  and_intros <;> decide

theorem witness_VectorConvertDotTrim :
    ∀ i ∈ [Instr.vcvt .va { vo 1 2 0 3 0 3 with rnd := 5 }, .vcvt .vb (vo 1 2 0 0 3 0), .vdot .va (vo 1 2 3 4 3 1),
           .vdot .vb (vo 1 2 3 0 4 0), .vtrimX .va (vo 1 2 3 4 0 0), .vtrimM .va (vo 1 2 3 4 0 1), .vtrimXb .vb (vo 1 2 3 4 0 2)],
      fits i = true := by decide

theorem witness_VectorLoads :
    ∀ i ∈ [Instr.vld .va (vo 1 2 0x3F 0x1F 0 0), .vldu .vb (vo 1 2 0 0x1F 0 8), .vlds .va (vo 2 4 6 0 3 0x18), .vlds .va (vo 1 2 3 0 0 0),
           .vldx .vb (vo 2 4 6 0 3 0x10), .vldx .va (vo 1 2 3 0 1 0)], fits i = true := by decide

/-- A unit in its handler whose stores go to the buffers at once. -/
def wStore : State := wOf 0 { handler := true, regs := { va := [(2, { v := 0x1000 })] } }

theorem witness_VectorStores :
    (∀ i ∈ [Instr.vst .va (vo 1 2 0 0 0 0), .vstb .vb (vo 1 2 3 0 0 8), .vsts .va (vo 2 4 6 0 3 0x18), .vstx .vb (vo 1 2 3 0 1 0)],
      fits i = true) ∧ w0.cur.handler = false ∧ 0 ≤ w0.vbase .va (vo 1 2 0 0 0 0) + opOffset12 (vo 1 2 0 0 0 0) ∧
    wStore.src.executes (.vst .va (vo 1 2 0x30 0x3F 0 0)) = true ∧
    wStore.vbase .va (vo 1 2 0x30 0x3F 0 0) + opOffset12 (vo 1 2 0x30 0x3F 0 0) = 0 ∧
    0 ≤ wStore.strided .va (vo 1 2 3 0 0 0) 255 ∧ 0 ≤ wStore.indexed .va (vo 1 2 3 0 1 0) 16 127 ∧
    (∀ b, Memory.wf (wStore.cur.buf b) = true) := by
  refine ⟨by decide, by decide, by decide +kernel, by decide +kernel, by decide +kernel, by decide +kernel, by decide +kernel,
    fun b => by cases b <;> rfl⟩

theorem witness_CrossPermuteSlide :
    ∀ i ∈ [Instr.xbc .va (vo 1 60 0 0 0 0), .xbc .vb (vo 2 5 0 0 3 0), .xcopy .va (vo 1 2 0 0 0 0), .xcopy .vb (vo 2 4 0 0 3 0),
           .vperm .va (vo 1 2 3 0 0 0), .vperm .vb (vo 2 4 5 0 3 0), .vslide .va (vo 1 2 3 0 2 0), .vslide .vb (vo 2 4 6 63 3 0)],
      fits i = true := by decide

theorem witness_GroupReductions :
    ∀ i ∈ [Instr.vred .va (vo 1 2 0 0 0 0), .vred .va (vo 1 2 0 6 2 20), .vscan .vb (vo 2 4 0 6 3 5), .vscan .va (vo 1 2 0 1 0 2),
           .vred .vb (vo 1 2 0 6 1 10)], fits i = true := by decide

theorem witness_StreamsPushAndPop :
    (∀ i ∈ [Instr.spush .va (vo 0 1 0 0 2 0), .spush .vb (vo 0 2 0 0 3 3), .spop .va (vo 1 0 0 0 2 0), .spop .vb (vo 2 0 0 0 3 3),
            .sbal .va (vo 1 0 0 0 2 1), .scnt .vb (vo 1 0 0 0 2 3)], fits i = true) ∧ w0.cur.handler = false ∧
    (w0.streamAt (vo 0 1 0 0 2 0)).count + 2 * (w0.governedLanes .va (vo 0 1 0 0 2 0)).length ≤ 8192 ∧
    (w0.streamAt (vo 0 1 0 0 2 1)).count + 63 ≤ 8192 := by
  and_intros <;> decide

/-- A matrix multiply of variant `MM` with shape 0, FP8 operands and tag 63, whose set is 0, in the queue with serial `n`. -/
def mcmd (n : Nat) : MCmd :=
  { serial := n, pc := 32, var := .mm, o := mo 0 3 3 0 0 63, stg := [0, 0, 0, 0, 0], fcsr := 0, scales := [], bundle := 1,
    after := none, handler := false, started := none, opsRead := false, level := 0, replays := 0, record := none }

/-- A copy-slot command of engine 0 with serial 5 and tag 63. -/
def ccmd (i : Instr) (stg : List Word) (ph : CPhase) : CCmd :=
  { serial := 5, pc := 32, engine := .c0, op := i, tag := 63, stg := stg, handler := false, phase := ph }

/-- A copy of 100 bytes from WB to AB, and one from DRAM virtual space to AB. -/
def cpyLocal : Instr := .cpy .c0 (co 0x040 63 0)
def cpyFar : Instr := .cpy .c0 (co 0xA40 63 0)
def cpyStg : List Word := [0, 0x40, 100, 0, 0, 0, 0, 0]

theorem witness_CommandsEnterTheirQueues :
    (∀ row ∈ matrixRows, w0.runs (row.1 (mo 4 3 3 0 15 63))) ∧
    (∀ row ∈ copyRows, ∀ e ∈ [Engine.c0, .c1], w0.runs (row e (co 0x040 63 3))) ∧
    ((co 0x0800 63 0).from = 4 ∧ (co 0x0600 63 0).from = 3 ∧ w0.runs (.scld .c0 (co 0x0800 63 0)) ∧
      w0.runs (.scld .c1 (co 0x0600 63 0))) ∧
    w0.runs (.coll .c0 (co 3 63 0)) ∧ w0.runs (.repart .c1 (co 0 0 3)) ∧
    (let s := wOf 0 { regs := { stg := [(63, 0x000A0000)] } }
     (∀ row ∈ matrixRows.take 4, s.runs (.cpym .c0 (co 0x040 63 3))) ∧
     decodeMatrix (((tget 0 s.src.regs.stg (32 + 8 * 3 + 7)).setWidth 32).setWidth 48) = .ok (.mm (mo 0 0 0 0 8 2))) := by
  unfold State.runs State.ready; and_intros <;> decide

theorem witness_MatrixCommandsRun :
    (let s := wAt 511 { run := .running, mq := [mcmd 4] }
     (s.unit 511).mq.find? (fun n => n.started.isNone) = some (mcmd 4) ∧ s.powered 511 = true ∧ (s.unit 511).run ≠ .frozen ∧
     (s.unit 511).run ≠ .halted ∧ (mcmd 4).after = none ∧
     (∀ n ∈ (s.unit 511).mq, n.started.isSome = true → n.opsRead = true) ∧
     ((s.unit 511).mq.filter (fun n => n.started.isSome)).length < 2 ∧ s.shadeOf (clusterOf 511) < 3 ∧
     s.matrixClear 511 (mcmd 4) = true ∧ (s.unit 511).rowsPending (mcmd 4).tileRegs = false ∧
     (∀ n ∈ (s.unit 511).mq, n.serial < (mcmd 4).serial → ∀ r ∈ n.scaleWrites, r ∉ (mcmd 4).scaleReads)) ∧
    ((mcmd 4).floating = true ∧ ({ mcmd 4 with o := mo 0 5 5 0 0 63 } : MCmd).floating = false) ∧
    (let m := { mcmd 4 with started := some 0 }
     let s := { wAt 511 { run := .running, mq := [m] } with now := 25 * clocksD .mm 0 }
     (s.unit 511).mq.find? (fun n => n.started.isSome && !n.opsRead) = some m ∧ s.powered 511 = true ∧
     0 + 25 * clocksD m.var m.o.shape ≤ s.now) ∧
    (∀ k ∈ [0, 2, 3],
      let r : MRecord := ⟨[], [], [], [], []⟩
      let m := { mcmd 4 with started := some 0, opsRead := true, replays := k, record := some r }
      let s := { wAt 511 { run := .running, mq := [m] } with now := 25 * (clocksD .mm 0 * (1 + k) + 64) }
      s.powered 511 = true ∧ (s.unit 511).mq = [m] ∧ m.record = some r ∧ 0 + 25 * (clocksD m.var m.o.shape * (1 + m.replays) + 64) ≤ s.now) ∧
    (∀ b, Memory.wf (({} : Machine.Unit).buf b) = true) ∧
    (∀ o : MOut, o.run.forced = [] → (¬ ∃ d ∈ (mcmd 4).detections o [], (mcmd 4).level ≤ d.slice)) ∧
    (∀ o : MOut, ∃ d ∈ (mcmd 4).detections o [⟨63, 3, 1⟩], (mcmd 4).level ≤ d.slice) := by
  refine ⟨by and_intros <;> decide, by decide, by decide, by decide, fun b => by cases b <;> rfl, ?_, ?_⟩
  · intro o h
    simp [MCmd.detections, h]
  · intro o
    exact ⟨⟨63, 3, 1⟩, by simp [MCmd.detections, show (mcmd 4).floating = true by decide], by decide⟩

/-- Unit 0 with one command in the queue of engine 0. -/
def wCopy (u : Nat) (c : CCmd) : State := wAt u { run := .running, q0 := [c] }

theorem witness_CopiesTranslateAndStart :
    (∀ i ∈ [cpyLocal, cpyFar],
      let c := ccmd i cpyStg .queued
      let s := wCopy 0 c
      ((s.unit 0).queueOf .c0).find? (fun d => d.phase == .queued && !d.untranslated && !d.refused) = some c ∧
      s.powered 0 = true ∧ s.readIndex 0 c = some c ∧ farSpaceEnd 0 c = .done ∧ c.fields.1 ≠ 0x08) ∧
    (let c := ccmd cpyLocal cpyStg .queued
     (∀ sd ∈ c.sides 0, sd.operand.code < 4) ∧ (wCopy 0 c).preChecks 0 c = .done) ∧
    (let c := ccmd cpyFar cpyStg .queued
     let r := (wCopy 0 c).translateAll 0 .c0 c (c.sides 0)
     r.2.2 = .faults .copyTranslation 0 ∧ c.handler = false ∧ r.2.1.handler = false) ∧
    (let c := ccmd cpyLocal cpyStg .translated
     let s := wCopy 0 c
     (s.unit 0).command .c0 5 = some c ∧ s.copyClear 0 c = true ∧ (s.unit 0).fenced 5 = false ∧ 1 ≤ c.fields.1 ∧ c.fields.1 ≤ 5 ∧
     s.powered 0 = true ∧ s.shedWait { c with runs := s.pieces 0 c } = false ∧
     s.linkWait 0 { c with runs := s.pieces 0 c } = false ∧ (∀ d ∈ (s.unit 0).queueOf .c0, 5 ≤ d.serial) ∧
     c.old = [] ∧ c.gate = [] ∧ c.got = [] ∧ c.lost = [] ∧ c.err = none ∧ c.stop = none ∧ (s.pieces 0 c).length = 2 ∧
     (∀ r ∈ s.pieces 0 c, r.wrote = false ∧ r.scs = 0 ∧ r.dcs = 0 ∧ r.dst.place = .buf 0 .ab ∧ r.src.map (·.place) = some (.buf 0 .wb)) ∧
     (s.pieces 0 c).Pairwise (fun p q => p.dst.place ≠ q.dst.place ∨ p.dst.addr + p.len ≤ q.dst.addr ∨
         q.dst.addr + q.len ≤ p.dst.addr)) ∧
    (let c := ccmd (.walk .c0 (co 0 63 0)) cpyStg .translated
     let s := wCopy 512 c
     (s.unit 512).command .c0 5 = some c ∧ s.copyClear 512 c = true ∧ (s.unit 512).fenced 5 = false ∧ c.fields.1 = 0x10 ∧
     s.powered 512 = true ∧ s.shedWait { c with runs := s.pieces 512 c } = false ∧
     s.linkWait 512 { c with runs := s.pieces 512 c } = false ∧ ∀ d ∈ (s.unit 512).queueOf .c0, 5 ≤ d.serial) ∧
    (∀ i ∈ [Instr.fsend .c0 (co 0xA00 63 0), .ffetch .c0 (co 0x140 63 0)],
     let c := ccmd i [0, 0x0050000000000000, 9, 64] .translated
     let s := (wCopy 512 c).cset (dlbAddr 0 + 8) 1
     (s.unit 512).command .c0 5 = some c ∧ s.copyClear 512 c = true ∧ (c.fields.1 = 0x11 ∨ c.fields.1 = 0x12) ∧
     s.reachable c.remote.1 = false ∧ s.shedWait { c with runs := s.pieces 512 c } = false ∧
     s.linkWait 512 { c with runs := s.pieces 512 c } = false ∧
     ∀ d ∈ (s.unit 512).queueOf .c0, 5 ≤ d.serial) := by
  and_intros <;> decide +kernel

/-- A command with two pieces from DRAM, whose requests have slots, towards the place `p`. -/
def cDramTo (p : Place) : CCmd :=
  let run (i : Nat) : Run := { src := some ⟨.dram, 64 * i⟩, dst := ⟨p, 0x1000 + 64 * i⟩, len := 64, req := some i }
  { ccmd cpyFar [0, 0, 128, 0, 0, 0, 0, 0] .started with
    runs := [run 0, run 1], reqs := [⟨0, some 0, 0, false, none, false⟩, ⟨1, some 0, 0, false, none, false⟩] }

theorem witness_CopyCommandsComplete :
    (∀ p ∈ [Place.buf 0 .ab, .dram],
     let cDram := cDramTo p
     let s := { wCopy 0 cDram with now := ns 288 }
     let s' := s.placeEngine 0 .c0
     (s'.unit 0).command .c0 5 = some cDram ∧ cDram.nextDram = some 0 ∧ (cDram.runs[0]?).bind (·.req) = some 0 ∧
     (cDram.reqs[0]?).bind (·.slot) = some 0 ∧ (s'.unit 0).firstRead .c0 0 = true ∧ s'.powered 0 = true ∧ 0 + ns 288 ≤ s'.now ∧ (s'.unit 0).run = .running ∧
     cDram.phase = .started ∧ cDram.stop = none ∧
     (s'.deliver 0 cDram 0 none).arrived = false ∧ (s'.deliver 0 cDram 0 (some 1)).arrived = false ∧ 0 ∉ cDram.lost ∧
     0 ∉ (s'.deliver 0 cDram 0 none).lost ∧
     (∀ err ∈ [none, some 1], s'.heldUp 0 (s'.deliver 0 cDram 0 err) = false) ∧ (∀ r ∈ cDram.runs, s'.resetDie r = none) ∧
     cDram.fields.1 ≠ 6 ∧ (s'.deliver 0 cDram 0 none).lost = [] ∧ cDram.old = [] ∧
     (s'.deliver 0 cDram 0 none).landing s'.now = if p = .dram then [] else (cDram.numbered).take 1) ∧
    (∀ p ∈ [Place.buf 0 .ab, .dram], ∀ a b, Memory.wf (((({ wCopy 0 (cDramTo p) with now := ns 288 } : State).placeEngine 0 .c0).unit a).buf b) = true) ∧
    (∀ e ∈ [none, some (2 : Byte)],
     let c := { ccmd cpyLocal cpyStg .moved with err := e }
     let s' := (wCopy 586 c).placeEngine 586 .c0
     (s'.unit 586).command .c0 5 = some c ∧ (s'.unit 586).run = .running ∧ s'.powered 586 = true ∧ c.peer = false ∧ c.writesLanded s'.now = true ∧ (∀ r ∈ c.runs, r.wrote = true) ∧ c.fields.1 ≤ 6 ∧
     c.err = e) ∧
    (let c := ccmd (.scld .c0 (co 0x0600 63 0)) cpyStg .moved
     let s := wAt 511 { run := .running, sclds := [c] }
     ((s.unit 511).sclds ++ (s.unit 511).q0 ++ (s.unit 511).q1).find? (fun d => d.serial == 5 && d.isScld) = some c ∧
     c.err = none ∧ c.lost = [] ∧ c.phase = .moved ∧ c.left = 0 ∧ (s.unit 511).run = .running ∧ s.powered 511 = true) ∧
    (let c := ccmd (.cfence .c0 (co 0 63 0)) cpyStg .queued
     let s := wCopy 586 c
     ((s.unit 586).q0 ++ (s.unit 586).q1).find? (fun d => d.serial == 5 &&
      (match d.op with | .cfence _ _ => true | _ => false)) = some c ∧ c.err = none ∧ (s.unit 586).run = .running ∧
     s.powered 586 = true ∧ ∀ d ∈ (s.unit 586).q0 ++ (s.unit 586).q1 ++ (s.unit 586).sclds, 5 ≤ d.serial) := by
  refine ⟨by decide +kernel, ?_, by decide +kernel, by decide +kernel, by decide +kernel⟩
  intro p _ a b
  cases a <;> cases b <;> rfl

/-- A record of a copy among two members: one chunk of 64 bytes, from each member to the other. -/
def rcopy : List Byte :=
  (List.range 128).map (fun i =>
    if i = 4 ∨ i = 0x18 then 2 else if i = 0 ∨ i = 6 ∨ i = 8 ∨ i = 0x0C ∨ i = 0x14 ∨ i = 0x3C then 1 else 0)

/-- A record of a repartition among two members with records of 8 bytes. -/
def rrepart : List Byte := (List.range 128).map (fun i => if i = 4 then 2 else if i = 1 then 5 else if i ∈ [0, 3, 8] then 1 else 0)

/-- A collective of tile 511 as member `m`, the other member on module 1; both local ranges are the first 64 bytes of WB. -/
def ccoll (m : Nat) : Coll :=
  { unit := 511, serial := 5, pc := 32, tag := 63, handler := false, node := none, repart := false, rcd := rcopy, step := 0,
    member := m, mems := if m = 0 then [(0, 511), (1, 9)] else [(1, 9), (0, 511)], win := 0x8000000100000000,
    wout := 0x8000000100000000, aspace := 0, xlat := [], counted := [], kept := [(0, List.replicate 64 1)] }

/-- Tile 511 issues, and the collective runs. -/
def wColl (c : Coll) : State := { wAt 511 { run := .running, team := c.node } with colls := [c] }

/-- The same where port 0 is up to module 1. -/
def wLinked (c : Coll) : State := ((wColl c).cset (fabAddr 0 + 8) 0x0001000000000002).cset (dlbAddr 12 + 8) 1

theorem witness_CollectivesSend :
    (let q := ccmd (.coll .c0 (co 0 63 0)) [0x8000000100000000, 0x8000000100000000, 0, 0, 0, 0, 0, 0] .queued
     let s := wCopy 511 q
     ((s.unit 511).q0 ++ (s.unit 511).q1).find? (fun c => c.serial == 5 && (c.fields.1 == 0x0A || c.fields.1 == 0x0B)) = some q ∧
     s.copyClear 511 q = true ∧ (s.unit 511).fenced 5 = false ∧ s.mastersRun 511 = true ∧ (s.unit 511).run = .running ∧
     rangeVia (s.walkerXlat 511 (s.unit 511).card.aspace)
       ((s.unit 511).card.coll.getD (field q.fields.2.flags 0 2).toNat 0) 128 false = none ∧
     s.collOf 511 5 = none ∧ (s.startColl 511 (s.unit 511) q true).isSome = true) ∧
    (∀ p ∈ [(0 : Byte), 1],
     let c := { ccoll 0 with rcd := rcopy.set 0x0E p }
     let s := wLinked c
     s.collOf 511 5 = some c ∧ c.ended = none ∧ s.mastersRun 511 = true ∧ s.fabricWaits = false ∧ 1 < c.nmem ∧ c.modOf 1 ≠ s.modnum ∧
     (∀ f < c.nmem, c.modOf f ≠ s.modnum → s.reachable (c.modOf f) = true) ∧ c.needs 1 = true ∧ (∀ f < c.nmem, c.modOf f = s.modnum → f = c.member) ∧ recPatience c.rcd = p.toNat ∧
     c.nextFor 1 = some (0, List.replicate 64 1) ∧ (1, 0) ∉ c.sent ∧ c.isFor ⟨1, 1, c.group, c.step⟩ = true ∧
     s.chunkWay c 1 0 = true ∧
     ((s.cset (dcb + 0x30) 1).masterDark 511 = true ∧ (s.cset (dcb + 0x30) 1).fabricWaits = false ∧
      (s.cset (dcb + 0x30) 1).collOf 511 5 = some c)) ∧
    (let c := { ccoll 0 with waitFrom := some 0 }
     let s := { wColl c with now := us 1000 + 1 }
     s.collOf 511 5 = some c ∧ c.ended = none ∧ s.mastersRun 511 = true ∧ s.fabricWaits = false ∧
     us 1000 * recPatience c.rcd < c.waited + (s.now - 0)) ∧
    (let c := { ccoll 0 with sent := [(1, 0)] }
     (wLinked c).collOf 511 5 = some c ∧ (wLinked c).mastersRun 511 = true ∧ c.ended = none ∧ (1, 0) ∈ c.sent ∧ (1, 0) ∉ c.acks ∧
     c.modOf 1 ≠ (wLinked c).modnum ∧ (wLinked c).fabricWaits = false ∧ c.isFor ⟨1, 1, c.group, c.step⟩ = true ∧
     (wLinked c).chunkWay c 1 0 = true) ∧
    (let c := { ccoll 0 with ended := some 2 }
     (wColl c).collOf 511 5 = some c ∧ (wColl c).fabricWaits = false ∧ c.isFor ⟨1, 1, c.group, c.step⟩ = true) ∧
    (let h : Chunk := ⟨0, 0, List.replicate 64 1⟩
     let c := { ccoll 1 with inSlots := [h] }
     (wColl c).collOf 511 5 = some c ∧ (wColl c).mastersRun 511 = true ∧ c.ended = none ∧ c.reduces = false ∧
     (wColl c).fabricWaits = false ∧ c.isFor ⟨0, 1, c.group, c.step⟩ = true ∧
     c.held.find? (fun h => h.sender == 0 && h.t == 0) = some h) := by
  and_intros <;> decide +kernel

theorem witness_CollectivesReceiveAndComplete :
    (let c := { ccoll 1 with ended := some 2 }
     (wLinked c).collOf 511 5 = some c ∧ c.unit = 511 ∧ (wLinked c).fabricWaits = false ∧ c.isFor ⟨0, 1, c.group, c.step⟩ = true ∧
     (wLinked c).wayOpen ((wLinked c).dieOfMember c 0) (dieOf 511) (c.landsFrom 0 0) = true) ∧
    (let c := { ccoll 1 with applied := [(0, 0)] }
     let s := wLinked c
     s.collOf 511 5 = some c ∧ s.mastersRun 511 = true ∧ c.modOf 0 ≠ s.modnum ∧ (0, 0) ∈ c.applied ∧ recChunk c.rcd = 64 ∧
     s.fabricWaits = false ∧ c.isFor ⟨0, 1, c.group, c.step⟩ = true ∧ s.wayOpen (s.dieOfMember c 0) (dieOf 511) (c.landsFrom 0 0) = true) ∧
    (let c := { ccoll 1 with granted := [(0, 1)] }
     let s := wLinked c
     s.collOf 511 5 = some c ∧ c.ended = none ∧ s.mastersRun 511 = true ∧ c.modOf 0 ≠ s.modnum ∧ c.repart = false ∧
     s.fabricWaits = false ∧ c.isFor ⟨0, 1, c.group, c.step⟩ = true ∧ s.wayOpen (s.dieOfMember c 0) (dieOf 511) (c.landsFrom 0 0) = true ∧
     isReduction c.rcd = false ∧ recChunk c.rcd = 64 ∧ 0 < c.nmem ∧
     c.isNext { sender := 0, t := 0, data := List.replicate 64 7 } = true ∧ (0, 0) ∉ c.applied ∧ c.inSlots = [] ∧ c.inPool = [] ∧
     c.parts = [] ∧ 0 < recNat c.rcd 0x0C 2 ∧ tget 0 c.granted 0 ≠ 0 ∧ s.present c = true) ∧
    (∀ b, Memory.wf (((wLinked (ccoll 1)).unit 511).buf b) = true) ∧
    (let c := { ccoll 0 with repart := true, rcd := rrepart }
     let s := wColl c
     s.collOf 511 5 = some c ∧ c.unit = 511 ∧ c.serial = 5 ∧ c.ended = none ∧ c.counts = [] ∧ s.mastersRun 511 = true ∧
     recBalanced c.rcd = false ∧ c.member < c.nmem ∧ s.localMember c c.member = some c ∧
     (∀ m < c.nmem, c.modOf m = s.modnum → m = c.member) ∧ c.nmem = 2) ∧
    (∀ e ∈ [none, some 2],
     let c := { ccoll 1 with node := some 4, noWord := true, applied := [(0, 0)], acks := [(0, 0)], ended := e }
     let s := wColl c
     s.collOf 511 5 = some c ∧ c.unit = 511 ∧ c.serial = 5 ∧ c.repart = false ∧ s.mastersRun 511 = true ∧ c.node = some 4 ∧
     savedOf (tget [] s.saved 4) 511 = none ∧ (s.unit 511).team = some 4 ∧ (s.unit 511).run = .running ∧ c.noWord = true ∧
     c.finished = true) := by
  refine ⟨by decide +kernel, by decide +kernel, by decide +kernel, fun b => by cases b <;> rfl, by decide +kernel, by decide +kernel⟩

/-! ### Scheduler -/

/-- Page tables that map the first 1 GiB of address space 0 to the same DRAM addresses. -/
def paged : Memory := memOf [(0, 0x4001), (0x4000, 0x8001), (0x8000, 0xF)]

/-- Queue 65535 is enabled with one record of zeros at virtual address 0x100000, in a module whose memory is `m`. -/
def wQueue (m : Memory) : State :=
  let s : State := { dram := m }
  (((s.cset scb 1).cset (qAddr 65535 0) 0x0400000000100000).cset (qAddr 65535 8) 0x120FFFFFFFF).cset (qAddr 65535 0x10) 1

/-- A job card of version 0x01: a team of `n`, PRIO 3, 32 bytes of code at 0x100000 and `feet` footprints of one unit. -/
def cardOf (n feet : Nat) : List Byte :=
  (List.range 256).map (fun i =>
    if i = 0 then 1 else if i = 1 then 6 else if i = 2 then BitVec.ofNat 8 n else if i = 0x0C then 32
    else if i = 0x12 then 0x10 else if i = 0x1A then BitVec.ofNat 8 feet else if i = 0x48 ∨ i = 0x4C then 1 else 0)

/-- A node of queue 0 that may run on cluster 31 only. -/
def nodeOf (n feet : Nat) (p : NPhase) : Node :=
  { queue := 0, serial := 0, graph := 1, index := 0, mask := 0x80000000, phase := p, card := cardOf n feet, cluster := 31,
    first := 16 - n }

/-- Record 1, the units and the memory of a module. -/
def wNode (x : Node) (us : Tbl Machine.Unit) (m : Memory) : State :=
  { sched := { nodes := [(1, x)] }, units := us, dram := m }

theorem witness_RecordsAndTeams_records :
    (∀ m ∈ [[], paged], (wQueue m).consumes = true ∧ (wQueue m).nextQueue = some 65535) ∧
    (wQueue []).vread false ((wQueue []).qAspace 65535) 0x100000 128 = none ∧
    (wQueue paged).qRing 65535 + 128 * ((wQueue paged).qHead 65535 % 2 ^ (wQueue paged).qLog 65535) = 0x100000 ∧
    (let r : List Byte := List.replicate 128 0
     (wQueue paged).vread false 0 0x100000 128 = some r ∧
     (wQueue paged).grantsBlocked ((wQueue paged).qMask 65535) 0 r = false ∧ ((wQueue paged).recordRefusal 65535 r).1 ≠ 0 ∧
     (wQueue paged).recordReason 0 ((wQueue paged).qMask 65535) none 0 r
       ((wQueue paged).vread false 0 (recNat r 8 8) 256) = some 1) ∧
    (∀ x ∈ [{ nodeOf 1 0 .ended with status := 3 }, { nodeOf 1 0 .ended with cword := 0x200000 },
            { nodeOf 1 0 .waiting with marker := true, card := [] }, { nodeOf 1 0 .ended with cword := 2 ^ 50 }],
      let s := wNode x [] paged
      s.hasNode 1 = true ∧ s.noon = true ∧ s.takesFit (s.node 1).mask (s.node 1).grants = true ∧
      ((s.node 1).phase = .ended ∨ ((s.node 1).phase = .waiting ∧ (s.node 1).marker = true ∧
        ∀ p ∈ s.graphNodes (s.node 1).graph, p.1 < 1 → p.2.phase = .done))) ∧
    ((wNode (nodeOf 1 0 .ended) [] paged).vwrite false 0 0x200000 (completionRecord (nodeOf 1 0 .ended))).isSome = true ∧
    (wNode (nodeOf 1 0 .ended) [] paged).vwrite false 0 (2 ^ 50) (completionRecord (nodeOf 1 0 .ended)) = none := by
  and_intros <;> decide +kernel

theorem witness_RecordsAndTeams_teams :
    (∀ feet ∈ [0, 1],
      let s := { wNode (nodeOf 1 feet .ready) [] paged with
        clusters := [(31, { regions := [{ seg := false, aspace := 0, base := 0, units := 1, st := .host, node := none }] })] }
      s.hasNode 1 = true ∧ s.nextTeam.map (·.1) = some 1 ∧ (s.node 1).phase = .ready ∧ s.fits 1 31 15 = true ∧
      s.hostOwned (s.node 1) 31 = (if feet = 1 then some 0 else none)) ∧
    (let s := wNode (nodeOf 1 0 .ready) [] paged
     cardInit (s.node 1).card = false ∧
     s.vread false (s.node 1).aspace (cardCode (s.node 1).card) (cardCodeLen (s.node 1).card) = some (List.replicate 32 0) ∧
     (s.stageFeet (s.node 1) [] [] (List.range (cardNfoot (s.node 1).card))).2 = .inl []) ∧
    (∀ y ∈ [({ run := .ended, team := some 1 } : Machine.Unit), { run := .faulted, team := some 1, trapCause := 4 }],
      let s := wNode (nodeOf 1 0 .resident) [(511, y)] []
      s.hasNode 1 = true ∧ s.noon = true ∧ (s.node 1).phase = .resident ∧
      (∀ u ∈ (s.node 1).units, ((s.unit u).run = .ended ∨ (s.unit u).run = .faulted) ∧ (s.unit u).quiet = true) ∧
      (∀ c ∈ s.colls, c.node ≠ some 1) ∧ (s.node 1).units = [511]) := by
  and_intros <;> decide +kernel

/-- A resident team of 16 on cluster 31 and a second record. -/
def wTwo (y : Node) (fence : Bool) : State :=
  let s : State := { sched := { nodes := [(1, nodeOf 16 0 .resident), (2, y)] }, units := [(511, { run := .running, team := some 1 })],
                     now := us 2000 }
  if fence then s.cset (drbAddr 3) 1 else s

theorem witness_TeamsSwap :
    (∀ y ∈ [nodeOf 16 0 .ready, { nodeOf 1 0 .swapped with place := some .shadow }],
      let s := wTwo y true
      s.hasNode 1 = true ∧ s.mayYield (s.node 1) = true ∧ s.fenced (s.node 1) = true) ∧
    (wTwo (nodeOf 16 0 .ready) true).swapPlace (nodeOf 16 0 .resident) = some (.shadow, []) ∧
    (wTwo { nodeOf 1 0 .swapped with place := some .shadow } true).swapPlace (nodeOf 16 0 .resident) = none ∧
    (∀ u ∈ (nodeOf 16 0 .resident).units, ((wTwo (nodeOf 16 0 .ready) true).unit u).matrixStill = true ∧
      ∀ c ∈ ((wTwo (nodeOf 16 0 .ready) true).unit u).q0 ++ ((wTwo (nodeOf 16 0 .ready) true).unit u).q1,
        c.phase ≠ .started ∧ c.phase ≠ .moved ∧ c.stop = none) ∧
    (let s := wTwo (nodeOf 16 0 .ready) false
     s.mayYield (s.node 1) = true ∧ (s.node 1).quantumFrom + s.quantum (s.levelOf (s.node 1)) ≤ s.now ∧
     s.wanted (s.node 1) (fun a b => a == b) = true) ∧
    (let s := { wNode (nodeOf 1 0 .swapped) [] [] with saved := [(1, [(511, { run := .frozen, was := .running })])] }
     s.hasNode 1 = true ∧ s.nextTeam.map (·.1) = some 1 ∧ (s.node 1).phase = .swapped ∧
     (tget [] s.saved 1).map (·.1) = (s.node 1).units ∧
     (∀ e ∈ tget [] s.saved 1, e.2.run = .frozen ∧ e.2.was = .running) ∧ (∀ c ∈ s.colls, c.node ≠ some 1)) ∧
    (let s : State := { sched := { nodes := [(1, nodeOf 1 0 .ready), (2, nodeOf 1 0 .resident)] }, now := us 1000000 }
     (s.node 1).promoted = 0 ∧ s.levelOf (s.node 1) ≠ 0 ∧ s.quantumEnds (s.node 1).mask = true ∧ (s.node 1).waitFrom + 4 * s.rotationLength (s.node 1) ≤ s.now) := by
  and_intros <;> decide +kernel

theorem witness_QueueAndBlockWrites :
    ((wQueue []).woken || ((wQueue []).qEn 65535 && !(wQueue []).awake)) = false ∧
    (let s := ((wQueue []).cset (pwb + 8) 1)
     (s.woken || (s.qEn 65535 && !s.awake)) = true) ∧
    (let s := wQueue []
     65535 < queueCount ∧ 2 ^ s.qLog 65535 < ((field (17 : Word) 0 32).toNat + 2 ^ 32 - s.qHead 65535) % 2 ^ 32 ∧
     ((field (16 : Word) 0 32).toNat + 2 ^ 32 - s.qHead 65535) % 2 ^ 32 ≤ 2 ^ s.qLog 65535 ∧ s.qEn 65535 = true ∧
     s.qEn 0 = false) ∧
    (let s := wNode { nodeOf 1 0 .swapped with place := some .area } [] []
     s.slotsUsed ≠ 0) ∧
    (({} : State).slotsUsed = 0 ∧ ({} : State).noon = true ∧ (({} : State).cset (dcb + 0x30) 1).noon = false) := by
  and_intros <;> decide +kernel

theorem witness_FidelityAndControlWrites :
    (let s := ({} : State).cset (drbAddr 3 + 8) 3
     s.diePhase (511 / 128) = 3 ∧ s.diePhase (0 / 128) ≠ 3 ∧ s.diePhase (0 / 128) ≠ 4) ∧
    cregOf (0 : BitVec 40).toNat = none ∧ bitOf (({} : State).cget brb) 0 = false ∧ bitOf (1 : Word) 0 = true ∧
    bitOf ((({} : State).cset brb 1).cget brb) 0 = true := by
  and_intros <;> decide +kernel

/-- The bridge is on, member 15 of its box is module `n`, and port 0 is up to module 7. -/
def wHost (n : Word) : State :=
  ((({} : State).cset brb 1).cset (brb + 8 + 8 * 15) n).cset (fabAddr 0 + 8) 0x0007000000000002

theorem witness_HostAccesses :
    (∀ n ∈ [0xFFFF, 7, 0],
      bitOf ((wHost (BitVec.ofNat 64 n)).cget brb) 0 = true ∧ (wHost (BitVec.ofNat 64 n)).dusk.midnight = false ∧
      (wHost (BitVec.ofNat 64 n)).hostReset = false ∧ (2 ^ 35 - 8) / 2 ^ 31 = 15 ∧ (2 ^ 35 - 8) % 8 = 0) ∧
    (wHost 0xFFFF).memberModule 15 = none ∧ (wHost 7).memberModule 15 = some 7 ∧ (wHost 0).memberModule 15 = some 0 ∧
    (7 ∈ ({ wHost 7 with darkMods := [7] } : State).darkMods) ∧ 7 ≠ (wHost 7).modnum ∧ 0 = (wHost 0).modnum ∧
    (wHost 7).reachable 7 = true ∧ (7, 8) ∈ ({ wHost 7 with hostReads := [(7, 8)] } : State).hostReads ∧ (cregOf (scb + (15 * 2 ^ 31 + 8) % 2 ^ 31)).isSome = true ∧
    (wHost 0).memberModule ((wHost 0).cfield (brb + 0x88) 60 4) = some (wHost 0).modnum ∧ (wHost 0).serving = true ∧
    ((wHost 0).noon = true ∧ ((wHost 0).cset (dcb + 0x30) 1).noon = false ∧ ((wHost 0).cset (dcb + 0x30) 1).dusk.midnight = false) ∧
    (let a := (wHost 0).cfield (brb + 0x88) 36 6 * 2 ^ 36 + (2 ^ 36 - 8)
     populated a = true ∧ populated (a + 7) = true) ∧
    (let c := ccmd cpyFar cpyStg .started
     let s := { wCopy 0 c with pcie := [⟨1, 0, none, 5, 0, 2, none⟩, ⟨2, 0, none, 0, 0, 2, some 9⟩] }
     s.pcie.find? (fun q => q.id == 1) = some ⟨1, 0, none, 5, 0, 2, none⟩ ∧
     s.pcie.find? (fun q => q.id == 2) = some ⟨2, 0, none, 0, 0, 2, some 9⟩ ∧ (s.unit 0).command .c0 5 = some c ∧
     (s.unit 0).command .c1 5 = none) := by
  and_intros <;> decide +kernel

/-- Port 15 in the state `x`, its PSTAT.STATE `st`. -/
def wPort (st : Word) (x : Port) : State := { ({} : State).cset (fabAddr 15 + 8) st with ports := [(15, x)] }

theorem witness_FabricEvents :
    (wPort 2 {}).portUp 15 = true ∧ (wPort 3 {}).portUp 15 = true ∧
    (∀ n ∈ [6, 7], let x : Port := { replay := [(4, .unsupported, 0), (5, .unsupported, 0)], fails := n, rxSeq := 1 }
      (∃ f ∈ ((wPort 2 x).port 15).replay, f.1 = 4) ∧ (∃ f ∈ ((wPort 2 x).port 15).replay, f.1 = 5) ∧
      ((wPort 2 x).port 15).replay.head?.map (·.1) = some 4 ∧ ((wPort 2 x).port 15).replay.head?.map (·.1) ≠ some 5 ∧
      (∀ f ∈ ((wPort 2 x).port 15).replay, 4 ≤ f.1) ∧ ((wPort 2 x).port 15).waiting = [] ∧ ((wPort 2 x).port 15).paused = [] ∧
      0 < ((wPort 2 x).port 15).rxSeq ∧ (((wPort 2 x).port 15).replay.filter (fun f => decide (5 ≤ f.1))).length < 512) ∧
    (3 ∉ ((wPort 2 {}).port 15).paused ∧ 3 ∈ ((wPort 3 { paused := [3, 1] }).port 15).paused) ∧
    (let s := wPort 2 { txSeq := 2 ^ 40 }
     (s.port 15).keyedSeq + 2 ^ 40 ≤ (s.port 15).txSeq) ∧
    (bitOf (1 : Word) 0 = true ∧ bitOf ((wPort 0 {}).cget (fabAddr 15)) 0 = false) ∧
    ((wPort 1 {}).portState 15 = 1 ∧ common [] 0 = 0 ∧ common [(0, 1)] 0 ≠ 0) ∧
    (({ wColl (ccoll 0) with modnum := 9 } : State).colls = [ccoll 0] ∧ ∃ e ∈ (ccoll 0).mems, e.1 = 1) ∧
    (({} : State).dusk.midnight = false ∧ ({} : State).noon = true ∧ ({} : State).serving = true ∧
      (({} : State).cset (dcb + 0x30) 1).noon = false ∧ bitOf ((wHost 0).cget brb) 0 = true ∧ (wHost 0).hostReset = false ∧
      1 ∈ ({ darkMods := [1] } : State).darkMods) ∧
    (∃ q ∈ pageParts 0x100000 8, ({} : State).walk false 0 q.1 = none) ∧
    (let s : State := { dram := paged }
     (∀ q ∈ pageParts 0x100000 8, (s.walk false 0 q.1).any (fun x => x.r && x.w && x.place == .dram) = true) ∧
     (s.vwrite false 0 0x100000 [1, 2]).isSome = true ∧ (s.vread false 0 0x100000 8).isSome = true) := by
  and_intros <;> decide +kernel

/-- Tables that map the page of 64 KiB at 0x100000 to frame 0x10, as migrator 3 names it, with target frame 0x20. -/
def wMig (m : Migrator) (busy : Nat) (dst : Word) : State :=
  let s : State := { dram := memOf [(0, 0x4001), (0x4000, 0x8001), (0x8000, 0x9001), (0x9000, 0xA001), (0xA080, 0x10000F)],
                     migrators := [(3, m)], busy := [(0x10, busy)], now := us 50 }
  (s.cset (migAddr 3) 0x10).cset (migAddr 3 + 8) dst

/-- The page of `wMig`. -/
def page0 : Xlat :=
  { seg := false, aspace := 0, page := 0x100000, size := 65536, place := .dram, base := 0x100000, cs := 0, mp := false, r := true,
    w := true, db := false }

theorem witness_MigrationsAndTranslation :
    (∀ d ∈ [0x200000, 0x200200], ∀ n ∈ [0, 1],
      let dst := BitVec.ofNat 64 d
      ((wMig {} n dst).migrator 3).page = none ∧ (wMig {} n dst).noon = true ∧ (wMig {} n dst).serving = true ∧
      (wMig {} n dst).requestPage 3 = .inl page0) ∧
    (wMig {} 0 0x200000).mdstHost 3 = false ∧ (wMig {} 0 0x200200).mdstHost 3 = true ∧
    ((({} : State).cset (pwb + 8) 1).serving = false ∧ ({} : State).requestPage 3 = .inr 5) ∧
    (wMig {} 0 0x200200).countsZero page0 = true ∧ (wMig {} 1 0x200200).countsZero page0 = false ∧
    (let m : Migrator := { page := some page0, hold := [0x10], target := 0x20 }
     ((wMig m 1 0).migrator 3).page = some page0 ∧ ((wMig m 1 0).migrator 3).copying = false ∧
     (let s : State := { wMig m 1 0 with now := us 49 }
      s.now < (s.migrator 3).since + us 50 ∧ (s.migrator 3).since + us 50 ≤ us 50) ∧
     ((wMig m 1 0).migrator 3).late = false ∧ ((wMig { m with late := true } 1 0).migrator 3).late = true ∧ (wMig m 0 0).countsZero page0 = true ∧ (wMig m 1 0).countsZero page0 = false ∧
     (tget [] (wMig m 1 0).indirect (stackDie page0.base)).length + page0.frames.length ≤ 1024 ∧
     (∀ f ∈ page0.frames, ∀ e ∈ tget [] (wMig m 1 0).indirect (stackDie page0.base), e.old ≠ f) ∧ page0.frames.Nodup) ∧
    (((wMig { page := some page0, copying := true } 1 0).migrator 3).copying = true) ∧
    (((wMig {} 0 0).pageOf ((wMig {} 0 0).mva 3).1 ((wMig {} 0 0).mva 3).2).map (·.1) = some page0) ∧
    (let s := wMig { folding := [[7], [0x10]] } 1 0
     [7] ∈ (s.migrator 3).folding ∧ (∀ k ∈ [7], s.busyOf k = 0) ∧ [0x10] ∈ (s.migrator 3).folding ∧ s.busyOf 0x10 ≠ 0) ∧
    (∀ n ∈ [0x8000000000000000, 0xC000000000000001],
      let v : Word := BitVec.ofNat 64 n
      bitOf v 63 = true ∧ bitOf (({} : State).cget (trb + 0x20)) 0 = false ∧ field v 61 2 ≠ 3) ∧
    (∀ p ∈ ({ invWait := [(0, 5)] } : State).invWait, ({ invWait := [(0, 5)] } : State).commandAlive p = false) := by
  and_intros <;> decide +kernel

theorem witness_CalendarEvents :
    (let s : State := { (({} : State).cset (calAddr 23 63 + 0x80) 4096).cset (calAddr 0 0 + 0x80) 4096 with
                        pcs := [(0, { refreshes := [1] }), (1535, { alerts := [1], refreshes := [2], rows := [(7, 4000)], alerting := [(8, 1)] })],
                        now := 0 }
     s.selfRefresh = false ∧ s.rowLimit 1535 = 4096 ∧ tget 0 (s.pc 1535).rows 7 + 95 < 4096 ∧ 4096 ≤ tget 0 (s.pc 1535).rows 7 + 96 ∧
     (¬ ∃ a ∈ (s.pc 1535).alerting, a.1 = 7) ∧ (∃ a ∈ (s.pc 1535).alerting, a.1 = 8) ∧ s.now / rotationTime + 1 ∈ (s.pc 1535).alerts ∧
     s.now / rotationTime + 1 ∉ (s.pc 0).alerts ∧ s.rowLimit 0 = 4096 ∧ s.now / rotationTime + 1 ∈ (s.pc 0).refreshes ∧
     s.now / rotationTime + 1 ∉ (s.pc 1).refreshes) ∧
    (let s : State := { now := 2 * rotationTime, pcs := [(1535, { alerts := [1], refreshes := [2], alerting := [(8, 1), (9, 2)] })] }
     (s.pc 1535).alerts = [1] ∧ 1 * rotationTime ≤ s.now ∧ s.selfRefresh = false ∧ (8, 1) ∈ (s.pc 1535).alerting ∧ (9, 1) ∉ (s.pc 1535).alerting ∧
     (s.pc 1535).refreshes.find? (fun r => decide (r * rotationTime ≤ s.now)) = some 2) ∧
    (let s : State := { now := 38 * rotationTime }
     38 * rotationTime * (max (s.pc 1535).due s.dueBase + 1) ≤ s.now ∧ s.selfRefresh = false ∧ s.cfield (calAddr 23 63 + 0x88) 0 4 = 0 ∧
     (s.cset (calAddr 23 63 + 0x88) 1).cfield (calAddr 23 63 + 0x88) 0 4 ≠ 0) ∧
    (let s : State := { now := 38 * rotationTime }
     (∀ r ∈ (s.pc 1535).refreshes, s.now < r * rotationTime) ∧ s.now % rotationTime = 0 ∧ s.selfRefresh = false ∧
     s.now / rotationTime ∉ (s.pc 1535).blocked ++ (s.pc 1535).alerts ++ (s.pc 1535).refreshes ∧
     s.cfield (calAddr 23 63 + 0x88) 0 4 < 8 ∧ s.slotWanted 1535 = false ∧ s.ownersCompute 1535 = true) := by
  and_intros <;> decide +kernel

/-! ### Power, links, root and Dusk -/

/-- A module with some registers set. -/
def wRegs (rs : List (Nat × Word)) : State := rs.foldl (fun (s : State) p => s.cset p.1 p.2) {}

theorem witness_ShadeAndRegions :
    (let c : ClusterSt := { curLevel := 2, lowFrom := some 0, droopUntil := some 0 }
     let s : State := { clusters := [(31, c)], now := us 2 }
     (s.cluster 31).evalAt ≤ s.now ∧ s.dusk.midnight = false ∧ s.sched.nodes = [] ∧
     s.cfield (cllimAddr 31) 0 16 < 901 ∧ (s.cluster 31).curLevel < 3 ∧ (s.cluster 31).curChange + ns 20 ≤ s.now ∧
     (s.cluster 31).thermal = 0 ∧ (s.cluster 31).lowFrom = some 0 ∧ (s.cluster 31).curLevel ≠ 0 ∧ 0 + us 2 ≤ s.now ∧
     (s.cluster 31).curChange + us 2 ≤ s.now ∧ 511 / 16 = 31 ∧ (s.cluster 31).droopUntil = some 0) ∧
    (∀ r ∈ [511, 543],
      let s : State := { switches := [(r, { phase := .off, halves := 0 })] }
      s.awake = true ∧ s.isShed (regionCluster r / 8) = false ∧ s.dieSilent (regionCluster r / 8) = false ∧
      (s.switchOf r).phase = .off ∧
      (r < 512 → s.coreOn (r / 16) = true ∧ ∀ i < 16, i / 4 < r % 16 / 4 → s.tileOn (16 * (r / 16) + i) = true)) ∧
    (∀ paused ∈ [0, us 20],
      let s : State := { switches := [(543, { phase := .switching, halves := 14, paused := paused })], now := ns 100 }
      (s.switchOf 543).phase = .switching ∧ (s.switchOf 543).halves < 16 ∧ (s.switchOf 543).pausedFrom = none ∧
      (s.switchOf 543).lastAt + ns 100 ≤ s.now ∧ (s.switchOf 543).paused = paused) ∧
    (∀ now ∈ [us 20 - 1, us 20],
      let s : State := { switches := [(543, { phase := .switching, halves := 14, pausedFrom := some 0 })], now := now }
      (s.switchOf 543).pausedFrom = some 0 ∧ (s.switchOf 543).paused + (s.now - 0) = now) ∧
    (let s : State := { switches := [(0, { phase := .switching, halves := 16 })], now := ns 100 }
     (s.switchOf 0).phase = .switching ∧ 16 ≤ (s.switchOf 0).halves ∧ (s.switchOf 0).lastAt + ns 100 ≤ s.now ∧
     ∀ d < 4, (s.migrator d).asked = false) := by
  and_intros <;> decide +kernel

/-- A message of FLOWSTAT for zone 7, with its CRC. -/
def flow7 : List Byte := let m : List Byte := [0x53, 7, 1, 0, 2, 0, 3, 0, 0]; m ++ [BitVec.ofNat 8 (crc8 m)]

theorem witness_PowerStatesAndZones :
    (∀ l ∈ [2, 3000],
      let s := { wRegs [(pwb, BitVec.ofNat 64 l)] with now := us 10000 }
      s.idle = true ∧ s.plState < s.deepest ∧ s.waking = false ∧ s.hoStart = none) ∧
    (∀ c ∈ [WakeCause.flit, .bar2, .lattol],
      let s := wRegs [(pwb + 8, 1)]
      s.plState = 1 ∧ s.dusk.midnight = false ∧ s.wakes c = true ∧ s.hoStart = none ∧ ∀ d < 4, (s.migrator d).asked = false) ∧
    (let s : State := { lowTicks := 4 }
     s.tickAt ≤ s.now ∧ s.dusk.midnight = false ∧ s.cfield (pwb + 0x10) 0 16 = 2800 ∧ 95 * 2800 < 100 * 2661 ∧ 100 * 2660 ≤ 95 * 2800 ∧
     4 ≤ s.lowTicks ∧ ({} : State).lowTicks < 4) ∧
    validFlow 7 flow7 = true ∧
    (let s : State := { zones := [(7, { sentAt := us 50000 })], now := us 50000 }
     s.now < (s.zone 7).sentAt + us 10000 ∧ (s.zone 7).lost = false ∧ (s.zone 7).lastValid + us 50000 ≤ s.now ∧
     (∀ i < 8, (s.zone i).target ≠ some 3) ∧ (s.zone 7).target = none ∧ 3 ∉ s.spares ∧ s.dusk.midnight = false) ∧
    (let s : State := { zones := [(7, { target := some 4 })] }
     s.zoneOf 4 = some 7 ∧ (∀ i < 8, (s.zone i).target ≠ some 3) ∧ (s.zone 7).target.isSome = true ∧ s.hoStart = none) := by
  and_intros <;> decide +kernel

theorem witness_LinksAndWarmReset_links :
    (let s := wRegs [(dlbAddr 0, 1), (dlbAddr 1 + 8, 1)]
     s.linkPaused 0 = true ∧ (s.linkOf 0).unacked = 0 ∧ s.linkPaused 3 = false ∧ (∃ k < 4, 3 / 4 * 4 + k ≠ 3 ∧ s.linkUp (3 / 4 * 4 + k) = true ∧
       s.linkPaused (3 / 4 * 4 + k) = false) ∧ s.linkPaused 23 = false) ∧
    (let s := wRegs [(dlbAddr 0, 1), (dlbAddr 2, 1), (dlbAddr 3, 1)]
     (∀ k < 4, 1 / 4 * 4 + k ≠ 1 → s.linkUp (1 / 4 * 4 + k) = false ∨ s.linkPaused (1 / 4 * 4 + k) = true) ∧ s.linkPaused 1 = false) ∧
    (let s := wRegs [(dlbAddr 23 + 8, 8)]
     bitOf (s.cget (dlbAddr 23 + 8)) 3 = true ∧ bitOf (s.cget (dlbAddr 0 + 8)) 3 = false ∧ bitOf (s.cget (dlbAddr 23 + 8)) 0 = false) ∧
    (let s := wRegs [(dlbAddr 23 + 0x18, 1)]
     spareFailure (s.cget (dlbAddr 0 + 0x20)) (s.cget (dlbAddr 0 + 0x18)) (s.cfield (dlbAddr 0 + 8) 24 4) (s.cfield (dlbAddr 0) 4 2) = 0 ∧
     spareFailure (s.cget (dlbAddr 23 + 0x20)) (s.cget (dlbAddr 23 + 0x18)) (s.cfield (dlbAddr 23 + 8) 24 4)
       (s.cfield (dlbAddr 23) 4 2) ≠ 0) ∧
    (let s := { wRegs [(dlbAddr 23 + 8, 4)] with now := us 100 }
     bitOf (s.cget (dlbAddr 23 + 8)) 2 = true ∧ s.now ≤ (s.linkOf 23).trainFrom + us 100 ∧
     (s.linkOf 23).trainFrom + us 100 ≤ s.now ∧ s.hoStart = none) ∧
    (let s : State := { links := [(23, { failing := 9, fails := 7 })] }
     (s.linkOf 23).failing = 9 ∧ 8 ≤ (s.linkOf 23).fails + 1 ∧ (s.linkOf 23).failing ≠ 10) := by
  and_intros <;> decide +kernel

/-- Die 3 in a phase of its warm reset, with DRCTL `c`. -/
def wDie (phase c : Nat) : State :=
  { wRegs [(drbAddr 3, BitVec.ofNat 64 c), (drbAddr 3 + 8, BitVec.ofNat 64 phase)] with
    dies := [(3, { writing := true })], now := us 200 }

theorem witness_LinksAndWarmReset_dies :
    (∀ p < 6, (wDie p 0).diePhase 3 = p ∧ (wDie p 0).hoStart = none) ∧
    ((wDie 0 1).fenceSet 3 = true ∧ (wDie 0 1).sched.nodes = []) ∧
    ((wDie 1 3).quiesceSet 3 = true ∧ (wDie 1 3).countsClear 3 = true ∧
      ((wDie 1 3).dieOfNum 3).limFrom + us ((wDie 1 3).cfield (drbAddr 3 + 0x10) 0 16) ≤ (wDie 1 3).now) ∧
    ((wDie 2 3).dieOfNum 3).writing = true ∧
    (wDie (2 + 2 ^ 9 + 2 ^ 10) 3).mayReset 3 = true ∧ (wDie 2 3).mayReset 3 = false ∧
    ((wDie 3 0).dieOfNum 3).resetFrom + us 200 ≤ (wDie 3 0).now ∧
    (∀ n ∈ dieLinks 3, (wRegs ((dieLinks 3).map (fun n => (dlbAddr n + 8, 1)))).linkUp n = true) := by
  and_intros <;> decide +kernel

theorem witness_RootServices :
    (bitOf (1 : Word) 0 = true ∧ ({} : State).noon = true ∧ ({} : State).ho.goAt = none ∧
      (∀ d < 4, ({} : State).isShed d = false ∧ ({} : State).diePhase d = 0) ∧ ({} : State).root.att = none ∧
      ({ ho := { goAt := some 0 } } : State).ho.goAt.isSome = true ∧ (∃ d < 4, (wDie 3 0).diePhase d ≠ 0)) ∧
    (({} : State).refusal (({} : State).readImages (({} : State).cget rob).toNat) = some 5) ∧
    (let s : State := { ho := { goAt := some 0 }, now := us 100000 }
     s.ho.goAt = some 0 ∧ s.hoStart = none ∧ s.now ≤ 0 + us 100000 ∧ 0 + us 100000 ≤ s.now ∧
     (∀ w < 587, (s.unit w).run ≠ .seqHalted)) ∧
    (let s := { wAt 586 { run := .running } with now := us 10000 }
     (s.unit 586).run = .running ∧ s.powered 586 = true ∧ (s.unit 586).kicked + us 10000 ≤ s.now) ∧
    (let s := wAt 512 { run := .seqHalted }
     (s.unit 512).run = .seqHalted ∧ s.hoStart = none ∧ s.ho.goAt = none ∧ (∀ c ∈ s.colls, c.ended.isSome = true) ∧
     512 = s.masterOf (clusterOf 512) ∧ 513 ≠ s.masterOf (clusterOf 513)) ∧
    (let s : State := { root := { att := some ([1], 64) } }
     s.root.att = some ([1], 64)) ∧ populated 64 = true ∧ populated (2 ^ 42) = false := by
  and_intros <;> decide +kernel

/-- Tile 511, of die 3, in the state `x`, and the power-fail controller. -/
def wDusk (x : Machine.Unit) (d : DuskSt) (rs : List (Nat × Word)) : State :=
  { wRegs rs with units := [(511, x)], dusk := d, now := us 500000 }

theorem witness_DuskAndTwilightBegin :
    (let s := { wDusk { run := .running } {} [] with clusters := [(31, { hotFrom := some 0 })], zones := [(4, { lost := true })] }
     tsorted s.units = true ∧ s.noon = true ∧ s.dusk.dawn = false ∧ s.ho.goAt = none ∧ (s.cluster 31).hotFrom = some 0 ∧ 0 + us 10000 ≤ s.now ∧
     (s.zone 4).lost = true ∧ (s.zone 4).lostFrom + us 500000 ≤ s.now ∧ (s.unit 511).run = .running) ∧
    (let s := wDusk { run := .running, duskDeadline := some (us 500000) } {} [(dcb + 0x30, 1)]
     (s.unit 511).run = .running ∧ s.dusk.shedding = none ∧ (s.unit 511).duskDeadline = some (us 500000) ∧
     (s.unit 511).budget = 0 ∧ us 500000 ≤ s.now ∧ s.noon = false ∧ ∃ p ∈ s.units, p.1 = 511) ∧
    (∀ x ∈ [({ run := .running } : Machine.Unit), {}],
      let s := wDusk x {} [(dcb + 0x20, 0x30123)]
      tsorted s.units = true ∧ s.dusk.sag = false ∧ s.noon = true ∧ s.serving = true ∧ s.dusk.shedding = none ∧
      (∀ n, (s.unit 511).team = some n → (s.node n).leaving = false) ∧
      (∀ e < 4, s.isShed e = false ∧ s.diePhase e = 0) ∧ 0 < s.cfield (dcb + 0x20) 16 3 ∧ s.cfield (dcb + 0x20) 0 4 = 3 ∧
      s.ho.goAt = none ∧ ((s.unit 511).run = .running ∨ ((s.unit 511).run = .idle ∧ (s.unit 511).mq = [] ∧
        (s.unit 511).q0 = [] ∧ (s.unit 511).q1 = []))) ∧
    (let s := wDusk { run := .running } { sag := true } [(dcb + 0x20, 0x30123)]
     s.dusk.sag = true ∧ s.noon = true ∧ s.serving = true ∧ s.dusk.shedding = none ∧ s.ho.goAt = none ∧
     s.nextShed = some 3 ∧ s.dusk.shedAt + us 1000 * s.cfield (dcb + 0x28) 0 16 ≤ s.now ∧
     ∃ p ∈ s.units, p.1 < 512 ∧ p.1 / 128 = 3 ∧ (s.unit p.1).run = .running) ∧
    (let s := wDusk { run := .halted, was := .running } { shed := [3] } [(dcb + 0x30, 0x800)]
     s.dusk.sag = false ∧ s.noon = true ∧ s.dusk.shed = [3] ∧ s.diePhase 3 = 0 ∧
     s.dusk.sagFrom + us 1000 * s.cfield (dcb + 0x28) 32 16 ≤ s.now ∧ s.colls = [] ∧ (s.unit 511).run = .halted ∧
     (s.unit 511).was = .running) ∧
    ({} : State).dusk.midnight = false ∧ (wDusk {} {} []).dusk.readyAt + us 100000 ≤ (wDusk {} {} []).now ∧
    (wDusk {} {} []).dusk.refreshed = none ∧
    (∀ w ∈ [false, true],
      let s := wDusk {} { refreshed := some 0, warn := w } []
      s.dusk.refreshed = some 0 ∧ 0 + us 100000 ≤ s.now ∧ s.dusk.midnight = false ∧ s.charging = !w) := by
  and_intros <;> decide +kernel

/-- The drain of a list with one entry of one unit, at 0x1000000 of the mapped first 1 GiB; the list lies at 0x200000. -/
def wDrain (d : DuskSt) : State :=
  { wDusk { run := .halted, team := some 1 } d [(dcb + 8, 0x200000), (dcb + 0x10, 1), (dcb + 0x30, 2)] with
    dram := mwrite (mwrite paged 0x200000 [0, 0, 0, 1]) 0x200008 [1], sched := { nodes := [(1, nodeOf 1 0 .resident)] }
    now := us 2500000 }

theorem witness_DrainMidnightAndDawn :
    (let s := wDusk { run := .halted } {} [(dcb + 0x30, 1)]
     s.duskPhase = 1 ∧ Memory.wf s.tier = true ∧
     ∀ p ∈ s.units, p.1 < 512 → (s.unit p.1).halted = true) ∧
    (let s := wDrain { sysDone := true, teams := [1] }
     s.duskPhase = 2 ∧ s.dusk.sysDone = true ∧ s.dusk.teams = [1] ∧ ∀ p ∈ s.teamContext 1, p.2.enginesStill s.now = true) ∧
    (let s := wDrain { sysDone := true, entries := [0] }
     s.dusk.sysDone = true ∧ s.dusk.teams = [] ∧ s.dusk.entries = [0] ∧ s.dusk.unit < plLen (s.listEntry 0) ∧
     s.unitPlace (s.listEntry 0) s.dusk.unit = some ⟨.dram, 0x1000000⟩ ∧ (∀ p ∈ s.dusk.drained, p.1 ≠ ⟨.dram, 0x1000000⟩) ∧
     s.roomFor 65536 = true) ∧
    (let s := wDrain { sysDone := true }
     s.duskPhase = 2 ∧ s.dusk.sysDone = true ∧ s.dusk.teams = [] ∧ s.dusk.entries = [] ∧ s.dusk.warnAt + us 2500000 ≤ s.now) ∧
    (let s := wDusk {} { midnight := true } []
     s.mayDawn = true ∧ s.dusk.dawn = false) ∧
    (let s := wDusk {} { midnight := true, dawn := true } [(dcb + 0x30, 5)]
     s.dusk.dawn = true ∧ s.dusk.midnight = true ∧ s.duskPhase = 5 ∧ s.judge = (5, none)) ∧
    ({} : State).dusk.midnight = false ∧ tsorted ({} : State).ctl = true := by
  and_intros <;> decide +kernel

/-- The drain of the team of record 1, which is swapped, in an area that lies at `a` TB. -/
def wDrainTeam (a : Nat) : State :=
  { wDrain { sysDone := true, teams := [1], area := a } with
    sched := { nodes := [(1, { nodeOf 1 0 .swapped with place := some .shadow })] } }

/-- The system state, whose bytes the spec leaves open, fits a free area, and so does a team where its area lies high enough. -/
theorem witness_DrainMidnightAndDawn_room :
    ((wDrain {}).roomFor (sysBytes (wDrain {}).drainImage).length = true ∧ (wDrain {}).duskPhase = 2 ∧ (wDrain {}).dusk.sysDone = false) ∧
    (let s := wDrainTeam (Config.teamEncoding []).length
     s.roomFor (Config.teamEncoding (s.teamContext 1)).length = true ∧ s.duskPhase = 2 ∧ s.dusk.sysDone = true ∧
     s.dusk.teams = [1] ∧ (s.node 1).phase = .swapped ∧ ∀ p ∈ s.teamContext 1, p.2.enginesStill s.now = true) := by
  refine ⟨⟨?_, by decide +kernel, by decide +kernel⟩, ?_, by decide +kernel, by decide +kernel, by decide +kernel, by decide +kernel,
    by decide +kernel⟩
  · have h : (wDrain {}).areaBase (wDrain {}).dusk.area + (wDrain {}).hibBytes = 1000000000000 := by decide +kernel
    have ho : (wDrain {}).dusk.off = 0 := rfl
    have hn : (sysBytes (wDrain {}).drainImage).length ≤ 12000000000 := List.length_take_le _ _
    simp only [State.roomFor, h, ho, decide_eq_true_eq]
    omega
  · have h : ∀ a, (wDrainTeam a).hibBytes = 1000000000000 := fun a => by
      have : (wDrainTeam a).hibBytes = (wDrainTeam 0).hibBytes := rfl
      rw [this]; decide +kernel
    have ho : ∀ a, (wDrainTeam a).dusk.off = 0 := fun _ => rfl
    have ha : ∀ a, (wDrainTeam a).dusk.area = a := fun _ => rfl
    have hc : ∀ a, (wDrainTeam a).teamContext 1 = [] := fun _ => rfl
    simp only [State.roomFor, State.areaBase, h, ho, ha, hc, decide_eq_true_eq]
    omega

/-! ### Steps, encodings and invariants -/

/-- The word of `add s4, s5, s6` at the program counter of tile 0, at reset. -/
def wAdd : State := State.reset.withFetchWord 32 0x00185101

/-- The state at the next issue of the unit in focus. -/
def atIssue (s : State) : State := { s.passTo s.cur.nextIssue with focus := s.focus }

theorem witness_StepRunsDecodedInstruction :
    ({ wAdd with agenda := [(us 1, .supplyCut)] } : State).agenda = (us 1, .supplyCut) :: [] ∧
    (wAdd.agenda = [] ∧ wAdd.focus < unitCount ∧ (atIssue wAdd).atEdge wAdd.focus = true) ∧
    ((atIssue wAdd).atBoundary wAdd.focus).2 = true ∧
    (let x := ((atIssue wAdd).atBoundary wAdd.focus).1.unit wAdd.focus
     let b := bundleOf (ofBytes 256 (mread x.code x.pc 32))
     b.valid 0 = true ∧ (∀ j < 6, j ≠ 0 → b.valid j = false) ∧ b.decodeSlot 0 = .ok (.add (sr 4 5 6)) ∧
     x.landDue.bars b = false) ∧
    (wAdd.copies = [] ∧ (∀ p ∈ wAdd.ports, p.2.pausing = []) ∧ (∀ m ∈ wAdd.migrators, m.2.page = none) ∧
      ∀ l ∈ wAdd.links, bitOf (wAdd.cget (dlbAddr l.1 + 8)) 3 = false) ∧
    ((wAdd.unit 0).run = .running ∧ (wAdd.unit 0).nextIssue ≤ wAdd.now ∧ wAdd.powered 0 = true ∧
      (({ wAdd with focus := 0 } : State).atBoundary 0).2 = true) := by
  and_intros <;> decide +kernel

theorem witness_StepRunsDecodedInstruction_agenda :
    ∃ t, exec .supplyCut (State.passTo { wAdd with agenda := [] } (us 1)) = .next t ∧ t.issue.snap = none :=
  ⟨_, rfl, rfl⟩

/-- A BAR of a team of one, and of a team whose second member has not arrived. -/
def wBar : State := State.reset.withFetchWord 32 (encodeScalar (.bar (sr 0 0 0))).get!.toNat
def wBarTeam : State :=
  { (wBar.modUnit 0 (fun x => { x with team := some 1, teamSize := 2 })) with
    units := [(0, { wBar.unit 0 with team := some 1, teamSize := 2 }), (1, { team := some 1, teamSize := 2, member := 1 })] }

theorem witness_StepRunsDecodedInstruction_bar :
    (let t := ((atIssue wBar).atBoundary 0).1
     ((atIssue wBar).atEdge 0 = true ∧ ((atIssue wBar).atBoundary 0).2 = true) ∧ (bundleOf (ofBytes 256 (mread (t.unit 0).code (t.unit 0).pc 32))).decodeSlot 0 = .ok (.bar (sr 0 0 0)) ∧
     (t.unit 0).landDue.executes (.bar (sr 0 0 0)) = true ∧ (t.setUnit 0 (t.unit 0).arrive).allArrived 0 = true) ∧
    (let t := ((atIssue wBarTeam).atBoundary 0).1
     (atIssue wBarTeam).atEdge 0 = true ∧ ((atIssue wBarTeam).atBoundary 0).2 = false ∧ (t.unit 0).executes (.bar (sr 0 0 0)) = true ∧
     (t.unit 0).barWaiting = true ∧ t.allArrived 0 = false ∧ t.issue.snap = none) := by
  and_intros <;> decide +kernel

theorem witness_StepRunsDecodedInstruction_waits :
    (State.reset.agenda = [] ∧ (atIssue State.reset).atEdge State.reset.focus = false ∧ (atIssue State.reset).issue.snap = none) ∧
    (let s := wAt 0 { run := .running, nextIssue := us 1, pc := 0x40000 }
     s.agenda = [] ∧ (atIssue s).atEdge s.focus = true ∧ ((atIssue s).atBoundary s.focus).2 = false ∧
     ((atIssue s).atBoundary s.focus).1.issue.snap = none) := by
  and_intros <;> decide +kernel

theorem witness_ScalarDecodeEncode :
    WellFormed (.movh (sl 55 0x3FFFF)) = true ∧ (∃ w, encodeScalar (.movh (sl 55 0x3FFFF)) = some w ∧
      decodeScalar w = .ok (.movh (sl 55 0x3FFFF))) := ⟨by decide, _, rfl, by decide⟩

theorem witness_SlotDecodeEncode :
    (WellFormed (.vfma .vb (vo 63 62 61 60 1 0)) = true ∧ (vectorOf (.vfma .vb (vo 63 62 61 60 1 0))).isSome = true ∧
      ((encodeVector (.vfma .vb (vo 63 62 61 60 1 0))).any (fun w => decide (decodeVector .vb w = .ok (.vfma .vb (vo 63 62 61 60 1 0))))) = true) ∧
    (WellFormed (.mm (mo 4 3 3 1 15 63)) = true ∧
      ((encodeMatrix (.mm (mo 4 3 3 1 15 63))).any (fun w => decide (decodeMatrix w = .ok (.mm (mo 4 3 3 1 15 63))))) = true) ∧
    (WellFormed (.cfence .c1 (co 0 63 0)) = true ∧ (copyOf (.cfence .c1 (co 0 63 0))).isSome = true ∧
      ((encodeCopy (.cfence .c1 (co 0 63 0))).any (fun w => decide (decodeCopy .c1 w = .ok (.cfence .c1 (co 0 63 0))))) = true) := by
  and_intros <;> decide

theorem witness_ResetCanonical : State.reset.ModuleMemory ∧ State.reset.TablesOrdered := by
  unfold State.ModuleMemory State.TablesOrdered
  exact ⟨⟨rfl, rfl, rfl, fun _ => rfl⟩, rfl, by decide +kernel⟩

theorem witness_StepKeeps : ∃ t, step State.reset = .next t := by
  have h : (match step State.reset with | .next _ => true | .fault _ => false | .refused _ => false) = true := by decide +kernel
  revert h
  cases step State.reset with
  | next t => exact fun _ => ⟨t, rfl⟩
  | fault f => exact fun h => nomatch h
  | refused f => exact fun h => nomatch h

/-! ### An image set -/

/-- SHA-384 of 32 zero bytes and of no byte. -/
def hashZero : List Byte :=
  [0xA3, 0x8F, 0xFF, 0x4B, 0xA2, 0x6C, 0x15, 0xE4, 0xAC, 0x9C, 0xDE, 0x8C, 0x03, 0x10, 0x3A, 0xC8, 0x90, 0x80, 0xFD, 0x47, 0x54, 0x5F, 0xDE, 0x94,
   0x46, 0xC8, 0xF1, 0x92, 0x72, 0x9E, 0xAB, 0x7B, 0xD0, 0x3A, 0x4D, 0x5C, 0x31, 0x87, 0xF7, 0x5F, 0xE2, 0xA7, 0x1B, 0x0E, 0xE5, 0x0A, 0x4A, 0x40]
def hashNone : List Byte :=
  [0x38, 0xB0, 0x60, 0xA7, 0x51, 0xAC, 0x96, 0x38, 0x4C, 0xD9, 0x32, 0x7E, 0xB1, 0xB1, 0xE3, 0x6A, 0x21, 0xFD, 0xB7, 0x11, 0x14, 0xBE, 0x07, 0x43,
   0x4C, 0x0C, 0xC7, 0xBF, 0x63, 0xF6, 0xE1, 0xDA, 0x27, 0x4E, 0xDE, 0xBF, 0xE7, 0x6F, 0x65, 0xFB, 0xD5, 0x1A, 0xD2, 0xF1, 0x48, 0x98, 0xB9, 0x5B]

/-- The header of an image of a KIND with 32 bytes of code, all zero, and no data (R446). -/
def imgHeader (kind : Byte) : List Byte :=
  [0x5A, 0x49, 0x4D, 0x47, kind, 2, 0, 0, 32] ++ List.replicate 15 0 ++ hashZero ++ List.replicate 8 0 ++ hashNone

/-- An image set in memory from address 0, where HOADDR points at reset. -/
def wImages : State :=
  { dram := mwrite (mwrite (mwrite [] 0 (imgHeader 1)) 16896 (imgHeader 2)) 33792 (imgHeader 3) }

/-- The last image of the set is found behind the other two and is well formed; the first two differ from it in KIND alone.
Whether signatures verify is a value of Config that nothing can prove. -/
theorem witness_RootServices_images :
    let t := wImages.readImages (wImages.cget rob).toNat
    imageFormed 3 (tget [] t 3) = true ∧ wImages.fusedSvn 3 = 0 := by decide +kernel

/-! ### One step -/

/-- R44, R129, R132: a step of the word of ADD issues one result for s4 of the sum of s5 and s6, which wraps. -/
theorem test_step_add :
    (match step (wAdd.modUnit 0 (fun x => { x with regs := { x.regs with s := [(5, { v := 0xFFFFFFFFFFFFFFFF }), (6, { v := 3 })] } })) with
     | .next t => ((t.unit 0).flight.map (fun r => (r.dest, r.lo)), (t.unit 0).pc) | _ => ([], 0)) =
      ([(.sreg 4, 2)], 32) := by decide +kernel

end Sys2Proof.Tests
end

/-! ## Landing of results and entry into the handler

What the landing of one result leaves in the registers and latches (R5, R33, R130), and which trap a boundary takes (R285 to
R289): the laws of the shared operations first, then the statement of O19. -/

section
namespace Sys2Proof.Machine

/-! ### Landing -/

@[simp] theorem Regs.landParts_nil (g : Regs) : g.landParts [] = g := rfl

theorem InFlight.parts_of_sreg {r : InFlight} {n : Nat} (h : r.dest = .sreg n) : r.parts = [] := by simp [InFlight.parts, h]

theorem InFlight.parts_of_preg {r : InFlight} {n : Nat} (h : r.dest = .preg n) : r.parts = [] := by simp [InFlight.parts, h]

theorem Regs.land_of_nw {r : InFlight} (g : Regs) (h : r.nw = true) : g.land r = g := by simp [Regs.land, h]

theorem Regs.land_of_sreg {r : InFlight} {n : Nat} (g : Regs) (hw : r.nw = false) (h : r.dest = .sreg n) :
    g.land r = { g with s := tput g.s n { v := r.lo.setWidth 64, d := r.d } } := by simp [Regs.land, hw, h]

theorem Regs.land_of_p0 {r : InFlight} (g : Regs) (h : r.dest = .preg 0) : g.land r = g := by simp [Regs.land, h]

theorem Regs.land_of_preg {r : InFlight} {n : Nat} (g : Regs) (hw : r.nw = false) (h : r.dest = .preg n) (hn : n ≠ 0) :
    g.land r = { g with p := setField g.p n (r.lo.setWidth 1), pd := setField g.pd n (ofBool 1 r.d) } := by
  simp [Regs.land, hw, h, hn]

@[simp] theorem Unit.landOne_regs (x : Unit) (r : InFlight) : (x.landOne r).regs =
    { x.regs.land r with fcsr := (x.regs.land r).fcsr ||| (r.flags.setWidth 64 <<< 8) } := by
  unfold Unit.landOne
  rcases r.group with - | - | - | - <;> rfl

@[simp] theorem Unit.landOne_flight (x : Unit) (r : InFlight) : (x.landOne r).flight = x.flight := by
  unfold Unit.landOne
  rcases r.group with - | - | - | - <;> rfl

theorem Unit.landOne_sl_of_scalar {r : InFlight} (x : Unit) (h : r.group = some .s) :
    (x.landOne r).sl = setLatch0 x.sl { v := r.lo.setWidth 64, d := r.d } := by simp [Unit.landOne, h]

/-- Where no result is due, nothing lands (R5). -/
theorem Unit.landDue_eq_self {x : Unit} (h : ∀ r ∈ x.flight, r.k ≠ 0) : x.landDue = x := by
  have hdue : x.flight.filter (fun r => r.k == 0) = [] := by simpa using h
  have hkept : x.flight.filter (fun r => r.k != 0) = x.flight := by simpa using h
  simp [Unit.landDue, hdue, hkept]

/-- A result that is due alone lands alone (R5). -/
theorem Unit.landDue_singleton {x : Unit} {r : InFlight} (hf : x.flight = [r]) (hk : r.k = 0) :
    x.landDue = Unit.landOne { x with flight := [], regs := x.regs.landParts r.parts } r := by
  simp [Unit.landDue, hf, hk]

/-- A scalar or predicate result without flags changes the registers as its write-back does (R130). -/
theorem Unit.landDue_regs_singleton {x : Unit} {r : InFlight} (hf : x.flight = [r]) (hk : r.k = 0) (hp : r.parts = [])
    (hfl : r.flags = 0) : x.landDue.regs = x.regs.land r := by simp [Unit.landDue_singleton hf hk, hp, hfl]

/-- A predicate other than p0 reads as it was written; the others read as before. -/
theorem Unit.preg_setField {x y : Unit} {n m : Nat} {b : BitVec 1} {d : Bool} (hp : y.regs.p = setField x.regs.p n b)
    (hpd : y.regs.pd = setField x.regs.pd n (ofBool 1 d)) (hn : n ≠ 0) (hm : m < 8) :
    y.preg m = if m = n then (bitOf b 0, d) else x.preg m := by
  have hd : bitOf (ofBool 1 d) 0 = d := by cases d <;> rfl
  unfold Unit.preg
  rw [hp, hpd, bitOf_setField _ _ _ _ hm, bitOf_setField _ _ _ _ hm]
  by_cases h : m = n
  · subst h
    simp [hn, hd]
  · have hout : ¬ (n ≤ m ∧ m < n + 1) := by omega
    simp only [if_neg h, if_neg hout]

section
variable {x : Unit} {r : InFlight} (hf : x.flight = [r]) (hk : r.k = 0)
include hf hk

/-- R33, R130: a scalar result is read from its register once it has landed, unless NW holds it back. -/
theorem Unit.landDue_sreg {n : Nat} (hd : r.dest = .sreg n) (hfl : r.flags = 0) :
    (tget {} x.landDue.regs.s n = if r.nw then tget {} x.regs.s n else { v := r.lo.setWidth 64, d := r.d }) ∧
    (∀ m, m ≠ n → tget {} x.landDue.regs.s m = tget {} x.regs.s m) ∧
    x.landDue.regs.p = x.regs.p ∧ x.landDue.regs.fcsr = x.regs.fcsr := by
  rw [landDue_regs_singleton hf hk (InFlight.parts_of_sreg hd) hfl]
  cases hw : r.nw with
  | true => simp [Regs.land_of_nw _ hw]
  | false =>
    rw [Regs.land_of_sreg _ hw hd]
    refine ⟨by simp, fun m hm => ?_, rfl, rfl⟩
    simp [hm]

/-- R130: a predicate result is read from its predicate once it has landed, unless NW holds it back or it is for p0. -/
theorem Unit.landDue_preg {n : Nat} (hd : r.dest = .preg n) (hn : n < 8) (hfl : r.flags = 0) :
    (x.landDue.preg n = if r.nw ∨ n = 0 then x.preg n else (bitOf (r.lo.setWidth 1) 0, r.d)) ∧
    (∀ m < 8, m ≠ n → x.landDue.preg m = x.preg m) ∧ x.landDue.regs.s = x.regs.s := by
  have hregs := landDue_regs_singleton hf hk (InFlight.parts_of_preg hd) hfl
  by_cases hkept : r.nw = true ∨ n = 0
  · have hland : x.regs.land r = x.regs := by
      rcases hkept with hw | rfl
      · exact Regs.land_of_nw _ hw
      · exact Regs.land_of_p0 _ hd
    have hpreg : ∀ m, x.landDue.preg m = x.preg m := by simp [Unit.preg, hregs, hland]
    rw [if_pos hkept]
    exact ⟨hpreg n, fun m _ _ => hpreg m, by rw [hregs, hland]⟩
  · obtain ⟨hw, h0⟩ := not_or.1 hkept
    rw [Regs.land_of_preg _ (by simpa using hw) hd h0] at hregs
    have hpreg : ∀ m < 8, x.landDue.preg m = if m = n then (bitOf (r.lo.setWidth 1) 0, r.d) else x.preg m :=
      fun m hm => preg_setField (by rw [hregs]) (by rw [hregs]) h0 hm
    rw [if_neg hkept, hpreg n hn, if_pos rfl, hregs]
    exact ⟨rfl, fun m hm hne => by rw [hpreg m hm, if_neg hne], rfl⟩

/-- R33: a result of the scalar group that has landed is read from latch 0, and is in flight no more. -/
theorem Unit.landDue_latch (hg : r.group = some .s) :
    x.landDue.sl.getD 0 {} = { v := r.lo.setWidth 64, d := r.d } ∧ x.landDue.flight = [] := by
  rw [landDue_singleton hf hk, landOne_sl_of_scalar _ hg]
  exact ⟨rfl, landOne_flight _ _⟩

end

/-! ### The first of the pending traps -/

theorem firstPend_mem {q : Pend} : ∀ {l : List Pend}, firstPend l = some q → q ∈ l
  | [], h => nomatch h
  | p :: ps, h => by
    unfold firstPend at h
    cases hps : firstPend ps with
    | none =>
      rw [hps] at h
      cases h
      exact List.mem_cons_self
    | some a =>
      have ha : a ∈ ps := firstPend_mem hps
      simp only [hps] at h
      split at h <;> cases h
      · exact List.mem_cons_self
      · exact List.mem_cons_of_mem p ha

theorem Pend.before_of_order_lt {p q : Pend} (h : p.order < q.order) : p.before q = true := by
  simp [Pend.before, Nat.ne_of_lt h, h]

theorem Pend.not_before_of_order_lt {p q : Pend} (h : p.order < q.order) : q.before p = false := by
  simp [Pend.before, Nat.ne_of_gt h, Nat.le_of_lt h]

/-- R285: a trap whose order is below that of every other is the first. -/
theorem firstPend_eq_of_least {p : Pend} :
    ∀ {l : List Pend}, p ∈ l → (∀ q ∈ l, q ≠ p → p.order < q.order) → firstPend l = some p
  | q :: qs, hp, hl => by
    have hrest : ∀ a ∈ qs, a ≠ p → p.order < a.order := fun a ha => hl a (List.mem_cons_of_mem q ha)
    unfold firstPend
    by_cases hqs : p ∈ qs
    · rw [firstPend_eq_of_least hqs hrest]
      by_cases hq : q = p
      · simp [hq]
      · simp [Pend.not_before_of_order_lt (hl q List.mem_cons_self hq)]
    · obtain rfl : p = q := (List.mem_cons.1 hp).resolve_right hqs
      cases ha : firstPend qs with
      | none => rfl
      | some a =>
        have hmem := firstPend_mem ha
        have hne : a ≠ p := fun e => hqs (e ▸ hmem)
        simp [Pend.before_of_order_lt (hrest a hmem hne)]

/-! ### Taking a trap -/

theorem Unit.collectFp_eq_self {x : Unit} (h : ∀ r ∈ x.flight, r.k ≠ 0 ∨ r.flags &&& r.en = 0) : x.collectFp = x := by
  have hnone : x.flight.filter InFlight.raises = [] := by
    simp only [List.filter_eq_nil_iff]
    intro r hr
    rcases h r hr with hk | hfl
    · simp [InFlight.raises, hk]
    · simp [InFlight.raises, hfl]
  simp [Unit.collectFp, hnone]

/-- A pending trap as a boundary outside a handler holds it: with this bundle as its resume point, where it was ready there and
had none (R286). -/
def Unit.heldPend (x : Unit) (p : Pend) : Pend :=
  if p.resume.isSome ∨ p.rollback ∨ !(x.readyAt p) then p else { p with resume := some x.pc }

theorem Unit.holdPends_pend (x : Unit) : x.holdPends.pend = x.pend.map x.heldPend := rfl

/-- Holding a trap gives it at most the resume point that it would have had. -/
theorem Unit.heldPend_eq (x : Unit) (p : Pend) : ∃ o, o.getD x.pc = p.resume.getD x.pc ∧ x.heldPend p = { p with resume := o } := by
  unfold Unit.heldPend
  split
  · exact ⟨p.resume, rfl, rfl⟩
  · next h =>
    have hnone : p.resume = none := by simpa using (not_or.1 h).1
    exact ⟨some x.pc, by simp [hnone], rfl⟩

@[simp] theorem Unit.heldPend_order (x : Unit) (p : Pend) : (x.heldPend p).order = p.order := by
  obtain ⟨o, -, h⟩ := x.heldPend_eq p
  rw [h]
  rfl

theorem Unit.readyAt_holdPends_heldPend (x : Unit) (p : Pend) : x.holdPends.readyAt (x.heldPend p) = x.readyAt p := by
  obtain ⟨o, -, h⟩ := x.heldPend_eq p
  rw [h]
  rfl

theorem Unit.readyAt_of_not_waiting_or_not_late {x : Unit} {p : Pend} (h : x.waiting = false ∨ p.late = false) :
    x.readyAt p = true := by
  rcases h with h | h <;> simp [Unit.readyAt, h]

/-- R285: the first trap stays the first of those that are ready once a boundary has held them. -/
theorem Unit.firstPend_holdPends {x : Unit} {p : Pend} (hp : p ∈ x.pend) (hr : x.readyAt p = true)
    (hl : ∀ q ∈ x.pend, q ≠ p → p.order < q.order) :
    firstPend (x.holdPends.pend.filter x.holdPends.readyAt) = some (x.heldPend p) := by
  apply firstPend_eq_of_least
  · rw [holdPends_pend]
    refine List.mem_filter.2 ⟨List.mem_map_of_mem hp, ?_⟩
    rw [readyAt_holdPends_heldPend, hr]
  · intro a ha hne
    rw [holdPends_pend] at ha
    obtain ⟨q, hq, rfl⟩ := List.mem_map.1 (List.mem_filter.1 ha).1
    have hqp : q ≠ p := fun e => hne (by rw [e])
    simpa using hl q hq hqp

/-- The unit at a boundary that takes `p`, as it enters the handler: the other traps are held (R285, R286). -/
def Unit.taking (x : Unit) (p : Pend) : Unit :=
  { x.holdPends with
    pend := dropPend (x.heldPend p) x.holdPends.pend
    duskTaken := x.duskTaken || p.cause == Cause.dusk || p.cause == Cause.twilightShed }

/-- R285, R289: outside a handler, where no result raises an enabled exception, a boundary enters the handler for the first
trap. -/
theorem Unit.takeReady_of_least {x : Unit} {p : Pend} (u : Nat) (hh : x.handler = false)
    (hfp : ∀ r ∈ x.flight, r.k ≠ 0 ∨ r.flags &&& r.en = 0) (hp : p ∈ x.pend) (hr : x.readyAt p = true)
    (hl : ∀ q ∈ x.pend, q ≠ p → p.order < q.order) :
    x.takeReady u = some ((x.taking p).enterTrap p.cause (p.resume.getD x.pc) p.val p.rollback) := by
  obtain ⟨o, ho, hheld⟩ := x.heldPend_eq p
  have hfirst := x.firstPend_holdPends hp hr hl
  unfold Unit.taking
  rw [hheld] at hfirst ⊢
  rw [← ho]
  simp only [Unit.takeReady, collectFp_eq_self hfp, hh, Bool.false_eq_true, if_false, hfirst]
  rfl

theorem State.unit_busyDown (keys : List Nat) (s : State) (u : Nat) : (s.busyDown keys).unit u = s.unit u := by
  induction keys generalizing s with
  | nil => rfl
  | cons k ks ih => exact ih _

/-- A unit at a boundary that takes a trap there and goes on running changes as the trap says; the other units stay as they
are. -/
theorem execTrapEntry_of_takeReady {s : State} {u : Nat} {y : Unit} (hu : u < unitCount) (he : s.atEdge u = true)
    (hy : (s.unit u).takeReady u = some y) (hrun : y.run = .running) :
    ∃ t, execTrapEntry u s = .next t ∧ ∀ v, t.unit v = if v = u then y else s.unit v := by
  have hsettle : y.settle = y := by simp [Unit.settle, hrun]
  simp only [execTrapEntry, if_neg (Nat.not_le.2 hu), he, State.takeTrap, hy, hsettle, Option.getD_some]
  exact ⟨_, rfl, fun v => by rw [State.unit_setUnit, State.unit_busyDown]⟩

/-! ### RESULT_LANDING -/

theorem execResultLanding_of_lt {u : Nat} (s : State) (hu : u < unitCount) :
    execResultLanding u s = .next (s.inIssue u Unit.landDue) := if_neg (Nat.not_le.2 hu)

/-! ### O19 -/

/-- Settles O19: the laws above, for a result alone in flight and for the first of the pending traps. -/
theorem resultsLandAndBoundaries : Obligations.ResultsLandAndBoundaries := by
  unfold Obligations.ResultsLandAndBoundaries
  refine ⟨fun x r v d hf hg hlo hd hfl => ?_, fun u x s hu hfocus hsnap => ?_, fun u s hu hsnap => ?_,
    fun u p s hu hrun hh hpow hnext hfp hrb hp hl hready => ?_⟩
  · have hv : r.lo.setWidth 64 = v := by simp [hlo]
    have hbit : bitOf (r.lo.setWidth 1) 0 = bitOf v 0 := by simp [hlo, bitOf]
    refine ⟨fun n hdest hk => ?_, fun n hdest hn hk => ?_, fun hk => ?_, fun hk => ?_⟩
    · simpa only [hv, hd] using Unit.landDue_sreg hf hk hdest hfl
    · simpa only [hbit, hd] using Unit.landDue_preg hf hk hdest hn hfl
    · simpa only [hv, hd] using Unit.landDue_latch hf hk hg
    · rw [Unit.landDue_eq_self (by simpa [hf] using hk)]
      exact ⟨rfl, hf, rfl⟩
  · change execResultLanding u s = _
    rw [execResultLanding_of_lt s hu, State.inIssue_of_some _ hsnap hfocus]
  · change execResultLanding u s = _
    rw [execResultLanding_of_lt s hu, State.inIssue_of_none _ _ hsnap]
  · have hedge : s.atEdge u = true := by simp [State.atEdge, Unit.issues, hrun, hnext, hpow]
    have htake := Unit.takeReady_of_least u hh hfp hp (Unit.readyAt_of_not_waiting_or_not_late hready) hl
    rw [hrb] at htake
    obtain ⟨t, hexec, hunit⟩ := execTrapEntry_of_takeReady hu hedge htake hrun
    refine ⟨t, hexec, fun v hv => by rw [hunit, if_neg hv], ?_⟩
    rw [hunit, if_pos rfl]
    exact ⟨rfl, rfl, rfl, rfl, rfl, rfl⟩

end Sys2Proof.Machine
end

/-! ## Steps and boundaries

How time goes on where nothing is under way, what BUNDLE_ISSUE does at a boundary, and how the slots of a bundle in issue run:
the laws of the step first, then the statement of O55. -/

section
namespace Sys2Proof.Machine

/-! ### Time going on -/

/-- A fold whose every step leaves the start as it is does so as a whole. -/
theorem foldl_eq_self {α β : Type} {f : β → α → β} {b : β} : ∀ {l : List α}, (∀ a ∈ l, f b a = b) → l.foldl f b = b
  | [], _ => rfl
  | a :: l, h => by
    rw [List.foldl_cons, h a List.mem_cons_self]
    exact foldl_eq_self fun c hc => h c (List.mem_cons_of_mem a hc)

/-- A migrator as time goes on to `t` (R403). -/
def State.lateAt (s : State) (t : Nat) (m : Migrator) : Migrator :=
  match m.page with
  | none => m
  | some x => if s.now < m.since + us 50 ∧ m.since + us 50 ≤ t then { m with late := !(s.countsZero x) } else m

theorem State.countsAt_eq (s : State) (t : Nat) :
    s.countsAt t = { s with migrators := s.migrators.map (fun p => (p.1, s.lateAt t p.2)) } := rfl

theorem State.lateAt_of_idle {s : State} {m : Migrator} (t : Nat) (h : m.page = none) : s.lateAt t m = m := by
  simp [State.lateAt, h]

theorem State.countsAt_of_idle {s : State} (t : Nat) (h : ∀ m ∈ s.migrators, m.2.page = none) : s.countsAt t = s := by
  have hmap : s.migrators.map (fun p => (p.1, s.lateAt t p.2)) = s.migrators := by
    refine (List.map_congr_left fun p hp => ?_).trans (List.map_id _)
    rw [State.lateAt_of_idle t (h p hp)]
    rfl
  rw [State.countsAt_eq, hmap]

theorem State.testsAt_of_untested {s : State} (t : Nat) (h : ∀ l ∈ s.links, bitOf (s.cget (dlbAddr l.1 + 8)) 3 = false) :
    s.testsAt t = s := by
  refine foldl_eq_self fun l hl => ?_
  have hl := h l hl
  simp [lkstat, hl]

theorem State.buffersAt_of_unpaused {s : State} (t : Nat) (h : ∀ p ∈ s.ports, p.2.pausing = []) : s.buffersAt t = s := by
  have hp : s.ports.flatMap (fun p => p.2.pausing.map (fun c => (p.1, c))) = [] := by simpa using h
  unfold State.buffersAt
  rw [hp]
  rfl

theorem State.advance_of_no_copies {s : State} (t : Nat) (h : s.copies = []) : s.advance t = { s with now := max s.now t } := by
  simp [State.advance, h, State.goOn]

/-- Where nothing is under way, only the time changes. -/
theorem State.passTo_of_quiet {s : State} (t : Nat) (hc : s.copies = []) (hp : ∀ p ∈ s.ports, p.2.pausing = [])
    (hm : ∀ m ∈ s.migrators, m.2.page = none) (hl : ∀ l ∈ s.links, bitOf (s.cget (dlbAddr l.1 + 8)) 3 = false) :
    s.passTo t = { s with now := max s.now t } := by
  unfold State.passTo
  rw [State.countsAt_of_idle t hm, State.testsAt_of_untested t hl, State.buffersAt_of_unpaused t hp,
    State.advance_of_no_copies t hc]

/-! ### BUNDLE_ISSUE -/

section
variable {s t : State} {u : Nat} (hu : u < unitCount)
include hu

theorem execBundleIssue_of_not_edge (he : ({ s with focus := u } : State).atEdge u = false) :
    execBundleIssue u s = .next { s with focus := u } := by
  simp [execBundleIssue, Nat.not_le.2 hu, he]

theorem execBundleIssue_of_held (he : ({ s with focus := u } : State).atEdge u = true)
    (hb : ({ s with focus := u } : State).atBoundary u = (t, false)) : execBundleIssue u s = .next t := by
  simp [execBundleIssue, Nat.not_le.2 hu, he, hb]

theorem execBundleIssue_of_issues (he : ({ s with focus := u } : State).atEdge u = true)
    (hb : ({ s with focus := u } : State).atBoundary u = (t, true)) :
    execBundleIssue u s = .next (t.openBundle u
      (if (t.unit u).landDue.bars (t.unit u).fetch then (t.unit u).arrive else t.unit u) (t.unit u).fetch) := by
  simp [execBundleIssue, Nat.not_le.2 hu, he, hb]

end

/-! ### A bundle in issue -/

/-- A bundle with one valid slot holds the instruction of that slot alone. -/
theorem instrsOf_of_single {b : Bundle} {k : Nat} {i : Instr} (hk : k < 6) (hv : b.valid k = true)
    (ho : ∀ j < 6, j ≠ k → b.valid j = false) (hd : b.decodeSlot k = .ok i) : instrsOf b = [(k, i)] := by
  have hslots : instrsOf b = (List.range 6).filterMap (fun j => if j = k then some (k, i) else none) := by
    refine List.filterMap_congr fun j hj => ?_
    by_cases h : j = k
    · subst h
      simp [hv, hd]
    · simp [ho j (List.mem_range.1 hj) h, h]
  rw [hslots]
  interval_cases k <;> rfl

@[simp] theorem Unit.arrive_fetch (x : Unit) : x.arrive.fetch = x.fetch := by
  unfold Unit.arrive
  split <;> rfl

@[simp] theorem Unit.arrive_marks (x : Unit) (b : Bundle) : x.arrive.marks b = x.marks b := by
  unfold Unit.arrive
  split <;> rfl

theorem runSlots_cons_of_next {i : Instr} {s t : State} (is : List Instr) (h : exec i s = .next t) :
    runSlots (i :: is) s = runSlots is t := by simp [runSlots, h]

theorem runSlots_singleton (i : Instr) (s : State) : runSlots [i] s = exec i s := by
  unfold runSlots
  cases exec i s <;> rfl

section
variable (s : State) {u : Nat} (x : Unit) (b : Bundle)

@[simp] theorem State.openBundle_focus : (s.openBundle u x b).focus = u := rfl

@[simp] theorem State.openBundle_slots : (s.openBundle u x b).issue.slots =
    (if x.marks b then [.restartMark u] else []) ++ [.resultLanding u] ++ (instrsOf b).map (·.2) := rfl

/-- An opened bundle leaves what it is fetched from as it was. -/
theorem State.openBundle_fetch : ((s.openBundle u x b).unit u).fetch = x.fetch := by
  change ((s.setUnit u _).unit u).fetch = _
  rw [State.unit_setUnit, if_pos rfl]
  rfl

theorem State.openBundle_marks (c : Bundle) : ((s.openBundle u x b).unit u).marks c = x.marks c := by
  change ((s.setUnit u _).unit u).marks c = _
  rw [State.unit_setUnit, if_pos rfl]
  rfl

/-- The state in which the slots of an opened bundle run: its mark has committed, and what is due in it has landed (R5, R291). -/
def State.opened (s : State) (u : Nat) (x : Unit) (b : Bundle) : State :=
  let o := s.openBundle u x b
  (if x.marks b then o.inIssue u Unit.commitMark else o).inIssue u Unit.landDue

/-- The slots of an opened bundle run in the state in which its mark has committed and its results have landed. -/
theorem runSlots_openBundle (hu : u < unitCount) (hb : x.fetch = b) :
    runSlots (s.openBundle u x b).issue.slots (s.openBundle u x b) = runSlots ((instrsOf b).map (·.2)) (s.opened u x b) := by
  have hland : ∀ t : State, exec (.resultLanding u) t = .next (t.inIssue u Unit.landDue) := fun t =>
    execResultLanding_of_lt t hu
  rw [State.openBundle_slots, List.append_assoc, State.opened]
  by_cases hm : x.marks b = true
  · have hmark : exec (.restartMark u) (s.openBundle u x b) = .next ((s.openBundle u x b).inIssue u Unit.commitMark) := by
      change execRestartMark u _ = _
      simp [execRestartMark, Nat.not_le.2 hu, State.openBundle_fetch, State.openBundle_marks, hb, hm]
    rw [if_pos hm, List.singleton_append, runSlots_cons_of_next _ hmark, List.singleton_append,
      runSlots_cons_of_next _ (hland _)]
    simp [hm]
  · rw [if_neg hm, List.nil_append, List.singleton_append, runSlots_cons_of_next _ (hland _)]
    simp [hm]

/-- A bundle in issue with one slot runs the instruction of that slot and ends. -/
theorem finish_openBundle {k : Nat} {i : Instr} (hu : u < unitCount) (hb : x.fetch = b) (hi : instrsOf b = [(k, i)]) :
    finish (s.openBundle u x b) = match exec i (s.opened u x b) with
      | .next t => .next t.finishBundle
      | .fault f => .fault f
      | .refused f => .refused f := by
  have hrun := runSlots_openBundle s x b hu hb
  rw [hi, List.map_singleton, runSlots_singleton] at hrun
  unfold finish
  rw [hrun]
  rfl

end

/-! ### Steps -/

theorem step_of_agenda {s t : State} {c : Nat} {i : Instr} {rest : List (Nat × Instr)} (ha : s.agenda = (c, i) :: rest)
    (he : exec i (State.passTo { s with agenda := rest } c) = .next t) (ht : t.issue.snap = none) : step s = .next t := by
  simp [step, ha, stepOf, he, finish, ht]

theorem step_of_issue {s t : State} (ha : s.agenda = []) (he : execBundleIssue s.focus s.toIssue = .next t)
    (ht : t.issue.snap.isSome = true) : step s = finish t := by
  have he : exec (.bundleIssue s.focus) s.toIssue = .next t := he
  simp only [step, ha, he, ht, if_true]

theorem step_of_no_issue {s t : State} (ha : s.agenda = []) (he : execBundleIssue s.focus s.toIssue = .next t)
    (ht : t.issue.snap = none) : step s = .next (t.passTo (t.now + period t.focus)) := by
  have he : exec (.bundleIssue s.focus) s.toIssue = .next t := he
  simp [step, ha, he, ht]

/-! ### O55 -/

theorem Unit.bars_of_single {x : Unit} {b : Bundle} {k : Nat} {i : Instr} (hi : instrsOf b = [(k, i)])
    (h : (∀ o, i ≠ .bar o) ∨ x.executes i = false) : x.bars b = false := by
  unfold Unit.bars
  rw [hi, List.any_cons, List.any_nil, Bool.or_false]
  split
  · next o ho =>
    rcases h with h | h
    · exact absurd ho (h o)
    · exact h
  · rfl

theorem Unit.bars_of_bar {x : Unit} {b : Bundle} {k : Nat} {o : SR} (hi : instrsOf b = [(k, .bar o)])
    (h : x.executes (.bar o) = true) : x.bars b = true := by
  simp [Unit.bars, hi, h]

/-- Settles O55: the laws above, for a step with an agenda, for a bundle that issues and for one that does not. -/
theorem stepRunsDecodedInstruction : Obligations.StepRunsDecodedInstruction := by
  unfold Obligations.StepRunsDecodedInstruction
  refine ⟨fun s t c i rest ha he ht => step_of_agenda ha he ht, fun s c hc hp hm hl => State.passTo_of_quiet c hc hp hm hl,
    ?_, ?_, ?_⟩
  · intro s t k i ha hu s0 he hb x b runsIn hk hv ho hd
    have hi : instrsOf b = [(k, i)] := instrsOf_of_single hk hv ho hd
    have hissue : execBundleIssue s.focus s.toIssue =
        .next (t.openBundle s.focus (if x.landDue.bars b then x.arrive else x) b) := execBundleIssue_of_issues hu he hb
    have hruns : ∀ y : Unit, y.fetch = b → (∀ c, y.marks c = x.marks c) →
        execBundleIssue s.focus s.toIssue = .next (t.openBundle s.focus y b) → runsIn y := by
      intro y hy hmarks hexec
      have hstep := (step_of_issue ha hexec rfl).trans (finish_openBundle t y b hu hy hi)
      unfold State.opened at hstep
      rw [hmarks] at hstep
      exact hstep
    refine ⟨fun hno => hruns x rfl (fun _ => rfl) ?_, fun o hbar hex => hruns x.arrive ?_ ?_ ?_⟩
    · rw [hissue, Unit.bars_of_single hi hno]
      rfl
    · exact x.arrive_fetch
    · exact x.arrive_marks
    · subst hbar
      rw [hissue, Unit.bars_of_bar hi hex]
      rfl
  · intro u s t hu hrun hnext hpow hb x b
    have hedge : ({ s with focus := u } : State).atEdge u = true := by
      have hunit : ({ s with focus := u } : State).unit u = s.unit u := rfl
      have hpow' : ({ s with focus := u } : State).powered u = s.powered u := rfl
      simp [State.atEdge, Unit.issues, hunit, hpow', hrun, hnext, hpow]
    exact execBundleIssue_of_issues hu hedge hb
  · intro s t ha hu s0 hcase ht
    refine step_of_no_issue ha ?_ ht
    rcases hcase with ⟨he, hb⟩ | ⟨he, rfl⟩
    · exact execBundleIssue_of_held hu he hb
    · exact execBundleIssue_of_not_edge hu he

end Sys2Proof.Machine
end

/-! ## Privilege

A slot instruction that stands alone in a mode that refuses it (R42, R111): the law of the check, the modes of the units, then
the statement of O20. -/

section
namespace Sys2Proof.Machine

/-! ### Check 5 of an instruction that stands alone -/

/-- The TRAPVAL of OP, bit 0 of slot 0 (R112, log entry 82). -/
theorem fieldVal_op : fieldVal 0 0 = 0x1000 := rfl

/-- Checks 3 and 4 stand before check 5, which names OP where the mode refuses the instruction. -/
theorem slotFault_of_refused {s : State} {u : Nat} {i : Instr} (hslot : slotOf i = 0)
    (hprof : profileFaults (unitKind u) i = []) (henc : encodingFaults i = [])
    (hpriv : privilegeFaults (modeOf u (s.unit u)) i = [0]) : s.slotFault u i = some (.privilege, 0x1000) := by
  have hval : fieldVal 0 (leastOf 0 [0]) = 0x1000 := fieldVal_op
  simp only [State.slotFault, firstSome, id, hslot, hprof, henc, hpriv, hval]

theorem slotStep_of_fault {s : State} {i : Instr} {eff : State → State} {c : Cause} {v : Word} (hu : s.focus < unitCount)
    (hsnap : s.issue.snap = none) (hf : s.slotFault s.focus i = some (c, v)) :
    s.slotStep i eff = .next (s.modCur (fun x => x.syncTrap s.focus c v)) := by
  simp [State.slotStep, Nat.not_le.2 hu, hsnap, hf]

/-- A slot instruction that its mode refuses traps with PRIVILEGE and has no effect of its own. -/
theorem slotStep_of_refused {s : State} {i : Instr} {eff : State → State} (hu : s.focus < unitCount)
    (hsnap : s.issue.snap = none) (hslot : slotOf i = 0) (hprof : profileFaults (unitKind s.focus) i = [])
    (henc : encodingFaults i = []) (hpriv : privilegeFaults (modeOf s.focus s.cur) i = [0]) :
    s.slotStep i eff = .next (s.modCur (fun x => x.syncTrap s.focus .privilege 0x1000)) :=
  slotStep_of_fault hu hsnap (slotFault_of_refused hslot hprof henc hpriv)

theorem encodingFaults_of_wellFormed {i : Instr} (h : WellFormed i = true) : encodingFaults i = [] := by
  have hempty : (encodingFaults i).isEmpty = true := (Bool.and_eq_true_iff.1 h).2
  simpa using hempty

/-! ### Modes -/

theorem modeOf_tile_task {u : Nat} {x : Unit} (hu : u < 512) (hh : x.handler = false) : modeOf u x = .task := by
  simp [modeOf, isTile, hu, hh]

theorem modeOf_tile_handler {u : Nat} {x : Unit} (hu : u < 512) (hh : x.handler = true) : modeOf u x = .handler := by
  simp [modeOf, isTile, hu, hh]

theorem modeOf_tile_ne_service {u : Nat} {x : Unit} (hu : u < 512) : modeOf u x ≠ .service := by
  cases hh : x.handler with
  | false => simp [modeOf_tile_task hu hh]
  | true => simp [modeOf_tile_handler hu hh]

theorem modeOf_sequencer {u : Nat} {x : Unit} (hu : 512 ≤ u) : modeOf u x = .service := by
  simp [modeOf, isTile, Nat.not_lt.2 hu]

/-! ### O20 -/

/-- Settles O20: each mode refuses the instruction at check 5, which is the first of its checks that fails. -/
theorem privilegeTraps : Obligations.PrivilegeTraps := by
  unfold Obligations.PrivilegeTraps
  intro s hsnap
  have htile : s.focus < 512 → s.focus < unitCount := fun h => Nat.lt_trans h (by decide)
  refine ⟨fun hu hh => ?_, fun o hu hh hwf => ?_, fun o hu hwf => ?_, fun o hu hwf => ?_, fun o hseq hu hwf => ?_,
    fun hseq hu => ?_⟩
  · have htask : modeOf s.focus s.cur = .task := modeOf_tile_task hu hh
    constructor
    · change execEret s = _
      exact slotStep_of_refused (htile hu) hsnap rfl rfl rfl (by rw [htask]; rfl)
    · change execDuskdone s = _
      exact slotStep_of_refused (htile hu) hsnap rfl rfl rfl (by rw [htask]; rfl)
  · have hhandler : modeOf s.focus s.cur = .handler := modeOf_tile_handler hu hh
    change execTrap o s = _
    exact slotStep_of_refused (htile hu) hsnap rfl rfl (encodingFaults_of_wellFormed hwf) (by rw [hhandler]; rfl)
  · have hmode : modeOf s.focus s.cur ≠ .service := modeOf_tile_ne_service hu
    change execSld o s = _
    exact slotStep_of_refused (htile hu) hsnap rfl rfl (encodingFaults_of_wellFormed hwf)
      (by simp [privilegeFaults, need, hmode])
  · have hmode : modeOf s.focus s.cur ≠ .service := modeOf_tile_ne_service hu
    change execSst o s = _
    exact slotStep_of_refused (htile hu) hsnap rfl rfl (encodingFaults_of_wellFormed hwf)
      (by simp [privilegeFaults, need, hmode])
  · have hservice : modeOf s.focus s.cur = .service := modeOf_sequencer hseq
    change execXfer o s = _
    exact slotStep_of_refused hu hsnap rfl rfl (encodingFaults_of_wellFormed hwf) (by rw [hservice]; rfl)
  · have hservice : modeOf s.focus s.cur = .service := modeOf_sequencer hseq
    change execDuskdone s = _
    exact slotStep_of_refused hu hsnap rfl rfl rfl (by rw [hservice]; rfl)

end Sys2Proof.Machine
end

/-! ## Barrier and transfer

What an arrival leaves as it was and when a wait is over (R30, R162), and what XFER puts in transfer (R89, R163): the laws of
both operations, then the statement of O9. -/

section
namespace Sys2Proof.Machine

/-! ### The unit in focus -/

theorem State.onlyFocus_refl (s : State) : s.onlyFocus s := ⟨rfl, fun _ _ => rfl⟩

theorem State.onlyFocus.focus {s t : State} (h : s.onlyFocus t) : t.focus = s.focus := by
  have hfocus := congrArg State.focus h.1
  exact hfocus

theorem State.onlyFocus.modCur {s t : State} (h : s.onlyFocus t) (f : Unit → Unit) : s.onlyFocus (t.modCur f) := by
  refine ⟨h.1, fun v hv => ?_⟩
  rw [State.unit_modCur, h.focus, if_neg hv, h.2 v hv]

/-! ### The barrier -/

/-- The barrier at which a unit waits, or else the one at which it arrives next (R162). -/
def Unit.barNext (x : Unit) : Nat := if x.barWaiting then x.barIssued else x.barIssued + 1

section
variable (x : Unit)

@[simp] theorem Unit.arrive_barIssued : x.arrive.barIssued = x.barNext := by
  unfold Unit.arrive Unit.barNext
  split <;> rfl

@[simp] theorem Unit.arrive_barWaiting : x.arrive.barWaiting = true := by
  unfold Unit.arrive
  split
  · next h => exact h
  · rfl

@[simp] theorem Unit.arrive_regs : x.arrive.regs = x.regs := by
  unfold Unit.arrive
  split <;> rfl

@[simp] theorem Unit.arrive_team : x.arrive.team = x.team := by
  unfold Unit.arrive
  split <;> rfl

end

theorem State.teamUnits_congr {s t : State} (u : Nat) (h : ∀ v, (t.unit v).team = (s.unit v).team) :
    t.teamUnits u = s.teamUnits u := by simp only [State.teamUnits, h]

theorem State.teamUnits_arrive (s : State) (u : Nat) : (s.modCur Unit.arrive).teamUnits u = s.teamUnits u := by
  refine State.teamUnits_congr u fun v => ?_
  rw [State.unit_modCur]
  split
  · next h => rw [Unit.arrive_team, h]; rfl
  · rfl

/-- R162: with the arrival of the unit in focus counted, every member has arrived exactly when every other one has, or has
executed END in task mode. -/
theorem State.allArrived_arrive_iff (s : State) : (s.modCur Unit.arrive).allArrived s.focus = true ↔
    ∀ v ∈ s.teamUnits s.focus, v ≠ s.focus → s.cur.barNext ≤ (s.unit v).barIssued ∨ (s.unit v).pastEnd = true := by
  have hn : ((s.modCur Unit.arrive).unit s.focus).barIssued = s.cur.barNext := by simp
  simp only [State.allArrived, hn, State.teamUnits_arrive, List.all_eq_true, Bool.or_eq_true, decide_eq_true_eq]
  refine forall₂_congr fun v _ => ?_
  by_cases hv : v = s.focus
  · subst hv
    simp
  · simp [hv]

/-- What BAR does to the module (R162). -/
def State.barEffect (s : State) : State :=
  if (s.modCur Unit.arrive).allArrived s.focus then
    (s.modCur Unit.arrive).modCur (fun x => { x with barWaiting := false })
  else s.modCur Unit.arrive

theorem exec_bar_of_runs {o : SR} {s : State} (h : s.runs (.bar o)) : exec (.bar o) s = .next s.barEffect := by
  change execBar o s = _
  exact slotStep_runs h

theorem State.barEffect_onlyFocus (s : State) : s.onlyFocus s.barEffect := by
  unfold State.barEffect
  split
  · exact (s.onlyFocus_refl.modCur _).modCur _
  · exact s.onlyFocus_refl.modCur _

theorem State.barEffect_barIssued (s : State) : s.barEffect.cur.barIssued = s.cur.barNext := by
  unfold State.barEffect
  split <;> simp

theorem State.barEffect_regs (s : State) : s.barEffect.cur.regs = s.cur.regs := by
  unfold State.barEffect
  split <;> simp

theorem State.barEffect_barWaiting (s : State) :
    s.barEffect.cur.barWaiting = !(s.modCur Unit.arrive).allArrived s.focus := by
  unfold State.barEffect
  split
  · next h => simp [h]
  · next h => simp [h]

/-! ### XFER -/

theorem exec_xfer_of_runs {o : SR} {s : State} {t : XTarget} (h : s.runs (.xfer o)) (ht : xferTarget (s.sval o.a) = some t) :
    exec (.xfer o) s = .next (s.xfer s.focus t (s.sval o.b).toNat) := by
  change execXfer o s = _
  refine (slotStep_runs h).trans ?_
  change Host.Outcome.next (match xferTarget (s.sval o.a) with
    | none => s
    | some t => s.xfer s.focus t (s.sval o.b).toNat) = _
  rw [ht]

theorem State.xfer_self (s : State) (u : Nat) (t : XTarget) : s.xfer u t (s.unit u).member = s := if_pos rfl

theorem State.xfer_buf {s : State} {u m : Nat} (b : Buf) (a : Nat) (hm : m ≠ (s.unit u).member) :
    s.xfer u (.buf b a) m =
      s.modUnit u (fun x => { x with own := tput x.own (ownIndex b a) (.transfer m x.serial) }) := if_neg hm

/-- An entry handed over by one member to another from a command serial on (R89). -/
def Region.inTransfer (src dst since : Nat) (r : Region) : Region := { r with st := .transfer src dst since }

theorem State.xfer_space {s : State} {u m : Nat} (seg : Bool) (a : Nat) (hm : m ≠ (s.unit u).member) :
    s.xfer u (.space seg a) m = s.setCluster (clusterOf u) { s.cluster (clusterOf u) with
      regions := regionMap (Region.inTransfer (s.unit u).member m (s.unit u).serial) seg (s.unit u).card.aspace a
        (s.cluster (clusterOf u)).regions } := if_neg hm

/-- A change that leaves the range of an entry is read where the entry was found (R86). -/
theorem find_regionMap {f : Region → Region} {seg : Bool} {aspace a : Nat}
    (hf : ∀ r : Region, (f r).covers seg aspace a = r.covers seg aspace a) : ∀ l : List Region,
    (regionMap f seg aspace a l).find? (fun r => r.covers seg aspace a) =
      (l.find? (fun r => r.covers seg aspace a)).map f
  | [] => rfl
  | r :: rs => by
    cases hr : r.covers seg aspace a with
    | true => simp [regionMap, hr, hf]
    | false => simp [regionMap, hr, find_regionMap hf rs]

/-- R89: the entry that covers the address is in transfer, and else as it was. -/
theorem State.regionAt_xfer_space {s : State} {u m : Nat} (seg : Bool) (a : Nat) (hm : m ≠ (s.unit u).member) :
    (s.xfer u (.space seg a) m).regionAt (clusterOf u) seg (s.unit u).card.aspace a =
      (s.regionAt (clusterOf u) seg (s.unit u).card.aspace a).map
        (Region.inTransfer (s.unit u).member m (s.unit u).serial) := by
  rw [State.xfer_space seg a hm]
  unfold State.regionAt
  rw [State.cluster_setCluster, if_pos rfl]
  exact find_regionMap (f := Region.inTransfer _ _ _) (fun _ => rfl) _

/-! ### O9 -/

/-- Settles O9: the laws above, for BAR, and for XFER to the tile itself, of a buffer's unit and of a region. -/
theorem barrierAndTransfer : Obligations.BarrierAndTransfer := by
  unfold Obligations.BarrierAndTransfer
  refine ⟨fun o s hruns => ?_, fun o s hruns => ⟨fun t ht hm => ?_, fun b a ht hm => ?_, fun seg a r ht hm hr => ?_⟩⟩
  · refine ⟨_, exec_bar_of_runs hruns, s.barEffect_onlyFocus, s.barEffect_barIssued, s.barEffect_regs, fun hall => ?_,
      fun ⟨v, hv, hne, hlate⟩ => ?_⟩
    · rw [s.barEffect_barWaiting, s.allArrived_arrive_iff.2 hall]
      rfl
    · have hnot : (s.modCur Unit.arrive).allArrived s.focus = false :=
        Bool.eq_false_iff.2 fun h => hlate (s.allArrived_arrive_iff.1 h v hv hne)
      rw [s.barEffect_barWaiting, hnot]
      rfl
  · rw [exec_xfer_of_runs hruns ht, hm]
    exact congrArg _ (s.xfer_self s.focus t)
  · refine ⟨_, exec_xfer_of_runs hruns ht, ?_⟩
    rw [State.xfer_buf b a hm]
    have hcur := s.cur_modCur (fun x => { x with own := tput x.own (ownIndex b a) (.transfer (s.sval o.b).toNat x.serial) })
    refine ⟨s.onlyFocus_refl.modCur _, ?_⟩
    unfold State.modCur at hcur
    rw [hcur]
    exact ⟨rfl, tget_tput_same _ _ _ _, fun k hk => tget_tput_ne _ _ _ _ hk _⟩
  · refine ⟨_, exec_xfer_of_runs hruns ht, ?_⟩
    refine ⟨by rw [State.xfer_space seg a hm]; rfl, ?_, fun k hk => by rw [State.xfer_space seg a hm]; simp [hk]⟩
    exact (State.regionAt_xfer_space seg a hm).trans (congrArg (Option.map _) hr)

end Sys2Proof.Machine
end

/-! ## Writes to memory

What a write beneath the tiles' buffers leaves alone: memories, block states and the atomic engines' lines change, nothing else of
the module. -/

section
namespace Sys2Proof.Machine

/-- `t` is `s` after writes to DRAM, cluster SRAM or host memory: the rest of the module stays as it is. -/
structure State.Stores (s t : State) : Prop where
  rest : { t with dram := s.dram, sram := s.sram, host := s.host, clusters := s.clusters, cbits := s.cbits } = s

namespace State.Stores

variable {s t v : State}

theorem refl (s : State) : s.Stores s := ⟨rfl⟩

theorem trans (h : s.Stores t) (k : t.Stores v) : s.Stores v := by
  have hk := congrArg (fun x : State => { x with
    dram := s.dram, sram := s.sram, host := s.host, clusters := s.clusters, cbits := s.cbits }) k.rest
  exact ⟨hk.trans h.rest⟩

theorem foldl {α : Type} {f : State → α → State} {l : List α} (hf : ∀ s : State, ∀ a ∈ l, s.Stores (f s a)) (s : State) :
    s.Stores (l.foldl f s) := by
  induction l generalizing s with
  | nil => exact refl s
  | cons a l ih =>
    exact (hf s a List.mem_cons_self).trans (ih (fun s b hb => hf s b (List.mem_cons_of_mem a hb)) (f s a))

theorem units (h : s.Stores t) : t.units = s.units := by have := congrArg State.units h.rest; exact this

theorem unit (h : s.Stores t) (u : Nat) : t.unit u = s.unit u := by
  unfold State.unit
  rw [h.units]

/-! ### Bytes -/

theorem dput (s : State) (pa : Nat) (b : Byte) : s.Stores (s.dput pa b) := ⟨rfl⟩

theorem sramPut (s : State) (k a : Nat) (b : Byte) : s.Stores (s.sramPut k a b) := by
  unfold State.sramPut
  dsimp only
  split <;> exact ⟨rfl⟩

end State.Stores

/-- The place lies beneath the tiles: in no unit's buffer. -/
def Place.beneath : Place → Bool
  | .buf _ _ => false
  | _ => true

namespace State.Stores

theorem locPut (s : State) {l : Loc} (hl : l.place.beneath = true) (b : Byte) : s.Stores (s.locPut l b) := by
  unfold State.locPut
  split
  · next h => simp [h, Place.beneath] at hl
  · exact sramPut s _ _ b
  · exact dput s _ b
  · exact ⟨rfl⟩
  · exact refl s
  · exact refl s

theorem locWrite : ∀ (bs : List Byte) (s : State) {l : Loc}, l.place.beneath = true → s.Stores (s.locWrite l bs)
  | [], s, _, _ => refl s
  | b :: bs, s, _, hl => (locPut s hl b).trans (locWrite bs _ hl)

/-! ### Blocks -/

theorem setCompressed (s : State) (l : Loc) (b : Bool) : s.Stores (s.setCompressed l b) := by
  unfold State.setCompressed
  refine foldl (fun _ _ _ => ?_) s
  exact ⟨rfl⟩

theorem demote {s t : State} {l : Loc} {cs : Nat} {mp : Bool} (hl : l.place.beneath = true) (h : s.demote l cs mp = some t) :
    s.Stores t := by
  unfold State.demote at h
  split at h
  · cases h
    exact refl s
  · obtain ⟨bs, -, rfl⟩ := Option.map_eq_some_iff.1 h
    exact (locWrite bs s (l := l.block) hl).trans (setCompressed _ l false)

theorem partWrite (s : State) {l : Loc} (hl : l.place.beneath = true) (cs : Nat) (mp : Bool) (bs : List Byte) :
    s.Stores (s.partWrite l cs mp bs) := by
  unfold State.partWrite
  split
  · exact (locWrite bs s hl).trans (setCompressed _ l false)
  · split
    · exact refl s
    · next t ht => exact (demote hl ht).trans (locWrite bs t hl)

theorem logicalWrite (s : State) {l : Loc} (hl : l.place.beneath = true) (cs : Nat) (mp : Bool) (bs : List Byte) :
    s.Stores (s.logicalWrite l cs mp bs) := by
  unfold State.logicalWrite
  split
  · exact locWrite bs s hl
  · exact foldl (fun s p _ => partWrite s (l := { l with addr := p.1 }) hl cs mp _) s

end State.Stores

/-! ### Ranges of an address space -/

theorem leafXlat_beneath {aspace level va : Nat} {w : Word} {x : Xlat} (h : leafXlat aspace level va w = some x) :
    x.place.beneath = true := by
  unfold leafXlat at h
  obtain ⟨-, h⟩ := Option.ite_none_right_eq_some.1 h
  cases h
  dsimp only
  split
  · rfl
  · split <;> rfl

theorem State.walkFrom_beneath {s : State} {aspace va : Nat} {x : Xlat} : ∀ {fuel table level : Nat},
    s.walkFrom aspace va table level fuel = some x → x.place.beneath = true
  | 0, _, _, h => by cases h
  | fuel + 1, table, level, h => by
    unfold State.walkFrom at h
    dsimp only at h
    split at h
    · cases h
    · split at h
      · split at h
        · cases h
        · exact leafXlat_beneath h
      · split at h
        · cases h
        · split at h
          · exact walkFrom_beneath h
          · cases h

theorem State.walkPage_beneath {s : State} {aspace va : Nat} {x : Xlat} (h : s.walkPage aspace va = some x) :
    x.place.beneath = true := by
  unfold State.walkPage at h
  split at h
  · cases h
  · exact State.walkFrom_beneath h

theorem State.walkSegment_beneath {s : State} {aspace a : Nat} {x : Xlat} (h : s.walkSegment aspace a = some x) :
    x.place.beneath = true := by
  unfold State.walkSegment at h
  split at h
  · cases h
  · split at h
    · cases h
    · dsimp only at h
      split at h
      · cases h
        rfl
      · cases h

/-- No table maps an address to a unit's buffer. -/
theorem State.walk_beneath {s : State} {seg : Bool} {aspace a : Nat} {x : Xlat} (h : s.walk seg aspace a = some x) :
    x.place.beneath = true := by
  unfold State.walk at h
  split at h
  · exact State.walkSegment_beneath h
  · exact State.walkPage_beneath h

theorem State.rangeXlat_beneath {s : State} {seg write : Bool} {aspace a n : Nat} {xs : List Xlat}
    (h : s.rangeXlat seg aspace a n write = some xs) : ∀ x ∈ xs, x.place.beneath = true := by
  unfold State.rangeXlat rangeVia at h
  obtain ⟨-, h⟩ := Option.ite_none_left_eq_some.1 h
  cases h
  intro x hx
  obtain ⟨o, ho, rfl⟩ := List.mem_filterMap.1 hx
  obtain ⟨p, -, hp⟩ := List.mem_map.1 ho
  exact State.walk_beneath (Option.filter_eq_some_iff.1 hp).1

theorem State.Stores.vwrite {s t : State} {seg : Bool} {aspace a : Nat} {bs : List Byte} (h : s.vwrite seg aspace a bs = some t) :
    s.Stores t := by
  unfold State.vwrite at h
  obtain ⟨xs, hxs, rfl⟩ := Option.map_eq_some_iff.1 h
  refine State.Stores.foldl (fun s p hp => ?_) s
  have hx : p.2 ∈ xs := (List.of_mem_zip hp).2
  exact State.Stores.logicalWrite s (l := p.2.loc p.1.1) (State.rangeXlat_beneath hxs p.2 hx) _ _ _

end Sys2Proof.Machine
end

/-! ## Teams that are swapped

What freezing, saving and resuming a team does to its units (R28, R29, R296, R298, R385): each goes through the units of the team
one by one, so what it does to the module is said once for a walk over units; then the statement of O39. -/

section
namespace Sys2Proof.Machine

/-! ### Walks over units -/

/-- `t` is `s` with each entry of `l` having changed its own unit as `R` says, and nothing else. -/
structure State.Walks {α : Type} (key : α → Nat) (R : α → Unit → Unit → Prop) (l : List α) (s t : State) : Prop where
  rest : { t with units := s.units } = s
  mine : ∀ a ∈ l, R a (s.unit (key a)) (t.unit (key a))
  others : ∀ v, v ∉ l.map key → t.unit v = s.unit v

/-- A fold whose every step changes one unit, another one each time, changes each as its own step does. -/
theorem State.walks_foldl {α : Type} {key : α → Nat} {R : α → Unit → Unit → Prop} {f : State → α → State}
    (hf : ∀ (s : State) (a : α), s.onlyUnit (f s a) (key a)) (hR : ∀ (s : State) (a : α), R a (s.unit (key a)) ((f s a).unit (key a))) :
    ∀ {l : List α} (s : State), (l.map key).Nodup → State.Walks key R l s (l.foldl f s)
  | [], _, _ => ⟨rfl, fun _ ha => absurd ha List.not_mem_nil, fun _ _ => rfl⟩
  | a :: l, s, hnd => by
    obtain ⟨hal, hl⟩ := List.nodup_cons.1 hnd
    have ih := State.walks_foldl hf hR (f s a) hl
    obtain ⟨hrest, hother⟩ := hf s a
    refine ⟨?_, fun b hb => ?_, fun v hv => ?_⟩
    · have hback := congrArg (fun x : State => { x with units := s.units }) ih.rest
      exact hback.trans hrest
    · rcases List.mem_cons.1 hb with rfl | hb
      · rw [List.foldl_cons, ih.others _ hal]
        exact hR s b
      · have hne : key b ≠ key a := fun e => hal (e ▸ List.mem_map_of_mem hb)
        have hb' := ih.mine b hb
        rwa [hother _ hne] at hb'
    · obtain ⟨hva, hvl⟩ := not_or.1 (mt List.mem_cons.2 hv)
      rw [List.foldl_cons, ih.others v hvl, hother v hva]

theorem State.onlyUnit_setUnit (s : State) (u : Nat) (x : Unit) : s.onlyUnit (s.setUnit u x) u :=
  ⟨rfl, fun v hv => by rw [State.unit_setUnit, if_neg hv]⟩

theorem State.onlyUnit_modUnit (s : State) (u : Nat) (f : Unit → Unit) : s.onlyUnit (s.modUnit u f) u := s.onlyUnit_setUnit u _

/-- A walk that applies a function to each unit of a list. -/
theorem State.walks_modUnit {α : Type} {key : α → Nat} (g : α → Unit → Unit) {l : List α} (s : State) (hl : (l.map key).Nodup) :
    State.Walks key (fun a x y => y = g a x) l s (l.foldl (fun s a => s.modUnit (key a) (g a)) s) :=
  State.walks_foldl (fun s a => s.onlyUnit_modUnit (key a) (g a)) (fun s a => by rw [State.unit_modUnit, if_pos rfl]) s hl

/-- A team's tiles are distinct (R384). -/
theorem placeUnits_nodup (k f n : Nat) : (placeUnits k f n).Nodup :=
  List.Nodup.map (fun i j h => by simpa using h) List.nodup_range

/-! ### Records and rounds -/

theorem State.unit_reviewRounds (s : State) (u : Nat) : s.reviewRounds.unit u = s.unit u := by
  unfold State.reviewRounds
  split <;> rfl

theorem State.rest_reviewRounds (s : State) : { s.reviewRounds with sched := s.sched } = s := by
  unfold State.reviewRounds
  split <;> rfl

theorem State.nodes_reviewRounds (s : State) : s.reviewRounds.sched.nodes = s.sched.nodes := by
  unfold State.reviewRounds
  split <;> rfl

/-- What a team's leaving does to rounds and records touches nothing else. -/
theorem State.rest_leaving (s : State) (n : Nat) (used : Bool) (x : Node) :
    { (s.reviewRounds.turned n used).setNode n x with sched := s.sched } = s := s.rest_reviewRounds

theorem State.unit_leaving (s : State) (n : Nat) (used : Bool) (x : Node) (u : Nat) :
    ((s.reviewRounds.turned n used).setNode n x).unit u = s.unit u := by
  have h := congrArg (State.unit · u) (s.rest_leaving n used x)
  exact h

theorem State.saved_leaving (s : State) (n : Nat) (used : Bool) (x : Node) :
    ((s.reviewRounds.turned n used).setNode n x).saved = s.saved := by
  have h := congrArg State.saved (s.rest_leaving n used x)
  exact h

theorem State.dram_leaving (s : State) (n : Nat) (used : Bool) (x : Node) :
    ((s.reviewRounds.turned n used).setNode n x).dram = s.dram := by
  have h := congrArg State.dram (s.rest_leaving n used x)
  exact h

/-! ### Freezing -/

/-- No copy of the unit has begun to move, and none is to stop. -/
def Unit.copiesIdle (x : Unit) : Prop := ∀ c ∈ x.q0 ++ x.q1, c.phase ≠ .started ∧ c.phase ≠ .moved ∧ c.stop = none

theorem CCmd.suspend_idle {c : CCmd} (now : Nat) (hs : c.phase ≠ .started) (hm : c.phase ≠ .moved) : c.suspend now = c := by
  unfold CCmd.suspend
  rw [if_pos (Or.inl ⟨hs, hm⟩)]

theorem Unit.suspendCopies_idle {x : Unit} (now : Nat) (h : x.copiesIdle) : x.suspendCopies now = x := by
  have hq (q : List CCmd) (hq : ∀ c ∈ q, c ∈ x.q0 ++ x.q1) : q.map (CCmd.suspend now) = q := by
    conv_rhs => rw [← List.map_id q]
    exact List.map_congr_left (fun c hc => CCmd.suspend_idle now (h c (hq c hc)).1 (h c (hq c hc)).2.1)
  unfold Unit.suspendCopies
  rw [hq x.q0 (fun c hc => List.mem_append_left _ hc), hq x.q1 (fun c hc => List.mem_append_right _ hc)]

theorem Unit.stopCopies_idle {x : Unit} (now : Nat) (h : x.copiesIdle) : x.stopCopies now = x := by
  unfold Unit.stopCopies
  rw [Unit.suspendCopies_idle now h, ite_self]

/-- Freezing changes the run state only. -/
theorem Unit.rest_freeze (x : Unit) : { x.freeze with run := x.run, was := x.was } = x := by
  unfold Unit.freeze
  split <;> rfl

theorem Unit.q0_freeze (x : Unit) : x.freeze.q0 = x.q0 := by have h := congrArg Unit.q0 x.rest_freeze; exact h
theorem Unit.q1_freeze (x : Unit) : x.freeze.q1 = x.q1 := by have h := congrArg Unit.q1 x.rest_freeze; exact h
theorem Unit.mq_freeze (x : Unit) : x.freeze.mq = x.mq := by have h := congrArg Unit.mq x.rest_freeze; exact h
theorem Unit.regs_freeze (x : Unit) : x.freeze.regs = x.regs := by have h := congrArg Unit.regs x.rest_freeze; exact h
theorem Unit.pc_freeze (x : Unit) : x.freeze.pc = x.pc := by have h := congrArg Unit.pc x.rest_freeze; exact h
theorem Unit.tilePart_freeze (x : Unit) : x.freeze.tilePart = x.tilePart := by have h := congrArg Unit.tilePart x.rest_freeze; exact h

theorem Unit.buf_freeze (x : Unit) (b : Buf) : x.freeze.buf b = x.buf b := by have h := congrArg (fun y : Unit => y.buf b) x.rest_freeze; exact h

theorem Unit.copiesIdle_freeze {x : Unit} (h : x.copiesIdle) : x.freeze.copiesIdle := by
  unfold Unit.copiesIdle
  rwa [x.q0_freeze, x.q1_freeze]

/-- A unit without a command under way has its engines still (R296). -/
theorem Unit.enginesStill_freeze {x : Unit} (now : Nat) (hm : x.matrixStill = true) (h : x.copiesIdle) :
    x.freeze.enginesStill now = true := by
  unfold Unit.enginesStill Unit.matrixStill
  rw [x.mq_freeze, x.q0_freeze, x.q1_freeze, Bool.and_eq_true]
  refine ⟨hm, List.all_eq_true.2 fun c hc => ?_⟩
  unfold CCmd.stopped
  rw [(h c hc).2.2]

theorem State.settleCopies_idle {s : State} {u : Nat} (h : (s.unit u).copiesIdle) : s.settleCopies u = s := by
  have hq (e : Engine) {q : List CCmd} (hq : ∀ c ∈ q, c ∈ (s.unit u).q0 ++ (s.unit u).q1) :
      q.foldl (fun (s : State) c => s.settleCopy u e c) s = s :=
    foldl_eq_self (fun c hc => by
      unfold State.settleCopy
      rw [(h c (hq c hc)).2.2]
      rfl)
  unfold State.settleCopies
  dsimp only
  rw [hq .c0 (fun c hc => List.mem_append_left _ hc), hq .c1 (fun c hc => List.mem_append_right _ hc)]

/-- A team without a command under way freezes and nothing else (R253, R296). -/
theorem State.walks_freezeTeam (s : State) (n : Nat) :
    State.Walks (fun u => u) (fun _ x y => x.copiesIdle → y = x.freeze) (s.node n).units s (s.freezeTeam n) := by
  unfold State.freezeTeam
  refine State.walks_foldl (fun s u => s.onlyUnit_modUnit u _) (fun s u => ?_) s ?_
  · intro hx
    rw [State.unit_modUnit, if_pos rfl]
    exact Unit.stopCopies_idle _ (Unit.copiesIdle_freeze hx)
  · rw [List.map_id']
    exact placeUnits_nodup _ _ _

/-! ### Leaving the tiles -/

theorem State.Stores.writeSlots (s : State) (is : List Nat) (ctx : Tbl Unit) : s.Stores (s.writeSlots is ctx) := by
  unfold State.writeSlots
  refine State.Stores.foldl (fun s p _ => ?_) s
  cases hw : s.vwrite false 0 (s.slotAddr p.1) ((Config.teamEncoding [p.2]).take swapSlotBytes) with
  | none => exact State.Stores.refl s
  | some t => exact State.Stores.vwrite hw

/-- `t` is `s` after team `n` has left its tiles with the contexts of its members saved (R296, R385). -/
structure State.Leaves (s : State) (n : Nat) (t : State) : Prop where
  phase : (t.node n).phase = .swapped
  place : (t.node n).place = (s.node n).place
  slots : (t.node n).slots = (s.node n).slots
  mine : ∀ u ∈ (s.node n).units, t.unit u = (s.unit u).tilePart
  others : ∀ u, u ∉ (s.node n).units → t.unit u = s.unit u
  saved : tget [] t.saved n = (s.node n).units.map (fun u => (u, s.unit u))
  dram : (s.node n).place ≠ some .area → t.dram = s.dram

/-- A team whose engines are still and whose copies have nothing to settle leaves. -/
theorem State.leaves_saveTeam {s : State} {n : Nat} (hstill : ∀ u ∈ (s.node n).units, (s.unit u).enginesStill s.now = true)
    (hidle : ∀ u ∈ (s.node n).units, (s.unit u).copiesIdle) : s.Leaves n (s.saveTeam n) := by
  have hsettle : (s.node n).units.foldl State.settleCopies s = s :=
    foldl_eq_self (fun u hu => State.settleCopies_idle (hidle u hu))
  have hall : ¬ ((s.node n).units.any (fun u => !(s.unit u).enginesStill s.now)) = true := by
    simpa using hstill
  have hnd : ((s.node n).units.map (fun u => u)).Nodup := by
    rw [List.map_id']
    exact placeUnits_nodup _ _ _
  unfold State.saveTeam
  dsimp only
  rw [if_neg hall, hsettle]
  generalize hctx : (s.node n).units.map (fun u => (u, s.unit u)) = ctx
  generalize hw : (if (s.node n).place = some SwapPlace.area then s.writeSlots (s.node n).slots ctx else s) = w
  have hstores : s.Stores w := by
    subst hw
    split
    · exact State.Stores.writeSlots s _ _
    · exact State.Stores.refl s
  have walk := State.walks_modUnit (key := fun u => u) (fun _ => Unit.tilePart)
    ({ w with saved := tput w.saved n ctx } : State) hnd
  generalize (s.node n).units.foldl (fun (s : State) u => s.modUnit u Unit.tilePart) { w with saved := tput w.saved n ctx } = v at walk ⊢
  have hother (u : Nat) (hu : u ∉ (s.node n).units) : v.unit u = s.unit u :=
    (walk.others u (by rwa [List.map_id'])).trans (hstores.unit u)
  refine ⟨?_, ?_, ?_, fun u hu => ?_, fun u hu => ?_, ?_, fun hp => ?_⟩
  · rw [State.node_setNode, if_pos rfl]
  · rw [State.node_setNode, if_pos rfl]
  · rw [State.node_setNode, if_pos rfl]
  · exact (v.unit_leaving _ _ _ u).trans ((walk.mine u hu).trans (congrArg Unit.tilePart (hstores.unit u)))
  · exact (v.unit_leaving _ _ _ u).trans (hother u hu)
  · have hv : v.saved = tput w.saved n ctx := by have h := congrArg State.saved walk.rest; exact h
    exact (congrArg (tget [] · n) ((v.saved_leaving _ _ _).trans hv)).trans ((tget_tput_same _ _ _ _).trans hctx.symm)
  · have hv : v.dram = w.dram := by have h := congrArg State.dram walk.rest; exact h
    rw [if_neg hp] at hw
    exact (v.dram_leaving _ _ _).trans (hv.trans (congrArg State.dram hw.symm))

/-- A team that is swapped out without a command under way is saved with its members frozen, and nothing else moves. -/
theorem State.swapOut_still {s : State} {n : Nat} {p : SwapPlace} {is : List Nat} (hplace : s.swapPlace (s.node n) = some (p, is))
    (hm : ∀ u ∈ (s.node n).units, (s.unit u).matrixStill = true) (hi : ∀ u ∈ (s.node n).units, (s.unit u).copiesIdle) :
    ((s.swapOut n).node n).phase = .swapped ∧ ((s.swapOut n).node n).place = some p ∧ ((s.swapOut n).node n).slots = is ∧
      (∀ u ∈ (s.node n).units, (s.swapOut n).unit u = (s.unit u).tilePart) ∧
      (∀ u, u ∉ (s.node n).units → (s.swapOut n).unit u = s.unit u) ∧
      tget [] (s.swapOut n).saved n = (s.node n).units.map (fun u => (u, (s.unit u).freeze)) ∧
      (p = .shadow → (s.swapOut n).dram = s.dram) := by
  have hout : s.swapOut n =
      ((s.setNode n { s.node n with leaving := true, place := some p, slots := is }).freezeTeam n).saveTeam n := by
    unfold State.swapOut
    dsimp only
    rw [hplace]
  rw [hout]
  generalize ha : s.setNode n { s.node n with leaving := true, place := some p, slots := is } = a
  have han : a.node n = { s.node n with leaving := true, place := some p, slots := is } := by
    rw [← ha, State.node_setNode, if_pos rfl]
  have hau (u : Nat) : a.unit u = s.unit u := by rw [← ha]; rfl
  have hus : (a.node n).units = (s.node n).units := by rw [han]; rfl
  have walk := a.walks_freezeTeam n
  generalize a.freezeTeam n = b at walk ⊢
  have hbn : b.node n = a.node n := by have h := congrArg (State.node · n) walk.rest; exact h
  have hbu : ∀ u ∈ (s.node n).units, b.unit u = (s.unit u).freeze := fun u hu => by
    have h := walk.mine u (hus.symm ▸ hu) (by rw [hau]; exact hi u hu)
    rwa [hau] at h
  have leaves : b.Leaves n (b.saveTeam n) := by
    refine State.leaves_saveTeam (fun u hu => ?_) (fun u hu => ?_)
    all_goals
      rw [hbn, hus] at hu
      rw [hbu u hu]
    · exact Unit.enginesStill_freeze _ (hm u hu) (hi u hu)
    · exact Unit.copiesIdle_freeze (hi u hu)
  obtain ⟨hphase, hpl, hslots, hmine, hothers, hsaved, hdram⟩ := leaves
  rw [hbn, hus] at hmine hothers hsaved
  rw [hbn, han] at hpl hslots hdram
  refine ⟨hphase, hpl, hslots, fun u hu => ?_, fun u hu => ?_, ?_, fun hp => ?_⟩
  · rw [hmine u hu, hbu u hu, Unit.tilePart_freeze]
  · rw [hothers u hu, walk.others u (by rwa [List.map_id', hus]), hau]
  · rw [hsaved]
    exact List.map_congr_left (fun u hu => by rw [hbu u hu])
  · have hb : b.dram = a.dram := by have h := congrArg State.dram walk.rest; exact h
    rw [hdram (by simp [hp]), hb, ← ha]
    rfl

/-! ### Coming back -/

/-- `y` is the running member whose saved context is `x` (R298). -/
structure Unit.GoesOn (x y : Unit) : Prop where
  run : y.run = .running
  regs : y.regs = x.regs
  pc : y.pc = x.pc
  handler : y.handler = x.handler
  buf : ∀ b, y.buf b = x.buf b

theorem Unit.goesOn_thaw {x : Unit} (now : Nat) (hrun : x.run = .frozen) (hwas : x.was = .running) : x.GoesOn (x.thaw now) := by
  have hthaw : x.thaw now = { x with
      run := .running, was := .idle, q0 := x.q0.map (CCmd.revive now), q1 := x.q1.map (CCmd.revive now) } := by
    simp [Unit.thaw, Unit.settle, hrun, hwas]
  rw [hthaw]
  exact ⟨rfl, rfl, rfl, rfl, fun b => by cases b <;> rfl⟩

/-- The requests of an engine that take their slots leave the member as it goes on. -/
theorem Unit.GoesOn.placed {x y : Unit} (h : x.GoesOn y) (e : Engine) (q : List CCmd) (l : Option Nat) :
    x.GoesOn ((y.setQueue e q).setLastSlot e l) := by
  obtain ⟨hrun, hregs, hpc, hhandler, hbuf⟩ := h
  cases e <;> exact ⟨hrun, hregs, hpc, hhandler, fun b => (by cases b <;> rfl : _ = y.buf b).trans (hbuf b)⟩

theorem State.onlyUnit.trans {s t v : State} {u : Nat} (h : s.onlyUnit t u) (k : t.onlyUnit v u) : s.onlyUnit v u := by
  obtain ⟨hrest, hother⟩ := h
  obtain ⟨krest, kother⟩ := k
  have hback := congrArg (fun x : State => { x with units := s.units }) krest
  exact ⟨hback.trans hrest, fun w hw => (kother w hw).trans (hother w hw)⟩

theorem State.onlyUnit_placeEngine (s : State) (u : Nat) (e : Engine) : s.onlyUnit (s.placeEngine u e) u :=
  s.onlyUnit_setUnit u _

theorem State.goesOn_placeEngine {s : State} {u : Nat} {x : Unit} (e : Engine) (h : x.GoesOn (s.unit u)) :
    x.GoesOn ((s.placeEngine u e).unit u) := by
  unfold State.placeEngine
  rw [State.unit_setUnit, if_pos rfl]
  exact h.placed e _ _

theorem State.onlyUnit_thawUnit (s : State) (u : Nat) : s.onlyUnit (s.thawUnit u) u := by
  unfold State.thawUnit
  dsimp only
  split
  · exact ((s.onlyUnit_modUnit u _).trans (State.onlyUnit_placeEngine _ u .c0)).trans (State.onlyUnit_placeEngine _ u .c1)
  · exact s.onlyUnit_modUnit u _

theorem State.goesOn_thawUnit {s : State} {u : Nat} (hrun : (s.unit u).run = .frozen) (hwas : (s.unit u).was = .running) :
    (s.unit u).GoesOn ((s.thawUnit u).unit u) := by
  have hthaw : (s.unit u).GoesOn ((s.modUnit u (Unit.thaw s.now)).unit u) := by
    rw [State.unit_modUnit, if_pos rfl]
    exact Unit.goesOn_thaw s.now hrun hwas
  unfold State.thawUnit
  dsimp only
  split
  · exact State.goesOn_placeEngine .c1 (State.goesOn_placeEngine .c0 hthaw)
  · exact hthaw

/-- Every member of a team thaws, and nothing else, where none of its collectives is open. -/
theorem State.walks_thawTeam {s : State} {n : Nat} (hcolls : ∀ c ∈ s.colls, c.node ≠ some n) :
    State.Walks (fun u => u) (fun _ x y => x.run = .frozen → x.was = .running → x.GoesOn y) (s.node n).units s (s.thawTeam n) := by
  have walk : State.Walks (fun u => u) (fun _ x y => x.run = .frozen → x.was = .running → x.GoesOn y) (s.node n).units s
      ((s.node n).units.foldl State.thawUnit s) :=
    State.walks_foldl State.onlyUnit_thawUnit (fun s u => State.goesOn_thawUnit) s (by
      rw [List.map_id']
      exact placeUnits_nodup _ _ _)
  unfold State.thawTeam State.settleTeam
  generalize (s.node n).units.foldl State.thawUnit s = t at walk ⊢
  have hc : t.colls = s.colls := by have h := congrArg State.colls walk.rest; exact h
  have hnone : t.colls.filter (fun c => c.node == some n && c.ended.isNone) = [] :=
    List.filter_eq_nil_iff.2 (fun c hc' => by simp [hcolls c (hc ▸ hc')])
  rw [hnone]
  exact walk

/-- A swapped team is resident again, its members go on from their saved contexts, and no other unit changes (R298). -/
theorem State.swapIn_running {s : State} {n : Nat} (hkeys : (tget [] s.saved n).map (·.1) = (s.node n).units)
    (hrun : ∀ e ∈ tget [] s.saved n, e.2.run = .frozen ∧ e.2.was = .running) (hcolls : ∀ c ∈ s.colls, c.node ≠ some n) :
    ((s.swapIn n).node n).phase = .resident ∧ ((s.swapIn n).node n).place = none ∧
      (∀ e ∈ tget [] s.saved n, e.2.GoesOn ((s.swapIn n).unit e.1)) ∧
      ∀ v, v ∉ (s.node n).units → (s.swapIn n).unit v = s.unit v := by
  have hnd : ((tget [] s.saved n).map (·.1)).Nodup := by
    rw [hkeys]
    exact placeUnits_nodup _ _ _
  unfold State.swapIn
  dsimp only
  have back := State.walks_modUnit (key := fun p : Nat × Unit => p.1) (fun p t => t.onTile p.2)
    ({ s with saved := tdel s.saved n } : State) hnd
  generalize (tget [] s.saved n).foldl (fun (s : State) p => s.modUnit p.1 (fun t => t.onTile p.2))
    { s with saved := tdel s.saved n } = a at back ⊢
  generalize hx : ({ s.node n with phase := .resident, place := none, slots := [], quantumFrom := a.now } : Node) = x
  have hxu : x.units = (s.node n).units := by subst hx; rfl
  have hbc : (a.setNode n x).colls = s.colls := by have h := congrArg State.colls back.rest; exact h
  have walk := State.walks_thawTeam (s := a.setNode n x) (n := n) (by rw [hbc]; exact hcolls)
  rw [State.node_setNode, if_pos rfl, hxu] at walk
  generalize (a.setNode n x).thawTeam n = t at walk ⊢
  have htn : t.node n = x := by
    have h := congrArg (State.node · n) walk.rest
    rw [State.node_setNode, if_pos rfl] at h
    exact h
  refine ⟨?_, ?_, fun e he => ?_, fun v hv => ?_⟩
  · rw [htn, ← hx]
  · rw [htn, ← hx]
  · have hmem : e.1 ∈ (s.node n).units := hkeys ▸ List.mem_map_of_mem he
    have hau : (a.setNode n x).unit e.1 = ((s.unit e.1).onTile e.2) := back.mine e he
    obtain ⟨hfrozen, hwas⟩ := hrun e he
    have hgo := walk.mine e.1 hmem
    rw [hau] at hgo
    obtain ⟨grun, gregs, gpc, ghandler, gbuf⟩ := hgo hfrozen hwas
    exact ⟨grun, gregs, gpc, ghandler, fun b => (gbuf b).trans (by cases b <;> rfl)⟩
  · have hw := walk.others v (by rwa [List.map_id'])
    exact hw.trans (back.others v (by rwa [hkeys]))

/-! ### The statement -/

theorem State.node_served (s : State) (n level queue : Nat) (r : Round) (m : Nat) :
    (s.served n level queue r).node m = s.node m := by
  unfold State.served State.node
  dsimp only
  rw [State.nodes_reviewRounds]

theorem State.unit_served (s : State) (n level queue : Nat) (r : Round) (u : Nat) :
    (s.served n level queue r).unit u = s.unit u := by
  unfold State.served
  dsimp only
  rw [State.unit_reviewRounds]
  rfl

theorem exec_preempt {s : State} {n : Nat} (hn : s.hasNode n = true) (hy : s.mayYield (s.node n) = true)
    (hwhy : s.fenced (s.node n) = true ∨ s.wanted (s.node n) (fun a b => decide (a < b)) = true) :
    exec (.preempt n) s = .next (s.swapOut n) := by
  have hl : (s.node n).leaving = false := by
    simp only [State.mayYield, Bool.and_eq_true, Bool.not_eq_true'] at hy
    obtain ⟨⟨⟨-, hl⟩, -⟩, -⟩ := hy
    exact hl
  show execPreempt n s = _
  unfold execPreempt
  simp [hn, hl, hy, hwhy]

theorem exec_quantumExpiry {s : State} {n : Nat} (hn : s.hasNode n = true) (hy : s.mayYield (s.node n) = true)
    (hq : (s.node n).quantumFrom + s.quantum (s.levelOf (s.node n)) ≤ s.now)
    (hwhy : s.wanted (s.node n) (fun a b => a == b) = true) : exec (.quantumExpiry n) s = .next (s.swapOut n) := by
  show execQuantumExpiry n s = _
  unfold execQuantumExpiry
  simp [hn, hy, hq, hwhy]

theorem exec_teamResume {s : State} {n level : Nat} {r : Round} (hn : s.hasNode n = true)
    (hnext : s.nextTeam = some (n, level, r)) (hp : (s.node n).phase = .swapped) :
    exec (.teamResume n) s = .next ((s.swapIn n).served n level (s.node n).queue r) := by
  show execTeamResume n s = _
  unfold execTeamResume
  simp [hn, hnext, hp]

theorem exec_teamPromotion {s : State} {n : Nat} (hn : s.hasNode n = true)
    (hp : (s.node n).phase = .ready ∨ (s.node n).phase = .swapped) (h0 : (s.node n).promoted = 0)
    (hl : s.levelOf (s.node n) ≠ 0) (he : s.quantumEnds (s.node n).mask = true)
    (hw : (s.node n).waitFrom + 4 * s.rotationLength (s.node n) ≤ s.now) :
    exec (.teamPromotion n) s = .next ((s.setNode n { s.node n with promoted := 1 }).cbump (scb + 0x28) 16 16 1) := by
  have hwaits : (s.node n).waits = true := by simpa [Node.waits] using hp
  show execTeamPromotion n s = _
  unfold execTeamPromotion
  simp [hn, hwaits, h0, hl, he, hw]

/-- Settles O39: a team without a command under way that is swapped out only freezes before it leaves, so that its saved contexts
are its members as they stood; coming back thaws them, unit by unit. -/
theorem teamsSwap : Obligations.TeamsSwap := by
  unfold Obligations.TeamsSwap
  refine ⟨?_, ?_, ?_⟩
  · intro n s hn hy v swaps
    have hswaps {i : Instr} (hi : exec i s = .next (s.swapOut n)) : swaps i := by
      refine ⟨fun hp => ?_, fun p is hp hstill => ?_⟩
      · rw [hi]
        unfold State.swapOut
        dsimp only
        rw [hp]
      · obtain ⟨hphase, hplace, hslots, hmine, hothers, hsaved, hdram⟩ := State.swapOut_still (n := n) hp
          (fun u hu => (hstill u hu).1) (fun u hu => (hstill u hu).2)
        refine ⟨s.swapOut n, hi, hphase, hplace, hslots, hmine, hothers, ?_, fun e he => ?_, hdram⟩
        · rw [hsaved, List.map_map]
          exact List.map_id' _
        · rw [hsaved] at he
          obtain ⟨u, -, rfl⟩ := List.mem_map.1 he
          exact ⟨Unit.regs_freeze _, Unit.pc_freeze _, Unit.buf_freeze _⟩
    exact ⟨fun hwhy => hswaps (exec_preempt hn hy hwhy), fun hq hwhy => hswaps (exec_quantumExpiry hn hy hq hwhy)⟩
  · intro n level r s hn hnext hp hkeys hrun hcolls
    obtain ⟨hphase, hplace, hgo, hothers⟩ := State.swapIn_running hkeys hrun hcolls
    refine ⟨_, exec_teamResume hn hnext hp, ?_, ?_, fun e he => ?_, fun v hv => ?_⟩
    · rwa [State.node_served]
    · rwa [State.node_served]
    · obtain ⟨grun, gregs, gpc, ghandler, gbuf⟩ := hgo e he
      rw [State.unit_served]
      exact ⟨grun, gregs, gpc, ghandler, gbuf⟩
    · rw [State.unit_served]
      exact hothers v hv
  · intro n s hn hp h0 hl he hw
    exact exec_teamPromotion hn hp h0 hl he hw

end Sys2Proof.Machine
end

/-! ## Moving a page

What the move of a page depends on (R403, R404): the frames under HOLD and the migrators' own state have no part in it, so that a
migrator may clear its HOLD before or after. -/

section
namespace Sys2Proof.Machine

/-- The module with other migrators and other frames under HOLD. -/
def State.reheld (s : State) (m : Tbl Migrator) (h : List Nat) : State := { s with migrators := m, held := h }

/-- `f` neither reads nor changes the migrators and the frames under HOLD. -/
def HoldFree (f : State → State) : Prop := ∀ s m h, f (s.reheld m h) = (f s).reheld m h

namespace HoldFree

theorem self : HoldFree (fun s => s) := fun _ _ _ => rfl

theorem comp {f g : State → State} (hf : HoldFree f) (hg : HoldFree g) : HoldFree (fun s => g (f s)) :=
  fun s m h => (congrArg g (hf s m h)).trans (hg (f s) m h)

theorem foldl {α : Type} {f : State → α → State} (hf : ∀ a, HoldFree (f · a)) : ∀ l : List α, HoldFree (fun s => l.foldl f s)
  | [] => self
  | a :: l => comp (hf a) (foldl hf l)

/-- A function of what is read without regard to HOLD. -/
theorem read {α : Type} {f : State → α → State} {r : State → α} (hr : ∀ s m h, r (s.reheld m h) = r s)
    (hf : ∀ a, HoldFree (f · a)) : HoldFree (fun s => f s (r s)) := fun s m h =>
  (congrArg (f (s.reheld m h)) (hr s m h)).trans (hf (r s) s m h)

/-! ### Bytes and blocks -/

theorem sramPut (k a : Nat) (b : Byte) : HoldFree (·.sramPut k a b) := fun s m h => by
  have hl : (({ s.reheld m h with sram := tput (s.reheld m h).sram k (mput ((s.reheld m h).sramOf k) a b) } : State).lineOf k a) =
    (({ s with sram := tput s.sram k (mput (s.sramOf k) a b) } : State).lineOf k a) := rfl
  unfold State.sramPut
  dsimp only
  rw [hl]
  split <;> rfl

theorem locPut (l : Loc) (b : Byte) : HoldFree (·.locPut l b) := fun s m h => by
  unfold State.locPut
  cases hp : l.place with
  | sram k => exact sramPut k l.addr b s m h
  | _ => rfl

theorem locWrite : ∀ (bs : List Byte) (l : Loc), HoldFree (·.locWrite l bs)
  | [], _ => self
  | b :: bs, l => comp (locPut l b) (locWrite bs { l with addr := l.addr + 1 })

theorem dwrite : ∀ (bs : List Byte) (a : Nat), HoldFree (·.dwrite a bs)
  | [], _ => self
  | b :: bs, a => comp (f := (·.dput a b)) (fun _ _ _ => rfl) (dwrite bs (a + 1))

theorem setCompressed (l : Loc) (b : Bool) : HoldFree (·.setCompressed l b) := fun s m h => by
  unfold State.setCompressed
  exact foldl (fun _ _ _ _ => rfl) _ s m h

theorem putRecord (l : Loc) (mp : Bool) (bs : List Byte) : HoldFree (·.putRecord l mp bs) := fun s m h => by
  unfold State.putRecord
  split
  · exact foldl (fun a => read (r := fun s => s.sideRecord a) (fun _ _ _ => rfl) (fun l => locWrite bs l)) (s.writeAt l.addr) s m h
  · exact locWrite bs l.block s m h

theorem putBlock (k : Stored) (l : Loc) (mp : Bool) : HoldFree (·.putBlock k l mp) :=
  comp (comp (read (r := fun s => (s.recordLoc l mp).2) (fun _ _ _ => rfl) (fun a => locWrite (k.payload.take (payloadRoom mp)) a))
    (putRecord l mp k.record)) (setCompressed l true)

theorem moveBlock (src dst : Loc) (smp dmp : Bool) : HoldFree (·.moveBlock src smp dst dmp) :=
  read (r := fun s => s.takeBlock src smp) (fun _ _ _ => rfl) (fun k => putBlock k dst dmp)

/-! ### Messages to host memory -/

theorem sendAt (msg : Msg) (k : Nat) : HoldFree (·.sendAt msg k) := fun s m h => by
  have hport : (s.reheld m h).portOf msg = s.portOf msg := rfl
  have hup (p : Nat) : (s.reheld m h).portUp p = s.portUp p := rfl
  have hp (p : Nat) : (s.reheld m h).port p = s.port p := rfl
  unfold State.sendAt State.sendFrom
  dsimp only
  rw [hport]
  split
  · next p _ =>
    rw [hup, hp]
    split
    · split
      · rfl
      · split <;> rfl
    · rfl
  · rfl

theorem hostReadsAt (bulk : Bool) (id a n : Nat) : HoldFree (·.hostReadsAt bulk id a n) :=
  read (r := fun s => if s.bridging then Msg.pcieRead id a n else .rmtRead Config.bridgeModule bulk id a n) (fun _ _ _ => rfl)
    (fun msg => sendAt msg 0)

theorem hostWrites (bulk : Bool) (a : Nat) (bs : List Byte) : HoldFree (·.hostWrites bulk a bs) :=
  read (r := fun s => if s.bridging then Msg.pcieWrite a bs else .rmtWrite Config.bridgeModule bulk a bs) (fun _ _ _ => rfl)
    (fun msg => sendAt msg 0)

/-! ### Pages -/

theorem carryBlock (x : Xlat) (src dst : Loc) : HoldFree (·.carryBlock x src dst) := fun s m h => by
  have hask : (if src.place = .host then
        { (s.reheld m h).hostReadsAt true (s.reheld m h).nextPcie src.addr 4096 with nextPcie := (s.reheld m h).nextPcie + 1 }
      else s.reheld m h) =
      (if src.place = .host then { s.hostReadsAt true s.nextPcie src.addr 4096 with nextPcie := s.nextPcie + 1 } else s).reheld m h := by
    split
    · exact congrArg (fun t : State => { t with nextPcie := s.nextPcie + 1 }) (hostReadsAt true s.nextPcie src.addr 4096 s m h)
    · rfl
  unfold State.carryBlock
  dsimp only
  rw [hask]
  generalize (if src.place = .host then { s.hostReadsAt true s.nextPcie src.addr 4096 with nextPcie := s.nextPcie + 1 } else s) = t
  have hc : (t.reheld m h).isCompressed src = t.isCompressed src := rfl
  rw [hc]
  split
  · split
    · exact moveBlock src dst x.mp x.mp t m h
    · exact comp (locWrite (t.locRead src 4096) dst) (setCompressed dst false) t m h
  · exact comp (locWrite ((t.blockData src x.cs x.mp).getD (t.locRead src 4096)) dst) (hostWrites true dst.addr _) t m h

theorem carryPage (x : Xlat) (place : Place) (base : Nat) : HoldFree (·.carryPage x place base) :=
  foldl (fun i => carryBlock x { place := x.place, addr := x.base + 4096 * i } { place := place, addr := base + 4096 * i })
    (List.range (x.size / 4096))

theorem dropTlb (p : Xlat → Bool) : HoldFree (·.dropTlb p) := fun _ _ _ => rfl

end HoldFree

/-! ### Leaves -/

/-- A walk reads entries only. -/
theorem State.walkFrom_congr {s t : State} (h : ∀ a, s.dword a = t.dword a) (aspace va : Nat) : ∀ fuel table level : Nat,
    s.walkFrom aspace va table level fuel = t.walkFrom aspace va table level fuel
  | 0, _, _ => rfl
  | fuel + 1, table, level => by
    unfold State.walkFrom
    simp only [h, State.walkFrom_congr h aspace va fuel]

theorem State.leafFrom_congr {s t : State} (h : ∀ a, s.dword a = t.dword a) (va : Nat) : ∀ fuel table level : Nat,
    s.leafFrom va table level fuel = t.leafFrom va table level fuel
  | 0, _, _ => rfl
  | fuel + 1, table, level => by
    unfold State.leafFrom
    simp only [h, State.leafFrom_congr h va fuel]

theorem State.pageOf_reheld (s : State) (m : Tbl Migrator) (h : List Nat) (aspace va : Nat) :
    (s.reheld m h).pageOf aspace va = s.pageOf aspace va := by
  have hd (a : Nat) : (s.reheld m h).dword a = s.dword a := rfl
  have hr : (s.reheld m h).spaceRoots aspace = s.spaceRoots aspace := rfl
  unfold State.pageOf State.walkPage
  simp only [hr, State.walkFrom_congr hd, State.leafFrom_congr hd]

/-- The move of a page is the same whatever is under HOLD (R403, R404). -/
theorem HoldFree.movePage (x : Xlat) (host : Bool) (frame : Nat) : HoldFree (·.movePage x host frame) := fun s m h => by
  unfold State.movePage
  dsimp only
  rw [State.pageOf_reheld]
  split
  · rfl
  · exact comp (comp (carryPage x _ _) (dwrite _ _)) (dropTlb _) s m h

end Sys2Proof.Machine
end

/-! ## Migrations and invalidations

The migrators' requests from GO to result, the fallback's indirection entries, and the invalidation of TLBs (R391, R399 to R406),
one law for each operation; then the statement of O44. -/

section
namespace Sys2Proof.Machine

/-! ### Tables -/

/-- A table with a function applied to every value, which keeps the default. -/
theorem tget_map {α : Type} {d : α} {f : α → α} (hd : f d = d) (i : Nat) : ∀ t : Tbl α,
    tget d (t.map (fun p => (p.1, f p.2))) i = f (tget d t i)
  | [] => hd.symm
  | (k, v) :: t => by
    rw [List.map_cons, tget, tget]
    split
    · rfl
    · split
      · exact hd.symm
      · exact tget_map hd i t

/-- A field of eight bits holds what is written to it modulo 256. -/
theorem State.cfield_csetField_byte (s : State) (a n : Nat) : (s.csetField a 0 8 n).cfield a 0 8 = n % 256 := by
  unfold State.cfield
  rw [State.cget_csetField, if_pos rfl, field_setField_same _ _ _ (by decide), BitVec.toNat_ofNat]

/-! ### The end of a request -/

theorem State.unit_raiseEvent_ne (s : State) {u v : Nat} (h : v ≠ u) (w : Word) : (s.raiseEvent u w).unit v = s.unit v := by
  unfold State.raiseEvent
  split
  · rfl
  · rw [State.unit_modUnit, if_neg h]

/-- Besides the migrator, its result and the event, nothing changes when a request ends (R402, R452). -/
theorem State.rest_endRequest (s : State) (d r : Nat) : { s.endRequest d r with
    ctl := s.ctl, migrators := s.migrators, units := s.units, heldEvents := s.heldEvents, busyAt := s.busyAt } = s := by
  unfold State.endRequest State.postNotice State.raiseEvent
  dsimp only
  split <;> rfl

section
variable (s : State) (d r : Nat)

theorem State.dram_endRequest : (s.endRequest d r).dram = s.dram := by
  have h := congrArg State.dram (s.rest_endRequest d r)
  exact h

theorem State.host_endRequest : (s.endRequest d r).host = s.host := by
  have h := congrArg State.host (s.rest_endRequest d r)
  exact h

theorem State.held_endRequest : (s.endRequest d r).held = s.held := by
  have h := congrArg State.held (s.rest_endRequest d r)
  exact h

theorem State.indirect_endRequest : (s.endRequest d r).indirect = s.indirect := by
  have h := congrArg State.indirect (s.rest_endRequest d r)
  exact h

theorem State.stays_endRequest : (s.endRequest d r).stays = s.stays := by
  have h := congrArg State.stays (s.rest_endRequest d r)
  exact h

/-- The event of a result goes to hub service sequencer 0 and changes no other unit (log entry 80). -/
theorem State.unit_endRequest {u : Nat} (hu : u ≠ hubSeq0) : (s.endRequest d r).unit u = s.unit u :=
  State.unit_raiseEvent_ne _ hu _

theorem State.migrator_endRequest :
    (s.endRequest d r).migrator d = { s.migrator d with page := none, hold := [], copying := false } := by
  refine Eq.trans ?_ (tget_tput_same ({} : Migrator) { s.migrator d with page := none, hold := [], copying := false } d s.migrators)
  unfold State.endRequest State.postNotice State.raiseEvent
  dsimp only
  split <;> rfl

theorem State.result_endRequest : (s.endRequest d r).cfield (migAddr d + 0x18) 0 8 = r % 256 := by
  refine Eq.trans ?_ (State.cfield_csetField_byte
    (s.setMigrator d { s.migrator d with page := none, hold := [], copying := false }) (migAddr d + 0x18) r)
  unfold State.endRequest State.postNotice State.raiseEvent
  dsimp only
  split <;> rfl

end

/-- A request ends with its page moved, and the page's stay begins (R402, R405). -/
def State.endMoved (s : State) (d key : Nat) : State := { s.endRequest d 0 with stays := tput s.stays key 0 }

/-! ### GO -/

/-- A GO for a migration at an idle migrator at Noon (R401, R483). -/
theorem exec_migrateGo {d : Nat} {s : State} (hd : d < 4) (hp : (s.migrator d).page = none) (hn : s.noon = true)
    (hh : s.mdstHost d = false) :
    exec (.migrateGo d) s = .next (if s.serving then s.startMigration d else s.askMigrator d) := by
  show execMigrateGo d s = _
  unfold execMigrateGo State.mayGo State.migBusy
  simp [Nat.not_le.2 hd, hh, hn, hp]

/-- A GO for an eviction at an idle migrator at Noon (R404, R483). -/
theorem exec_evictGo {d : Nat} {s : State} (hd : d < 4) (hp : (s.migrator d).page = none) (hn : s.noon = true)
    (hh : s.mdstHost d = true) :
    exec (.evictGo d) s = .next (if s.serving then s.startEviction d else s.askMigrator d) := by
  show execEvictGo d s = _
  unfold execEvictGo State.mayGo State.migBusy
  simp [Nat.not_le.2 hd, hh, hn, hp]

theorem State.startMigration_refused {s : State} {d r : Nat} (h : s.requestPage d = .inr r) : s.startMigration d = s.endRequest d r := by
  unfold State.startMigration
  rw [h]

/-- The migrator of a migration that has begun (R403). -/
def State.migrating (s : State) (d : Nat) (x : Xlat) : Migrator :=
  { s.migrator d with page := some x, hold := x.frames, since := s.now, late := false, target := s.mdstFrame d x }

theorem State.startMigration_page {s : State} {d : Nat} {x : Xlat} (h : s.requestPage d = .inl x) :
    s.startMigration d = { s.setMigrator d (s.migrating d x) with held := s.held ++ x.frames } := by
  unfold State.startMigration
  rw [h]
  rfl

theorem State.startEviction_refused {s : State} {d r : Nat} (h : s.requestPage d = .inr r) : s.startEviction d = s.endRequest d r := by
  unfold State.startEviction
  rw [h]

theorem State.startEviction_counted {s : State} {d : Nat} {x : Xlat} (h : s.requestPage d = .inl x) (hc : s.countsZero x = false) :
    s.startEviction d = s.endRequest d 7 := by
  unfold State.startEviction
  simp [h, hc]

theorem State.startEviction_page {s : State} {d : Nat} {x : Xlat} (h : s.requestPage d = .inl x) (hc : s.countsZero x = true) :
    s.startEviction d = (s.movePage x true (s.mdstFrame d x)).endMoved d x.stayKey := by
  unfold State.startEviction
  rw [h]
  dsimp only
  rw [hc]
  rfl

/-! ### Counts, the move and the fallback -/

/-- Past the 50 µs of a migration its counts are looked at (R403). -/
theorem State.migrator_countsAt (s : State) (d t : Nat) : (s.countsAt t).migrator d = s.lateAt t (s.migrator d) := by
  rw [State.countsAt_eq]
  exact tget_map rfl d s.migrators

theorem State.lateAt_passed {s : State} {m : Migrator} {x : Xlat} {t : Nat} (hp : m.page = some x) (hs : s.now < m.since + us 50)
    (ht : m.since + us 50 ≤ t) : s.lateAt t m = { m with late := !(s.countsZero x) } := by
  unfold State.lateAt
  simp [hp, hs, ht]

/-- The migrators once one of them has cleared its HOLD. -/
def State.unheldMigrators (s : State) (d : Nat) : Tbl Migrator := tput s.migrators d { s.migrator d with hold := [] }

/-- The frames under HOLD without those of a migrator. -/
def State.otherHolds (s : State) (d : Nat) : List Nat := s.held.filter (fun k => !((s.migrator d).hold.contains k))

theorem State.migrator_unhold (s : State) (d : Nat) : (s.unhold d).migrator d = { s.migrator d with hold := [] } :=
  tget_tput_same _ _ _ _

/-- A migration whose counts are zero (R403). -/
theorem exec_migrationCountsZero {d : Nat} {s : State} {x : Xlat} (hd : d < 4) (hp : (s.migrator d).page = some x)
    (hcopy : (s.migrator d).copying = false) (hz : s.countsZero x = true) (hl : x.place = .dram → (s.migrator d).late = false) :
    exec (.migrationCountsZero d) s =
      .next (((s.movePage x false (s.migrator d).target).reheld (s.unheldMigrators d) (s.otherHolds d)).endMoved d x.stayKey) := by
  have hlate : ¬ (x.place = .dram ∧ (s.migrator d).late = true) := fun ⟨hx, h⟩ => by simp [hl hx] at h
  have hmove := HoldFree.movePage x false (s.migrator d).target s (s.unheldMigrators d) (s.otherHolds d)
  show execMigrationCountsZero d s = _
  unfold execMigrationCountsZero
  rw [if_neg (Nat.not_le.2 hd)]
  dsimp only
  rw [hp]
  dsimp only
  rw [if_neg (by simp [hcopy, hz, hlate])]
  exact congrArg (fun t : State => Host.Outcome.next (t.endMoved d x.stayKey)) hmove

/-- The entry of a frame at the beginning of its fallback copy. -/
def copyingEntry (old new : Nat) : Indirect := { old := old, src := old, new := new, copying := true }

/-- A frame that the table does not name gets an entry of its own (R403). -/
theorem remap_fresh {t : List Indirect} {old : Nat} (h : ∀ e ∈ t, e.old ≠ old) (new : Nat) :
    remap t old new = t ++ [copyingEntry old new] := by
  unfold remap
  rw [List.find?_eq_none.2 (fun e he => by simpa using h e he)]
  rfl

/-- Frames that the table does not name get entries in order. -/
theorem foldl_remap_fresh {t : List Indirect} {base : Nat} (target : Nat) : ∀ {n : Nat}, (∀ i < n, ∀ e ∈ t, e.old ≠ base + i) →
    (List.range n).foldl (fun t i => remap t (base + i) (target + i)) t =
      t ++ (List.range n).map (fun i => copyingEntry (base + i) (target + i))
  | 0, _ => (List.append_nil t).symm
  | n + 1, h => by
    have ih := foldl_remap_fresh target (n := n) (fun i hi => h i (Nat.lt_succ_of_lt hi))
    rw [List.range_succ, List.foldl_append, ih, List.map_append, ← List.append_assoc]
    refine remap_fresh (fun e he => ?_) _
    rcases List.mem_append.1 he with he | he
    · exact h n (Nat.lt_succ_self n) e he
    · obtain ⟨i, hi, rfl⟩ := List.mem_map.1 he
      have hin := List.mem_range.1 hi
      show base + i ≠ base + n
      omega

/-- A fallback with room in the indirection table for frames that it does not name (R403). -/
theorem exec_migrationFallback {d : Nat} {s : State} {x : Xlat} (hd : d < 4) (hp : (s.migrator d).page = some x)
    (hcopy : (s.migrator d).copying = false) (hl : (s.migrator d).late = true) (hx : x.place = .dram)
    (hroom : (tget [] s.indirect (stackDie x.base)).length + x.frames.length ≤ 1024)
    (hfresh : ∀ f ∈ x.frames, ∀ e ∈ tget [] s.indirect (stackDie x.base), e.old ≠ f) :
    exec (.migrationFallback d) s =
      .next { (s.unhold d).setMigrator d { (s.unhold d).migrator d with copying := true } with
        indirect := tput s.indirect (stackDie x.base) (tget [] s.indirect (stackDie x.base) ++
          (List.range x.frames.length).map (fun i => copyingEntry (x.base / 65536 + i) ((s.migrator d).target + i))) } := by
  have hlen : x.frames.length = x.size / 65536 := by simp [Xlat.frames, hx]
  have hold : ∀ i < x.frames.length, ∀ e ∈ tget [] s.indirect (stackDie x.base), e.old ≠ x.base / 65536 + i := by
    intro i hi
    refine hfresh _ ?_
    rw [Xlat.frames, if_pos hx]
    exact List.mem_map_of_mem (List.mem_range.2 (hlen ▸ hi))
  have hle := List.length_filter_le (fun f => !((tget [] s.indirect (stackDie x.base)).any (fun e => e.old == f))) x.frames
  show execMigrationFallback d s = _
  unfold execMigrationFallback
  rw [if_neg (Nat.not_le.2 hd)]
  dsimp only
  rw [hp]
  dsimp only
  rw [if_neg (by simp [hcopy, hl, hx]), if_neg (by omega), foldl_remap_fresh _ hold]
  rfl

/-! ### The end of a fallback copy -/

theorem State.Stores.carryFrame (s : State) (mp : Bool) (e : Indirect) : s.Stores (State.carryFrame mp s e) := by
  have hput (m : Memory) (l : List Nat) : s.Stores { s with dram := m, cbits := l } := ⟨rfl⟩
  unfold State.carryFrame
  dsimp only
  split
  · exact (hput _ _).trans (State.Stores.locWrite _ _ rfl)
  · exact hput _ _

/-- An entry of the table once the frames of a page have been copied. -/
def Indirect.settled (x : Xlat) (e : Indirect) : Indirect :=
  if e.copying && x.frames.contains e.old then { e with copying := false } else e

theorem Indirect.copying_settled {x : Xlat} {e : Indirect} (h : (e.settled x).old ∈ x.frames) : (e.settled x).copying = false := by
  unfold Indirect.settled at h ⊢
  split at h
  · next hc => rw [if_pos hc]
  · next hc =>
    rw [if_neg hc]
    simpa [h] using hc

/-- The module with the frames of a page carried to those beneath them. -/
def State.carried (s : State) (x : Xlat) : State :=
  ((tget [] s.indirect (stackDie x.base)).filter (fun e => e.copying && x.frames.contains e.old)).foldl (State.carryFrame x.mp) s

theorem State.Stores.carried (s : State) (x : Xlat) : s.Stores (s.carried x) :=
  State.Stores.foldl (fun s e _ => State.Stores.carryFrame s x.mp e) s

theorem exec_migrationCopyEnd {d : Nat} {s : State} {x : Xlat} (hd : d < 4) (hp : (s.migrator d).page = some x)
    (hcopy : (s.migrator d).copying = true) :
    exec (.migrationCopyEnd d) s = .next (({ s.carried x with
      indirect := tput (s.carried x).indirect (stackDie x.base) ((tget [] s.indirect (stackDie x.base)).map (Indirect.settled x))
      stays := tput (s.carried x).stays x.stayKey 0 } : State).endRequest d 1) := by
  show execMigrationCopyEnd d s = _
  unfold execMigrationCopyEnd
  rw [if_neg (Nat.not_le.2 hd)]
  dsimp only
  rw [hp]
  dsimp only
  rw [if_neg (by simp [hcopy])]
  rfl

/-! ### Folding and stays -/

/-- The old frames of a page whose leaf names the new ones: those of the copied entries beneath which its frames stand (R403). -/
def State.foldable (s : State) (x : Xlat) : List Nat :=
  ((s.indirect.flatMap (·.2)).filter (fun e => !e.copying && x.frames.contains e.new)).map (·.old)

theorem State.mem_foldable {s : State} {x : Xlat} {k : Nat} :
    k ∈ s.foldable x ↔ ∃ e ∈ s.indirect.flatMap (·.2), e.old = k ∧ e.copying = false ∧ e.new ∈ x.frames := by
  unfold State.foldable
  constructor
  · intro h
    obtain ⟨e, he, rfl⟩ := List.mem_map.1 h
    obtain ⟨hmem, hcond⟩ := List.mem_filter.1 he
    exact ⟨e, hmem, rfl, by simpa using hcond⟩
  · rintro ⟨e, hmem, rfl, hcond⟩
    exact List.mem_map_of_mem (List.mem_filter.2 ⟨hmem, by simpa using hcond⟩)

/-- FOLD adds the old frames of the page to those that wait, once (R403). -/
theorem State.foldPage_spec {s : State} {d : Nat} {x : Xlat} {a : Nat} (h : s.pageOf (s.mva d).1 (s.mva d).2 = some (x, a)) :
    { s.foldPage d with migrators := s.migrators } = s ∧
      ∀ k, k ∈ ((s.foldPage d).migrator d).folding.flatten ↔ k ∈ (s.migrator d).folding.flatten ∨ k ∈ s.foldable x := by
  have hfold : s.foldPage d =
      if ((s.foldable x).filter (fun k => !((s.migrator d).folding.flatten.contains k))).isEmpty then s
      else s.setMigrator d { s.migrator d with folding := (s.migrator d).folding ++
        [(s.foldable x).filter (fun k => !((s.migrator d).folding.flatten.contains k))] } := by
    unfold State.foldPage
    dsimp only
    rw [h]
    rfl
  rw [hfold]
  generalize hfresh : (s.foldable x).filter (fun k => !((s.migrator d).folding.flatten.contains k)) = fresh
  have hmem (k : Nat) : k ∈ (s.migrator d).folding.flatten ∨ k ∈ s.foldable x ↔ k ∈ (s.migrator d).folding.flatten ∨ k ∈ fresh := by
    rw [← hfresh, List.mem_filter]
    by_cases hk : k ∈ (s.migrator d).folding.flatten
    · simp only [hk, true_or]
    · simp [hk]
  split
  · next hempty =>
    refine ⟨rfl, fun k => ?_⟩
    rw [hmem, List.isEmpty_iff.1 hempty]
    simp
  · refine ⟨rfl, fun k => ?_⟩
    rw [hmem, State.migrator_setMigrator, if_pos rfl, List.flatten_concat, List.mem_append]

theorem exec_fold {d : Nat} (hd : d < 4) (s : State) : exec (.fold d) s = .next (s.foldPage d) := by
  show execFold d s = _
  unfold execFold
  rw [if_neg (Nat.not_le.2 hd)]

theorem exec_rel {d : Nat} {s : State} {x : Xlat} {a : Nat} (hd : d < 4) (h : s.pageOf (s.mva d).1 (s.mva d).2 = some (x, a)) :
    exec (.rel d) s = .next { s with stays := tdel s.stays x.stayKey } := by
  show execRel d s = _
  unfold execRel State.releasePage
  rw [if_neg (Nat.not_le.2 hd)]
  dsimp only
  rw [h]

/-- The pages of a migrator whose old frames' counts are zero. -/
def State.folded (s : State) (d : Nat) : List (List Nat) := (s.migrator d).folding.filter (fun g => g.all (fun k => s.busyOf k == 0))

theorem State.mem_folded {s : State} {d : Nat} {g : List Nat} :
    g ∈ s.folded d ↔ g ∈ (s.migrator d).folding ∧ ∀ k ∈ g, s.busyOf k = 0 := by
  simp [State.folded]

/-- The module once the entries of the pages that have folded are free (R403). -/
def State.foldsDone (s : State) (d : Nat) : State :=
  { s.setMigrator d { s.migrator d with folding := (s.migrator d).folding.filter (fun g => !((s.folded d).contains g)) } with
    indirect := s.indirect.map (fun t => (t.1, t.2.filter (fun e => !((s.folded d).flatten.contains e.old)))) }

theorem exec_foldComplete {d : Nat} (hd : d < 4) (s : State) : exec (.foldComplete d) s = .next (s.foldsDone d) := by
  show execFoldComplete d s = _
  unfold execFoldComplete
  rw [if_neg (Nat.not_le.2 hd)]
  rfl

theorem State.mem_folding_foldsDone {s : State} {d : Nat} {g : List Nat} :
    g ∈ ((s.foldsDone d).migrator d).folding ↔ g ∈ (s.migrator d).folding ∧ ∃ k ∈ g, s.busyOf k ≠ 0 := by
  have hm : (s.foldsDone d).migrator d = { s.migrator d with
      folding := (s.migrator d).folding.filter (fun g => !((s.folded d).contains g)) } := tget_tput_same _ _ _ _
  rw [hm, List.mem_filter]
  refine and_congr_right fun hg => ?_
  simp [State.mem_folded, hg]

theorem State.old_foldsDone {s : State} {d : Nat} {g : List Nat} (hg : g ∈ (s.migrator d).folding) (hz : ∀ k ∈ g, s.busyOf k = 0) :
    ∀ p ∈ (s.foldsDone d).indirect, ∀ e ∈ p.2, e.old ∉ g := by
  intro p hp e he hold
  obtain ⟨t, -, rfl⟩ := List.mem_map.1 hp
  obtain ⟨-, hkeep⟩ := List.mem_filter.1 he
  have hin : e.old ∈ (s.folded d).flatten := List.mem_flatten.2 ⟨g, State.mem_folded.2 ⟨hg, hz⟩, hold⟩
  simp [hin] at hkeep

/-! ### Invalidation -/

/-- No entry that a condition names is left in a TLB (R399). -/
theorem State.dropTlb_none {s : State} {p : Xlat → Bool} {e : Nat × Unit} (he : e ∈ (s.dropTlb p).units) :
    ∀ x ∈ e.2.tlb0 ++ e.2.tlb1 ++ e.2.tlbw, p x = false := by
  obtain ⟨f, -, rfl⟩ := List.mem_map.1 he
  intro x hx
  simp only [← List.filter_append] at hx
  obtain ⟨-, hkept⟩ := List.mem_filter.1 hx
  simpa using hkept

/-- The module once an invalidation with a scope has begun (R391, R399). -/
def State.invalidating (s : State) (p : Xlat → Bool) : State :=
  { (s.dropTlb p).csetField (trb + 0x20) 0 1 1 with invWait := s.holders p }

theorem exec_tlbinv {v : Word} {s : State} (hgo : bitOf v 63 = true) (hbusy : bitOf (s.cget (trb + 0x20)) 0 = false)
    (hscope : field v 61 2 ≠ 3) :
    exec (.tlbinv v) s = .next ((s.cset (trb + 0x10) (v &&& 0x7000FFFFFFFFFFFF)).invalidating
      (invMatches v (s.cfield (trb + 0x18) 0 36 * 65536))) := by
  have hbase : (s.cset (trb + 0x10) (v &&& 0x7000FFFFFFFFFFFF)).cfield (trb + 0x18) 0 36 = s.cfield (trb + 0x18) 0 36 := by
    unfold State.cfield
    rw [State.cget_cset, if_neg (by decide)]
  show execTlbinv v s = _
  unfold execTlbinv State.writeTlbinv
  rw [if_neg (by simp [hbusy])]
  dsimp only
  rw [if_neg (not_or.2 ⟨by simp [hgo], hscope⟩), hbase]
  rfl

theorem exec_tlbInvalidationDone {s : State} (h : ∀ p ∈ s.invWait, s.commandAlive p = false) :
    exec .tlbInvalidationDone s = .next { (s.csetField (trb + 0x20) 0 1 0).stir with invWait := [] } := by
  show execTlbInvalidationDone s = _
  unfold execTlbInvalidationDone
  rw [if_neg (by simpa using h)]

theorem State.bit_csetField (s : State) (a n : Nat) : bitOf ((s.csetField a 0 1 n).cget a) 0 = bitOf (BitVec.ofNat 1 n) 0 := by
  rw [State.cget_csetField, if_pos rfl, bitOf_setField _ _ _ _ (by decide), if_pos (by decide)]

/-! ### The statement, clause by clause -/

/-- A migration that GO asks for: refused with a result, or its page's frames under HOLD (R403). -/
theorem migrateGo_clauses {d : Nat} {s : State} (hd : d < 4) (hp : (s.migrator d).page = none) (hn : s.noon = true)
    (hserv : s.serving = true) (hh : s.mdstHost d = false) :
    (∀ r, s.requestPage d = .inr r → ∃ t, exec (.migrateGo d) s = .next t ∧ (t.migrator d).page = none ∧
      t.cfield (migAddr d + 0x18) 0 8 = r % 256 ∧ t.held = s.held ∧ t.dram = s.dram) ∧
    (∀ x, s.requestPage d = .inl x → ∃ t, exec (.migrateGo d) s = .next t ∧ (t.migrator d).page = some x ∧
      t.held = s.held ++ x.frames ∧ (t.migrator d).since = s.now ∧ t.dram = s.dram ∧ t.units = s.units) := by
  have hgo := exec_migrateGo hd hp hn hh
  rw [if_pos hserv] at hgo
  refine ⟨fun r hr => ?_, fun x hx => ?_⟩
  · rw [State.startMigration_refused hr] at hgo
    refine ⟨_, hgo, ?_, s.result_endRequest d r, s.held_endRequest d r, s.dram_endRequest d r⟩
    rw [State.migrator_endRequest]
  · rw [State.startMigration_page hx] at hgo
    have hm : (s.setMigrator d (s.migrating d x)).migrator d = s.migrating d x := by rw [State.migrator_setMigrator, if_pos rfl]
    exact ⟨_, hgo, congrArg Migrator.page hm, rfl, congrArg Migrator.since hm, rfl, rfl⟩

/-- An eviction that GO asks for: refused, SKIPPED, or the page moved at once (R404, R406). -/
theorem evictGo_clauses {d : Nat} {s : State} (hd : d < 4) (hp : (s.migrator d).page = none) (hn : s.noon = true)
    (hserv : s.serving = true) (hh : s.mdstHost d = true) :
    (∀ r, s.requestPage d = .inr r → ∃ t, exec (.evictGo d) s = .next t ∧ t.cfield (migAddr d + 0x18) 0 8 = r % 256 ∧
      t.dram = s.dram ∧ t.host = s.host) ∧
    (∀ x, s.requestPage d = .inl x → s.countsZero x = false → ∃ t, exec (.evictGo d) s = .next t ∧
      t.cfield (migAddr d + 0x18) 0 8 = 7 ∧ t.dram = s.dram ∧ t.host = s.host) ∧
    (∀ x, s.requestPage d = .inl x → s.countsZero x = true → ∃ t, exec (.evictGo d) s = .next t ∧
      (t.migrator d).page = none ∧ t.cfield (migAddr d + 0x18) 0 8 = 0 ∧ tget 99 t.stays x.stayKey = 0 ∧
      t.host = (s.movePage x true (s.mdstFrame d x)).host) := by
  have hgo := exec_evictGo hd hp hn hh
  rw [if_pos hserv] at hgo
  refine ⟨fun r hr => ?_, fun x hx hc => ?_, fun x hx hc => ?_⟩
  · rw [State.startEviction_refused hr] at hgo
    exact ⟨_, hgo, s.result_endRequest d r, s.dram_endRequest d r, s.host_endRequest d r⟩
  · rw [State.startEviction_counted hx hc] at hgo
    exact ⟨_, hgo, s.result_endRequest d 7, s.dram_endRequest d 7, s.host_endRequest d 7⟩
  · rw [State.startEviction_page hx hc] at hgo
    exact ⟨_, hgo, congrArg Migrator.page (State.migrator_endRequest _ d 0), State.result_endRequest _ d 0,
      tget_tput_same _ _ _ _, State.host_endRequest _ d 0⟩

/-- A migration that holds its page: its counts at 50 µs, the move, and the fallback (R403). -/
theorem migration_clauses {d : Nat} {s : State} (hd : d < 4) {x : Xlat} (hp : (s.migrator d).page = some x)
    (hcopy : (s.migrator d).copying = false) :
    (∀ t, s.now < (s.migrator d).since + us 50 → (s.migrator d).since + us 50 ≤ t →
      (s.countsAt t).migrator d = { s.migrator d with late := !(s.countsZero x) }) ∧
    (s.countsZero x = true → (x.place = .dram → (s.migrator d).late = false) →
      ∃ t, exec (.migrationCountsZero d) s = .next t ∧ (t.migrator d).page = none ∧
      t.cfield (migAddr d + 0x18) 0 8 = 0 ∧ tget 99 t.stays x.stayKey = 0 ∧
      t.held = s.held.filter (fun k => !((s.migrator d).hold.contains k)) ∧
      t.dram = (s.movePage x false (s.migrator d).target).dram) ∧
    ((s.migrator d).late = true → x.place = .dram →
      (tget [] s.indirect (stackDie x.base)).length + x.frames.length ≤ 1024 →
      (∀ f ∈ x.frames, ∀ e ∈ tget [] s.indirect (stackDie x.base), e.old ≠ f) → x.frames.Nodup →
      ∃ t, exec (.migrationFallback d) s = .next t ∧ (t.migrator d).copying = true ∧ (t.migrator d).page = some x ∧
        tget [] t.indirect (stackDie x.base) = tget [] s.indirect (stackDie x.base) ++
          (List.range x.frames.length).map (fun i =>
            { old := x.base / 65536 + i, src := x.base / 65536 + i, new := (s.migrator d).target + i, copying := true }) ∧
        t.held = s.held.filter (fun k => !((s.migrator d).hold.contains k)) ∧ t.dram = s.dram) := by
  refine ⟨fun t hs ht => ?_, fun hz hl => ?_, fun hl hx hroom hfresh _ => ?_⟩
  · rw [State.migrator_countsAt, State.lateAt_passed hp hs ht]
  · exact ⟨_, exec_migrationCountsZero hd hp hcopy hz hl, congrArg Migrator.page (State.migrator_endRequest _ d 0),
      State.result_endRequest _ d 0, tget_tput_same _ _ _ _, State.held_endRequest _ d 0, State.dram_endRequest _ d 0⟩
  · have hm : ((s.unhold d).setMigrator d { (s.unhold d).migrator d with copying := true }).migrator d =
        { s.migrator d with hold := [], copying := true } := by
      rw [State.migrator_setMigrator, if_pos rfl, State.migrator_unhold]
    exact ⟨_, exec_migrationFallback hd hp hcopy hl hx hroom hfresh, congrArg Migrator.copying hm,
      (congrArg Migrator.page hm).trans hp, tget_tput_same _ _ _ _, rfl, rfl⟩

/-- A fallback copy that ends (R403). -/
theorem copyEnd_clauses {d : Nat} {s : State} (hd : d < 4) {x : Xlat} (hp : (s.migrator d).page = some x)
    (hcopy : (s.migrator d).copying = true) :
    ∃ t, exec (.migrationCopyEnd d) s = .next t ∧ (t.migrator d).page = none ∧ (t.migrator d).copying = false ∧
      t.cfield (migAddr d + 0x18) 0 8 = 1 ∧ tget 99 t.stays x.stayKey = 0 ∧
      (∀ e ∈ tget [] t.indirect (stackDie x.base), e.old ∈ x.frames → e.copying = false) ∧
      ∀ u, u ≠ hubSeq0 → t.unit u = s.unit u := by
  have hm := fun s : State => s.migrator_endRequest d 1
  refine ⟨_, exec_migrationCopyEnd hd hp hcopy, congrArg Migrator.page (hm _), congrArg Migrator.copying (hm _),
    State.result_endRequest _ d 1, ?_, ?_, fun u hu => ?_⟩
  · rw [State.stays_endRequest]
    exact tget_tput_same _ _ _ _
  · rw [State.indirect_endRequest]
    dsimp only
    rw [tget_tput_same]
    intro e he hold
    obtain ⟨f, -, rfl⟩ := List.mem_map.1 he
    exact Indirect.copying_settled hold
  · exact (State.unit_endRequest _ d 1 hu).trans ((State.Stores.carried s x).unit u)

/-- Settles O44: every operation of a migrator does what its law says; that a page's move is the same before and after its HOLD is
cleared gives the bytes of the counts' clause. -/
theorem migrationsAndTranslation : Obligations.MigrationsAndTranslation := by
  unfold Obligations.MigrationsAndTranslation
  refine ⟨fun d s hd => ⟨fun hp hn => ⟨?_, migrateGo_clauses hd hp hn, evictGo_clauses hd hp hn⟩,
    fun x => migration_clauses hd, fun x => copyEnd_clauses hd⟩, fun d s hd => ⟨?_, ?_⟩, ?_, ?_, ?_⟩
  · rintro hserv i (⟨rfl, hh⟩ | ⟨rfl, hh⟩)
    · rw [exec_migrateGo hd hp hn hh, hserv]
      rfl
    · rw [exec_evictGo hd hp hn hh, hserv]
      rfl
  · intro x a hx
    obtain ⟨hrest, hmem⟩ := State.foldPage_spec hx
    refine ⟨⟨_, exec_fold hd s, hrest, fun k => ?_⟩, exec_rel hd hx⟩
    rw [hmem, State.mem_foldable]
  · exact ⟨_, exec_foldComplete hd s, rfl, rfl, fun g => State.mem_folding_foldsDone, fun g => State.old_foldsDone⟩
  · intro page s
    exact ⟨_, rfl, rfl, fun p => by simp [List.mem_filter]⟩
  · intro v s hgo hbusy hscope
    exact ⟨_, exec_tlbinv hgo hbusy hscope, State.bit_csetField _ _ 1, rfl, fun e he => State.dropTlb_none he, rfl⟩
  · intro s h
    exact ⟨_, exec_tlbInvalidationDone h, State.bit_csetField _ _ 0, rfl, rfl⟩

end Sys2Proof.Machine
end

/-! ## What is held stays whole

The buffers of every context and the lines of every atomic engine (R75, R91). `holding` gathers them for each part of the state;
an operation either leaves what is held as it stands (`holding_…`) or keeps it whole (`Sound.…`), and so does every instruction
(`keeps_exec`); then the statement of O60. -/

section
namespace Sys2Proof.Machine

/-! ### What the contexts and the engines hold -/

/-- A buffer of a context, or the lines of an atomic engine. -/
inductive Holding
  | buffer (m : Memory)
  | lines (l : Tbl (List Byte))

/-- The four buffers of a context. -/
def fourBuffers (wb ab cb sb : Memory) : Set Holding := {.buffer wb, .buffer ab, .buffer cb, .buffer sb}

/-- What a unit holds. -/
def Unit.holding : Unit → Set Holding
  | { wb, ab, cb, sb, .. } => fourBuffers wb ab cb sb

/-- What a cluster's engine holds. -/
def ClusterSt.holding : ClusterSt → Set Holding
  | { lines, .. } => {.lines lines}

/-- What the values of a table hold. -/
def holdingBy {α : Type} (f : α → Set Holding) (t : Tbl α) : Set Holding := ⋃ p ∈ t, f p.2

/-- What the system state that a drain writes holds. -/
def SysImage.holding : SysImage → Set Holding
  | { clusters, .. } => holdingBy ClusterSt.holding clusters

/-- What the state kept at a warning holds. -/
def AtWarn.holding : AtWarn → Set Holding
  | { image, .. } => image.holding

/-- What a hibernation area holds. -/
def HibArea.holding : HibArea → Set Holding
  | { sys, teams, .. } => sys.holding ∪ holdingBy (holdingBy Unit.holding) teams

/-- What an optional part holds. -/
def holdingOf {α : Type} (f : α → Set Holding) : Option α → Set Holding
  | none => ∅
  | some a => f a

/-- What the parts of a state hold, with the empty buffer of a unit, and the empty store of an engine, that no table lists. -/
def holdingIn (units : Tbl Unit) (saved : Tbl (Tbl Unit)) (old : Tbl Unit) (clusters : Tbl ClusterSt) (warn : Option AtWarn)
    (hib : Tbl HibArea) : Set Holding :=
  ({.buffer []} ∪ holdingBy Unit.holding units) ∪ ({.lines []} ∪ holdingBy ClusterSt.holding clusters) ∪ holdingBy
      (holdingBy Unit.holding) saved ∪
    holdingBy Unit.holding old ∪ holdingOf AtWarn.holding warn ∪ holdingBy HibArea.holding hib

/-- What a state holds. -/
def State.holding : State → Set Holding
  | { units, saved, ho, clusters, dusk, hib, .. } => holdingIn units saved ho.old clusters dusk.atWarn hib

@[simp] theorem Unit.holding_mk : type_of% @Unit.holding.eq_1 := @Unit.holding.eq_1
@[simp] theorem ClusterSt.holding_mk : type_of% @ClusterSt.holding.eq_1 := @ClusterSt.holding.eq_1
@[simp] theorem State.holding_mk : type_of% @State.holding.eq_1 := @State.holding.eq_1
@[simp] theorem SysImage.holding_mk : type_of% @SysImage.holding.eq_1 := @SysImage.holding.eq_1
@[simp] theorem AtWarn.holding_mk : type_of% @AtWarn.holding.eq_1 := @AtWarn.holding.eq_1
@[simp] theorem HibArea.holding_mk : type_of% @HibArea.holding.eq_1 := @HibArea.holding.eq_1
@[simp] theorem fourBuffers_unit (x : Unit) : fourBuffers x.wb x.ab x.cb x.sb = x.holding := rfl
@[simp] theorem holding_lines (c : ClusterSt) : {.lines c.lines} = c.holding := rfl
@[simp] theorem holdingIn_state (s : State) : holdingIn s.units s.saved s.ho.old s.clusters s.dusk.atWarn s.hib = s.holding :=
  rfl
@[simp] theorem holdingBy_image (m : SysImage) : holdingBy ClusterSt.holding m.clusters = m.holding := rfl
@[simp] theorem holding_image_warn (w : AtWarn) : w.image.holding = w.holding := rfl
@[simp] theorem holding_area (h : HibArea) : h.sys.holding ∪ holdingBy (holdingBy Unit.holding) h.teams = h.holding := rfl
@[simp] theorem State.holding_ite (c : Prop) [Decidable c] (s t : State) :
    (if c then s else t).holding = if c then s.holding else t.holding := apply_ite State.holding c s t
@[simp] theorem Unit.holding_ite (c : Prop) [Decidable c] (x y : Unit) :
    (if c then x else y).holding = if c then x.holding else y.holding := apply_ite Unit.holding c x y

@[simp] theorem holdingBy_nil {α : Type} (f : α → Set Holding) : holdingBy f [] = ∅ := by simp [holdingBy]
@[simp] theorem holdingBy_cons {α : Type} (f : α → Set Holding) (p : Nat × α) (t : Tbl α) :
    holdingBy f (p :: t) = f p.2 ∪ holdingBy f t := by simp [holdingBy]

theorem holdingBy_tput_subset {α : Type} (f : α → Set Holding) (i : Nat) (v : α) (t : Tbl α) :
    holdingBy f (tput t i v) ⊆ f v ∪ holdingBy f t := by
  induction t with
  | nil => simp [tput]
  | cons p t ih =>
    unfold tput
    split_ifs
    · simp
    · simp only [holdingBy_cons]; exact Set.union_subset_union_right _ Set.subset_union_right
    · simp only [holdingBy_cons]
      exact Set.union_subset (Set.subset_union_of_subset_right Set.subset_union_left _)
        (ih.trans (Set.union_subset_union_right _ Set.subset_union_right))

theorem holding_tput_same {α : Type} {f : α → Set Holding} {d v : α} {i : Nat} : ∀ {t : Tbl α}, f v = f (tget d t i) →
    f d ∪ holdingBy f (tput t i v) = f d ∪ holdingBy f t
  | [], h => by
    rw [tget_nil] at h
    simp [tput, h]
  | p :: t, h => by
    unfold tput
    rw [tget] at h
    split_ifs with h1 h2
    · rw [if_neg (by omega), if_pos h1] at h
      simp [h, ← Set.union_assoc]
    · rw [if_pos h2] at h
      simp [h]
    · rw [if_neg h2, if_neg h1] at h
      simp only [holdingBy_cons, Set.union_left_comm (f d), holding_tput_same h]

theorem Unit.holding_default : Unit.holding {} = {.buffer []} := by simp [fourBuffers]

/-- Putting a unit in place that holds what stood there changes nothing of what the state holds. -/
@[simp] theorem holdingIn_tput_unit {s : State} {u : Nat} {x : Unit} (saved : Tbl (Tbl Unit)) (old : Tbl Unit)
    (clusters : Tbl ClusterSt) (warn : Option AtWarn) (hib : Tbl HibArea) (h : x.holding = (s.unit u).holding) :
    holdingIn (tput s.units u x) saved old clusters warn hib = holdingIn s.units saved old clusters warn hib := by
  unfold holdingIn
  rw [← Unit.holding_default, holding_tput_same h]

@[simp] theorem holdingIn_tput_cluster {s : State} {k : Nat} {c : ClusterSt} (units : Tbl Unit) (saved : Tbl (Tbl Unit))
    (old : Tbl Unit) (warn : Option AtWarn) (hib : Tbl HibArea) (h : c.holding = (s.cluster k).holding) :
    holdingIn units saved old (tput s.clusters k c) warn hib = holdingIn units saved old s.clusters warn hib := by
  unfold holdingIn
  rw [← show ClusterSt.holding {} = {.lines []} by simp, holding_tput_same h]

@[simp] theorem holdingIn_tput_units_state (s : State) (u : Nat) (x : Unit) :
    holdingIn (tput s.units u x) s.saved s.ho.old s.clusters s.dusk.atWarn s.hib = (s.setUnit u x).holding := rfl
@[simp] theorem holdingIn_tput_clusters_state (s : State) (k : Nat) (c : ClusterSt) :
    holdingIn s.units s.saved s.ho.old (tput s.clusters k c) s.dusk.atWarn s.hib = (s.setCluster k c).holding := rfl

theorem holdingBy_congr {α β : Type} {f : α → Set Holding} {g : β → Set Holding} {m : Nat × α → Nat × β} {t : Tbl α}
    (h : ∀ p ∈ t, g (m p).2 = f p.2) : holdingBy g (t.map m) = holdingBy f t := by
  induction t with
  | nil => simp
  | cons p t ih =>
    simp only [List.map_cons, holdingBy_cons]
    rw [h p (by simp), ih (fun q hq => h q (by simp [hq]))]

@[simp] theorem holdingIn_map_units {m : Nat × Unit → Nat × Unit} (units : Tbl Unit) (saved : Tbl (Tbl Unit)) (old : Tbl Unit)
    (clusters : Tbl ClusterSt) (warn : Option AtWarn) (hib : Tbl HibArea) (h : ∀ p, (m p).2.holding = p.2.holding) :
    holdingIn (units.map m) saved old clusters warn hib = holdingIn units saved old clusters warn hib := by
  unfold holdingIn
  rw [holdingBy_congr fun p _ => h p]

@[simp] theorem State.holding_setUnit {s : State} {u : Nat} {x : Unit} (h : x.holding = (s.unit u).holding) :
    (s.setUnit u x).holding = s.holding :=
  holdingIn_tput_unit _ _ _ _ _ h
@[simp] theorem State.holding_modUnit {s : State} {u : Nat} {f : Unit → Unit} (h : ∀ x, (f x).holding = x.holding) :
    (s.modUnit u f).holding = s.holding := State.holding_setUnit (h _)
@[simp] theorem State.holding_modCur {s : State} {f : Unit → Unit} (h : ∀ x, (f x).holding = x.holding) :
    (s.modCur f).holding = s.holding := State.holding_setUnit (h _)
@[simp] theorem State.holding_setCluster {s : State} {k : Nat} {c : ClusterSt} (h : c.holding = (s.cluster k).holding) :
    (s.setCluster k c).holding = s.holding := holdingIn_tput_cluster _ _ _ _ _ h
theorem holding_foldl {α β : Type} {g : β → Set Holding} {f : β → α → β} {l : List α} (h : ∀ s a, g (f s a) = g s) (s : β) :
    g (l.foldl f s) = g s := by
  induction l generalizing s with
  | nil => rfl
  | cons a l ih => rw [List.foldl_cons, ih, h]
@[simp] theorem State.holding_foldl {α : Type} {f : State → α → State} {l : List α} (h : ∀ s a, (f s a).holding = s.holding)
    (s : State) :
    (l.foldl f s).holding = s.holding := Machine.holding_foldl h s
@[simp] theorem Unit.holding_foldl {α : Type} {f : Unit → α → Unit} {l : List α} (h : ∀ s a, (f s a).holding = s.holding)
    (s : Unit) :
    (l.foldl f s).holding = s.holding := Machine.holding_foldl h s

/-! ### Whole -/

/-- A buffer in canonical form, where `k` asks for buffers; lines in order, 64 bytes each, where it asks for lines. -/
def Holding.Whole (k : Bool) : Holding → Prop
  | .buffer m => k = true → Memory.wf m = true
  | .lines l => k = false → tsorted l = true ∧ ∀ e ∈ l, e.2.length = 64

/-- Everything holding is whole. -/
def Sound (k : Bool) (S : Set Holding) : Prop := ∀ h ∈ S, h.Whole k

section
variable {k : Bool}

theorem Sound.mono {S T : Set Holding} (h : Sound k T) (hs : S ⊆ T) : Sound k S := fun x hx => h x (hs hx)

@[simp] theorem sound_empty : Sound k ∅ := fun _ h => h.elim
@[simp] theorem sound_union {S T : Set Holding} : Sound k (S ∪ T) ↔ Sound k S ∧ Sound k T := by
  simp [Sound, or_imp, forall_and]
@[simp] theorem sound_insert {a : Holding} {S : Set Holding} : Sound k (insert a S) ↔ a.Whole k ∧ Sound k S := by simp [Sound]
@[simp] theorem sound_singleton {a : Holding} : Sound k {a} ↔ a.Whole k := by simp [Sound]
@[simp] theorem whole_no_bytes : (Holding.buffer []).Whole k := fun _ => rfl
@[simp] theorem whole_no_lines : (Holding.lines []).Whole k := fun _ => ⟨rfl, by simp⟩

theorem sound_holdingBy {α : Type} {f : α → Set Holding} {t : Tbl α} : Sound k (holdingBy f t) ↔ ∀ p ∈ t, Sound k (f p.2) := by
  induction t with
  | nil => simp
  | cons p t ih => simp [ih]

theorem Sound.of_tput {α : Type} {f : α → Set Holding} {t : Tbl α} {v : α} (h : Sound k (holdingBy f t)) (i : Nat)
    (hv : Sound k (f v)) :
    Sound k (holdingBy f (tput t i v)) :=
  Sound.mono (sound_union.2 ⟨hv, h⟩) (holdingBy_tput_subset f i v t)

theorem Sound.of_tget {α : Type} {f : α → Set Holding} {t : Tbl α} {d : α} (h : Sound k (holdingBy f t)) (i : Nat)
    (hd : Sound k (f d)) :
    Sound k (f (tget d t i)) :=
  forall_tget (P := fun a => Sound k (f a)) i (sound_holdingBy.1 h) hd

@[simp] theorem sound_fourBuffers {wb ab cb sb : Memory} : Sound k (fourBuffers wb ab cb sb) ↔
    k = true → Memory.wf wb = true ∧ Memory.wf ab = true ∧ Memory.wf cb = true ∧ Memory.wf sb = true := by
  simp [fourBuffers, Sound, Holding.Whole]
  tauto

theorem sound_unit_iff {x : Unit} : Sound k x.holding ↔ (k = true → x.BuffersCanonical) := by
  rw [← fourBuffers_unit, sound_fourBuffers]
  refine imp_congr_right fun _ => ⟨fun ⟨h1, h2, h3, h4⟩ b => ?_, fun h => ⟨h .wb, h .ab, h .cb, h .sb⟩⟩
  cases b <;> assumption

theorem Sound.unit_map {x y : Unit} (h : Sound k x.holding) (hf : x.BuffersCanonical → y.BuffersCanonical) :
    Sound k y.holding :=
  sound_unit_iff.2 fun hk => hf (sound_unit_iff.1 h hk)

@[simp] theorem sound_new_unit : Sound k (Unit.holding {}) := by simp

theorem sound_cluster_iff {c : ClusterSt} : Sound k c.holding ↔ (k = false → c.LinesWhole) := by
  rw [← holding_lines, sound_singleton]; rfl

theorem Sound.cluster_map {c d : ClusterSt} (h : Sound k c.holding) (hf : c.LinesWhole → d.LinesWhole) : Sound k d.holding :=
  sound_cluster_iff.2 fun hk => hf (sound_cluster_iff.1 h hk)

@[simp] theorem sound_new_cluster : Sound k (ClusterSt.holding {}) := by simp

theorem sound_holdingIn {units old : Tbl Unit} {saved : Tbl (Tbl Unit)} {clusters : Tbl ClusterSt} {warn : Option AtWarn}
    {hib : Tbl HibArea} : Sound k (holdingIn units saved old clusters warn hib) ↔
      Sound k (holdingBy Unit.holding units) ∧ Sound k (holdingBy ClusterSt.holding clusters) ∧
      Sound k (holdingBy (holdingBy Unit.holding) saved) ∧ Sound k (holdingBy Unit.holding old) ∧
      Sound k (holdingOf AtWarn.holding warn) ∧ Sound k (holdingBy HibArea.holding hib) := by
  simp [holdingIn]; tauto

theorem sound_state_iff {s : State} : Sound k s.holding ↔
      Sound k (holdingBy Unit.holding s.units) ∧ Sound k (holdingBy ClusterSt.holding s.clusters) ∧
      Sound k (holdingBy (holdingBy Unit.holding) s.saved) ∧ Sound k (holdingBy Unit.holding s.ho.old) ∧
      Sound k (holdingOf AtWarn.holding s.dusk.atWarn) ∧ Sound k (holdingBy HibArea.holding s.hib) := sound_holdingIn

variable {s : State}

@[simp] theorem Sound.unit (h : Sound k s.holding) (u : Nat) : Sound k (s.unit u).holding :=
  (sound_state_iff.1 h).1.of_tget u sound_new_unit
@[simp] theorem Sound.cur (h : Sound k s.holding) : Sound k s.cur.holding := h.unit _
@[simp] theorem Sound.cluster (h : Sound k s.holding) (j : Nat) : Sound k (s.cluster j).holding :=
  (sound_state_iff.1 h).2.1.of_tget j sound_new_cluster

@[simp] theorem Sound.setUnit {x : Unit} (h : Sound k s.holding) (hx : Sound k x.holding) (u : Nat) :
    Sound k (s.setUnit u x).holding := by
  obtain ⟨h1, hr⟩ := sound_state_iff.1 h
  exact sound_state_iff.2 ⟨h1.of_tput u hx, hr⟩

@[simp] theorem Sound.setCluster {c : ClusterSt} (h : Sound k s.holding) (hc : Sound k c.holding) (j : Nat) :
    Sound k (s.setCluster j c).holding := by
  obtain ⟨h1, h2, hr⟩ := sound_state_iff.1 h
  exact sound_state_iff.2 ⟨h1, h2.of_tput j hc, hr⟩

@[simp] theorem Sound.modUnit {f : Unit → Unit} (h : Sound k s.holding) (hf : ∀ x, Sound k x.holding → Sound k (f x).holding)
    (u : Nat) :
    Sound k (s.modUnit u f).holding := h.setUnit (hf _ (h.unit u)) u

@[simp] theorem Sound.modCur {f : Unit → Unit} (h : Sound k s.holding) (hf : ∀ x, Sound k x.holding → Sound k (f x).holding) :
    Sound k (s.modCur f).holding := h.modUnit hf _

@[simp] theorem Sound.foldl {α : Type} {f : State → α → State} {l : List α} (h : Sound k s.holding)
    (hf : ∀ s a, Sound k s.holding → Sound k (f s a).holding) : Sound k (l.foldl f s).holding := by
  induction l generalizing s with
  | nil => exact h
  | cons a l ih => exact ih (hf s a h)

@[simp] theorem Sound.ite {c : Prop} [Decidable c] {S T : Set Holding} (h1 : c → Sound k S) (h2 : ¬ c → Sound k T) :
    Sound k (if c then S else T) := by split_ifs with h <;> simp_all

/-! ### Units -/

variable {x : Unit}

theorem Sound.setBuf (h : Sound k x.holding) {m : Memory} (b : Buf) (hm : k = true → Memory.wf m = true) :
    Sound k (x.setBuf b m).holding :=
  sound_unit_iff.2 fun hk => (sound_unit_iff.1 h hk).setBuf b (hm hk)
@[simp] theorem Sound.bput (h : Sound k x.holding) (b : Buf) (bs : List (Nat × Byte)) : Sound k (x.bput b bs).holding :=
  h.unit_map fun hx => hx.bput b bs
@[simp] theorem Sound.commitGated (h : Sound k x.holding) : Sound k x.commitGated.holding := h.unit_map fun hx => hx.commitGated
@[simp] theorem Sound.store (h : Sound k x.holding) (b : Buf) (es : List (List (Nat × Byte))) :
    Sound k (x.store b es).holding :=
  h.unit_map fun hx => hx.store b es

end

/-! ### What leaves it as it stands -/

@[simp] theorem Unit.holding_issueResult (x : Unit) (r : InFlight) : (x.issueResult r).holding = x.holding := by
  simp [Unit.issueResult]
@[simp] theorem Unit.holding_landOne (x : Unit) (r : InFlight) : (x.landOne r).holding = x.holding := by
  unfold Unit.landOne; split <;> simp
@[simp] theorem Unit.holding_landDue (x : Unit) : (x.landDue).holding = x.holding := by simp [Unit.landDue]
@[simp] theorem Unit.holding_tagDone (x : Unit) (t : Nat) : (x.tagDone t).holding = x.holding := by simp [Unit.tagDone]
@[simp] theorem Unit.holding_discardCmds (x : Unit) : (x.discardCmds).holding = x.holding := by simp [Unit.discardCmds]
@[simp] theorem Unit.holding_dropGated (x : Unit) : (x.dropGated).holding = x.holding := by simp [Unit.dropGated]
@[simp] theorem Unit.holding_rollback (x : Unit) : (x.rollback).holding = x.holding := by simp [Unit.rollback]
@[simp] theorem Unit.holding_enterTrap (x : Unit) (c : Cause) (resume : Nat) (val : Word) (rb : Bool) :
    (x.enterTrap c resume val rb).holding = x.holding := by
  simp [Unit.enterTrap]
@[simp] theorem Unit.holding_endFaulted (x : Unit) (c val : Word) : (x.endFaulted c val).holding = x.holding := by
  simp [Unit.endFaulted]
@[simp] theorem Unit.holding_syncTrap (u : Nat) (x : Unit) (c : Cause) (val : Word) :
    (x.syncTrap u c val).holding = x.holding := by
  simp [Unit.syncTrap]
@[simp] theorem Unit.holding_writeReply (x : Unit) (r : Nat) (serial : Nat) (v : Word) :
    (x.writeReply r serial v).holding = x.holding := by
  simp [Unit.writeReply]
@[simp] theorem Unit.holding_landReplies (x : Unit) (rs : List (Nat × Word)) : (x.landReplies rs).holding = x.holding := by
  refine Unit.holding_foldl (fun y r => ?_) x
  split <;> simp
@[simp] theorem Unit.holding_restoreBank (x : Unit) : (x.restoreBank).holding = x.holding := by
  unfold Unit.restoreBank; split <;> simp
@[simp] theorem Unit.holding_leaveTrap (x : Unit) : (x.leaveTrap).holding = x.holding := by simp [Unit.leaveTrap]
@[simp] theorem Unit.holding_collectFp (x : Unit) : (x.collectFp).holding = x.holding := by
  unfold Unit.collectFp; split <;> simp
@[simp] theorem Unit.holding_setBudget (x : Unit) (n : Nat) : (x.setBudget n).holding = x.holding := by
  simp [Unit.setBudget]
@[simp] theorem Unit.holding_holdPends (x : Unit) : (x.holdPends).holding = x.holding := by simp [Unit.holdPends]
@[simp] theorem State.holding_cset (s : State) (a : Nat) (w : Word) : (s.cset a w).holding = s.holding := by
  simp [State.cset]
@[simp] theorem State.holding_csetField (s : State) (a lo w v : Nat) : (s.csetField a lo w v).holding = s.holding := by
  simp [State.csetField]
@[simp] theorem State.holding_noteBump (s : State) (a lo n : Nat) : (s.noteBump a lo n).holding = s.holding := by
  simp [State.noteBump]
@[simp] theorem State.holding_cbump (s : State) (a lo w n : Nat) : (s.cbump a lo w n).holding = s.holding := by
  simp [State.cbump]
@[simp] theorem State.holding_cclear (s : State) (a lo w : Nat) : (s.cclear a lo w).holding = s.holding := by
  simp [State.cclear]
@[simp] theorem State.holding_raiseVector (s : State) (n : Nat) : (s.raiseVector n).holding = s.holding := by
  simp [State.raiseVector]
@[simp] theorem State.holding_raiseEvent (s : State) (u : Nat) (w : Word) : (s.raiseEvent u w).holding = s.holding := by
  simp [State.raiseEvent]
@[simp] theorem State.holding_postEvent (s : State) (u src payload : Nat) :
    (s.postEvent u src payload).holding = s.holding := by
  simp [State.postEvent]
@[simp] theorem State.holding_postNotice (s : State) (kind n : Nat) : (s.postNotice kind n).holding = s.holding := by
  simp [State.postNotice]
@[simp] theorem State.holding_stir (s : State) : (s.stir).holding = s.holding := by simp [State.stir]
@[simp] theorem State.holding_dput (s : State) (pa : Nat) (b : Byte) : (s.dput pa b).holding = s.holding := by
  simp [State.dput]
@[simp] theorem State.holding_dwrite : ∀ (bs : List Byte) (s : State) (pa : Nat), (s.dwrite pa bs).holding = s.holding
  | [], _, _ => rfl
  | b :: bs, s, pa => by rw [State.dwrite, State.holding_dwrite bs, State.holding_dput]
@[simp] theorem State.holding_busyUp (s : State) (key : Nat) : (s.busyUp key).holding = s.holding := by
  simp [State.busyUp]
@[simp] theorem State.holding_busyDown (s : State) (keys : List Nat) : (s.busyDown keys).holding = s.holding := by
  simp [State.busyDown]
@[simp] theorem State.holding_setCompressed (s : State) (l : Loc) (b : Bool) : (s.setCompressed l b).holding = s.holding := by
  simp [State.setCompressed]
@[simp] theorem State.holding_setPort (s : State) (p : Nat) (x : Port) : (s.setPort p x).holding = s.holding := by
  simp [State.setPort]
@[simp] theorem State.holding_sendFrom (s : State) (p : Nat) (m : Msg) (k : Nat) : (s.sendFrom p m k).holding = s.holding := by
  simp [State.sendFrom]
@[simp] theorem State.holding_sendOn (s : State) (p : Nat) (m : Msg) : (s.sendOn p m).holding = s.holding := by
  simp [State.sendOn]
@[simp] theorem State.holding_sendEach (s : State) (p : Nat) (ms : List (Msg × Nat)) :
    (s.sendEach p ms).holding = s.holding := by
  simp [State.sendEach]
@[simp] theorem State.holding_flushPort (s : State) (p : Nat) : (s.flushPort p).holding = s.holding := by
  simp [State.flushPort]
@[simp] theorem State.holding_sendAt (s : State) (m : Msg) (k : Nat) : (s.sendAt m k).holding = s.holding := by
  unfold State.sendAt; split <;> simp
@[simp] theorem State.holding_send (s : State) (m : Msg) : (s.send m).holding = s.holding := by simp [State.send]
@[simp] theorem State.holding_notice (s : State) (m : Msg) : (s.notice m).holding = s.holding := by simp [State.notice]
@[simp] theorem State.holding_setPort2 (s : State) (p st cause : Nat) : (s.setPort2 p st cause).holding = s.holding := by
  simp [State.setPort2]
@[simp] theorem State.holding_trainPort (s : State) (p : Nat) : (s.trainPort p).holding = s.holding := by
  simp [State.trainPort]
@[simp] theorem State.holding_retrain (s : State) : (s.retrain).holding = s.holding := by simp [State.retrain]
@[simp] theorem State.holding_noticeSoon (s : State) (m : Msg) : (s.noticeSoon m).holding = s.holding := by
  simp [State.noticeSoon]
@[simp] theorem State.holding_hostWrites (s : State) (bulk : Bool) (a : Nat) (bs : List Byte) :
    (s.hostWrites bulk a bs).holding = s.holding := by
  simp [State.hostWrites]
@[simp] theorem State.holding_hostReadsAt (s : State) (bulk : Bool) (id a n : Nat) :
    (s.hostReadsAt bulk id a n).holding = s.holding := by
  simp [State.hostReadsAt]
@[simp] theorem State.holding_deliverS (s : State) (nw : Bool) (dest : Dest) (lat : Nat) (v : SVal) :
    (s.deliverS nw dest lat v).holding = s.holding := by
  simp [State.deliverS]
@[simp] theorem State.holding_deliverV (s : State) (c : Cluster) (nw : Bool) (dest : Dest) (gov : Mask) (lat : Nat)
    (ls : List Nat) (d : Bool) (fl : Flags) : (s.deliverV c nw dest gov lat ls d fl).holding = s.holding := by
  simp [State.deliverV]
@[simp] theorem State.holding_deliverK (s : State) (c : Cluster) (nw : Bool) (k : Nat) (gov : Mask) (lat : Nat) (m : Mask)
    (d : Bool) : (s.deliverK c nw k gov lat m d).holding = s.holding := by
  simp [State.deliverK]
@[simp] theorem Unit.holding_suspendCopies (now : Nat) (x : Unit) : (x.suspendCopies now).holding = x.holding := by
  simp [Unit.suspendCopies]
@[simp] theorem Unit.holding_stopCopies (now : Nat) (x : Unit) : (x.stopCopies now).holding = x.holding := by
  simp [Unit.stopCopies]
@[simp] theorem State.holding_xfer (s : State) (u : Nat) (t : XTarget) (m : Nat) : (s.xfer u t m).holding = s.holding := by
  unfold State.xfer; split <;> simp
@[simp] theorem State.holding_keepBytes (s : State) (u serial b : Nat) (l : Loc) (bs : List Byte) :
    (s.keepBytes u serial b l bs).holding = s.holding := by
  simp [State.keepBytes]
@[simp] theorem State.holding_keepOld (s : State) (u serial b : Nat) (l : Loc) (n : Nat) :
    (s.keepOld u serial b l n).holding = s.holding := by
  simp [State.keepOld]
@[simp] theorem State.holding_release (s : State) (counted : List Nat) (xs : List Xlat) :
    (s.release counted xs).holding = s.holding := by
  simp [State.release]
@[simp] theorem Unit.holding_postPend (x : Unit) (p : Pend) : (x.postPend p).holding = x.holding := by
  simp [Unit.postPend]
@[simp] theorem Unit.holding_copyError (now : Nat) (x : Unit) (c : CCmd) (code : Nat) :
    (x.copyError now c code).holding = x.holding := by
  simp [Unit.copyError]
@[simp] theorem Unit.holding_settle (x : Unit) : (x.settle).holding = x.holding := by simp [Unit.settle]
@[simp] theorem State.holding_answer (s : State) (p : Peer) (code : Nat) (closed : Bool) :
    (s.answer p code closed).holding = s.holding := by
  simp [State.answer]
@[simp] theorem State.holding_setColl (s : State) (c : Coll) : (s.setColl c).holding = s.holding := by
  simp [State.setColl]
@[simp] theorem Unit.holding_modQueued (x : Unit) (serial : Nat) (f : CCmd → CCmd) :
    (x.modQueued serial f).holding = x.holding := by
  simp [Unit.modQueued]
@[simp] theorem State.holding_fillWalker (s : State) (u : Nat) (xs : List Xlat) : (s.fillWalker u xs).holding = s.holding := by
  simp [State.fillWalker]
@[simp] theorem State.holding_answerEnded (s : State) (u serial : Nat) (p : Peer) :
    (s.answerEnded u serial p).holding = s.holding := by
  unfold State.answerEnded; split <;> simp
@[simp] theorem State.holding_answerChunk (s : State) (u serial : Nat) (p : Peer) (t : Nat) :
    (s.answerChunk u serial p t).holding = s.holding := by
  unfold State.answerChunk; split <;> simp
@[simp] theorem State.holding_sendChunk (s : State) (c : Coll) (m t : Nat) (bs : List Byte) :
    (s.sendChunk c m t bs).holding = s.holding := by
  simp [State.sendChunk]
@[simp] theorem State.holding_sendNext (s : State) (c : Coll) (m : Nat) : (s.sendNext c m).holding = s.holding := by
  unfold State.sendNext; split <;> simp
@[simp] theorem State.holding_reclaim (s : State) (c : Coll) (h : Chunk) : (s.reclaim c h).holding = s.holding := by
  simp [State.reclaim]
@[simp] theorem Unit.holding_endColl (now : Nat) (x : Unit) (c : Coll) (outcome : Nat) :
    (x.endColl now c outcome).holding = x.holding := by
  simp [Unit.endColl]
@[simp] theorem State.holding_requestMissing (s : State) (mod : Nat) (c : Coll) :
    (s.requestMissing mod c).holding = s.holding := by
  simp [State.requestMissing]
@[simp] theorem State.holding_resendKept (s : State) (c : Coll) : (s.resendKept c).holding = s.holding := by
  simp [State.resendKept]
@[simp] theorem Unit.holding_setLoops (x : Unit) (l : List LoopEntry) : (x.setLoops l).holding = x.holding := by
  simp [Unit.setLoops]
@[simp] theorem State.holding_branchTo (s : State) (t : Nat) (pops : Bool) : (s.branchTo t pops).holding = s.holding := by
  simp [State.branchTo]
@[simp] theorem Unit.holding_arrive (x : Unit) : (x.arrive).holding = x.holding := by simp [Unit.arrive]
@[simp] theorem State.holding_atomReply (s : State) (k : Nat) (r : AtomReq) (old : Word) :
    (s.atomReply k r old).holding = s.holding := by
  simp [State.atomReply]
@[simp] theorem Unit.holding_takeReply (x : Unit) (id : Nat) (v : Word) : (x.takeReply id v).holding = x.holding := by
  unfold Unit.takeReply; (repeat' split) <;> simp
@[simp] theorem State.holding_matrixPush (s : State) (var : MVar) (o : MOps) (stg : List Word) (after : Option Nat) :
    (s.matrixPush var o stg after).holding = s.holding := by
  simp [State.matrixPush]
@[simp] theorem Unit.holding_countColumns (x : Unit) (ds : List Detection) : (x.countColumns ds).holding = x.holding := by
  simp [Unit.countColumns]
@[simp] theorem Unit.holding_accountRun (x : Unit) (m : MCmd) (o : MOut) (ds : List Detection) :
    (x.accountRun m o ds).holding = x.holding := by
  simp [Unit.accountRun]
@[simp] theorem Unit.holding_acvtPairs (x : Unit) (m : MCmd) (ps : List (Nat × Nat)) :
    (x.acvtPairs m ps).holding = x.holding := by
  simp [Unit.acvtPairs]
@[simp] theorem Unit.holding_matrixLeave (x : Unit) (m : MCmd) : (x.matrixLeave m).holding = x.holding := by
  simp [Unit.matrixLeave]
@[simp] theorem Unit.holding_enqueue (x : Unit) (c : CCmd) : (x.enqueue c).holding = x.holding := by
  unfold Unit.enqueue; split <;> simp
@[simp] theorem State.holding_copyPush (s : State) (c : CCmd) : (s.copyPush c).holding = s.holding := by
  simp [State.copyPush]
@[simp] theorem Unit.holding_landScld (now : Nat) (x : Unit) (c : CCmd) : (x.landScld now c).holding = x.holding := by
  unfold Unit.landScld; (repeat' split) <;> simp
@[simp] theorem Unit.holding_landSclds (now : Nat) (x : Unit) : (x.landSclds now).holding = x.holding := by
  simp [Unit.landSclds]
@[simp] theorem State.holding_approach (s : State) (u : Nat) : (s.approach u).holding = s.holding := by
  simp [State.approach]
@[simp] theorem Unit.holding_haltTile (now : Nat) (overrun : Bool) (x : Unit) :
    (x.haltTile now overrun).holding = x.holding := by
  simp [Unit.haltTile]
@[simp] theorem State.holding_haltOverrun (s : State) (u : Nat) : (s.haltOverrun u).holding = s.holding := by
  simp [State.haltOverrun]
@[simp] theorem Unit.holding_countBundle (x : Unit) : (x.countBundle).holding = x.holding := by simp [Unit.countBundle]
@[simp] theorem Unit.holding_advance (x : Unit) (branch skip : Option Nat) : (x.advance branch skip).holding = x.holding := by
  unfold Unit.advance; split <;> simp
@[simp] theorem Unit.holding_setLastSlot (x : Unit) (e : Engine) (t : Option Nat) :
    (x.setLastSlot e t).holding = x.holding := by
  unfold Unit.setLastSlot; split <;> simp
@[simp] theorem Unit.holding_setQueue (x : Unit) (e : Engine) (q : List CCmd) : (x.setQueue e q).holding = x.holding := by
  unfold Unit.setQueue; split <;> simp
@[simp] theorem Unit.holding_modCmd (x : Unit) (e : Engine) (serial : Nat) (f : CCmd → CCmd) :
    (x.modCmd e serial f).holding = x.holding := by
  simp [Unit.modCmd]
@[simp] theorem State.holding_placeEngine (s : State) (u : Nat) (e : Engine) : (s.placeEngine u e).holding = s.holding := by
  simp [State.placeEngine]
@[simp] theorem State.holding_modPc (s : State) (chan : Nat) (f : PcSt → PcSt) : (s.modPc chan f).holding = s.holding := by
  simp [State.modPc]
@[simp] theorem State.holding_takeRotation (s : State) (chan r : Nat) (alert : Bool) :
    (s.takeRotation chan r alert).holding = s.holding := by
  simp [State.takeRotation]
@[simp] theorem State.holding_freshDue (s : State) : (s.freshDue).holding = s.holding := by simp [State.freshDue]
@[simp] theorem State.holding_coldRows (s : State) : (s.coldRows).holding = s.holding := by simp [State.coldRows]
@[simp] theorem State.holding_setAllowance (s : State) (chan n : Nat) : (s.setAllowance chan n).holding = s.holding := by
  simp [State.setAllowance]
@[simp] theorem State.holding_writePccfg (s : State) (a : Nat) (v : Word) : (s.writePccfg a v).holding = s.holding := by
  simp [State.writePccfg]
@[simp] theorem State.holding_writePcstat (s : State) (a : Nat) (v : Word) : (s.writePcstat a v).holding = s.holding := by
  simp [State.writePcstat]
@[simp] theorem State.holding_stopQueue (s : State) (q err : Nat) : (s.stopQueue q err).holding = s.holding := by
  simp [State.stopQueue]
@[simp] theorem State.holding_rouse (s : State) (q : Nat) : (s.rouse q).holding = s.holding := by simp [State.rouse]
@[simp] theorem State.holding_writeTail (s : State) (q tail : Nat) : (s.writeTail q tail).holding = s.holding := by
  simp [State.writeTail]
@[simp] theorem State.holding_writeRing (s : State) (q : Nat) (v : Word) : (s.writeRing q v).holding = s.holding := by
  simp [State.writeRing]
@[simp] theorem State.holding_writeQcfg (s : State) (q : Nat) (v : Word) : (s.writeQcfg q v).holding = s.holding := by
  simp [State.writeQcfg]
@[simp] theorem Unit.holding_fillTlb (x : Unit) (e : Engine) (t : Xlat) : (x.fillTlb e t).holding = x.holding := by
  unfold Unit.fillTlb; split <;> simp
@[simp] theorem State.holding_preFault (s : State) (u : Nat) (e : Engine) (c : CCmd) (cause : Cause) (val : Nat) :
    (s.preFault u e c cause val).holding = s.holding := by
  simp [State.preFault]
@[simp] theorem State.holding_keepBlock (s : State) (u : Nat) (c : CCmd) (b : Loc) (mp : Bool) :
    (s.keepBlock u c b mp).holding = s.holding := by
  simp [State.keepBlock]
@[simp] theorem State.holding_strays (s : State) (c : CCmd) : (State.strays s c).1.holding = s.holding := by
  simp [State.strays]
@[simp] theorem State.holding_putCmd (s : State) (u : Nat) (e : Engine) (c : CCmd) : (s.putCmd u e c).holding = s.holding := by
  simp [State.putCmd]
@[simp] theorem Unit.holding_copyDone (x : Unit) (e : Engine) (c : CCmd) : (x.copyDone e c).holding = x.holding := by
  simp [Unit.copyDone]
@[simp] theorem State.holding_completeCopy (s : State) (u : Nat) (e : Engine) (c : CCmd) :
    (s.completeCopy u e c).holding = s.holding := by
  unfold State.completeCopy; split <;> simp
@[simp] theorem State.holding_putEntry (s : State) (a : Nat) (w : Word) : (s.putEntry a w).holding = s.holding := by
  simp [State.putEntry]
@[simp] theorem State.holding_dropTlb (s : State) (p : Xlat → Bool) : (s.dropTlb p).holding = s.holding := by
  simp [State.dropTlb]
@[simp] theorem State.holding_setMigrator (s : State) (d : Nat) (m : Migrator) : (s.setMigrator d m).holding = s.holding := by
  simp [State.setMigrator]
@[simp] theorem State.holding_endRequest (s : State) (d result : Nat) : (s.endRequest d result).holding = s.holding := by
  simp [State.endRequest]
@[simp] theorem State.holding_askMigrator (s : State) (d : Nat) : (s.askMigrator d).holding = s.holding := by
  simp [State.askMigrator]
@[simp] theorem State.holding_startMigration (s : State) (d : Nat) : (s.startMigration d).holding = s.holding := by
  unfold State.startMigration; split <;> simp
@[simp] theorem State.holding_busyGo (s : State) (d : Nat) : (s.busyGo d).holding = s.holding := by
  unfold State.busyGo; split <;> simp
@[simp] theorem State.holding_unhold (s : State) (d : Nat) : (s.unhold d).holding = s.holding := by simp [State.unhold]
@[simp] theorem State.holding_countsAt (s : State) (t : Nat) : (s.countsAt t).holding = s.holding := by
  simp [State.countsAt]
@[simp] theorem State.holding_foldPage (s : State) (d : Nat) : (s.foldPage d).holding = s.holding := by
  unfold State.foldPage; (repeat' split) <;> simp
@[simp] theorem State.holding_releasePage (s : State) (d : Nat) : (s.releasePage d).holding = s.holding := by
  unfold State.releasePage; (repeat' split) <;> simp
@[simp] theorem State.holding_writeTlbinv (s : State) (v : Word) : (s.writeTlbinv v).holding = s.holding := by
  simp [State.writeTlbinv]
@[simp] theorem State.holding_drawRandom (s : State) (c : Cluster) (o : VOps) (g : Mask × Bool) (seed : Nat → Nat) (d : Bool) :
    (drawRandom s c o g seed d).holding = s.holding := by
  simp [drawRandom]
@[simp] theorem State.holding_applyGrants (s : State) (mask aspace : Nat) (gs : List Grant) :
    (s.applyGrants mask aspace gs).holding = s.holding := by
  simp [State.applyGrants]
@[simp] theorem State.holding_applyTakes (s : State) (mask aspace : Nat) (gs : List Grant) :
    (s.applyTakes mask aspace gs).holding = s.holding := by
  simp [State.applyTakes]
@[simp] theorem State.holding_setNode (s : State) (n : Nat) (x : Node) : (s.setNode n x).holding = s.holding := by
  simp [State.setNode]
@[simp] theorem State.holding_modNode (s : State) (n : Nat) (f : Node → Node) : (s.modNode n f).holding = s.holding := by
  simp [State.modNode]
@[simp] theorem State.holding_refreshNode (s : State) (n : Nat) : (s.refreshNode n).holding = s.holding := by
  simp [State.refreshNode]
@[simp] theorem State.holding_refreshNodes (s : State) : (s.refreshNodes).holding = s.holding := by
  simp [State.refreshNodes]
@[simp] theorem State.holding_reviewRounds (s : State) : (s.reviewRounds).holding = s.holding := by
  simp [State.reviewRounds]
@[simp] theorem State.holding_served (s : State) (n level queue : Nat) (r : Round) :
    (s.served n level queue r).holding = s.holding := by
  simp [State.served]
@[simp] theorem State.holding_turned (s : State) (n : Nat) (used : Bool) : (s.turned n used).holding = s.holding := by
  simp [State.turned]
@[simp] theorem Unit.holding_freeze (x : Unit) : (x.freeze).holding = x.holding := by simp [Unit.freeze]
@[simp] theorem Unit.holding_thaw (now : Nat) (x : Unit) : (x.thaw now).holding = x.holding := by simp [Unit.thaw]
@[simp] theorem State.holding_thawUnit (s : State) (u : Nat) : (s.thawUnit u).holding = s.holding := by
  simp [State.thawUnit]
@[simp] theorem State.holding_freezeTeam (s : State) (n : Nat) : (s.freezeTeam n).holding = s.holding := by
  simp [State.freezeTeam]
@[simp] theorem State.holding_graphAfter (s : State) (q : Nat) (g : Option Nat) (r : List Byte) :
    (s.graphAfter q g r).holding = s.holding := by
  unfold State.graphAfter; split <;> simp
@[simp] theorem State.holding_endNode (s : State) (n status detail : Nat) :
    (s.endNode n status detail).holding = s.holding := by
  simp [State.endNode]
@[simp] theorem Unit.holding_freed (x : Unit) : (x.freed).holding = x.holding := by simp [Unit.freed]
@[simp] theorem State.holding_writeStagesz (s : State) (v : Word) : (s.writeStagesz v).holding = s.holding := by
  simp [State.writeStagesz]
@[simp] theorem State.holding_writeSwapArea (s : State) (slots : Bool) (v : Word) :
    (s.writeSwapArea slots v).holding = s.holding := by
  simp [State.writeSwapArea]
@[simp] theorem State.holding_writeSchctl (s : State) (v : Word) : (s.writeSchctl v).holding = s.holding := by
  simp [State.writeSchctl]
@[simp] theorem State.holding_writeQuant (s : State) (v : Word) : (s.writeQuant v).holding = s.holding := by
  simp [State.writeQuant]
@[simp] theorem State.holding_writeSchstat (s : State) (v : Word) : (s.writeSchstat v).holding = s.holding := by
  simp [State.writeSchstat]
@[simp] theorem State.holding_deliverEvents (s : State) : (s.deliverEvents).holding = s.holding := by
  simp [State.deliverEvents]
@[simp] theorem State.holding_setZone (s : State) (z : Nat) (x : Zone) : (s.setZone z x).holding = s.holding := by
  simp [State.setZone]
@[simp] theorem State.holding_setSwitch (s : State) (r : Nat) (x : Switch) : (s.setSwitch r x).holding = s.holding := by
  simp [State.setSwitch]
@[simp] theorem State.holding_startSwitch (s : State) (r : Nat) : (s.startSwitch r).holding = s.holding := by
  simp [State.startSwitch]
@[simp] theorem State.holding_switchCluster (s : State) (k : Nat) : (s.switchCluster k).holding = s.holding := by
  simp [State.switchCluster]
@[simp] theorem State.holding_switchDie (s : State) (d : Nat) : (s.switchDie d).holding = s.holding := by
  simp [State.switchDie]
@[simp] theorem State.holding_switchOff (s : State) (rs : List Nat) : (s.switchOff rs).holding = s.holding := by
  simp [State.switchOff]
@[simp] theorem State.holding_sendFlow (s : State) (z : Nat) : (s.sendFlow z).holding = s.holding := by
  simp [State.sendFlow]
@[simp] theorem State.holding_setFloor (s : State) (z : Nat) : (s.setFloor z).holding = s.holding := by
  simp [State.setFloor]
@[simp] theorem State.holding_tickPower (s : State) (w : Nat) : (s.tickPower w).holding = s.holding := by
  simp [State.tickPower]
@[simp] theorem State.holding_resendFlow (s : State) (z : Nat) : (s.resendFlow z).holding = s.holding := by
  simp [State.resendFlow]
@[simp] theorem State.holding_heardFlow (s : State) (z : Nat) (msg : List Byte) : (s.heardFlow z msg).holding = s.holding := by
  simp [State.heardFlow]
@[simp] theorem State.holding_takeStatus (s : State) (target : Nat) (msg : List Byte) :
    (s.takeStatus target msg).holding = s.holding := by
  unfold State.takeStatus; split <;> simp
@[simp] theorem State.holding_writePlstat (s : State) (v : Word) : (s.writePlstat v).holding = s.holding := by
  simp [State.writePlstat]
@[simp] theorem State.holding_writeModlim (s : State) (v : Word) : (s.writeModlim v).holding = s.holding := by
  simp [State.writeModlim]
@[simp] theorem State.holding_writeClshade (s : State) (k : Nat) (v : Word) : (s.writeClshade k v).holding = s.holding := by
  simp [State.writeClshade]
@[simp] theorem State.holding_writeCllim (s : State) (k : Nat) (v : Word) : (s.writeCllim k v).holding = s.holding := by
  simp [State.writeCllim]
@[simp] theorem State.holding_writeDielim (s : State) (d : Nat) (v : Word) : (s.writeDielim d v).holding = s.holding := by
  simp [State.writeDielim]
@[simp] theorem State.holding_writeZcfg (s : State) (z : Nat) (v : Word) : (s.writeZcfg z v).holding = s.holding := by
  simp [State.writeZcfg]
@[simp] theorem State.holding_extendMeas (s : State) (i : Nat) (v : List Byte) : (s.extendMeas i v).holding = s.holding := by
  simp [State.extendMeas]
@[simp] theorem State.holding_setLink (s : State) (n : Nat) (l : Link) : (s.setLink n l).holding = s.holding := by
  simp [State.setLink]
@[simp] theorem State.holding_failLink (s : State) (n code : Nat) : (s.failLink n code).holding = s.holding := by
  simp [State.failLink]
@[simp] theorem State.holding_trainFails (s : State) (n code : Nat) : (s.trainFails n code).holding = s.holding := by
  simp [State.trainFails]
@[simp] theorem State.holding_pauseLink (s : State) (n : Nat) : (s.pauseLink n).holding = s.holding := by
  simp [State.pauseLink]
@[simp] theorem State.holding_testLink (s : State) (n : Nat) : (s.testLink n).holding = s.holding := by
  simp [State.testLink]
@[simp] theorem State.holding_endTest (s : State) (n : Nat) (bad : Word) (spareBad : BitVec 4) :
    (s.endTest n bad spareBad).holding = s.holding := by
  simp [State.endTest]
@[simp] theorem State.holding_testsAt (s : State) (t : Nat) : (s.testsAt t).holding = s.holding := by
  simp [State.testsAt]
@[simp] theorem State.holding_countRetries (s : State) (n count : Nat) : (s.countRetries n count).holding = s.holding := by
  simp [State.countRetries]
@[simp] theorem State.holding_linkNak (s : State) (n seq : Nat) : (s.linkNak n seq).holding = s.holding := by
  simp [State.linkNak]
@[simp] theorem State.holding_writeLkretry (s : State) (n : Nat) (v : Word) : (s.writeLkretry n v).holding = s.holding := by
  simp [State.writeLkretry]
@[simp] theorem State.holding_writeLkspare (s : State) (n : Nat) (v : Word) : (s.writeLkspare n v).holding = s.holding := by
  simp [State.writeLkspare]
@[simp] theorem State.holding_writeLkthr (s : State) (n : Nat) (v : Word) : (s.writeLkthr n v).holding = s.holding := by
  simp [State.writeLkthr]
@[simp] theorem State.holding_setDie (s : State) (d : Nat) (x : DieSt) : (s.setDie d x).holding = s.holding := by
  simp [State.setDie]
@[simp] theorem State.holding_setPhase (s : State) (d n : Nat) : (s.setPhase d n).holding = s.holding := by
  simp [State.setPhase]
@[simp] theorem State.holding_setFence (s : State) (d : Nat) (fence quiesce : Bool) :
    (s.setFence d fence quiesce).holding = s.holding := by
  simp [State.setFence]
@[simp] theorem State.holding_refuse (s : State) (d : Nat) : (s.refuse d).holding = s.holding := by simp [State.refuse]
@[simp] theorem State.holding_releaseAtoms (s : State) (d : Nat) : (s.releaseAtoms d).holding = s.holding := by
  simp [State.releaseAtoms]
@[simp] theorem State.holding_quiesceDie (s : State) (d : Nat) : (s.quiesceDie d).holding = s.holding := by
  simp [State.quiesceDie]
@[simp] theorem State.holding_drainDie (s : State) (d : Nat) : (s.drainDie d).holding = s.holding := by
  simp [State.drainDie]
@[simp] theorem State.holding_admitDie (s : State) (d : Nat) : (s.admitDie d).holding = s.holding := by
  simp [State.admitDie]
@[simp] theorem State.holding_writeDrstat (s : State) (d : Nat) (v : Word) : (s.writeDrstat d v).holding = s.holding := by
  simp [State.writeDrstat]
@[simp] theorem State.holding_writeDrlim (s : State) (d : Nat) (v : Word) : (s.writeDrlim d v).holding = s.holding := by
  simp [State.writeDrlim]
@[simp] theorem State.holding_setHostat (s : State) (code : Nat) : (s.setHostat code).holding = s.holding := by
  simp [State.setHostat]
@[simp] theorem State.holding_writeAttgo (s : State) (v : Word) : (s.writeAttgo v).holding = s.holding := by
  simp [State.writeAttgo]
@[simp] theorem State.holding_writePln (s : State) (v : Word) : (s.writePln v).holding = s.holding := by
  simp [State.writePln]
@[simp] theorem State.holding_writeHibcfg (s : State) (v : Word) : (s.writeHibcfg v).holding = s.holding := by
  simp [State.writeHibcfg]
@[simp] theorem State.holding_bankCharge (s : State) : (s.bankCharge).holding = s.holding := by simp [State.bankCharge]
@[simp] theorem State.holding_spendReserve (s : State) : (s.spendReserve).holding = s.holding := by
  simp [State.spendReserve]
@[simp] theorem State.holding_writeShedord (s : State) (v : Word) : (s.writeShedord v).holding = s.holding := by
  simp [State.writeShedord]
@[simp] theorem State.holding_writeShedtim (s : State) (v : Word) : (s.writeShedtim v).holding = s.holding := by
  simp [State.writeShedtim]
@[simp] theorem State.holding_setDuskPhase (s : State) (n : Nat) : (s.setDuskPhase n).holding = s.holding := by
  simp [State.setDuskPhase]
@[simp] theorem Unit.holding_warn (now : Nat) (c : Cause) (val : Nat) (x : Unit) : (x.warn now c val).holding = x.holding := by
  unfold Unit.warn; split <;> simp
@[simp] theorem State.holding_warnTile (c : Cause) (val : Nat) (s : State) (u : Nat) :
    (s.warnTile c val u).holding = s.holding := by
  simp [State.warnTile]
@[simp] theorem State.holding_stopMigrator (s : State) (d : Nat) : (s.stopMigrator d).holding = s.holding := by
  unfold State.stopMigrator; split <;> simp
@[simp] theorem State.holding_breakDawn (s : State) : (s.breakDawn).holding = s.holding := by simp [State.breakDawn]
@[simp] theorem Unit.holding_resume (now : Nat) (x : Unit) : (x.resume now).holding = x.holding := by simp [Unit.resume]
@[simp] theorem State.holding_resumeUnit (s : State) (u : Nat) : (s.resumeUnit u).holding = s.holding := by
  simp [State.resumeUnit]
@[simp] theorem State.holding_putPart (s : State) (kind index : Nat) (bs : List Byte) :
    (s.putPart kind index bs).holding = s.holding := by
  simp [State.putPart]
@[simp] theorem State.holding_closeExtent (s : State) : (s.closeExtent).holding = s.holding := by
  simp [State.closeExtent]
@[simp] theorem State.holding_wake (s : State) (code : Nat) : (s.wake code).holding = s.holding := by simp [State.wake]
@[simp] theorem Unit.holding_afterDawn (x : Unit) : (x.afterDawn).holding = x.holding := by simp [Unit.afterDawn]
@[simp] theorem State.holding_writeDone (s : State) (done : Nat → Nat) : (s.writeDone done).holding = s.holding := by
  simp [State.writeDone]
@[simp] theorem State.holding_loseTeam (s : State) (n : Nat) (counted : List Nat) :
    (s.loseTeam n counted).holding = s.holding := by
  simp [State.loseTeam]
@[simp] theorem State.holding_coldDawn (s : State) (code : Nat) : (s.coldDawn code).holding = s.holding := by
  simp [State.coldDawn]
@[simp] theorem State.holding_fillBuffer (s : State) (port cls left : Nat) :
    (s.fillBuffer port cls left).holding = s.holding := by
  simp [State.fillBuffer]
@[simp] theorem State.holding_buffersAt (s : State) (t : Nat) : (s.buffersAt t).holding = s.holding := by
  simp [State.buffersAt]
@[simp] theorem State.holding_takeAck (s : State) (port acked : Nat) : (s.takeAck port acked).holding = s.holding := by
  simp [State.takeAck]
@[simp] theorem Unit.holding_loseLink (reach : Nat → Bool) (x : Unit) : (x.loseLink reach).holding = x.holding := by
  simp [Unit.loseLink]
@[simp] theorem State.holding_failReads (s : State) (mod : Nat) : (s.failReads mod).holding = s.holding := by
  simp [State.failReads]
@[simp] theorem State.holding_memberChanged (s : State) (mod : Nat) : (s.memberChanged mod).holding = s.holding := by
  simp [State.memberChanged]
@[simp] theorem State.holding_bridgeRequest (s : State) (src : Nat) (write : Bool) (a : Nat) (data : List Byte) :
    (s.bridgeRequest src write a data).holding = s.holding := by
  simp [State.bridgeRequest]
@[simp] theorem State.holding_setBrctl (s : State) (v : Word) (second : Bool) : (s.setBrctl v second).holding = s.holding := by
  simp [State.setBrctl]
@[simp] theorem State.holding_writeColerr (s : State) (u n : Nat) (v : Word) : (s.writeColerr u n v).holding = s.holding := by
  simp [State.writeColerr]
@[simp] theorem State.holding_writeGsum (s : State) (u : Nat) (second : Bool) (v : Word) :
    (s.writeGsum u second v).holding = s.holding := by
  simp [State.writeGsum]
@[simp] theorem State.holding_writeFidinj (s : State) (u : Nat) (v : Word) : (s.writeFidinj u v).holding = s.holding := by
  simp [State.writeFidinj]
@[simp] theorem State.holding_writeCalcnt (s : State) (u : Nat) (v : Word) : (s.writeCalcnt u v).holding = s.holding := by
  simp [State.writeCalcnt]
@[simp] theorem State.holding_writeFidlim (s : State) (k : Nat) (v : Word) : (s.writeFidlim k v).holding = s.holding := by
  simp [State.writeFidlim]
@[simp] theorem State.holding_writeSch (s : State) (off : Nat) (v : Word) : (s.writeSch off v).holding = s.holding := by
  unfold State.writeSch; split <;> simp
@[simp] theorem State.holding_writeQueue (s : State) (q off : Nat) (v : Word) : (s.writeQueue q off v).holding = s.holding := by
  unfold State.writeQueue; split <;> simp
@[simp] theorem State.holding_writeTrb (s : State) (a off : Nat) (v : Word) : (s.writeTrb a off v).holding = s.holding := by
  unfold State.writeTrb; split <;> simp
@[simp] theorem State.holding_clearHalves (s : State) (a : Nat) (v : Word) : (s.clearHalves a v).holding = s.holding := by
  simp [State.clearHalves]
@[simp] theorem State.holding_writeBrb (s : State) (a off : Nat) (v : Word) : (s.writeBrb a off v).holding = s.holding := by
  unfold State.writeBrb; split <;> simp
@[simp] theorem State.holding_writePwb (s : State) (off : Nat) (v : Word) : (s.writePwb off v).holding = s.holding := by
  unfold State.writePwb; split <;> simp
@[simp] theorem State.holding_hostDrop (s : State) : (s.hostDrop).holding = s.holding := by simp [State.hostDrop]
@[simp] theorem State.holding_hostMiss (s : State) (write : Bool) (n : Nat) : (s.hostMiss write n).holding = s.holding := by
  simp [State.hostMiss]
@[simp] theorem State.holding_hostAnswered (s : State) (src : Nat) (data : List Byte) :
    (s.hostAnswered src data).holding = s.holding := by
  simp [State.hostAnswered]
@[simp] theorem State.holding_hostForward (s : State) (n : Nat) (write : Bool) (len : Nat) (m : Msg) :
    (s.hostForward n write len m).holding = s.holding := by
  simp [State.hostForward]
@[simp] theorem Unit.holding_writeSys (u : Nat) (x : Unit) (n : Nat) (v : Word) : (x.writeSys u n v).holding = x.holding := by
  unfold Unit.writeSys; split <;> simp
@[simp] theorem Unit.holding_dieError (x : Unit) : (x.dieError).holding = x.holding := by simp [Unit.dieError]
@[simp] theorem Unit.holding_setStream (x : Unit) (q : Nat) (t : Stream) : (x.setStream q t).holding = x.holding := by
  simp [Unit.setStream]

section
variable {k : Bool} {s : State}

/-! ### Writes in a place -/

theorem LinesWhole.set {l : Tbl (List Byte)} (n : Nat) {bs : List Byte} (h : tsorted l = true ∧ ∀ e ∈ l, e.2.length = 64)
    (hb : bs.length = 64) : tsorted (tput l n bs) = true ∧ ∀ e ∈ tput l n bs, e.2.length = 64 :=
  ⟨tsorted_tput n bs h.1, forall_tput h.2 hb⟩

theorem State.length_lineOf {j a : Nat} {l : List Byte} (h : (s.cluster j).LinesWhole) (hl : s.lineOf j a = some l) :
    l.length = 64 := by
  obtain ⟨p, hp, rfl⟩ := Option.map_eq_some_iff.1 hl
  exact h.2 p (List.mem_of_find?_eq_some hp)

@[simp] theorem Sound.sramPut (h : Sound k s.holding) (j a : Nat) (b : Byte) : Sound k (s.sramPut j a b).holding := by
  unfold State.sramPut
  extract_lets t
  have ht : Sound k t.holding := by simpa [t] using h
  split
  · exact ht
  · next l hl =>
    refine ht.setCluster ((ht.cluster j).cluster_map fun hw => ?_) j
    exact LinesWhole.set _ hw ((List.length_set ..).trans (State.length_lineOf hw hl))

@[simp] theorem Sound.locPut (h : Sound k s.holding) (l : Loc) (b : Byte) : Sound k (s.locPut l b).holding := by
  unfold State.locPut
  split
  · exact h.modUnit (fun _ hx => hx.bput _ _) _
  · exact h.sramPut _ _ _
  all_goals simpa using h

@[simp] theorem Sound.locWrite :
    ∀ (bs : List Byte) {s : State} (_ : Sound k s.holding) (l : Loc), Sound k (s.locWrite l bs).holding
  | [], _, h, _ => h
  | b :: bs, _, h, l => Sound.locWrite bs (Sound.locPut h l b) _

@[simp] theorem Sound.putRecord (h : Sound k s.holding) (l : Loc) (mp : Bool) (bs : List Byte) :
    Sound k (s.putRecord l mp bs).holding := by
  unfold State.putRecord
  split
  · exact h.foldl fun _ _ h => h.locWrite _ _
  · exact h.locWrite _ _

@[simp] theorem Sound.writeBlock (h : Sound k s.holding) (l : Loc) (cs : Nat) (mp : Bool) (dsize : Nat) (data : List Byte) :
    Sound k (s.writeBlock l cs mp dsize data).1.holding := by
  unfold State.writeBlock
  split
  · exact h.locWrite _ _
  · extract_lets p
    split <;> simp [h]

theorem Sound.demote {t : State} (h : Sound k s.holding) {l : Loc} {cs : Nat} {mp : Bool} (e : s.demote l cs mp = some t) :
    Sound k t.holding := by
  unfold State.demote at e
  split_ifs at e
  · cases e; exact h
  · obtain ⟨bs, -, rfl⟩ := Option.map_eq_some_iff.1 e
    simp [h]

@[simp] theorem Sound.partWrite (h : Sound k s.holding) (l : Loc) (cs : Nat) (mp : Bool) (bs : List Byte) :
    Sound k (s.partWrite l cs mp bs).holding := by
  unfold State.partWrite
  split_ifs
  · simp [h]
  · split
    · exact h
    · next e => exact (h.demote e).locWrite _ _

@[simp] theorem Sound.logicalWrite (h : Sound k s.holding) (l : Loc) (cs : Nat) (mp : Bool) (bs : List Byte) :
    Sound k (s.logicalWrite l cs mp bs).holding := by
  unfold State.logicalWrite
  split_ifs
  · exact h.locWrite _ _
  · exact h.foldl fun _ _ h => h.partWrite _ _ _ _

@[simp] theorem Sound.writeParts (h : Sound k s.holding) (a : Nat) (bs : List Byte) (xs : List Xlat) :
    Sound k (s.writeParts a bs xs).holding :=
  h.foldl fun _ _ h => h.logicalWrite _ _ _ _

theorem Sound.vwrite {t : State} (h : Sound k s.holding) {seg : Bool} {aspace a : Nat} {bs : List Byte}
    (e : s.vwrite seg aspace a bs = some t) : Sound k t.holding := by
  obtain ⟨xs, -, rfl⟩ := Option.map_eq_some_iff.1 e
  exact h.writeParts a bs xs

theorem Sound.getD {o : Option State} (h : Sound k s.holding) (ho : ∀ t, o = some t → Sound k t.holding) :
    Sound k (o.getD s).holding := by
  cases o with
  | none => exact h
  | some t => exact ho t rfl

@[simp] theorem Sound.putBlock (h : Sound k s.holding) (b : Stored) (dst : Loc) (mp : Bool) :
    Sound k (s.putBlock b dst mp).holding := by
  simp [State.putBlock, h]

@[simp] theorem Sound.moveBlock (h : Sound k s.holding) (src : Loc) (smp : Bool) (dst : Loc) (dmp : Bool) :
    Sound k (s.moveBlock src smp dst dmp).holding := h.putBlock _ dst dmp

/-! ### Collectives -/

theorem sound_setSaved {t : Tbl (Tbl Unit)} (h : Sound k s.holding) (ht : Sound k (holdingBy (holdingBy Unit.holding) t)) :
    Sound k ({ s with saved := t } : State).holding := by
  obtain ⟨h1, h2, -, hr⟩ := sound_state_iff.1 h
  exact sound_state_iff.2 ⟨h1, h2, ht, hr⟩

theorem Sound.saved (h : Sound k s.holding) (n : Nat) : Sound k (holdingBy Unit.holding (tget [] s.saved n)) :=
  (sound_state_iff.1 h).2.2.1.of_tget n (by simp)

theorem Sound.of_savedOf {t : Tbl Unit} {u : Nat} {x : Unit} (h : Sound k (holdingBy Unit.holding t))
    (e : savedOf t u = some x) :
    Sound k x.holding := by
  obtain ⟨p, hp, rfl⟩ := Option.map_eq_some_iff.1 e
  exact sound_holdingBy.1 h p (List.mem_of_find?_eq_some hp)

@[simp] theorem Sound.modContext {f : Unit → Unit} (h : Sound k s.holding) (hf : ∀ x, Sound k x.holding → Sound k (f x).holding)
    (node : Option Nat) (u : Nat) : Sound k (s.modContext node u f).holding := by
  unfold State.modContext
  split
  · exact h.modUnit hf u
  · split
    · split
      · exact h.modUnit hf u
      · exact h
    · next n _ x e =>
      exact sound_setSaved h ((sound_state_iff.1 h).2.2.1.of_tput n ((h.saved n).of_tput u (hf x ((h.saved n).of_savedOf e))))

@[simp] theorem State.holding_grantFrom : ∀ (fs : List Nat) (s : State) (c : Coll), (s.grantFrom c fs).1.holding = s.holding
  | [], _, _ => rfl
  | f :: fs, s, c => by
    unfold State.grantFrom
    (repeat' split) <;> simp [State.holding_grantFrom fs]

@[simp] theorem State.holding_giveCredits (s : State) (c : Coll) : (s.giveCredits c).holding = s.holding := by
  simp [State.giveCredits]

@[simp] theorem State.holding_reviewBy : ∀ (n : Nat) (s : State), (s.reviewBy n).holding = s.holding
  | 0, _ => rfl
  | n + 1, s => by
    unfold State.reviewBy
    extract_lets t
    split
    · rfl
    · rw [State.holding_reviewBy n t]; simp [t]

@[simp] theorem State.holding_review (s : State) : s.review.holding = s.holding := s.holding_reviewBy _

theorem State.holding_startColl {t : State} {u : Nat} {x : Unit} {q : CCmd} {keyless : Bool}
    (h : s.startColl u x q keyless = some t) :
    t.holding = s.holding := by
  unfold State.startColl at h
  simp only at h
  (repeat' split at h) <;> simp at h <;> subst h <;> (repeat' split) <;> simp

@[simp] theorem State.holding_sendHeld (s : State) (u serial : Nat) : (s.sendHeld u serial).holding = s.holding := by
  unfold State.sendHeld
  split
  · rfl
  · refine State.holding_foldl (fun t m => ?_) s
    cases t.collOf u serial <;> simp

@[simp] theorem Sound.placeRecord (h : Sound k s.holding) (c : Coll) (f n : Nat) (bs : List Byte) :
    Sound k (s.placeRecord c f n bs).1.holding := by
  unfold State.placeRecord
  extract_lets
  split <;> simp [h]

@[simp] theorem Sound.placeRecords : ∀ (rs : List (Nat × List Byte)) {s : State} (_ : Sound k s.holding) (c : Coll) (f : Nat),
    Sound k (s.placeRecords c f rs).1.holding
  | [], _, h, _, _ => h
  | r :: rs, _, h, c, f => Sound.placeRecords rs (Sound.placeRecord h c f r.1 r.2) _ f

@[simp] theorem Sound.applyChunk (h : Sound k s.holding) (c : Coll) (x : Chunk) : Sound k (s.applyChunk c x).1.holding := by
  unfold State.applyChunk
  extract_lets fs lout r
  have hr : Sound k r.1.holding := by
    unfold r; split <;> simp [h]
  rw [State.holding_foldl (by simp)]; exact hr

@[simp] theorem Sound.drainChunks :
    ∀ (n : Nat) {s : State} (_ : Sound k s.holding) (c : Coll), Sound k (s.drainChunks c n).1.holding
  | 0, _, h, _ => h
  | n + 1, _, h, c => by
    unfold State.drainChunks
    split
    · exact h
    · exact Sound.drainChunks n (Sound.applyChunk h _ _) _

@[simp] theorem Sound.settleColl (h : Sound k s.holding) (c : Coll) : Sound k (s.settleColl c).holding := by
  unfold State.settleColl; split <;> simp [h]

@[simp] theorem Sound.heldWrite (h : Sound k s.holding) (c : Coll) (a : Nat) (bs : List Byte) :
    Sound k (s.heldWrite c a bs).holding := by
  refine h.getD fun t ht => ?_
  obtain ⟨xs, -, rfl⟩ := Option.map_eq_some_iff.1 ht
  exact h.writeParts a bs xs

@[simp] theorem Sound.takeCounts (h : Sound k s.holding) (splits : List Nat) (rows : List (List Nat)) (c : Coll) :
    Sound k (s.takeCounts splits rows c).holding := by
  simp [State.takeCounts, h]

@[simp] theorem Sound.finishRepart (h : Sound k s.holding) (c : Coll) (pool : Nat) :
    Sound k (s.finishRepart c pool).holding := by
  unfold State.finishRepart
  extract_lets r cap listed s1 s2 d s3 k' cl base g
  have h3 : Sound k s3.holding := (Sound.getD (h.heldWrite _ _ _) fun _ e => (h.heldWrite _ _ _).vwrite e).heldWrite _ _ _
  split
  · exact h3
  · have h4 : Sound k (s3.setCluster k' { cl with regions := cl.regions ++ [g] }).holding := h3.setCluster (by simp [h3, cl]) _
    simpa using h4

@[simp] theorem Sound.endCommand (h : Sound k s.holding) (c : Coll) (outcome pool : Nat) :
    Sound k (s.endCommand c outcome pool).holding := by
  unfold State.endCommand
  extract_lets lost o more t w t2 v
  have ht : Sound k t.holding := by unfold t; split <;> simp [h]
  have ht2 : Sound k t2.holding := by unfold t2; split <;> simp [ht]
  have hv : Sound k v.holding := by
    rw [State.holding_stir]
    exact Sound.modContext (by simpa using ht2) (by simp) _ _
  simpa using hv

@[simp] theorem State.holding_pickUp (s : State) (u serial : Nat) : (s.pickUp u serial).holding = s.holding := by
  unfold State.pickUp; (repeat' split) <;> simp

@[simp] theorem State.holding_pickUpAll (s : State) : s.pickUpAll.holding = s.holding := by simp [State.pickUpAll]
@[simp] theorem State.holding_resumeColls (s : State) (p : Coll → Bool) : (s.resumeColls p).holding = s.holding := by
  simp [State.resumeColls]
@[simp] theorem State.holding_askModule (s : State) (mod : Nat) : (s.askModule mod).holding = s.holding := by
  simp [State.askModule]
end

section
variable {k : Bool} {s : State}

/-! ### Marks, traps and boundaries -/

@[simp] theorem Sound.commitMark {x : Unit} (h : Sound k x.holding) : Sound k x.commitMark.holding := by
  simp [Unit.commitMark, h]

theorem Unit.holding_takeReady {u : Nat} {x : Unit} : ∀ {y : Unit}, x.takeReady u = some y → y.holding = x.holding := by
  unfold Unit.takeReady
  dsimp only
  (repeat' split) <;> simp

theorem State.holding_takeTrap {t : State} {u : Nat} (e : s.takeTrap u = some t) : t.holding = s.holding := by
  unfold State.takeTrap at e
  extract_lets x at e
  split at e
  · contradiction
  · next y hy =>
    cases e
    rw [State.holding_setUnit (by simp [Unit.holding_takeReady hy, State.unit_busyDown, x]), State.holding_busyDown]

@[simp] theorem Sound.inIssue {f : Unit → Unit} (h : Sound k s.holding)
    (hf : ∀ x, Sound k x.holding → Sound k (f x).holding) (u : Nat) : Sound k (s.inIssue u f).holding := by
  unfold State.inIssue
  split
  · exact h
  · split
    · have hm := h.setUnit (hf _ (h.unit u)) u
      simpa using hm
    · exact h

@[simp] theorem Sound.openBundle {x : Unit} (h : Sound k s.holding) (hx : Sound k x.holding) (u : Nat) (b : Bundle) :
    Sound k (s.openBundle u x b).holding := by
  simp [State.openBundle, h, hx]

@[simp] theorem Sound.atBoundary (h : Sound k s.holding) (u : Nat) : Sound k (s.atBoundary u).1.holding := by
  unfold State.atBoundary
  split
  · simpa using h
  · split
    · next t e => exact (State.holding_takeTrap e) ▸ h
    · extract_lets t x t2 y traps waits
      have hs : Sound k t.holding := by simpa [t] using h
      (repeat' split) <;> simp [traps, waits, x, hs]

@[simp] theorem Sound.endIssue {x : Unit} (h : Sound k x.holding) (u : Nat) : Sound k (Unit.endIssue u x).holding := by
  unfold Unit.endIssue
  (repeat' split) <;> simp [h]

@[simp] theorem Sound.afterBundle {x : Unit} (h : Sound k x.holding) (u now : Nat) (a : After) :
    Sound k (Unit.afterBundle u now x a).holding := by
  cases a <;> simp [Unit.afterBundle, h]

@[simp] theorem Sound.endBundle (h : Sound k s.holding) : Sound k s.endBundle.holding := by
  unfold State.endBundle
  split
  · exact h
  · extract_lets i x y t
    have hy : Sound k y.holding := by unfold y; split <;> simp [x, h]
    simp [t, h, hy]

/-! ### Atomic engines -/

/-- A line put among whole lines. -/
theorem ClusterSt.LinesWhole.put {c : ClusterSt} (h : c.LinesWhole) (n : Nat) {bs : List Byte} (hb : bs.length = 64) :
    ClusterSt.LinesWhole { c with lines := tput c.lines n bs } :=
  ⟨tsorted_tput n bs h.1, forall_tput h.2 hb⟩

@[simp] theorem Sound.holdLine (h : Sound k s.holding) (j a : Nat) : Sound k (s.holdLine j a).holding := by
  unfold State.holdLine
  split
  · exact h
  · extract_lets c bytes
    have hb : bytes.length = 64 := mread_length ..
    split
    · next l bs rest e =>
      split
      · exact h.setCluster ((h.cluster j).cluster_map fun hw => hw.put _ hb) j
      · extract_lets t
        have ht : Sound k t.holding := by simpa [t] using h
        refine ht.setCluster ((h.cluster j).cluster_map fun hw => ?_) j
        have hw : tsorted c.lines = true ∧ ∀ l ∈ c.lines, l.2.length = 64 := hw
        rw [e] at hw
        exact ⟨tsorted_tput _ _ (tsorted_cons.1 hw.1).2, forall_tput (fun p hp => hw.2 p (by simp [hp])) hb⟩
    · exact h.setCluster (sound_cluster_iff.2 fun _ => ⟨rfl, by simp [hb]⟩) j

@[simp] theorem Sound.writeBackLines (h : Sound k s.holding) (j : Nat) : Sound k (s.writeBackLines j).holding := by
  simp [State.writeBackLines, h]

/-- The value put is what a search for its key finds. -/
theorem find_tput_same {α : Type} (n : Nat) (v : α) :
    ∀ t : Tbl α, tsorted t = true → (tput t n v).find? (fun p => p.1 == n) = some (n, v)
  | [], _ => by simp [tput]
  | (m, w) :: t, h => by
    unfold tput
    split_ifs with h1 h2
    · simp
    · simp
    · rw [List.find?_cons_of_neg (by simp; omega)]
      exact find_tput_same n v t (tsorted_cons.1 h).2

/-- An address whose line is held has a line there. -/
theorem State.lineOf_holdLine (h : (s.cluster j).LinesWhole) (a : Nat) : ((s.holdLine j a).lineOf j a).isSome = true := by
  unfold State.holdLine
  split
  · assumption
  · extract_lets c bytes
    split
    · next l bs rest e =>
      have hs : tsorted ((l, bs) :: rest) = true := e ▸ h.1
      split
      · simp [State.lineOf, find_tput_same _ _ _ h.1, c]
      · simp [State.lineOf, find_tput_same _ _ _ (tsorted_cons.1 hs).2]
    · simp [State.lineOf]

@[simp] theorem natBytes_length (n x : Nat) : (natBytes n x).length = n := by simp [natBytes]

@[simp] theorem Sound.applyAtom (h : Sound k s.holding) (j : Nat) (r : AtomReq) : Sound k (s.applyAtom j r).holding := by
  unfold State.applyAtom
  split
  · simpa using h
  · next t e =>
    extract_lets t2 line o old w new bs c
    have ht : Sound k t.holding := h.demote e
    have h2 : Sound k t2.holding := ht.holdLine j r.addr
    rw [State.holding_atomReply]
    refine h2.setCluster (sound_cluster_iff.2 fun hk => ?_) j
    have hw := sound_cluster_iff.1 (h2.cluster j) hk
    have hl : line.length = 64 := by
      obtain ⟨l, hl⟩ := Option.isSome_iff_exists.1 (State.lineOf_holdLine (sound_cluster_iff.1 (ht.cluster j) hk) r.addr)
      simpa [line, t2, hl] using State.length_lineOf hw hl
    have ho : o < 64 := Nat.mod_lt _ (by omega)
    exact hw.put _ (by simp [bs, hl]; omega)

@[simp] theorem Sound.applyAll (j : Nat) : ∀ (n : Nat) {s : State} (_ : Sound k s.holding), Sound k (s.applyAll j n).holding
  | 0, _, h => h
  | n + 1, _, h => by
    unfold State.applyAll
    extract_lets c
    (repeat' split)
    · exact h
    · exact h
    · exact Sound.applyAll j n ((h.setCluster (by simp [c, h]) j).applyAtom j _)

/-! ### Engines -/

@[simp] theorem Sound.engineWrite (h : Sound k s.holding) (u serial b : Nat) (l : Loc) (bs : List Byte) :
    Sound k (s.engineWrite u serial b l bs).holding := by simp [State.engineWrite, h]

@[simp] theorem Sound.matrixWrite (h : Sound k s.holding) (u : Nat) (m : MCmd) (b : Buf) (bs : List (Nat × Byte)) :
    Sound k (s.matrixWrite u m b bs).holding := h.foldl fun _ _ h => h.engineWrite _ _ _ _ _

@[simp] theorem State.unit_noteBump (s : State) (a lo n u : Nat) : (s.noteBump a lo n).unit u = s.unit u := rfl
@[simp] theorem State.holding_slipEngine (s : State) (u chan start : Nat) (alert : Bool) (e : Engine) :
    (s.slipEngine u chan start alert e).holding = s.holding := by
  unfold State.slipEngine
  extract_lets x r last y
  split
  · rfl
  · rw [State.holding_setUnit (by simp [x, y])]
    simp

@[simp] theorem State.holding_slipFrom (s : State) (chan r : Nat) (alert : Bool) :
    (s.slipFrom chan r alert).holding = s.holding := by
  simp [State.slipFrom]
@[simp] theorem State.holding_callRefresh (s : State) (chan r : Nat) : (s.callRefresh chan r).holding = s.holding := by
  simp [State.callRefresh]
@[simp] theorem State.holding_callAlert (s : State) (chan r : Nat) : (s.callAlert chan r).holding = s.holding := by
  simp [State.callAlert]

@[simp] theorem State.holding_replace (s : State) (u chan t : Nat) (e : Engine) :
    (s.replace u chan t e).holding = s.holding := by
  unfold State.replace
  extract_lets x ps
  split
  · simp
  · simp [x]
@[simp] theorem State.holding_writeCal (s : State) (a : Nat) (v : Word) : (s.writeCal a v).holding = s.holding := by
  simp [State.writeCal]
end

section
variable {k : Bool} {s : State}

/-! ### Copy commands -/

@[simp] theorem State.holding_translateSide (u : Nat) (e : Engine) (sd : Side) : ∀ (ks : List Nat) (s : State) (c : CCmd),
    (s.translateSide u e c sd ks).1.holding = s.holding
  | [], _, _ => rfl
  | i :: ks, s, c => by
    unfold State.translateSide
    extract_lets x seg a known hit t
    clear_value t
    split
    · rfl
    · split
      · rfl
      · extract_lets l held count s1 s2 s3 c1
        split
        · rfl
        · have h1 : s1.holding = s.holding := by unfold s1; (repeat' split) <;> simp
          have h2 : s2.holding = s1.holding := by unfold s2; split <;> simp
          have h3 : s3.holding = s2.holding := by unfold s3; split <;> simp
          rw [State.holding_translateSide u e sd ks, h3, h2, h1]

@[simp] theorem State.holding_translateAll (u : Nat) (e : Engine) : ∀ (sds : List Side) (s : State) (c : CCmd),
    (s.translateAll u e c sds).1.holding = s.holding
  | [], _, _ => rfl
  | sd :: sds, s, c => by
    unfold State.translateAll
    split
    · exact State.holding_translateAll u e sds s c
    · extract_lets r
      split
      · rw [State.holding_translateAll u e sds]; simp [r]
      · simp [r]

@[simp] theorem Sound.landBytes (h : Sound k s.holding) (u serial bundle : Nat) (l : Loc) (bs : List Byte) :
    Sound k (s.landBytes u serial bundle l bs).holding := by
  unfold State.landBytes; split <;> simp [h]

@[simp] theorem Sound.landPart (h : Sound k s.holding) (b : Loc) (cs : Nat) (mp : Bool) (ws : List (Run × List Byte)) :
    Sound k (s.landPart b cs mp ws).s.holding := by
  unfold State.landPart
  split
  · exact h
  · next t e => exact (h.demote e).foldl fun _ _ h => h.locWrite _ _

@[simp] theorem Sound.landBlock (h : Sound k s.holding) (u : Nat) (c : CCmd) (b : Loc) (ws : List (Run × List Byte)) :
    Sound k (s.landBlock u c b ws).s.holding := by
  unfold State.landBlock
  split
  · exact h
  · extract_lets cs mp old t raw w
    have ht : Sound k t.holding := by simpa [t] using h
    have hr : Sound k raw.s.holding := by simp [raw, ht]
    (repeat' split) <;> simp [w, ht, hr]

@[simp] theorem Sound.landWrites (h : Sound k s.holding) (u : Nat) (c : CCmd) (ws : List (Run × List Byte)) :
    Sound k (s.landWrites u c ws).s.holding := by
  unfold State.landWrites
  extract_lets t
  have ht : Sound k t.holding := h.foldl fun _ _ h => h.landBytes _ _ _ _ _
  have hl : ∀ (bs : List Loc) (a : Landed), Sound k a.s.holding → Sound k (bs.foldl (fun (a : Landed) b =>
      let r := a.s.landBlock u c b (ws.filter (fun w => w.1.dcs != 0 && w.1.dblock == b))
      { s := r.s, raw := a.raw + r.raw, codec := a.codec || r.codec }) a).s.holding := by
    intro bs
    induction bs with
    | nil => exact fun _ ha => ha
    | cons b bs ih => exact fun a ha => ih _ (ha.landBlock u c b _)
  exact hl _ _ ht

@[simp] theorem Sound.close {r : Landed} (h : Sound k r.s.holding) (u : Nat) (e : Engine) (c : CCmd) :
    Sound k (r.close u e c).1.holding := by
  simpa [Landed.close] using h

@[simp] theorem Sound.landDue (h : Sound k s.holding) (u : Nat) (e : Engine) (c : CCmd) :
    Sound k (s.landDue u e c).1.holding := by
  unfold State.landDue
  extract_lets is
  split
  · simpa using h
  · exact Sound.close (h.landWrites _ _ _) _ _ _

@[simp] theorem Sound.finishCopy (h : Sound k s.holding) (u : Nat) (e : Engine) (c : CCmd) :
    Sound k (s.finishCopy u e c).holding := by
  unfold State.finishCopy
  extract_lets op r t d q
  have ht : Sound k t.holding := by simpa [t, r] using h
  have hq : Sound k q.1.holding := ht.landDue _ _ _
  (repeat' split) <;> simp [h, ht, hq]

@[simp] theorem State.holding_askHost (s : State) (u : Nat) (node : Option Nat) (c : CCmd) :
    (s.askHost u node c).holding = s.holding := by
  refine State.holding_foldl (fun t i => ?_) s
  (repeat' split) <;> simp

@[simp] theorem State.holding_emitFor (s : State) (d : Coll) (ts : List Nat) : (s.emitFor d ts).holding = s.holding := by
  unfold State.emitFor
  split
  · rfl
  · refine State.holding_foldl (fun s t => State.holding_foldl (fun s m => ?_) s) s
    (repeat' split) <;> simp

@[simp] theorem State.holding_walkOn (s : State) (u : Nat) (e : Engine) (c : CCmd) : (s.walkOn u e c).holding = s.holding := by
  simp [State.walkOn]

@[simp] theorem Sound.startCopy (h : Sound k s.holding) (u : Nat) (e : Engine) (c : CCmd) (lost : List (Nat × Byte)) :
    Sound k (s.startCopy u e c lost).holding := by
  unfold State.startCopy
  extract_lets op d r q g t1 t2
  have h1 : Sound k t1.holding := by simpa [t1, r] using h
  have h2 : Sound k t2.holding := by simpa [t2] using h1
  (repeat' split) <;> simp [h, h2]

@[simp] theorem Sound.closeCopy (h : Sound k s.holding) (u : Nat) (e : Engine) (c : CCmd) :
    Sound k (s.closeCopy u e c).holding := by
  unfold State.closeCopy
  extract_lets r
  have hr : Sound k r.1.holding := h.landDue u e c
  split <;> simp [hr]

@[simp] theorem Sound.landSoFar (h : Sound k s.holding) (u : Nat) (e : Engine) (c : CCmd) :
    Sound k (s.landSoFar u e c).holding := by
  unfold State.landSoFar; split <;> simp [h]

theorem Sound.eachCopy {f : State → Nat → Engine → CCmd → State} (h : Sound k s.holding)
    (hf : ∀ s u e c, Sound k s.holding → Sound k (f s u e c).holding) : Sound k (s.eachCopy f).holding := by
  refine h.foldl fun t p ht => ?_
  split
  · exact ht
  · exact hf _ _ _ _ ht

@[simp] theorem Sound.memoryAt (h : Sound k s.holding) (t : Nat) : Sound k (s.memoryAt t).holding := by
  unfold State.memoryAt
  extract_lets s1 s2
  have h1 : Sound k s1.holding := by simpa [s1] using h
  have h2 : Sound k s2.holding := h1.eachCopy fun _ _ _ _ h => h.landSoFar _ _ _
  refine h2.eachCopy fun _ _ _ _ h => ?_
  split <;> simp [h]

@[simp] theorem Sound.goOn : ∀ (fuel t : Nat) {s : State} (_ : Sound k s.holding), Sound k (State.goOn fuel t s).holding
  | 0, _, _, h => by simpa [State.goOn] using h
  | fuel + 1, t, _, h => by
    unfold State.goOn
    split
    · simpa using h
    · exact Sound.goOn fuel t (Sound.memoryAt h _)

@[simp] theorem Sound.advance (h : Sound k s.holding) (t : Nat) : Sound k (s.advance t).holding := h.goOn _ _

@[simp] theorem Sound.passTo (h : Sound k s.holding) (t : Nat) : Sound k (s.passTo t).holding := by
  simp [State.passTo, h]

@[simp] theorem Sound.settleCopy (h : Sound k s.holding) (u : Nat) (e : Engine) (c : CCmd) :
    Sound k (s.settleCopy u e c).holding := by
  unfold State.settleCopy; split <;> simp [h]

@[simp] theorem Sound.settleCopies (h : Sound k s.holding) (u : Nat) : Sound k (s.settleCopies u).holding := by
  unfold State.settleCopies
  exact (h.foldl fun _ _ h => h.settleCopy _ _ _).foldl fun _ _ h => h.settleCopy _ _ _

/-! ### Migrations -/

@[simp] theorem Sound.carryBlock (h : Sound k s.holding) (x : Xlat) (src dst : Loc) :
    Sound k (s.carryBlock x src dst).holding := by
  unfold State.carryBlock
  extract_lets t0 t bs
  have ht : Sound k t.holding := by unfold t; split <;> simp [t0, h]
  (repeat' split) <;> simp [ht]

@[simp] theorem Sound.carryPage (h : Sound k s.holding) (x : Xlat) (place : Place) (base : Nat) :
    Sound k (s.carryPage x place base).holding :=
  h.foldl fun _ _ h => h.carryBlock _ _ _

@[simp] theorem Sound.movePage (h : Sound k s.holding) (x : Xlat) (host : Bool) (frame : Nat) :
    Sound k (s.movePage x host frame).holding := by
  unfold State.movePage
  split
  · exact h
  · simp [h]

@[simp] theorem Sound.startEviction (h : Sound k s.holding) (d : Nat) : Sound k (s.startEviction d).holding := by
  unfold State.startEviction; (repeat' split) <;> simp [h]

@[simp] theorem Sound.carryFrame (h : Sound k s.holding) (mp : Bool) (e : Indirect) :
    Sound k (State.carryFrame mp s e).holding := by
  unfold State.carryFrame; (repeat' split) <;> simp [h]

@[simp] theorem Sound.serveAsked (h : Sound k s.holding) : Sound k s.serveAsked.holding := by
  unfold State.serveAsked
  split
  · exact h
  · refine h.foldl fun t d ht => ?_
    extract_lets m t2
    have h2 : Sound k t2.holding := by simpa [t2] using ht
    (repeat' split) <;> simp [ht, h2]
end

section
variable {k : Bool} {s : State}

/-! ### Parts replaced -/

theorem Sound.setSaved {t : Tbl (Tbl Unit)} (h : Sound k s.holding) (ht : Sound k (holdingBy (holdingBy Unit.holding) t)) :
    Sound k (holdingIn s.units t s.ho.old s.clusters s.dusk.atWarn s.hib) := sound_setSaved h ht

@[simp] theorem Sound.dropOld (h : Sound k s.holding) :
    Sound k (holdingIn s.units s.saved [] s.clusters s.dusk.atWarn s.hib) := by
  obtain ⟨h1, h2, h3, -, hr⟩ := sound_state_iff.1 h
  exact sound_holdingIn.2 ⟨h1, h2, h3, by simp, hr⟩

theorem Sound.setHib {t : Tbl HibArea} (h : Sound k s.holding) (ht : Sound k (holdingBy HibArea.holding t)) :
    Sound k (holdingIn s.units s.saved s.ho.old s.clusters s.dusk.atWarn t) := by
  obtain ⟨h1, h2, h3, h4, h5, -⟩ := sound_state_iff.1 h
  exact sound_holdingIn.2 ⟨h1, h2, h3, h4, h5, ht⟩

theorem Sound.hib (h : Sound k s.holding) : Sound k (holdingBy HibArea.holding s.hib) := (sound_state_iff.1 h).2.2.2.2.2

theorem Sound.unitsBy (h : Sound k s.holding) (us : List Nat) :
    Sound k (holdingBy Unit.holding (us.map fun u => (u, s.unit u))) := by
  refine sound_holdingBy.2 fun p hp => ?_
  obtain ⟨u, -, rfl⟩ := List.mem_map.1 hp
  exact h.unit u

theorem Sound.foldl_mem {α : Type} {f : State → α → State} {l : List α} (h : Sound k s.holding)
    (hf : ∀ s, ∀ a ∈ l, Sound k s.holding → Sound k (f s a).holding) : Sound k (l.foldl f s).holding := by
  induction l generalizing s with
  | nil => exact h
  | cons a l ih => exact ih (hf s a (by simp) h) fun s b hb => hf s b (by simp [hb])

/-! ### Teams -/

@[simp] theorem Unit.holding_onTile (tile x : Unit) : (Unit.onTile tile x).holding = x.holding := by simp [Unit.onTile]
@[simp] theorem Sound.tilePart (x : Unit) : Sound k x.tilePart.holding := by simp [Unit.tilePart]

@[simp] theorem Sound.settleTeam (h : Sound k s.holding) (n : Nat) : Sound k (s.settleTeam n).holding := by
  refine h.foldl fun t c ht => ?_
  split <;> simp [ht]

@[simp] theorem Sound.thawTeam (h : Sound k s.holding) (n : Nat) : Sound k (s.thawTeam n).holding := by
  simp [State.thawTeam, h]

@[simp] theorem Sound.writeSlots (h : Sound k s.holding) (is : List Nat) (ctx : Tbl Unit) :
    Sound k (s.writeSlots is ctx).holding :=
  h.foldl fun _ _ h => h.getD fun _ e => h.vwrite e

@[simp] theorem Sound.saveTeam (h : Sound k s.holding) (n : Nat) : Sound k (s.saveTeam n).holding := by
  unfold State.saveTeam
  extract_lets x t ctx t2 t3 had
  split
  · exact h
  · have ht : Sound k t.holding := h.foldl fun _ _ h => h.settleCopies _
    have h2 : Sound k t2.holding := by unfold t2; split <;> simp [ht]
    have h3 : Sound k t3.holding :=
      Sound.foldl (sound_setSaved h2 ((sound_state_iff.1 h2).2.2.1.of_tput n (ht.unitsBy _))) fun _ _ h => h.modUnit (by simp) _
    simpa using h3

@[simp] theorem Sound.swapOut (h : Sound k s.holding) (n : Nat) : Sound k (s.swapOut n).holding := by
  unfold State.swapOut
  extract_lets x
  split <;> simp [h]

theorem tdel_subset {α : Type} {p : Nat × α} {i : Nat} : ∀ {t : Tbl α}, p ∈ tdel t i → p ∈ t
  | [], h => h
  | q :: t, h => by
    unfold tdel at h
    split at h
    · exact List.mem_cons_of_mem _ h
    · rcases List.mem_cons.1 h with rfl | h
      · simp
      · exact List.mem_cons_of_mem _ (tdel_subset h)

@[simp] theorem Sound.swapIn (h : Sound k s.holding) (n : Nat) : Sound k (s.swapIn n).holding := by
  unfold State.swapIn
  extract_lets x ctx t
  have hd : Sound k ({ s with saved := tdel s.saved n } : State).holding :=
    sound_setSaved h (sound_holdingBy.2 fun p hp => sound_holdingBy.1 (sound_state_iff.1 h).2.2.1 p (tdel_subset hp))
  have ht : Sound k t.holding := hd.foldl_mem fun t p hp ht => ht.modUnit (fun _ _ => by
    simpa using sound_holdingBy.1 (h.saved n) p hp) _
  simp [ht]

@[simp] theorem Sound.shadeTeams (h : Sound k s.holding) (c : Nat) : Sound k (s.shadeTeams c).holding := by
  refine h.foldl fun t p ht => ?_
  extract_lets x
  (repeat' split) <;> simp [ht]

@[simp] theorem State.holding_graphFor (s : State) (q : Nat) (r : List Byte) : (s.graphFor q r).1.holding = s.holding := by
  unfold State.graphFor
  extract_lets c
  clear_value c
  split
  · rfl
  · split <;> simp

@[simp] theorem State.holding_acceptRecord (s : State) (q : Nat) (r : List Byte) :
    (s.acceptRecord q r).holding = s.holding := by
  unfold State.acceptRecord
  extract_lets asp mask idx card refusal t c serial sc t2
  have h2 : t2.holding = s.holding := by simp [t2, t, sc]
  have hg := t2.holding_graphFor q r
  split
  next t3 g e =>
  rw [e] at hg
  simp [apply_ite State.holding, hg, h2]

theorem Sound.bringIn {x : Xlat} {t : State} {fs gs : List Nat} (h : Sound k s.holding) (e : s.bringIn x fs = some (t, gs)) :
    Sound k t.holding := by
  cases fs with
  | nil => contradiction
  | cons f fs =>
    rw [State.bringIn] at e
    split at e
    · cases e; exact h.movePage _ _ _
    · contradiction

theorem Sound.stagePages {seg : Bool} {aspace : Nat} {ps : List (Nat × Nat)} {t : State} {xs ys : List Xlat} {fs gs : List Nat}
    (h : Sound k s.holding) (e : s.stagePages seg aspace xs fs ps = some (t, ys, gs)) : Sound k t.holding := by
  induction ps generalizing s xs fs with
  | nil => cases e; exact h
  | cons p ps ih =>
    unfold State.stagePages at e
    split at e
    · exact ih h e
    · split at e
      · contradiction
      · split at e
        · contradiction
        · split at e
          · split at e
            · contradiction
            · next hb =>
              split at e
              · contradiction
              · exact ih (h.bringIn hb) e
          · exact ih h e

@[simp] theorem Sound.stageFeet {x : Node} :
    ∀ (is : List Nat) {s : State} (_ : Sound k s.holding) (xs : List Xlat) (frames : List Nat),
    Sound k (s.stageFeet x xs frames is).1.holding
  | [], _, h, _, _ => h
  | i :: is, _, h, xs, frames => by
    unfold State.stageFeet
    split
    · exact Sound.stageFeet is h _ _
    · extract_lets f
      split
      · exact h
      · next e => exact Sound.stageFeet is (h.stagePages e) _ _

@[simp] theorem Sound.startUnit (t : Unit) (n : Nat) (x : Node) (m limit : Nat) (code : List Byte)
    (init : List (Buf × Nat × List Byte))
    (xs : List Xlat) : Sound k (startUnit t n x m limit code init xs).holding := by
  unfold Machine.startUnit
  extract_lets i g t2 y
  have hy : Sound k y.holding := by simp [y, t2]
  have hf : ∀ (l : List (Buf × Nat × List Byte)) (z : Unit), Sound k z.holding →
      Sound k (l.foldl (fun (y : Unit) r => y.setBuf r.1 (mwrite (y.buf r.1) r.2.1 r.2.2)) z).holding := by
    intro l
    induction l with
    | nil => exact fun _ hz => hz
    | cons r l ih => exact fun z hz => ih _ (hz.setBuf _ fun hk => Memory.wf_mwrite _ _ (sound_unit_iff.1 hz hk _))
  exact hf init y hy

@[simp] theorem Sound.startTeam (h : Sound k s.holding) (n c f : Nat) (frames : List Nat) :
    Sound k (s.startTeam n c f frames).holding := by
  unfold State.startTeam
  extract_lets x
  split
  · simp [h]
  · split
    · simp [h]
    · split
      · simp [h]
      · have hs := h.stageFeet (x := x) (List.range (cardNfoot x.card)) [] frames
        split
        · next e => rw [e] at hs; simpa using hs
        · next t xs e =>
          rw [e] at hs
          extract_lets cl t2 limit t3
          have h2 : Sound k t2.holding := hs.setCluster (by simpa [cl] using hs.cluster c) _
          have h3 : Sound k t3.holding := h2.foldl fun _ _ h => h.modUnit (fun _ _ => by simp) _
          simpa using h3

theorem ClusterSt.LinesWhole.filter {c : ClusterSt} (h : c.LinesWhole) (q : Nat × List Byte → Bool) :
    ClusterSt.LinesWhole { c with lines := c.lines.filter q } :=
  ⟨tsorted_filter q h.1, fun l hl => h.2 l (List.mem_of_mem_filter hl)⟩

@[simp] theorem Sound.writeBackRegion (h : Sound k s.holding) (r : Region) : Sound k (s.writeBackRegion r).holding := by
  unfold State.writeBackRegion
  split
  · exact h
  · refine h.foldl fun t p ht => ?_
    split
    · split
      · next t2 _ _ j _ =>
        exact Sound.setCluster (by simpa using ht) ((ht.cluster j).cluster_map fun hw => hw.filter _) j
      · exact ht
    · exact ht

/-! ### Power, links and boot -/

@[simp] theorem Sound.setShade (h : Sound k s.holding) (c : Nat) : Sound k (s.setShade c).holding := by
  simp [State.setShade, h]
end

section
variable {k : Bool} {s : State}

@[simp] theorem State.holding_setReq (s : State) (z req : Nat) : (s.setReq z req).holding = s.holding := by
  unfold State.setReq
  extract_lets old t
  split <;> simp [t]
@[simp] theorem State.holding_askFlow (s : State) (z p : Nat) : (s.askFlow z p).holding = s.holding := by
  simp [State.askFlow]
@[simp] theorem State.holding_tickZone (s : State) (z p : Nat) : (s.tickZone z p).holding = s.holding := by
  simp [State.tickZone]

@[simp] theorem State.holding_trainLink (s : State) (n : Nat) : (s.trainLink n).holding = s.holding := by
  unfold State.trainLink
  extract_lets width rate t
  split <;> simp [t]
@[simp] theorem State.holding_writeLkctl (s : State) (n : Nat) (v : Word) : (s.writeLkctl n v).holding = s.holding := by
  simp [State.writeLkctl]
@[simp] theorem State.holding_trainDie (s : State) (d : Nat) : (s.trainDie d).holding = s.holding := by
  simp [State.trainDie]

/-! ### Dies -/

@[simp] theorem State.holding_unfenceDie (s : State) (d : Nat) : (s.unfenceDie d).holding = s.holding := by
  simp [State.unfenceDie]

@[simp] theorem Sound.writeBackDie (h : Sound k s.holding) (d : Nat) : Sound k (s.writeBackDie d).holding := by
  unfold State.writeBackDie
  extract_lets t u
  have ht : Sound k t.holding := h.foldl fun _ _ h => (h.applyAll _ _).writeBackLines _
  simp [u, ht]

@[simp] theorem sound_lostUnit (x : Unit) : Sound k (lostUnit x).holding := by simp [lostUnit]

@[simp] theorem Sound.resetDieNow (h : Sound k s.holding) (d : Nat) : Sound k (s.resetDieNow d).holding := by
  unfold State.resetDieNow
  extract_lets t u v
  have ht : Sound k t.holding := h.foldl fun _ _ h => h.modUnit (by simp) _
  simp [v, u, ht]

@[simp] theorem Sound.writeDrctl (h : Sound k s.holding) (d : Nat) (v : Word) : Sound k (s.writeDrctl d v).holding := by
  unfold State.writeDrctl
  (repeat' split) <;> simp [h]

/-! ### Boot and handover -/

theorem Sound.sb {x : Unit} (h : Sound k x.holding) (hk : k = true) : Memory.wf x.sb = true := sound_unit_iff.1 h hk .sb

@[simp] theorem sound_freshUnit (x : Unit) (b : List Byte) (now : Nat) : Sound k (freshUnit x b now).holding := by
  simpa [freshUnit, bootUnit] using fun _ => Memory.wf_mwrite _ _ Memory.wf_nil

@[simp] theorem Sound.newUnit {x : Unit} (h : Sound k x.holding) (b : List Byte) (now : Nat) :
    Sound k (newUnit x b now).holding := by
  simpa [Machine.newUnit, Machine.bootUnit] using fun hk => Memory.wf_mwrite _ _ (h.sb hk)

@[simp] theorem Sound.startSequencer (h : Sound k s.holding) (u : Nat) : Sound k (s.startSequencer u).holding :=
  h.modUnit (by simp) u

@[simp] theorem State.holding_measureBoot (s : State) : s.measureBoot.1.holding = s.holding := by
  unfold State.measureBoot
  extract_lets ok t
  split <;> simp [t]

@[simp] theorem Sound.boot (h : Sound k s.holding) (meas4 : List Byte) : Sound k (s.boot meas4).holding := by
  unfold State.boot
  extract_lets r t
  have hm : t.measureBoot.1.holding = s.holding := by simp [t]
  split
  · next e => rw [e] at hm; simp [hm, h]
  · next e => rw [e] at hm; exact Sound.foldl (by simp [hm, h]) fun _ _ h => h.startSequencer _

@[simp] theorem Sound.modSequencers {f : Nat → Unit → Unit} (h : Sound k s.holding)
    (hf : ∀ u x, Sound k x.holding → Sound k (f u x).holding) : Sound k (s.modSequencers f).holding :=
  h.foldl fun _ u h => h.modUnit (hf u) u

theorem Sound.setOld {t : Tbl Unit} (h : Sound k s.holding) (ht : Sound k (holdingBy Unit.holding t)) :
    Sound k (holdingIn s.units s.saved t s.clusters s.dusk.atWarn s.hib) := by
  obtain ⟨h1, h2, h3, -, hr⟩ := sound_state_iff.1 h
  exact sound_holdingIn.2 ⟨h1, h2, h3, ht, hr⟩

theorem Sound.old (h : Sound k s.holding) : Sound k (holdingBy Unit.holding s.ho.old) := (sound_state_iff.1 h).2.2.2.1

@[simp] theorem Sound.startHandover (h : Sound k s.holding) : Sound k s.startHandover.holding := by
  unfold State.startHandover
  extract_lets t u
  have hu : Sound k u.holding := h.modSequencers (by simp)
  (repeat' split) <;> simp [h, hu]

@[simp] theorem Sound.writeHoctl (h : Sound k s.holding) (v : Word) : Sound k (s.writeHoctl v).holding := by
  unfold State.writeHoctl; split <;> simp [h]

@[simp] theorem Sound.beginNew (h : Sound k s.holding) : Sound k s.beginNew.holding := by
  unfold State.beginNew
  extract_lets kept queued t u
  have hu : Sound k u.holding := h.modSequencers fun _ _ hx => hx.newUnit _ _
  have hs := hu.setOld (h.unitsBy sequencers)
  simpa using hs

@[simp] theorem Sound.endHandover (h : Sound k s.holding) (code : Nat) : Sound k (s.endHandover code).holding := by
  unfold State.endHandover
  extract_lets t
  have ht : Sound k t.holding := by simpa [t] using h
  simp [ht]

theorem Sound.restoreOld {f : State → Unit → Unit} (h : Sound k s.holding) (hf : ∀ s x, (f s x).holding = x.holding) :
    Sound k (s.ho.old.foldl (fun (s : State) p => s.setUnit p.1 (f s p.2)) s).holding :=
  h.foldl_mem fun _ p hp ht => ht.setUnit (by rw [hf]; exact sound_holdingBy.1 h.old p hp) _

@[simp] theorem Sound.restartOld (h : Sound k s.holding) (code : Nat) : Sound k (s.restartOld code).holding :=
  (h.restoreOld (f := fun s x => { x with events := [], kicked := s.now, hostate := 0, role := false, hofin := false })
      (by simp)).endHandover code

@[simp] theorem Sound.dropHandover (h : Sound k s.holding) (code : Nat) : Sound k (s.dropHandover code).holding :=
  (h.modSequencers (by simp)).endHandover code

@[simp] theorem Sound.commitHandover (h : Sound k s.holding) : Sound k s.commitHandover.holding := by
  unfold State.commitHandover
  extract_lets t u v svn
  have hu : Sound k u.holding := h.modSequencers (by simp)
  have hv : Sound k v.holding := by simpa [v] using hu
  exact Sound.endHandover (by simpa using hv) 1

@[simp] theorem Sound.hoack (h : Sound k s.holding) (u : Nat) (v : Word) : Sound k (s.hoack u v).holding := by
  unfold State.hoack
  split
  · exact h
  · split
    · split <;> simp [h]
    · extract_lets t
      have ht : Sound k t.holding := by
        unfold t; (repeat' split) <;> simp [h]
      split <;> simp [ht]
    · exact h

@[simp] theorem Sound.abandonHandover (h : Sound k s.holding) : Sound k s.abandonHandover.holding := by
  unfold State.abandonHandover; (repeat' split) <;> simp [h]

@[simp] theorem State.holding_appointSpare (s : State) (c : Nat) : (s.appointSpare c).holding = s.holding := by
  unfold State.appointSpare
  extract_lets t
  rw [State.holding_foldl fun s c => State.holding_foldl (fun s h => ?_) s]
  · simp [t]
  · split <;> simp

/-! ### Dusk and Dawn -/

@[simp] theorem Sound.duskHandover (h : Sound k s.holding) : Sound k s.duskHandover.holding := by
  unfold State.duskHandover
  split
  · exact h
  · extract_lets t u
    have ht : Sound k t.holding := h.restoreOld (f := fun _ x => { x with events := [], hostate := 0 }) (by simp)
    have hu : Sound k u.holding := by simpa [u] using ht
    simp [hu]

theorem Sound.setWarn {w : AtWarn} (h : Sound k s.holding) (hw : Sound k w.holding) :
    Sound k (holdingIn s.units s.saved s.ho.old s.clusters (some w) s.hib) := by
  obtain ⟨h1, h2, h3, h4, -, h6⟩ := sound_state_iff.1 h
  exact sound_holdingIn.2 ⟨h1, h2, h3, h4, hw, h6⟩

theorem Sound.image (h : Sound k s.holding) : Sound k s.image.holding := by
  simpa [State.image] using (sound_state_iff.1 h).2.1

@[simp] theorem Sound.startDusk (h : Sound k s.holding) (forced : Bool) : Sound k (s.startDusk forced).holding := by
  unfold State.startDusk
  split
  · exact h
  · extract_lets s1 s2 d s3 at0 s4 s5 s6 s7
    have h3 : Sound k s3.holding := by
      simpa [s3, d, s2] using Sound.duskHandover (s := s1) (by simpa [s1] using h)
    have h7 : Sound k s7.holding := Sound.foldl (by simpa [s6, s5, s4] using h3) fun _ _ h => h.writeBackLines _
    simpa using h7.setWarn (w := { at0 with image := s7.image }) (by simpa using h7.image)

@[simp] theorem Sound.settleShed (h : Sound k s.holding) : Sound k s.settleShed.holding := by
  unfold State.settleShed
  split
  · exact h
  · extract_lets t u v d
    have ht : Sound k t.holding := h.foldl fun _ _ h => h.settleCopies _
    have hu : Sound k u.holding := ht.foldl fun _ _ h => h.writeBackLines _
    split <;> simp [v, d, h, hu]

@[simp] theorem Sound.shedNext (h : Sound k s.holding) : Sound k s.shedNext.holding := by
  unfold State.shedNext
  split
  · exact h
  · extract_lets t d u
    have ht : Sound k t.holding := h.abandonHandover
    have hu : Sound k u.holding := by simpa [u, d] using ht
    simp [hu]
end

section
variable {k : Bool} {s : State}

@[simp] theorem State.holding_readmit (s : State) (d : Nat) : (s.readmit d).holding = s.holding := by simp [State.readmit]

@[simp] theorem Sound.beginDrain (h : Sound k s.holding) : Sound k s.beginDrain.holding := by
  unfold State.beginDrain
  extract_lets t a area
  have ht : Sound k t.holding := by
    rw [State.holding_setDuskPhase]
    exact h.foldl fun _ _ h => h.writeBackLines _
  have hs := ht.setHib (ht.hib.of_tput a (v := area) (by simp [area]))
  simpa using hs

@[simp] theorem Sound.modHib {f : HibArea → HibArea} (h : Sound k s.holding)
    (hf : ∀ x, Sound k x.holding → Sound k (f x).holding) :
    Sound k (s.modHib f).holding := by
  have hs := h.setHib (h.hib.of_tput s.dusk.area (hf _ (h.hib.of_tget (d := {}) s.dusk.area (by simp))))
  simpa [State.modHib, tmod] using hs

theorem SysImage.holding_saveBlocks (s : State) (l : Loc) (m : SysImage) : (s.saveBlocks l m).holding = m.holding := by
  unfold State.saveBlocks
  split
  · rfl
  · simp

@[simp] theorem Sound.writeUnit (h : Sound k s.holding) (l : Loc) : Sound k (s.writeUnit l).holding := by
  unfold State.writeUnit
  extract_lets d t
  have ht : Sound k t.holding := by simpa [t, d] using h
  rw [State.holding_cset]
  refine ht.modHib fun x hx => ?_
  simpa [SysImage.holding_saveBlocks] using hx

@[simp] theorem Sound.sleep (h : Sound k s.holding) : Sound k s.sleep.holding := by
  have hh := h.hib
  unfold State.sleep
  rw [State.holding_mk]
  exact sound_holdingIn.2 ⟨by simp, by simp, by simp, by simp, by simp [holdingOf], hh⟩

@[simp] theorem Sound.seal (h : Sound k s.holding) : Sound k s.seal.holding := by
  unfold State.seal
  extract_lets t
  have ht : Sound k t.holding := by
    unfold t; simp [h]
  simp [ht]

/-- A table of clusters with some of them brought to the drain's form. -/
theorem Sound.drained {t : Tbl ClusterSt} (ns : Tbl ClusterSt) (h : Sound k (holdingBy ClusterSt.holding t)) :
    Sound k (holdingBy ClusterSt.holding (ns.foldl (fun (t : Tbl ClusterSt) p => tput t p.1 ((tget {} t p.1).drained p.2)) t))
        := by
  induction ns generalizing t with
  | nil => exact h
  | cons n ns ih =>
    refine ih (h.of_tput _ ?_)
    simpa [ClusterSt.drained] using h.of_tget (d := {}) n.1 sound_new_cluster

theorem Sound.drainImage (h : Sound k s.holding) : Sound k s.drainImage.holding := by
  unfold State.drainImage
  split
  · exact h.image
  · next w e =>
    extract_lets now clusters
    have hw : Sound k w.holding := by
      have := (sound_state_iff.1 h).2.2.2.2.1
      rwa [e] at this
    simpa [clusters] using Sound.drained now.clusters hw

theorem Sound.teamContext (h : Sound k s.holding) (n : Nat) : Sound k (holdingBy Unit.holding (s.teamContext n)) := by
  unfold State.teamContext
  extract_lets x
  split
  · exact h.saved n
  · exact h.unitsBy x.units

@[simp] theorem DuskSt.atWarn_count (d : DuskSt) (i : Nat) : (d.count i).atWarn = d.atWarn := rfl

theorem Sound.countEntry (h : Sound k s.holding) (i : Nat) : Sound k ({ s with dusk := s.dusk.count i } : State).holding := by
  simpa using h

@[simp] theorem Sound.drainNext (h : Sound k s.holding) : Sound k s.drainNext.holding := by
  unfold State.drainNext
  extract_lets d m t dt t2 d2
  have ht : Sound k t.holding := by
    rw [State.holding_putPart]
    exact h.modHib fun x hx => by
      rw [← holding_area, sound_union] at hx
      simpa [h.drainImage, m] using hx.2
  have h2 : Sound k t2.holding := by simpa [t2] using h
  split
  · split <;> simp [h, ht, dt]
  · split
    · next n ns _ =>
      split
      · exact h
      · extract_lets t c bs u du
        have ht : Sound k t.holding := by
          unfold t
          split
          · exact h
          · exact h.foldl fun _ _ h => h.settleCopies _
        have hu : Sound k u.holding := by
          rw [State.holding_putPart]
          refine ht.modHib fun x hx => ?_
          rw [← holding_area, sound_union] at hx
          simpa [hx.1] using hx.2.of_tput n (ht.teamContext n)
        split <;> simp [ht, hu, du]
    · split
      · exact h
      · extract_lets e
        split
        · simp [h2, d2]
        · split
          · simp [h, d]
          · split
            · simp [h, d]
            · split
              · exact h.seal
              · exact (h.writeUnit _).countEntry _

theorem Sound.setCalcnts (m : Tbl Word) {t : Tbl Unit} (h : Sound k (holdingBy Unit.holding t)) :
    Sound k (holdingBy Unit.holding (m.foldl (fun t p => tput t p.1 { tget {} t p.1 with calcnt := p.2 }) t)) := by
  induction m generalizing t with
  | nil => exact h
  | cons p m ih =>
    refine ih (h.of_tput _ ?_)
    simpa using h.of_tget (d := {}) p.1 sound_new_unit

@[simp] theorem Sound.withImage {m : SysImage} (h : Sound k s.holding) (hm : Sound k m.holding) (units : List (Loc × Nat)) :
    Sound k (s.withImage m units).holding := by
  obtain ⟨h1, -, hr⟩ := sound_state_iff.1 h
  unfold State.withImage
  rw [State.holding_mk]
  refine sound_holdingIn.2 ⟨h1.setCalcnts m.calcnts, ?_, hr⟩
  rw [holdingBy_congr (f := ClusterSt.holding) (by simp)]
  exact hm

@[simp] theorem Sound.restoreTeam {c : Tbl Unit} (h : Sound k s.holding) (hc : Sound k (holdingBy Unit.holding c)) (n : Nat) :
    Sound k (s.restoreTeam n c).holding := by
  have hd : Sound k (holdingBy Unit.holding (c.map fun p => (p.1, p.2.afterDawn))) := by
    rwa [holdingBy_congr (f := Unit.holding) (by simp)]
  unfold State.restoreTeam
  extract_lets d
  split
  · exact sound_setSaved h ((sound_state_iff.1 h).2.2.1.of_tput n hd)
  · exact h.foldl_mem fun _ p hp ht => ht.setUnit (sound_holdingBy.1 hd p hp) _

@[simp] theorem State.holding_askAgain (s : State) (u : Nat) (x : Unit) : (s.askAgain u x).holding = s.holding := by
  simp [State.askAgain]

@[simp] theorem Sound.restoreUnit (h : Sound k s.holding) (p : Loc × Nat) : Sound k (s.restoreUnit p).holding := h.locWrite _ _

theorem Sound.setSavedAt {f : Nat × Unit → Nat × Unit} {c : Tbl Unit} (h : Sound k s.holding)
    (hc : Sound k (holdingBy Unit.holding c))
    (hf : ∀ p, (f p).2.holding = p.2.holding) (n : Nat) :
    Sound k ({ s with saved := tput s.saved n (c.map f) } : State).holding :=
  sound_setSaved h ((sound_state_iff.1 h).2.2.1.of_tput n (by rwa [holdingBy_congr (f := Unit.holding) fun p _ => hf p]))

theorem Sound.area (h : Sound k s.holding) (a : Nat) : Sound k (tget {} s.hib a).holding := h.hib.of_tget a (by simp)

@[simp] theorem Sound.resumeFrom (h : Sound k s.holding) (a : Nat) : Sound k (s.resumeFrom a).holding := by
  unfold State.resumeFrom
  extract_lets hd area done s1 s2 s3 s4 s5 s6 s7 s8 s9 s10 s11
  have ha := h.area a
  rw [← holding_area, sound_union] at ha
  obtain ⟨hsys, hteams⟩ := ha
  have h1 : Sound k s1.holding := by simp [s1, h, area, hsys]
  have h2 : Sound k s2.holding := h1.foldl fun _ _ h => h.restoreUnit _
  have h3 : Sound k s3.holding := by simpa [s3] using h2
  have h4 : Sound k s4.holding := by
    refine h3.foldl fun t n ht => ?_
    split
    · next c e => exact ht.restoreTeam (sound_holdingBy.1 hteams c (List.mem_of_find?_eq_some e)) n
    · simpa using ht
  have h9 : Sound k s9.holding := by simpa [s9, s8, s7, s6, s5] using h4
  have h10 : Sound k s10.holding := h9.foldl_mem fun t c hc ht =>
    ht.setSavedAt (sound_holdingBy.1 (sound_state_iff.1 h9).2.2.1 c hc) (fun p => by split <;> simp) _
  simpa [s11] using h10

@[simp] theorem Sound.endDawn (h : Sound k s.holding) : Sound k s.endDawn.holding := by
  unfold State.endDawn
  extract_lets j b
  have hb : Sound k b.holding := h.boot _
  clear_value b j
  split
  · exact hb
  · split
    · exact hb.resumeFrom _
    · simpa using hb

/-! ### Control registers and the host -/

@[simp] theorem Sound.migrateGo (h : Sound k s.holding) (d : Nat) : Sound k (s.migrateGo d).holding := by
  unfold State.migrateGo
  split
  · exact h
  · (repeat' split) <;> simp [h]
@[simp] theorem Sound.writeMctl (h : Sound k s.holding) (d : Nat) (v : Word) : Sound k (s.writeMctl d v).holding := by
  simp [State.writeMctl, h]
@[simp] theorem Sound.writeMig (h : Sound k s.holding) (a d off : Nat) (v : Word) : Sound k (s.writeMig a d off v).holding := by
  unfold State.writeMig; (repeat' split) <;> simp [h]
@[simp] theorem Sound.writeDcb (h : Sound k s.holding) (a off : Nat) (v : Word) : Sound k (s.writeDcb a off v).holding := by
  unfold State.writeDcb; (repeat' split) <;> simp [h]
@[simp] theorem Sound.writeRob (h : Sound k s.holding) (a off : Nat) (v : Word) : Sound k (s.writeRob a off v).holding := by
  unfold State.writeRob; (repeat' split) <;> simp [h]
@[simp] theorem Sound.writeDrb (h : Sound k s.holding) (d off : Nat) (v : Word) : Sound k (s.writeDrb d off v).holding := by
  unfold State.writeDrb; (repeat' split) <;> simp [h]
@[simp] theorem State.holding_linkAck (s : State) (n : Nat) : (s.linkAck n).holding = s.holding := by simp [State.linkAck]
@[simp] theorem State.holding_portDown (s : State) (p cause : Nat) : (s.portDown p cause).holding = s.holding := by
  simp [State.portDown]
@[simp] theorem State.holding_writePctl (s : State) (p : Nat) (v : Word) : (s.writePctl p v).holding = s.holding := by
  unfold State.writePctl; (repeat' split) <;> simp
@[simp] theorem State.holding_writeFab (s : State) (a p off : Nat) (v : Word) : (s.writeFab a p off v).holding = s.holding := by
  unfold State.writeFab; (repeat' split) <;> simp
@[simp] theorem State.holding_writeDlb (s : State) (n off : Nat) (v : Word) : (s.writeDlb n off v).holding = s.holding := by
  unfold State.writeDlb; (repeat' split) <;> simp
@[simp] theorem State.holding_writeCalReg (s : State) (a off : Nat) (v : Word) :
    (s.writeCalReg a off v).holding = s.holding := by
  unfold State.writeCalReg; (repeat' split) <;> simp

@[simp] theorem Sound.cregWrite (h : Sound k s.holding) (a : Nat) (v : Word) (r : CReg) :
    Sound k (s.cregWrite a v r).holding := by
  cases r <;> simp [State.cregWrite, h]

@[simp] theorem Sound.ctlWrite (h : Sound k s.holding) (a : Nat) (v : Word) : Sound k (s.ctlWrite a v).holding := by
  unfold State.ctlWrite; (repeat' split) <;> simp [h]

@[simp] theorem Sound.ctlAccess (h : Sound k s.holding) (a : Nat) (write : Bool) (v : Word) :
    Sound k (s.ctlAccess a write v).1.holding := by
  unfold State.ctlAccess; (repeat' split) <;> simp [h]

@[simp] theorem State.holding_memAccess (s : State) (a : Nat) (write : Bool) (data : List Byte) :
    (s.memAccess a write data).1.holding = s.holding := by
  unfold State.memAccess
  extract_lets there
  (repeat' split) <;> simp

@[simp] theorem State.holding_hostReturn (src : Option Nat) (write : Bool) (r : State × List Byte) :
    (State.hostReturn src write r).holding = r.1.holding := by
  unfold State.hostReturn; (repeat' split) <;> simp

theorem Sound.serveBridge {f : State → State} (h : Sound k s.holding) (hf : Sound k (f s).holding) (src : Nat) :
    Sound k (s.serveBridge src f).holding := by
  unfold State.serveBridge; (repeat' split) <;> simp [h, hf]

@[simp] theorem Sound.afterSystem (h : Sound k s.holding) (a : After) : Sound k (s.afterSystem a).holding := by
  cases a with
  | sst a v => simp only [State.afterSystem]; split <;> simp [h, Unit.dieError]
  | hoack v => exact h.hoack _ _
  | _ => exact h

@[simp] theorem Sound.finishBundle (h : Sound k s.holding) : Sound k s.finishBundle.holding := by
  unfold State.finishBundle; split <;> simp [h]

end

/-- What an instruction answers is whole where the state that it ran in is. -/
def Keeps (k : Bool) (s : State) (o : Host.Outcome State Fault Refusal) : Prop :=
  Sound k s.holding → ∀ t, o = .next t → Sound k t.holding

section
variable {k : Bool} {s t : State}
@[simp] theorem keeps_next : Keeps k s (.next t) ↔ (Sound k s.holding → Sound k t.holding) :=
  ⟨fun h hs => h hs t rfl, fun h hs _ e => by cases e; exact h hs⟩
@[simp] theorem keeps_fault (f : Fault) : Keeps k s (.fault f) := fun _ _ e => by contradiction

@[simp] theorem keeps_slotStep {i : Instr} {eff : State → State} (h : Sound k s.holding → Sound k (eff s).holding) :
    Keeps k s (s.slotStep i eff) := fun hs _ e =>
  slotStep_keeps (P := fun s => Sound k s.holding) hs (h hs) (fun _ _ => by simpa using hs) e
end

/-! ### Instructions -/

section
variable {kind : Bool}

@[simp] theorem keeps_matrixIssue (s : State) (i : Instr) (var : MVar) (o : MOps) : Keeps kind s (matrixIssue s i var o) := by
  simp [matrixIssue]
@[simp] theorem keeps_copyIssue (s : State) (i : Instr) (e : Engine) (o : COps) : Keeps kind s (copyIssue s i e o) := by
  simp [copyIssue]
@[simp] theorem keeps_mailIssue (s : State) (i : Instr) (e : Engine) (o : COps) : Keeps kind s (mailIssue s i e o) := by
  simp [mailIssue]
@[simp] theorem keeps_vintA (s : State) (i : Instr) (c : Cluster) (o : VOps) (f : Nat → Nat → Nat) :
    Keeps kind s (vintA s i c o f) := by
  simp [vintA]
@[simp] theorem keeps_vintAB (s : State) (i : Instr) (c : Cluster) (o : VOps) (f : Nat → Nat → Nat → Nat) :
    Keeps kind s (vintAB s i c o f) := by
  simp [vintAB]
@[simp] theorem keeps_vshift (s : State) (i : Instr) (c : Cluster) (o : VOps) (f : Nat → Nat → Nat → Nat) :
    Keeps kind s (vshift s i c o f) := by
  unfold vshift; (repeat' split) <;> simp
@[simp] theorem keeps_vfunnel (s : State) (i : Instr) (c : Cluster) (o : VOps) (f : Nat → Nat → Nat → Nat → Nat) :
    Keeps kind s (vfunnel s i c o f) := by
  unfold vfunnel; (repeat' split) <;> simp
@[simp] theorem keeps_sfcKey (s : State) (i : Instr) (c : Cluster) (o : VOps) (f : Nat → Nat → Nat → Nat) :
    Keeps kind s (sfcKey s i c o f) := by
  simp [sfcKey]
@[simp] theorem keeps_aluR (s : State) (i : Instr) (o : SR) (lat : Nat) (f : Word → Word → Word) :
    Keeps kind s (aluR s i o lat f) := by
  simp [aluR]
@[simp] theorem keeps_aluA (s : State) (i : Instr) (o : SR) (f : Word → Word) : Keeps kind s (aluA s i o f) := by simp [aluA]
@[simp] theorem keeps_aluF (s : State) (i : Instr) (o : SR) (f : Word → Word → Nat → Word) : Keeps kind s (aluF s i o f) := by
  simp [aluF]
@[simp] theorem keeps_aluI (s : State) (i : Instr) (o : SI) (f : Word → Word → Word) : Keeps kind s (aluI s i o f) := by
  simp [aluI]
@[simp] theorem keeps_setpR (s : State) (i : Instr) (o : SR) (f : Word → Word → Bool) : Keeps kind s (setpR s i o f) := by
  simp [setpR]
@[simp] theorem keeps_setpI (s : State) (i : Instr) (o : SI) (f : Word → Word → Bool) : Keeps kind s (setpI s i o f) := by
  simp [setpI]
@[simp] theorem keeps_predR (s : State) (i : Instr) (o : SR) (f : Bool → Bool → Bool) : Keeps kind s (predR s i o f) := by
  simp [predR]
@[simp] theorem keeps_vfloatA (s : State) (i : Instr) (c : Cluster) (o : VOps) (lat : Nat) (f : Fmt → FCtx → Nat → Nat → FRes) :
    Keeps kind s (vfloatA s i c o lat f) := by
  simp [vfloatA]
@[simp] theorem keeps_vfloatAB (s : State) (i : Instr) (c : Cluster) (o : VOps) (lat : Nat)
    (f : Fmt → FCtx → Nat → Nat → Nat → FRes) : Keeps kind s (vfloatAB s i c o lat f) := by
  simp [vfloatAB]
@[simp] theorem keeps_vfused (s : State) (i : Instr) (c : Cluster) (o : VOps) (neg : Bool) :
    Keeps kind s (vfused s i c o neg) := by
  simp [vfused]
@[simp] theorem keeps_mergeTriple (s : State) (i : Instr) (c : Cluster) (o : VOps) (f : Nat → Nat → Nat → Nat → FRes) :
    Keeps kind s (mergeTriple s i c o f) := by
  simp [mergeTriple]
@[simp] theorem keeps_vload (s : State) (i : Instr) (c : Cluster) (op : Nat) (o : VOps) (w lat : Nat) :
    Keeps kind s (vload s i c op o w lat) := by
  simp [vload]
@[simp] theorem keeps_vgroup (s : State) (i : Instr) (c : Cluster) (o : VOps) (lat : Nat) (scan : Bool) :
    Keeps kind s (vgroup s i c o lat scan) := by
  simp [vgroup]
@[simp] theorem keeps_tileMove (s : State) (i : Instr) (c : Cluster) (o : VOps) (dst : Dest) (lat : Nat)
    (el : Unit → Nat → Nat) (d : Unit → Bool) : Keeps kind s (tileMove s i c o dst lat el d) := by
  simp [tileMove]
@[simp] theorem keeps_maskOp (s : State) (i : Instr) (c : Cluster) (o : VOps) (useB : Bool) (f : Mask → Mask → Mask) :
    Keeps kind s (maskOp s i c o useB f) := by
  simp [maskOp]
@[simp] theorem keeps_maskLanes (s : State) (i : Instr) (c : Cluster) (o : VOps) (f : Nat → Mask → Nat) :
    Keeps kind s (maskLanes s i c o f) := by
  simp [maskLanes]
@[simp] theorem keeps_atomIssue (s : State) (i : Instr) (op : AOp) (dbl : Bool) (o : SR) :
    Keeps kind s (atomIssue s i op dbl o) :=
  keeps_slotStep fun h => by dsimp only; (repeat' split) <;> simp [h]
@[simp] theorem keeps_execBar (o : SR) (s : State) : Keeps kind s (execBar o s) :=
  keeps_slotStep fun h => by dsimp only; (repeat' split) <;> simp [h]
@[simp] theorem keeps_execXfer (o : SR) (s : State) : Keeps kind s (execXfer o s) :=
  keeps_slotStep fun h => by (repeat' split) <;> simp [h]
@[simp] theorem keeps_execWrsys (o : SR) (s : State) : Keeps kind s (execWrsys o s) := by
  unfold execWrsys; (repeat' split) <;> simp
@[simp] theorem keeps_execCpym (e : Engine) (o : COps) (s : State) : Keeps kind s (execCpym e o s) :=
  keeps_slotStep fun h => by dsimp only; (repeat' split) <;> simp [h]
@[simp] theorem keeps_execRestartMark (u : Nat) (s : State) : Keeps kind s (execRestartMark u s) := by
  unfold execRestartMark; (repeat' split) <;> simp +contextual
@[simp] theorem keeps_execResultLanding (u : Nat) (s : State) : Keeps kind s (execResultLanding u s) := by
  unfold execResultLanding; (repeat' split) <;> simp +contextual
@[simp] theorem keeps_execPreempt (team : Nat) (s : State) : Keeps kind s (execPreempt team s) := by
  unfold execPreempt; dsimp only; (repeat' split) <;> simp +contextual
@[simp] theorem keeps_execTeamResume (team : Nat) (s : State) : Keeps kind s (execTeamResume team s) := by
  unfold execTeamResume; dsimp only; (repeat' split) <;> simp +contextual
@[simp] theorem keeps_execLaunchRecord (q : Nat) (s : State) : Keeps kind s (execLaunchRecord q s) := by
  unfold execLaunchRecord; dsimp only; (repeat' split) <;> simp
@[simp] theorem keeps_execTeamStart (node cluster first : Nat) (frames : List Nat) (s : State) :
    Keeps kind s (execTeamStart node cluster first frames s) := by
  unfold execTeamStart; dsimp only; (repeat' split) <;> simp +contextual
@[simp] theorem keeps_execNodeComplete (node : Nat) (s : State) : Keeps kind s (execNodeComplete node s) := by
  unfold execNodeComplete; dsimp only; (repeat' split) <;> simp +contextual
@[simp] theorem keeps_execQuantumExpiry (team : Nat) (s : State) : Keeps kind s (execQuantumExpiry team s) := by
  unfold execQuantumExpiry; dsimp only; (repeat' split) <;> simp +contextual
@[simp] theorem keeps_execTeamPromotion (node : Nat) (s : State) : Keeps kind s (execTeamPromotion node s) := by
  unfold execTeamPromotion; dsimp only; (repeat' split) <;> simp
@[simp] theorem keeps_execTailWrite (q : Nat) (v : Word) (s : State) : Keeps kind s (execTailWrite q v s) := by
  unfold execTailWrite; (repeat' split) <;> simp
@[simp] theorem keeps_execQcfgWrite (q : Nat) (v : Word) (s : State) : Keeps kind s (execQcfgWrite q v s) := by
  unfold execQcfgWrite; (repeat' split) <;> simp
@[simp] theorem keeps_execQringWrite (q : Nat) (v : Word) (s : State) : Keeps kind s (execQringWrite q v s) := by
  unfold execQringWrite; (repeat' split) <;> simp
@[simp] theorem keeps_execCurrentLevelFall (k : Nat) (s : State) : Keeps kind s (execCurrentLevelFall k s) := by
  unfold execCurrentLevelFall; dsimp only; (repeat' split) <;> simp
@[simp] theorem keeps_execCoreDroop (u : Nat) (s : State) : Keeps kind s (execCoreDroop u s) := by
  unfold execCoreDroop; (repeat' split) <;> simp
@[simp] theorem keeps_execDroopExpiry (k : Nat) (s : State) : Keeps kind s (execDroopExpiry k s) := by
  unfold execDroopExpiry; dsimp only; (repeat' split) <;> simp
@[simp] theorem keeps_execXferHandover (owner x : Nat) (s : State) : Keeps kind s (execXferHandover owner x s) := by
  unfold execXferHandover; dsimp only; (repeat' split) <;> simp
@[simp] theorem keeps_execAtomApply (k requester : Nat) (s : State) : Keeps kind s (execAtomApply k requester s) := by
  unfold execAtomApply; dsimp only; (repeat' split) <;> simp +contextual
@[simp] theorem keeps_execAtomReply (u id : Nat) (s : State) : Keeps kind s (execAtomReply u id s) := by
  unfold execAtomReply; dsimp only; (repeat' split) <;> simp +contextual
@[simp] theorem keeps_execCopyPretranslation (u : Nat) (e : Engine) (s : State) :
    Keeps kind s (execCopyPretranslation u e s) := by
  unfold execCopyPretranslation; dsimp only; (repeat' split) <;> simp
@[simp] theorem keeps_execCopyCommandStart (u : Nat) (e : Engine) (id : Nat) (lost : List (Nat × Byte)) (s : State) :
    Keeps kind s (execCopyCommandStart u e id lost s) := by
  unfold execCopyCommandStart; dsimp only; (repeat' split) <;> simp +contextual
@[simp] theorem keeps_execDramReadDelivery (u : Nat) (e : Engine) (id : Nat) (err : Option Byte) (s : State) :
    Keeps kind s (execDramReadDelivery u e id err s) := by
  unfold execDramReadDelivery; dsimp only; (repeat' split) <;> simp +contextual
@[simp] theorem keeps_execCopyCommandComplete (u : Nat) (e : Engine) (id : Nat) (err : Option Byte) (data : List Byte)
    (s : State) : Keeps kind s (execCopyCommandComplete u e id err data s) := by
  unfold execCopyCommandComplete; dsimp only; (repeat' split) <;> simp +contextual
@[simp] theorem keeps_execScldLanding (u id : Nat) (s : State) : Keeps kind s (execScldLanding u id s) := by
  unfold execScldLanding; dsimp only; (repeat' split) <;> simp +contextual
@[simp] theorem keeps_execCfenceStart (u id : Nat) (s : State) : Keeps kind s (execCfenceStart u id s) := by
  unfold execCfenceStart; dsimp only; (repeat' split) <;> simp
@[simp] theorem keeps_execMatrixCommandStart (u : Nat) (s : State) : Keeps kind s (execMatrixCommandStart u s) := by
  unfold execMatrixCommandStart; dsimp only; (repeat' split) <;> simp
@[simp] theorem keeps_execMatrixOperandsRead (u : Nat) (s : State) : Keeps kind s (execMatrixOperandsRead u s) := by
  unfold execMatrixOperandsRead; dsimp only; (repeat' split) <;> simp
@[simp] theorem keeps_execCredit (u id : Nat) (peer : Peer) (s : State) : Keeps kind s (execCredit u id peer s) := by
  unfold execCredit; dsimp only; (repeat' split) <;> simp
@[simp] theorem keeps_execChunk (u id : Nat) (peer : Peer) (t : Nat) (data : List Byte) (s : State) :
    Keeps kind s (execChunk u id peer t data s) := by
  unfold execChunk; dsimp only; (repeat' split) <;> simp +contextual
@[simp] theorem keeps_execChunkRequest (u id : Nat) (peer : Peer) (ask : ChunkAsk) (s : State) :
    Keeps kind s (execChunkRequest u id peer ask s) := by
  unfold execChunkRequest; dsimp only; (repeat' split) <;> simp
@[simp] theorem keeps_execRepartCounts (u id : Nat) (hists counts : List (List Nat)) (s : State) :
    Keeps kind s (execRepartCounts u id hists counts s) := by
  unfold execRepartCounts; dsimp only; (repeat' split) <;> simp +contextual
@[simp] theorem keeps_execPeerStatusReply (u id : Nat) (reply : PeerReply) (s : State) :
    Keeps kind s (execPeerStatusReply u id reply s) := by
  unfold execPeerStatusReply; (repeat' split) <;> simp
@[simp] theorem keeps_execPatienceExpiry (u id : Nat) (s : State) : Keeps kind s (execPatienceExpiry u id s) := by
  unfold execPatienceExpiry; (repeat' split) <;> simp
@[simp] theorem keeps_execCompletionWord (u id : Nat) (err : Option Byte) (pool : Nat) (s : State) :
    Keeps kind s (execCompletionWord u id err pool s) := by
  unfold execCompletionWord; dsimp only; (repeat' split) <;> simp +contextual
@[simp] theorem keeps_execFlitReceive (port cls : Nat) (head : FlitHead) (good : Bool) (s : State) :
    Keeps kind s (execFlitReceive port cls head good s) := by
  unfold execFlitReceive; dsimp only; (repeat' split) <;> simp
@[simp] theorem keeps_execNak (port seq : Nat) (s : State) : Keeps kind s (execNak port seq s) := by
  unfold execNak; dsimp only; (repeat' split) <;> simp
@[simp] theorem keeps_execPauseClass (port cls : Nat) (s : State) : Keeps kind s (execPauseClass port cls s) := by
  unfold execPauseClass; dsimp only; (repeat' split) <;> simp
@[simp] theorem keeps_execResumeClass (port cls : Nat) (s : State) : Keeps kind s (execResumeClass port cls s) := by
  unfold execResumeClass; dsimp only; (repeat' split) <;> simp
@[simp] theorem keeps_execPortEnable (port : Nat) (v : Word) (s : State) : Keeps kind s (execPortEnable port v s) := by
  unfold execPortEnable; (repeat' split) <;> simp
@[simp] theorem keeps_execPortTrained (port peer : Nat) (vers : List (Nat × Nat)) (auth : Bool) (s : State) :
    Keeps kind s (execPortTrained port peer vers auth s) := by
  unfold execPortTrained; (repeat' split) <;> simp
@[simp] theorem keeps_execLinkRekey (port : Nat) (s : State) : Keeps kind s (execLinkRekey port s) := by
  unfold execLinkRekey; dsimp only; (repeat' split) <;> simp
@[simp] theorem keeps_execHandoverGo (v : Word) (s : State) : Keeps kind s (execHandoverGo v s) := by
  unfold execHandoverGo; simp +contextual
@[simp] theorem keeps_execHoack (u : Nat) (v : Word) (s : State) : Keeps kind s (execHoack u v s) := by
  unfold execHoack; (repeat' split) <;> simp +contextual
@[simp] theorem keeps_execWdkick (u : Nat) (s : State) : Keeps kind s (execWdkick u s) := by
  unfold execWdkick; (repeat' split) <;> simp
@[simp] theorem keeps_execWatchdogExpiry (u : Nat) (s : State) : Keeps kind s (execWatchdogExpiry u s) := by
  unfold execWatchdogExpiry; dsimp only; (repeat' split) <;> simp
@[simp] theorem keeps_execSequencerRestart (u : Nat) (s : State) : Keeps kind s (execSequencerRestart u s) := by
  unfold execSequencerRestart; dsimp only; (repeat' split) <;> simp +contextual
@[simp] theorem keeps_execEvpop (u : Nat) (s : State) : Keeps kind s (execEvpop u s) := by
  unfold execEvpop; (repeat' split) <;> simp
@[simp] theorem keeps_execPfWarnL (asserted : Bool) (s : State) : Keeps kind s (execPfWarnL asserted s) := by
  unfold execPfWarnL; (repeat' split) <;> simp +contextual
@[simp] theorem keeps_execDuskBudgetExpiry (u : Nat) (s : State) : Keeps kind s (execDuskBudgetExpiry u s) := by
  unfold execDuskBudgetExpiry; (repeat' split) <;> simp +contextual
@[simp] theorem keeps_execPfSagL (asserted : Bool) (s : State) : Keeps kind s (execPfSagL asserted s) := by
  unfold execPfSagL; simp +contextual
@[simp] theorem keeps_execRsvstatRefresh (cap usable cycles : Nat) (fault : Bool) (s : State) :
    Keeps kind s (execRsvstatRefresh cap usable cycles fault s) := by
  unfold execRsvstatRefresh; (repeat' split) <;> simp
@[simp] theorem keeps_execMigrateGo (d : Nat) (s : State) : Keeps kind s (execMigrateGo d s) := by
  unfold execMigrateGo; (repeat' split) <;> simp
@[simp] theorem keeps_execEvictGo (d : Nat) (s : State) : Keeps kind s (execEvictGo d s) := by
  unfold execEvictGo; (repeat' split) <;> simp +contextual
@[simp] theorem keeps_execMigrationCountsZero (d : Nat) (s : State) : Keeps kind s (execMigrationCountsZero d s) := by
  unfold execMigrationCountsZero; dsimp only; (repeat' split) <;> simp +contextual
@[simp] theorem keeps_execMigrationFallback (d : Nat) (s : State) : Keeps kind s (execMigrationFallback d s) := by
  unfold execMigrationFallback; dsimp only; (repeat' split) <;> simp
@[simp] theorem keeps_execMigrationCopyEnd (d : Nat) (s : State) : Keeps kind s (execMigrationCopyEnd d s) := by
  unfold execMigrationCopyEnd; dsimp only; (repeat' split) <;> simp +contextual
@[simp] theorem keeps_execFold (d : Nat) (s : State) : Keeps kind s (execFold d s) := by
  unfold execFold; (repeat' split) <;> simp
@[simp] theorem keeps_execFoldComplete (d : Nat) (s : State) : Keeps kind s (execFoldComplete d s) := by
  unfold execFoldComplete; (repeat' split) <;> simp
@[simp] theorem keeps_execRel (d : Nat) (s : State) : Keeps kind s (execRel d s) := by
  unfold execRel; (repeat' split) <;> simp
@[simp] theorem keeps_execAlert (act : RowCount) (s : State) : Keeps kind s (execAlert act s) := by
  unfold execAlert; dsimp only; (repeat' split) <;> simp
@[simp] theorem keeps_execAlertRotation (pc : Nat) (s : State) : Keeps kind s (execAlertRotation pc s) := by
  unfold execAlertRotation; (repeat' split) <;> simp
@[simp] theorem keeps_execRefreshUnitDue (pc : Nat) (s : State) : Keeps kind s (execRefreshUnitDue pc s) := by
  unfold execRefreshUnitDue; dsimp only; (repeat' split) <;> simp
@[simp] theorem keeps_execRefreshRotation (pc : Nat) (s : State) : Keeps kind s (execRefreshRotation pc s) := by
  unfold execRefreshRotation; dsimp only; (repeat' split) <;> simp
@[simp] theorem keeps_execLinkPause (n : Nat) (s : State) : Keeps kind s (execLinkPause n s) := by
  unfold execLinkPause; (repeat' split) <;> simp
@[simp] theorem keeps_execLinkUnpause (n : Nat) (s : State) : Keeps kind s (execLinkUnpause n s) := by
  unfold execLinkUnpause; (repeat' split) <;> simp
@[simp] theorem keeps_execDiag (n : Nat) (s : State) : Keeps kind s (execDiag n s) := by
  unfold execDiag; (repeat' split) <;> simp
@[simp] theorem keeps_execDiagDone (n : Nat) (bad : Word) (spareBad : BitVec 4) (s : State) :
    Keeps kind s (execDiagDone n bad spareBad s) := by
  unfold execDiagDone; (repeat' split) <;> simp
@[simp] theorem keeps_execRetrain (n : Nat) (s : State) : Keeps kind s (execRetrain n s) := by
  unfold execRetrain; (repeat' split) <;> simp
@[simp] theorem keeps_execTrainingDone (n : Nat) (s : State) : Keeps kind s (execTrainingDone n s) := by
  unfold execTrainingDone; dsimp only; (repeat' split) <;> simp
@[simp] theorem keeps_execTrainTimeout (n : Nat) (s : State) : Keeps kind s (execTrainTimeout n s) := by
  unfold execTrainTimeout; (repeat' split) <;> simp
@[simp] theorem keeps_execLinkRetry (n count : Nat) (s : State) : Keeps kind s (execLinkRetry n count s) := by
  unfold execLinkRetry; (repeat' split) <;> simp
@[simp] theorem keeps_execDieFence (d : Nat) (s : State) : Keeps kind s (execDieFence d s) := by
  unfold execDieFence; (repeat' split) <;> simp
@[simp] theorem keeps_execDieQuiesce (d : Nat) (s : State) : Keeps kind s (execDieQuiesce d s) := by
  unfold execDieQuiesce; (repeat' split) <;> simp
@[simp] theorem keeps_execDieUnfence (d : Nat) (s : State) : Keeps kind s (execDieUnfence d s) := by
  unfold execDieUnfence; (repeat' split) <;> simp
@[simp] theorem keeps_execWback (d : Nat) (s : State) : Keeps kind s (execWback d s) := by
  unfold execWback; (repeat' split) <;> simp +contextual
@[simp] theorem keeps_execDieReset (d : Nat) (s : State) : Keeps kind s (execDieReset d s) := by
  unfold execDieReset; (repeat' split) <;> simp +contextual
@[simp] theorem keeps_execDieTrain (d : Nat) (s : State) : Keeps kind s (execDieTrain d s) := by
  unfold execDieTrain; (repeat' split) <;> simp
@[simp] theorem keeps_execDieAdmit (d : Nat) (s : State) : Keeps kind s (execDieAdmit d s) := by
  unfold execDieAdmit; (repeat' split) <;> simp
@[simp] theorem keeps_execTeamsout (d : Nat) (s : State) : Keeps kind s (execTeamsout d s) := by
  unfold execTeamsout; (repeat' split) <;> simp
@[simp] theorem keeps_execDrained (d : Nat) (s : State) : Keeps kind s (execDrained d s) := by
  unfold execDrained; (repeat' split) <;> simp
@[simp] theorem keeps_execDrlimExpiry (d : Nat) (s : State) : Keeps kind s (execDrlimExpiry d s) := by
  unfold execDrlimExpiry; (repeat' split) <;> simp
@[simp] theorem keeps_execWbdone (d : Nat) (s : State) : Keeps kind s (execWbdone d s) := by
  unfold execWbdone; (repeat' split) <;> simp
@[simp] theorem keeps_execDieResetRelease (d : Nat) (s : State) : Keeps kind s (execDieResetRelease d s) := by
  unfold execDieResetRelease; (repeat' split) <;> simp +contextual
@[simp] theorem keeps_execDieAdmitDone (d : Nat) (s : State) : Keeps kind s (execDieAdmitDone d s) := by
  unfold execDieAdmitDone; (repeat' split) <;> simp
@[simp] theorem keeps_execRegionSwitchOn (r : Nat) (s : State) : Keeps kind s (execRegionSwitchOn r s) := by
  unfold execRegionSwitchOn; (repeat' split) <;> simp
@[simp] theorem keeps_execStageDue (r : Nat) (outputs : List (Nat × List Nat)) (s : State) :
    Keeps kind s (execStageDue r outputs s) := by
  unfold execStageDue; dsimp only; (repeat' split) <;> simp
@[simp] theorem keeps_execSwitchPauseLimit (r : Nat) (s : State) : Keeps kind s (execSwitchPauseLimit r s) := by
  unfold execSwitchPauseLimit; dsimp only; (repeat' split) <;> simp
@[simp] theorem keeps_execRegionOn (r : Nat) (s : State) : Keeps kind s (execRegionOn r s) := by
  unfold execRegionOn; dsimp only; (repeat' split) <;> simp +contextual
@[simp] theorem keeps_execMillisecondTick (powers : List Nat) (modulePower : Nat) (s : State) :
    Keeps kind s (execMillisecondTick powers modulePower s) := by
  unfold execMillisecondTick; (repeat' split) <;> simp
@[simp] theorem keeps_execFlowstat (target : Nat) (msg : List Byte) (s : State) : Keeps kind s (execFlowstat target msg s) := by
  unfold execFlowstat; (repeat' split) <;> simp
@[simp] theorem keeps_execIbi (z : Nat) (s : State) : Keeps kind s (execIbi z s) := by
  unfold execIbi; (repeat' split) <;> simp
@[simp] theorem keeps_execHotJoin (target : Nat) (msg : List Byte) (s : State) : Keeps kind s (execHotJoin target msg s) := by
  unfold execHotJoin; (repeat' split) <;> simp
@[simp] theorem keeps_execZoneLost (z : Nat) (s : State) : Keeps kind s (execZoneLost z s) := by
  unfold execZoneLost; dsimp only; (repeat' split) <;> simp
@[simp] theorem keeps_execThermalTrip (k : Nat) (s : State) : Keeps kind s (execThermalTrip k s) := by
  unfold execThermalTrip; (repeat' split) <;> simp +contextual
@[simp] theorem keeps_execPowerStateExit (cause : WakeCause) (s : State) : Keeps kind s (execPowerStateExit cause s) := by
  unfold execPowerStateExit; dsimp only; (repeat' split) <;> simp +contextual
@[simp] theorem keeps_execFidlimWrite (k : Nat) (v : Word) (s : State) : Keeps kind s (execFidlimWrite k v s) := by
  unfold execFidlimWrite; (repeat' split) <;> simp
@[simp] theorem keeps_execColerrWrite (u n : Nat) (v : Word) (s : State) : Keeps kind s (execColerrWrite u n v s) := by
  unfold execColerrWrite; (repeat' split) <;> simp
@[simp] theorem keeps_execGsumWrite (u : Nat) (second : Bool) (v : Word) (s : State) :
    Keeps kind s (execGsumWrite u second v s) := by
  unfold execGsumWrite; (repeat' split) <;> simp
@[simp] theorem keeps_execFidinjWrite (u : Nat) (v : Word) (s : State) : Keeps kind s (execFidinjWrite u v s) := by
  unfold execFidinjWrite; (repeat' split) <;> simp
@[simp] theorem keeps_execControlRegisterWrite (addr : BitVec 40) (v : Word) (s : State) :
    Keeps kind s (execControlRegisterWrite addr v s) := by
  unfold execControlRegisterWrite; simp +contextual
@[simp] theorem keeps_execStagePauseEnd (draw : RegionDraw) (s : State) : Keeps kind s (execStagePauseEnd draw s) := by
  unfold execStagePauseEnd; dsimp only; (repeat' split) <;> simp
@[simp] theorem keeps_execPcieCompletion (id : Nat) (data : List Byte) (s : State) :
    Keeps kind s (execPcieCompletion id data s) := by
  unfold execPcieCompletion; (repeat' split) <;> simp +contextual
@[simp] theorem keeps_execChunkApplied (u id byMember t : Nat) (s : State) :
    Keeps kind s (execChunkApplied u id byMember t s) := by
  unfold execChunkApplied; (repeat' split) <;> simp
@[simp] theorem keeps_execHandoverDeadline (s : State) : Keeps kind s (execHandoverDeadline s) := by
  unfold execHandoverDeadline; (repeat' split) <;> simp +contextual
@[simp] theorem keeps_execAttestationReport (s : State) : Keeps kind s (execAttestationReport s) := by
  unfold execAttestationReport; (repeat' split) <;> simp
@[simp] theorem keeps_execDctlForce (s : State) : Keeps kind s (execDctlForce s) := by
  unfold execDctlForce; simp +contextual
@[simp] theorem keeps_execDrain (s : State) : Keeps kind s (execDrain s) := by
  unfold execDrain; (repeat' split) <;> simp +contextual
@[simp] theorem keeps_execDrainComplete (s : State) : Keeps kind s (execDrainComplete s) := by
  unfold execDrainComplete; simp +contextual
@[simp] theorem keeps_execDrainTimeLimit (s : State) : Keeps kind s (execDrainTimeLimit s) := by
  unfold execDrainTimeLimit; (repeat' split) <;> simp +contextual
@[simp] theorem keeps_execReserveFloor (s : State) : Keeps kind s (execReserveFloor s) := by
  unfold execReserveFloor; (repeat' split) <;> simp +contextual
@[simp] theorem keeps_execTshedExpiry (s : State) : Keeps kind s (execTshedExpiry s) := by
  unfold execTshedExpiry; dsimp only; (repeat' split) <;> simp +contextual
@[simp] theorem keeps_execTreadmitExpiry (s : State) : Keeps kind s (execTreadmitExpiry s) := by
  unfold execTreadmitExpiry; dsimp only; (repeat' split) <;> simp
@[simp] theorem keeps_execReadyRefresh (s : State) : Keeps kind s (execReadyRefresh s) := by
  unfold execReadyRefresh; (repeat' split) <;> simp
@[simp] theorem keeps_execTlbInvalidationDone (s : State) : Keeps kind s (execTlbInvalidationDone s) := by
  unfold execTlbInvalidationDone; (repeat' split) <;> simp
@[simp] theorem keeps_execHubZoneLost (s : State) : Keeps kind s (execHubZoneLost s) := by
  unfold execHubZoneLost; simp +contextual
@[simp] theorem keeps_execPowerStateEntry (s : State) : Keeps kind s (execPowerStateEntry s) := by
  unfold execPowerStateEntry; dsimp only; (repeat' split) <;> simp
@[simp] theorem keeps_execSupplyCut (s : State) : Keeps kind s (execSupplyCut s) := by
  unfold execSupplyCut; simp +contextual

end

section
variable {kind : Bool}

@[simp] theorem keeps_execCollDispatch (u id : Nat) (keyless : Bool) (s : State) :
    Keeps kind s (execCollDispatch u id keyless s) := by
  unfold execCollDispatch; intro h; dsimp only; (repeat' split) <;> simp [h]
  refine h.getD fun t ht => ?_
  obtain ⟨y, hy, rfl⟩ := Option.map_eq_some_iff.1 ht
  simpa [State.holding_startColl hy] using h

@[simp] theorem keeps_execSt (buf : Buf) (f : BitVec 3) (o : SR) (s : State) : Keeps kind s (execSt buf f o s) :=
  keeps_slotStep fun h => h.modCur fun _ hx => hx.store _ _

@[simp] theorem keeps_execAtomAdd (dbl : Bool) (o : SR) (s : State) : Keeps kind s (execAtomAdd dbl o s) :=
  keeps_atomIssue _ _ _ _ _
@[simp] theorem keeps_execAtomAnd (dbl : Bool) (o : SR) (s : State) : Keeps kind s (execAtomAnd dbl o s) :=
  keeps_atomIssue _ _ _ _ _
@[simp] theorem keeps_execAtomOr (dbl : Bool) (o : SR) (s : State) : Keeps kind s (execAtomOr dbl o s) :=
  keeps_atomIssue _ _ _ _ _
@[simp] theorem keeps_execAtomXor (dbl : Bool) (o : SR) (s : State) : Keeps kind s (execAtomXor dbl o s) :=
  keeps_atomIssue _ _ _ _ _
@[simp] theorem keeps_execAtomMin (dbl : Bool) (o : SR) (s : State) : Keeps kind s (execAtomMin dbl o s) :=
  keeps_atomIssue _ _ _ _ _
@[simp] theorem keeps_execAtomMax (dbl : Bool) (o : SR) (s : State) : Keeps kind s (execAtomMax dbl o s) :=
  keeps_atomIssue _ _ _ _ _
@[simp] theorem keeps_execAtomMins (dbl : Bool) (o : SR) (s : State) : Keeps kind s (execAtomMins dbl o s) :=
  keeps_atomIssue _ _ _ _ _
@[simp] theorem keeps_execAtomMaxs (dbl : Bool) (o : SR) (s : State) : Keeps kind s (execAtomMaxs dbl o s) :=
  keeps_atomIssue _ _ _ _ _
@[simp] theorem keeps_execAtomXchg (dbl : Bool) (o : SR) (s : State) : Keeps kind s (execAtomXchg dbl o s) :=
  keeps_atomIssue _ _ _ _ _
@[simp] theorem keeps_execAtomCas (dbl : Bool) (o : SR) (s : State) : Keeps kind s (execAtomCas dbl o s) :=
  keeps_atomIssue _ _ _ _ _

@[simp] theorem keeps_execMatrixCommandComplete (u : Nat) (ds : List Detection) (s : State) :
    Keeps kind s (execMatrixCommandComplete u ds s) := by
  unfold execMatrixCommandComplete; dsimp only; intro h
  have hs (m o ds) : Sound kind (s.setUnit u ((s.unit u).accountRun m o ds)).holding := by simpa using h
  (repeat' split) <;> simp [h, hs]

@[simp] theorem keeps_execTrapEntry (u : Nat) (s : State) : Keeps kind s (execTrapEntry u s) := by
  unfold execTrapEntry; (repeat' split) <;> simp
  exact fun h => h.getD fun t ht => State.holding_takeTrap ht ▸ h

@[simp] theorem keeps_execBundleIssue (u : Nat) (s : State) : Keeps kind s (execBundleIssue u s) := by
  unfold execBundleIssue
  split
  · simp
  extract_lets t r b x
  intro h
  have hb : Sound kind b.holding := Sound.atBoundary (s := t) (by simpa [t] using h) u
  have hx : Sound kind x.holding := hb.unit u
  (repeat' split) <;> simp [h, t, hb, hx]

@[simp] theorem keeps_execRecordCompletion (rec : Nat) (s : State) : Keeps kind s (execRecordCompletion rec s) := by
  unfold execRecordCompletion
  split
  · simp
  extract_lets x t y
  split
  · simp
  intro h
  have ht : Sound kind t.holding := by simpa [t] using h
  have hy : Sound kind y.holding := by
    unfold y
    split
    · exact ht
    split
    · next e => exact ht.vwrite e
    · simpa using ht
  simp [hy]

@[simp] theorem keeps_execShadeEvaluation (j current tj : Nat) (s : State) :
    Keeps kind s (execShadeEvaluation j current tj s) := by
  unfold execShadeEvaluation
  split
  · simp
  split
  · simp
  extract_lets c level rises d t
  intro h
  have hd : Sound kind d.holding := by
    simp only [d, ClusterSt.holding_mk, holding_lines, c, ClusterSt.withCurrent]
    split <;> simp [h]
  have ht : Sound kind t.holding := Sound.setShade (by simpa using h.setCluster hd j) j
  split <;> simp [ht]

@[simp] theorem keeps_execDuskTimeLimit (s : State) : Keeps kind s (execDuskTimeLimit s) := by
  unfold execDuskTimeLimit
  simp only [keeps_next]
  refine fun h => Sound.settleShed (h.foldl fun s u h => ?_)
  (repeat' split) <;> simp [h]

@[simp] theorem keeps_execModuleReset (s : State) : Keeps kind s (execModuleReset s) := by
  unfold execModuleReset
  extract_lets d sl t t'
  intro h
  have ht : Sound kind t.holding := by
    obtain ⟨hu, hc, hv, ho, -, hh⟩ := sound_state_iff.1 h.sleep
    exact sound_state_iff.2 ⟨hu, hc, hv, ho, by simp [t, d, holdingOf], hh⟩
  have ht' : Sound kind t'.holding := by simpa [t'] using ht
  simp [ht']

@[simp] theorem keeps_execDawn (s : State) : Keeps kind s (execDawn s) := by
  unfold execDawn
  split
  · simp +contextual
  split
  · simp
  · have hd : s.dusk.atWarn = (s.setDuskPhase 5).dusk.atWarn := by
      simp only [State.setDuskPhase, State.raiseVector]
      split <;> rfl
    simp only [keeps_next, State.holding_mk, hd, holdingIn_state, State.holding_setDuskPhase]
    exact id

@[simp] theorem keeps_execDawnNotice (mod : Nat) (w : Word) (s : State) : Keeps kind s (execDawnNotice mod w s) := by
  simp [execDawnNotice]

theorem Keeps.ite {c : Prop} [Decidable c] {s : State} {o p : Host.Outcome State Fault Refusal} (ho : Keeps kind s o)
    (hp : Keeps kind s p) : Keeps kind s (if c then o else p) := by
  split <;> assumption

@[simp] theorem keeps_execFabricRequest (src : Nat) (write : Bool) (space : FabSpace) (addr : Word) (data : List Byte)
    (s : State) :
    Keeps kind s (execFabricRequest src write space addr data s) := by
  unfold execFabricRequest
  refine .ite (by simp) (.ite (by simp) (.ite (by simp) (.ite (by simp) (.ite (by simp) ?_))))
  refine .ite (by simp) (.ite (by simp) (.ite ?_ (.ite ?_ ?_)))
  · rw [keeps_next, State.holding_send]
    exact fun h => h.foldl fun _ _ h => by simpa using h
  · split
    · next e => simpa using fun h => h.vwrite e
    · simp
  · split <;> simp

@[simp] theorem keeps_execHostBar0Access (addr : HostAddr) (size : Nat) (write : Bool) (v : Word) (s : State) :
    Keeps kind s (execHostBar0Access addr size write v s) := by
  unfold execHostBar0Access; intro h; dsimp only; (repeat' split) <;> simp [h]
  exact h.serveBridge (by simp [h]) _

@[simp] theorem keeps_execHostBar2Access (addr : HostAddr) (write : Bool) (data : List Byte) (s : State) :
    Keeps kind s (execHostBar2Access addr write data s) := by
  unfold execHostBar2Access; intro h; dsimp only; (repeat' split) <;> simp [h]
  exact h.serveBridge (by split <;> simp [h]) _

@[simp] theorem keeps_vstore (s : State) (i : Instr) (c : Cluster) (op : Nat) (o : VOps) : Keeps kind s (vstore s i c op o) :=
  keeps_slotStep fun h => h.modCur fun _ hx => hx.store _ _

@[simp] theorem keeps_execVst (c : Cluster) (o : VOps) (s : State) : Keeps kind s (execVst c o s) := keeps_vstore _ _ _ _ _
@[simp] theorem keeps_execVstb (c : Cluster) (o : VOps) (s : State) : Keeps kind s (execVstb c o s) := keeps_vstore _ _ _ _ _
@[simp] theorem keeps_execVsts (c : Cluster) (o : VOps) (s : State) : Keeps kind s (execVsts c o s) := keeps_vstore _ _ _ _ _
@[simp] theorem keeps_execVstx (c : Cluster) (o : VOps) (s : State) : Keeps kind s (execVstx c o s) := keeps_vstore _ _ _ _ _

@[simp] theorem keeps_execSpush (c : Cluster) (o : VOps) (s : State) : Keeps kind s (execSpush c o s) :=
  keeps_slotStep fun h => h.modCur fun _ hx => by
    rw [Unit.holding_setStream]
    exact hx.store _ _

@[simp] theorem keeps_execSbal (c : Cluster) (o : VOps) (s : State) : Keeps kind s (execSbal c o s) :=
  keeps_slotStep fun h => Sound.modCur (by simpa using h) fun _ hx => by
    rw [Unit.holding_setStream]
    exact hx.store _ _
end

section
variable {kind : Bool}

/-- Every instruction keeps what is held whole. -/
theorem keeps_exec (i : Instr) (s : State) : Keeps kind s (exec i s) := by
  cases i
  case nop | add | sub | and | or | xor | andn | orn | xnor | shl | shr | sar | rol | ror | mul | mulh | mulhs | div | divs |
    rem | rems | min | max | mins =>
    simp [exec, execNop, execAdd, execSub, execAnd, execOr, execXor, execAndn, execOrn, execXnor, execShl, execShr, execSar,
      execRol, execRor, execMul, execMulh, execMulhs, execDiv, execDivs, execRem, execRems, execMin, execMax, execMins]
  case maxs | clz | ctz | popc | brev | sext | zext | fshl | fshr | addsh | addi | andi | ori | xori | shli | shri | sari |
    movi | movh | sel | setpEq | setpNe | setpLt | setpLts =>
    simp [exec, execMaxs, execClz, execCtz, execPopc, execBrev, execSext, execZext, execFshl, execFshr, execAddsh, execAddi,
      execAndi, execOri, execXori, execShli, execShri, execSari, execMovi, execMovh, execSel, execSetpEq, execSetpNe,
      execSetpLt, execSetpLts]
  case setpLe | setpLes | pand | por | pxor | pnot | setpiEq | setpiNe | setpiLt | setpiLts | setpiLe | setpiLes | bri |
    call | br | ret | loop | chk | endTask | ld | ldsp | xext | stg | waitcTag =>
    simp [exec, execSetpLe, execSetpLes, execPand, execPor, execPxor, execPnot, execSetpiEq, execSetpiNe, execSetpiLt,
      execSetpiLts, execSetpiLe, execSetpiLes, execBri, execCall, execBr, execRet, execLoop, execChk, execEndTask, execLd,
      execLdsp, execXext, execStg, execWaitcTag]
  case waitcMask | rdsys | trap | eret | duskdone | fence | sld | sst | vadd | vsub | vmul | vmulh | vmad | vand | vor |
    vxor | vandn | vshl | vshr | vsar | vrot | vfshl | vfshr | vmin =>
    simp [exec, execWaitcMask, execRdsys, execTrap, execEret, execDuskdone, execFence, execSld, execSst, execVadd, execVsub,
      execVmul, execVmulh, execVmad, execVand, execVor, execVxor, execVandn, execVshl, execVshr, execVsar, execVrot,
      execVfshl, execVfshr, execVmin]
  case vmax | vabs | vneg | vcmp | vsel | vclz | vpopc | vmovi | vfadd | vfsub | vfmul | vfma | vfnma | vfmin | vfmax |
    vcvt | vdot | vexp2 | vlog2 | vrcp | vrsq | vfdiv | vfsqrt | vtrimX =>
    simp [exec, execVmax, execVabs, execVneg, execVcmp, execVsel, execVclz, execVpopc, execVmovi, execVfadd, execVfsub,
      execVfmul, execVfma, execVfnma, execVfmin, execVfmax, execVcvt, execVdot, execVexp2, execVlog2, execVrcp, execVrsq,
      execVfdiv, execVfsqrt, execVtrimX]
  case vtrimM | vtrimXb | vrnd | vrndSeed | vsfckMor | vsfckHil | vld | vldu | vlds | vldx | xbc | xcopy | vperm | vslide |
    vred | vscan | spop | scnt | twr | trdc | trdr | kand | kor | kxor =>
    simp [exec, execVtrimM, execVtrimXb, execVrnd, execVrndSeed, execVsfckMor, execVsfckHil, execVld, execVldu, execVlds,
      execVldx, execXbc, execXcopy, execVperm, execVslide, execVred, execVscan, execSpop, execScnt, execTwr, execTrdc,
      execTrdr, execKand, execKor, execKxor]
  case knot | kpopc | kfirst | kmov | kmovVk | kmovKv | mm | mmsN24 | mmsN48 | mmt | azero | ascl | acvt | cpy | gath |
    scat | fill | cmpr | scld | pref | cfence | coll | repart | walk =>
    simp [exec, execKnot, execKpopc, execKfirst, execKmov, execKmovVk, execKmovKv, execMm, execMmsN24, execMmsN48, execMmt,
      execAzero, execAscl, execAcvt, execCpy, execGath, execScat, execFill, execCmpr, execScld, execPref, execCfence,
      execColl, execRepart, execWalk]
  case fsend | ffetch | stageszWrite | swapAreaWrite | darkNotice | coldNotice | brctlWrite | attgo | plnWrite |
    hibcfgWrite | tlbinv | stayEnd | plctlWrite =>
    simp [exec, execFsend, execFfetch, execStageszWrite, execSwapAreaWrite, execDarkNotice, execColdNotice, execBrctlWrite,
      execAttgo, execPlnWrite, execHibcfgWrite, execTlbinv, execStayEnd, execPlctlWrite]
  all_goals simp [exec]

theorem sound_warn_iff {w : AtWarn} : Sound kind w.holding ↔ (kind = false → ∀ p ∈ w.image.clusters, p.2.LinesWhole) := by
  rw [← holding_image_warn, ← holdingBy_image, sound_holdingBy]
  simp only [sound_cluster_iff]
  exact ⟨fun h hk p hp => h p hp hk, fun h p hp hk => h hk p hp⟩

theorem sound_area_iff {a : HibArea} : Sound kind a.holding ↔
    (kind = false → ∀ p ∈ a.sys.clusters, p.2.LinesWhole) ∧ (kind = true → ∀ q ∈ a.teams, ∀ p ∈ q.2, p.2.BuffersCanonical) := by
  rw [← holding_area, ← holdingBy_image, sound_union]
  simp only [sound_holdingBy, sound_cluster_iff, sound_unit_iff]
  exact and_congr ⟨fun h hk p hp => h p hp hk, fun h p hp hk => h hk p hp⟩
    ⟨fun h hk q hq p hp => h q hq p hp hk, fun h q hq p hp hk => h hk q hq p hp⟩

theorem sound_holdingOf {α : Type} {f : α → Set Holding} {o : Option α} :
    Sound kind (holdingOf f o) ↔ ∀ a ∈ o, Sound kind (f a) := by
  cases o <;> simp [holdingOf]

theorem everyBuffer_iff {s : State} : s.EveryBuffer ↔ Sound true s.holding := by
  rw [sound_state_iff]
  simp [State.EveryBuffer, sound_holdingBy, sound_holdingOf, sound_unit_iff, sound_cluster_iff, sound_warn_iff, sound_area_iff]

theorem everyLine_iff {s : State} : s.EveryLine ↔ Sound false s.holding := by
  rw [sound_state_iff]
  simp [State.EveryLine, sound_holdingBy, sound_holdingOf, sound_unit_iff, sound_cluster_iff, sound_warn_iff, sound_area_iff]

theorem step_keeps_sound {s t : State} (h : step s = .next t) (hs : Sound kind s.holding) : Sound kind t.holding :=
  step_keeps (P := fun s => Sound kind s.holding) (fun i s t hs h => keeps_exec i s hs t h) (fun s hs => hs.finishBundle)
    (fun s a hs => by simpa using hs) (fun s n hs => by simp [hs]) hs h

end

/-- Settles O60: both properties say that what the state holds is whole, and each instruction, the end of a bundle and the
passing of time keep that. -/
theorem stepKeepsBuffersAndLines : Obligations.StepKeepsBuffersAndLines := fun _ _ h =>
  ⟨fun hs => everyBuffer_iff.2 (step_keeps_sound h (everyBuffer_iff.1 hs)),
    fun hs => everyLine_iff.2 (step_keeps_sound h (everyLine_iff.1 hs))⟩

end Sys2Proof.Machine
end

/-! ## Local accesses

The canonical form at reset (O57); the checks of a scalar load and store (R155); the bytes that a unit reads past its gated
stores, and what a store makes of them (R84, R158, R293): O21 and O7. -/

section
namespace Sys2Proof.Machine

/-! ### Reset -/

/-- Settles O57: nothing is held at reset but empty memories and tables. -/
theorem resetCanonical : Obligations.ResetCanonical := by
  refine ⟨⟨rfl, rfl, rfl, fun _ => rfl⟩, ⟨rfl, rfl⟩, ?_, ?_⟩ <;>
    simp [State.EveryBuffer, State.EveryLine, State.reset]

/-! ### The checks of a scalar access -/

theorem size_scalarAccess (x : Unit) (b : Buf) (f : BitVec 3) (o : SR) : (x.scalarAccess b f o).size = accessBytes f := by
  have hf : (field f 0 2).toNat = f.toNat % 4 := by revert f; decide
  rw [Unit.scalarAccess, hf, accessBytes]

theorem ea_scalarAccess (s : State) (b : Buf) (f : BitVec 3) (o : SR) : (s.src.scalarAccess b f o).ea = s.effective f o := by
  rw [State.effective, ← size_scalarAccess s.src b f o]
  rfl

/-- A load or store alone, with permitted operands that carry no D, traps where its access does. -/
theorem slotFault_of_access {s : State} {i : Instr} {b : Buf} {f : BitVec 3} {o : SR} (hi : i = .ld b f o ∨ i = .st b f o)
    (hw : WellFormed i = true) (hsnap : s.issue.snap = none) (hd : o.d.toNat < 56) (ha : o.a.toNat < 61)
    (hx : s.src.executes i = true) (hp : (s.src.preg o.p.toNat).2 = false) (hda : s.sdef o.a = false) (hdd : s.sdef o.d = false)
    {t : Cause × Word} (ht : (s.src.scalarAccess b f o).trap s.focus s.src = some t) : s.slotFault s.focus i = some t := by
  have henc := encodingFaults_of_wellFormed hw
  have hsrc : s.unit s.focus = s.src := by simp [State.src, hsnap, State.cur]
  unfold State.sdef at hda hdd
  rcases hi with rfl | rfl
  · have hop : operandFaults (.ld b f o) = [] := by
      simp [operandFaults, vectorOf, matrixOf, copyOf, scalarOperandFaults, scalarFields, fD, fA, Role.permits, hd, ha]
    have htrap : s.slotTrap s.focus s.src (.ld b f o) = some t := by
      simp [State.slotTrap, Unit.predMarked, predOf, hp, hx, vectorOf, matrixOf, copyOf, Unit.markedScalars, need, hda,
        State.scalarTrap, ht]
    simp [State.slotFault, firstSome, hsrc, henc, profileFaults, privilegeFaults, hop, htrap]
  · have hop : operandFaults (.st b f o) = [] := by
      simp [operandFaults, vectorOf, matrixOf, copyOf, scalarOperandFaults, scalarFields, fD, fA, Role.permits, ha]
      omega
    have htrap : s.slotTrap s.focus s.src (.st b f o) = some t := by
      simp [State.slotTrap, Unit.predMarked, predOf, hp, hx, vectorOf, matrixOf, copyOf, Unit.markedScalars, need, hda, hdd,
        State.scalarTrap, ht]
    simp [State.slotFault, firstSome, hsrc, henc, profileFaults, privilegeFaults, hop, htrap]

/-- Settles O21: each condition is a branch of the check. -/
theorem localAccessTraps : Obligations.LocalAccessTraps := by
  intro b f o s i hi hw hu hsnap hd ha hx hp hda hdd ea traps
  have trapping {c : Cause} {v : Word} (h : (s.src.scalarAccess b f o).trap s.focus s.src = some (c, v)) : traps c v := by
    have hf := slotFault_of_access hi hw hsnap hd ha hx hp hda hdd h
    rcases hi with rfl | rfl
    · exact (slotStep_of_fault hu hsnap hf : execLd b f o s = _)
    · exact (slotStep_of_fault hu hsnap hf : execSt b f o s = _)
  have hea : (s.src.scalarAccess b f o).ea = ea := ea_scalarAccess s b f o
  have hsize := size_scalarAccess s.src b f o
  have hbuf : (s.src.scalarAccess b f o).buf = b := rfl
  simp only [SAccess.trap, hea, hsize, hbuf] at trapping
  refine ⟨fun h => trapping ?_, fun h1 h2 => trapping ?_, fun h1 h2 h3 => trapping ?_, fun h1 h2 h3 h4 => trapping ?_⟩
  · rw [if_pos h]
  · rw [if_neg (not_not.2 h1), if_pos h2]
  · rw [if_neg (not_not.2 h1), if_neg (not_lt.2 h2), if_pos h3]
  · rw [if_neg (not_not.2 h1), if_neg (not_lt.2 h2), if_neg (not_lt.2 h3), if_pos (by simpa using h4)]

/-! ### Listed bytes -/

/-- The byte that a list of bytes, written in order, leaves at an address. -/
def lastByte (bs : List (Nat × Byte)) (a : Nat) : Option Byte := (bs.reverse.find? (fun c => c.1 == a)).map (·.2)

@[simp] theorem lastByte_nil (a : Nat) : lastByte [] a = none := rfl

theorem lastByte_append (bs cs : List (Nat × Byte)) (a : Nat) : lastByte (bs ++ cs) a = (lastByte cs a).or (lastByte bs a) := by
  simp only [lastByte, List.reverse_append, List.find?_append]
  cases cs.reverse.find? (fun c => c.1 == a) <;> rfl

theorem lastByte_cons (c : Nat × Byte) (bs : List (Nat × Byte)) (a : Nat) :
    lastByte (c :: bs) a = (lastByte bs a).or (if c.1 = a then some c.2 else none) := by
  rw [← List.singleton_append, lastByte_append]
  congr 1
  by_cases h : c.1 = a <;> simp [lastByte, h]

theorem lastByte_eq_none {bs : List (Nat × Byte)} {a : Nat} : lastByte bs a = none ↔ ∀ c ∈ bs, c.1 ≠ a := by
  simp [lastByte]

theorem mget_mwriteEach (a : Nat) : ∀ (bs : List (Nat × Byte)) {m : Memory}, Memory.wf m = true →
    mget (mwriteEach m bs) a = (lastByte bs a).getD (mget m a)
  | [], _, _ => rfl
  | c :: bs, m, hm => by
    have hput := Memory.wf_mput c.1 c.2 hm
    rw [mwriteEach, List.foldl_cons, ← mwriteEach, mget_mwriteEach a bs hput, mget_mput c.1 a c.2 hm, lastByte_cons]
    by_cases h : a = c.1 <;> cases lastByte bs a <;> simp [h, eq_comm]

theorem lastByte_isSome {bs : List (Nat × Byte)} {a : Nat} : (lastByte bs a).isSome = bs.any (fun c => c.1 == a) := by
  induction bs with
  | nil => rfl
  | cons c bs ih => by_cases h : c.1 = a <;> simp [lastByte_cons, ih, h]

theorem lastByte_filter (q : Nat → Bool) (bs : List (Nat × Byte)) (a : Nat) :
    lastByte (bs.filter (fun c => q c.1)) a = if q a then lastByte bs a else none := by
  induction bs with
  | nil => simp
  | cons c bs ih =>
    rw [List.filter_cons]
    by_cases hc : c.1 = a <;> by_cases hq : q c.1 <;> by_cases ha : q a <;> simp_all [lastByte_cons]

theorem lastByte_map_range (n a j : Nat) (g : Nat → Byte) :
    lastByte ((List.range n).map (fun i => (a + i, g i))) j = if a ≤ j ∧ j < a + n then some (g (j - a)) else none := by
  induction n with
  | zero => simp
  | succ n ih =>
    rw [List.range_succ, List.map_append, lastByte_append, ih]
    by_cases h : j = a + n
    · subst h; simp [lastByte_cons]
    · have hlast : lastByte [(a + n, g n)] j = none := lastByte_eq_none.2 (by simp; omega)
      simp only [List.map_cons, List.map_nil, hlast, Option.none_or]
      exact if_congr (by omega) rfl rfl

/-- Bytes placed from an offset. -/
theorem lastByte_placed (n a : Nat) (bs : List Byte) :
    lastByte (placed n bs) a = if n ≤ a ∧ a < n + bs.length then some (bs.getD (a - n) 0) else none :=
  lastByte_map_range _ _ _ _

theorem lastByte_placed_toBytes {m : Nat} (n k a : Nat) (v : BitVec m) :
    lastByte (placed n (toBytes v k)) a = if n ≤ a ∧ a < n + k then some (byteOf v (a - n)) else none := by
  rw [lastByte_placed]
  simp only [toBytes, List.length_map, List.length_range]
  split
  · have hlt : a - n < k := by omega
    simp [hlt]
  · rfl

/-! ### Gated stores -/

@[simp] theorem gatedByte_nil (b : Buf) (a : Nat) : gatedByte [] b a = none := rfl

theorem gatedByte_cons (e : Gated) (g : List Gated) (b : Buf) (a : Nat) :
    gatedByte (e :: g) b a = (gatedByte g b a).or (if e.buf = b then lastByte e.bytes a else none) := by
  rw [gatedByte]
  cases gatedByte g b a <;> rfl

theorem gatedByte_append (g h : List Gated) (b : Buf) (a : Nat) :
    gatedByte (g ++ h) b a = (gatedByte h b a).or (gatedByte g b a) := by
  induction g with
  | nil => simp
  | cons e g ih => rw [List.cons_append, gatedByte_cons, ih, gatedByte_cons, Option.or_assoc]

/-- An entry without the listed bytes of a buffer. -/
theorem lastByte_without (e : Gated) (b : Buf) (bs : List (Nat × Byte)) (a : Nat) :
    lastByte (e.without b bs).bytes a = if e.buf = b ∧ (lastByte bs a).isSome then none else lastByte e.bytes a := by
  unfold Gated.without
  split
  · next h =>
    rw [lastByte_filter (fun j => !(bs.any (fun d => d.1 == j))), lastByte_isSome]
    cases bs.any (fun c => c.1 == a) <;> simp [h]
  · next h => simp [h]

theorem gatedByte_without (g : List Gated) (b c : Buf) (bs : List (Nat × Byte)) (a : Nat) :
    gatedByte (g.map (fun e => e.without b bs)) c a = if c = b ∧ (lastByte bs a).isSome then none else gatedByte g c a := by
  induction g with
  | nil => simp
  | cons e g ih =>
    have hbuf : (e.without b bs).buf = e.buf := by unfold Gated.without; split <;> rfl
    rw [List.map_cons, gatedByte_cons, gatedByte_cons, ih, hbuf, lastByte_without]
    by_cases hc : e.buf = c
    · subst hc; split <;> simp
    · simp only [hc, if_false, Option.or_none]

section
variable (x : Unit) (b : Buf) (bs : List (Nat × Byte))

@[simp] theorem Unit.regs_bput : (x.bput b bs).regs = x.regs := by simp [Unit.bput]
@[simp] theorem Unit.flight_bput : (x.bput b bs).flight = x.flight := by simp [Unit.bput]
@[simp] theorem Unit.pc_bput : (x.bput b bs).pc = x.pc := by cases b <;> rfl
@[simp] theorem Unit.hstat_bput : (x.bput b bs).hstat = x.hstat := by cases b <;> rfl
@[simp] theorem Unit.gated_bput : (x.bput b bs).gated = x.gated.map (fun e => e.without b bs) := by simp [Unit.bput]
@[simp] theorem Unit.buf_bput (c : Buf) : (x.bput b bs).buf c = if c = b then mwriteEach (x.buf b) bs else x.buf c := by
  cases b <;> cases c <;> rfl

@[simp] theorem Unit.regs_store : (x.store b [bs]).regs = x.regs := by unfold Unit.store; split <;> simp
@[simp] theorem Unit.flight_store : (x.store b [bs]).flight = x.flight := by unfold Unit.store; split <;> simp
@[simp] theorem Unit.pc_store : (x.store b [bs]).pc = x.pc := by unfold Unit.store; split <;> simp
@[simp] theorem Unit.hstat_store : (x.store b [bs]).hstat = x.hstat := by unfold Unit.store; split <;> simp

theorem Unit.store_of_handler {x : Unit} (h : x.handler = true) : x.store b [bs] = x.bput b bs := by simp [Unit.store, h]
theorem Unit.store_of_gated {x : Unit} (h : x.handler = false) :
    x.store b [bs] = { x with gated := x.gated ++ [{ buf := b, bytes := bs }] } := by simp [Unit.store, h]
end

/-- Bytes written past the gated stores read as written. -/
theorem Unit.bget_bput {x : Unit} {b : Buf} (hwf : Memory.wf (x.buf b) = true) (bs : List (Nat × Byte)) (c : Buf) (a : Nat) :
    (x.bput b bs).bget c a = if c = b then (lastByte bs a).getD (x.bget b a) else x.bget c a := by
  simp only [Unit.bget, Unit.gated_bput, Unit.buf_bput, gatedByte_without]
  by_cases hc : c = b
  · subst hc
    simp only [if_true, true_and]
    rw [mget_mwriteEach a bs hwf]
    cases lastByte bs a <;> rfl
  · simp only [hc, false_and, if_false]

/-- A local store reads as done, gated or not. -/
theorem Unit.bget_store {x : Unit} {b : Buf} (hwf : x.handler = true → Memory.wf (x.buf b) = true) (bs : List (Nat × Byte))
    (c : Buf) (a : Nat) : (x.store b [bs]).bget c a = if c = b then (lastByte bs a).getD (x.bget b a) else x.bget c a := by
  cases h : x.handler with
  | true => rw [Unit.store_of_handler b bs h, Unit.bget_bput (hwf h)]
  | false =>
    have hbuf : ({ x with gated := x.gated ++ [{ buf := b, bytes := bs }] } : Unit).buf c = x.buf c := by cases c <;> rfl
    rw [Unit.store_of_gated b bs h, Unit.bget, hbuf]
    simp only [gatedByte_append, gatedByte_cons, gatedByte_nil, Option.none_or]
    by_cases hc : c = b
    · subst hc
      simp only [if_true]
      cases lastByte bs a <;> rfl
    · rw [if_neg hc, if_neg (Ne.symm hc), Option.none_or]
      rfl

/-- Settles O7: the store reads as done from its unit, and is all that changes. -/
theorem storeWritesItsBytes : Obligations.StoreWritesItsBytes := by
  intro b f o s h hea hwf
  let bs := placed (s.effective f o).toNat (toBytes (s.sval o.d) (accessBytes f))
  have hexec : exec (.st b f o) s = .next (s.modCur (fun x => x.store b [bs])) := by
    have hrun : execSt b f o s = .next (s.modCur (fun x => x.store b
        [placed (s.src.scalarAccess b f o).ea.toNat (toBytes (s.sval o.d) (s.src.scalarAccess b f o).size)])) := slotStep_runs h
    rwa [ea_scalarAccess, size_scalarAccess] at hrun
  refine ⟨_, hexec, (State.onlyFocus_refl s).modCur _, ?_, ?_, ?_, ?_, fun c a => ?_⟩ <;> rw [State.cur_modCur]
  · exact Unit.regs_store ..
  · exact Unit.flight_store ..
  · exact Unit.pc_store ..
  · exact Unit.hstat_store ..
  · rw [Unit.bget_store (fun hh => hwf hh b), lastByte_placed_toBytes]
    by_cases hc : c = b
    · subst hc
      simp only [if_true, true_and]
      split <;> rfl
    · simp [hc]

end Sys2Proof.Machine
end

/-! ## Marks and rollbacks

What a mark commits and shadows, and what an entry with a rollback restores (R84, R289, R291, R294): O18. -/

section
namespace Sys2Proof.Machine

theorem bitOf_setBit (w : Word) {b : Nat} (hb : b < 64) (i : Nat) : bitOf (setBit w b) i = (bitOf w i || decide (i = b)) := by
  simp only [bitOf, setBit, BitVec.getLsbD_or, BitVec.getLsbD_shiftLeft]
  by_cases h : i = b
  · subst h; simp [hb]
  · have hlt : ¬ i < b → ¬ i - b = 0 := by omega
    simp [h, BitVec.getLsbD_one]
    omega

/-- The buffers with the gated stores written hold what the unit read past them. -/
theorem Unit.mget_foldl_gated (b : Buf) (a : Nat) : ∀ (g : List Gated) {x : Unit}, x.BuffersCanonical →
    mget ((g.foldl (fun y e => y.setBuf e.buf (mwriteEach (y.buf e.buf) e.bytes)) x).buf b) a =
      (gatedByte g b a).getD (mget (x.buf b) a)
  | [], _, _ => rfl
  | e :: g, x, h => by
    have hset := h.setBuf e.buf (Memory.wf_mwriteEach e.bytes (h e.buf))
    rw [List.foldl_cons, Unit.mget_foldl_gated b a g hset, gatedByte_cons, Unit.buf_setBuf]
    by_cases hb : b = e.buf
    · subst hb
      rw [if_pos rfl, if_pos rfl, mget_mwriteEach a e.bytes (h e.buf)]
      cases gatedByte g e.buf a <;> rfl
    · rw [if_neg hb, if_neg (Ne.symm hb)]
      cases gatedByte g b a <;> rfl

/-- Committing the gated stores changes the buffers and frees the entries. -/
theorem Unit.commitGated_eq (x : Unit) : ∃ wb ab cb sb,
    x.commitGated = { x with wb := wb, ab := ab, cb := cb, sb := sb, gated := [] } := by
  have hfold (g : List Gated) : ∃ wb ab cb sb, g.foldl (fun y e => y.setBuf e.buf (mwriteEach (y.buf e.buf) e.bytes)) x =
      { x with wb := wb, ab := ab, cb := cb, sb := sb } := by
    induction g using List.reverseRecOn with
    | nil => exact ⟨_, _, _, _, rfl⟩
    | append_singleton g e ih =>
      obtain ⟨wb, ab, cb, sb, h⟩ := ih
      rw [List.foldl_append, h]
      obtain ⟨b, bs⟩ := e
      cases b <;> exact ⟨_, _, _, _, rfl⟩
  obtain ⟨wb, ab, cb, sb, h⟩ := hfold x.gated
  exact ⟨wb, ab, cb, sb, by rw [Unit.commitGated, h]⟩

theorem Unit.mget_commitGated {x : Unit} (h : x.BuffersCanonical) (b : Buf) (a : Nat) :
    mget (x.commitGated.buf b) a = x.bget b a := by
  rw [Unit.bget, ← Unit.mget_foldl_gated b a x.gated h]
  cases b <;> rfl

/-- Discarding commands changes the queues and the tags. -/
theorem Unit.discardCmds_eq (x : Unit) : ∃ tags q0 q1 mq,
    x.discardCmds = { x with tags := tags, q0 := q0, q1 := q1, mq := mq } := by
  have hfold {α : Type} (f : α → Nat) (l : List α) (y : Unit) :
      ∃ tags, l.foldl (fun x c => x.tagDone (f c)) y = { y with tags := tags } := by
    induction l generalizing y with
    | nil => exact ⟨_, rfl⟩
    | cons c l ih =>
      obtain ⟨tags, h⟩ := ih (y.tagDone (f c))
      exact ⟨tags, h⟩
  unfold Unit.discardCmds
  extract_lets gone follow y z
  obtain ⟨t1, h1⟩ := hfold (fun c => c.tag) gone x
  obtain ⟨t2, h2⟩ := hfold (fun m => m.o.tag.toNat) follow y
  have hy : y = { x with tags := t1 } := h1
  have hz : z = { x with tags := t2 } := h2.trans (by rw [hy])
  simp only [hz]
  exact ⟨_, _, _, _, rfl⟩

/-- Settles O18: a mark is the commit of the gated stores with the shadow taken, and a rollback is the shadow restored. -/
theorem markAndRollback : Obligations.MarkAndRollback := by
  refine ⟨⟨fun x hwf => ?_, fun u x s hu hf hsnap hb hh hd => ?_⟩, fun x c r v => ?_⟩
  · have hbuf (b : Buf) : x.commitMark.buf b = x.commitGated.buf b := by cases b <;> rfl
    refine ⟨rfl, fun b a => by rw [hbuf, Unit.mget_commitGated hwf], ?_⟩
    obtain ⟨wb, ab, cb, sb, h⟩ := x.commitGated_eq
    simp [Unit.commitMark, h]
  · have hm : (s.unit u).marks (s.unit u).fetch = true := by
      simp [Unit.marks, Bundle.mark, hb, hh, hd]
    show execRestartMark u s = _
    rw [execRestartMark, if_neg (by omega), if_pos hm, State.inIssue_of_some _ hsnap hf]
  · obtain ⟨tags, q0, q1, mq, h⟩ := x.discardCmds_eq
    simp [Unit.enterTrap, Unit.rollback, h, Unit.dropGated, bitOf_setBit, hsRolled]
    exact ⟨fun i _ hne he => absurd he hne, fun b => by cases b <;> rfl⟩

end Sys2Proof.Machine
end

/-! ## Atomics

An ATOM's request (R92, R165), the engine's access (R91, R164) and the reply (R93, R289): O10, O11 and O12. -/

section
namespace Sys2Proof.Machine

/-! ### The request -/

/-- The request that an ATOM sends to the engine of a home cluster. -/
def State.atomRequest (s : State) (op : AOp) (dbl : Bool) (o : SR) (t : Xlat) (home : Nat) : AtomReq :=
  { requester := requesterAt home s.focus, unit := s.focus, node := s.src.team, held := s.dieHeld (home / 8),
    id := if o.nw then none else some s.cur.serial, op := op, bytes := atomBytes dbl, addr := (t.loc (s.sval o.a).toNat).addr,
    cs := t.cs, v := s.sval o.b, cmp := s.sval o.d }

/-- A unit that has issued an ATOM. -/
def Unit.withAtom (x : Unit) (o : SR) : Unit :=
  { x with
    serial := x.serial + 1
    atoms := if o.nw then x.atoms
             else x.atoms ++ [{ reg := o.d.toNat, id := x.serial, serial := x.serial, handler := x.handler }] }

@[simp] theorem State.cluster_modCur (s : State) (f : Unit → Unit) (k : Nat) : (s.modCur f).cluster k = s.cluster k := rfl
@[simp] theorem State.cur_setCluster (s : State) (k : Nat) (c : ClusterSt) : (s.setCluster k c).cur = s.cur := rfl

theorem Unit.atoms_withAtom (x : Unit) (o : SR) : (x.withAtom o).atoms = x.atoms ++ (if o.nw then [] else
    [{ reg := o.d.toNat, id := x.serial, serial := x.serial, handler := x.handler }]) := by
  cases h : o.nw <;> simp [Unit.withAtom, h]

theorem exec_atomRow {row : AtomRow} (hrow : row ∈ atomRows) (dbl : Bool) (o : SR) (s : State) :
    exec (row.instr dbl o) s = atomIssue s (row.instr dbl o) row.op dbl o := by
  simp only [atomRows, List.mem_cons, List.not_mem_nil, or_false] at hrow
  rcases hrow with rfl | rfl | rfl | rfl | rfl | rfl | rfl | rfl | rfl | rfl <;> rfl

theorem atomIssue_of_sram {s : State} {i : Instr} {op : AOp} {dbl : Bool} {o : SR} {t : Xlat} {home : Nat} (h : s.runs i)
    (ht : s.walkSegment s.src.card.aspace (s.sval o.a).toNat = some t) (hp : t.place = .sram home) :
    atomIssue s i op dbl o = .next ((s.setCluster home { s.cluster home with
      reqs := (s.cluster home).reqs ++ [s.atomRequest op dbl o t home] }).modCur (fun x => x.withAtom o)) := by
  rw [atomIssue, slotStep_runs h]
  unfold State.sval at ht
  simp only [ht, hp]
  rfl

/-- Settles O10: the request stands in the engine's list, and the unit counts it. -/
theorem atomSendsItsRequest : Obligations.AtomSendsItsRequest := by
  intro row hrow dbl o s x home h hx hp
  refine ⟨_, s.atomRequest row.op dbl o x home, (exec_atomRow hrow dbl o s).trans (atomIssue_of_sram h hx hp), ?_⟩
  simp only [State.cur_modCur, State.unit_modCur, State.cluster_modCur, State.cluster_setCluster, State.cur_setCluster]
  exact ⟨rfl, rfl, by rw [if_pos trivial], rfl, rfl, rfl, rfl, rfl, rfl, rfl, s.cur.atoms_withAtom o, rfl,
    fun v hv => if_neg hv, fun k hk => if_neg hk⟩

/-! ### The reply -/

theorem exec_atomReply_of_unique {u id k : Nat} {r : AtomReply} {s : State} (hu : u < unitCount) (hk : k < 32)
    (huniq : ∀ j < 32, ∀ p ∈ (s.cluster j).replies, p.unit = u → p.id = id → j = k ∧ p = r)
    (hr : r ∈ (s.cluster k).replies) (hru : r.unit = u) (hrid : r.id = id) (hway : s.wayOpen (k / 8) (dieAt u) r.addr = true) :
    exec (.atomReply u id) s = .next ((s.setCluster k { s.cluster k with replies := (s.cluster k).replies.erase r }).modContext
      r.node u (fun x => x.takeReply id r.v)) := by
  have hmine : (r.unit == u && r.id == id) = true := by simp [hru, hrid]
  have hcluster : (List.range 32).find? (fun k => (s.cluster k).replies.any (fun r => r.unit == u && r.id == id)) = some k := by
    cases hf : (List.range 32).find? (fun k => (s.cluster k).replies.any (fun r => r.unit == u && r.id == id)) with
    | none => exact absurd (List.any_eq_true.2 ⟨r, hr, hmine⟩) (List.find?_eq_none.1 hf k (List.mem_range.2 hk))
    | some j =>
      have hany := List.find?_some hf
      obtain ⟨p, hp, hpu⟩ := List.any_eq_true.1 hany
      simp only [Bool.and_eq_true, beq_iff_eq] at hpu
      rw [(huniq j (List.mem_range.1 (List.mem_of_find?_eq_some hf)) p hp hpu.1 hpu.2).1]
  have hreply : (s.cluster k).replies.find? (fun r => r.unit == u && r.id == id) = some r := by
    cases hf : (s.cluster k).replies.find? (fun r => r.unit == u && r.id == id) with
    | none => exact absurd hmine (List.find?_eq_none.1 hf r hr)
    | some p =>
      have hpu := List.find?_some hf
      simp only [Bool.and_eq_true, beq_iff_eq] at hpu
      rw [(huniq k hk p (List.mem_of_find?_eq_some hf) hpu.1 hpu.2).2]
  show execAtomReply u id s = _
  unfold execAtomReply
  rw [if_neg (by omega)]
  simp [hcluster, hreply, hway]

section
variable {x : Unit} {id : Nat} {v : Word} {a : PendAtom}

theorem Unit.takeReply_of_waits {b : Bank} (ha : x.atoms.find? (fun p => p.id == id) = some a) (hb : x.bank = some b)
    (hx : x.handler = true) (hh : a.handler = false) :
    x.takeReply id v = { x with bank := some { b with replies := b.replies ++ [(a.reg, v)] } } := by
  simp [Unit.takeReply, ha, hb, hx, hh]

theorem Unit.takeReply_of_writes (ha : x.atoms.find? (fun p => p.id == id) = some a)
    (h : x.bank = none ∨ x.handler = false ∨ a.handler = true) :
    x.takeReply id v = { x.writeReply a.reg a.serial v with atoms := x.atoms.filter (fun p => p.id != id) } := by
  unfold Unit.takeReply
  rw [ha]
  cases hb : x.bank with
  | none => rfl
  | some b =>
    have hno : ¬ (x.handler ∧ !a.handler) := by
      rcases h with h | h | h
      · exact absurd h (by simp [hb])
      · simp [h]
      · simp [h]
    exact if_neg hno
end

/-- Settles O12: the reply is taken by the unit, and the hand-over changes the one unit of the buffer. -/
theorem repliesAndHandovers : Obligations.RepliesAndHandovers := by
  refine ⟨fun u id k r a s hu hk huniq hr hru hrid hnode hway ha => ⟨fun hwrites => ?_, fun b hb hh hah => ?_⟩,
    fun owner x m since s ho hx hown hspan => ⟨_, ?_, rfl⟩⟩
  · have hexec := exec_atomReply_of_unique hu hk huniq hr hru hrid hway
    rw [hnode] at hexec
    refine ⟨_, hexec, ?_⟩
    simp only [State.modContext, State.unit_modUnit, State.unit_setCluster, if_true, Unit.takeReply_of_writes ha hwrites,
      Unit.writeReply, tget_tput]
    refine ⟨trivial, fun n hn => if_neg hn, fun p hp => ?_, fun v hv => if_neg hv⟩
    simpa using (List.mem_filter.1 hp).2
  · have hexec := exec_atomReply_of_unique hu hk huniq hr hru hrid hway
    rw [hnode] at hexec
    refine ⟨_, hexec, ?_⟩
    simp only [State.modContext, State.unit_modUnit, State.unit_setCluster, if_true, Unit.takeReply_of_waits ha hb hh hah]
    exact ⟨trivial, trivial⟩
  · show execXferHandover owner x s = _
    unfold execXferHandover
    rw [if_neg (by omega), if_pos hx]
    simp only [hown]
    rw [if_neg (by simpa using hspan)]
    rfl

end Sys2Proof.Machine
end

/-! ## The atomic engine

The lines that an engine holds (R91) and one request applied to its word (R92, R93, R164): O11. -/

section
namespace Sys2Proof.Machine

/-! ### Lines held -/

theorem find_tput_ne {α : Type} {n m : Nat} (h : m ≠ n) (v : α) :
    ∀ t : Tbl α, (tput t n v).find? (fun p => p.1 == m) = t.find? (fun p => p.1 == m)
  | [] => by simp [tput, Ne.symm h]
  | (k, w) :: t => by
    unfold tput
    split_ifs with h1 h2
    · rw [List.find?_cons_of_neg (by simp [Ne.symm h])]
    · rw [List.find?_cons_of_neg (by simp [Ne.symm h]), List.find?_cons_of_neg (by simp [← h2, Ne.symm h])]
    · rw [List.find?_cons, List.find?_cons, find_tput_ne h v t]

theorem find_of_lt {α : Type} {n : Nat} {t : Tbl α} (h : ∀ p ∈ t, n < p.1) : t.find? (fun p => p.1 == n) = none :=
  List.find?_eq_none.2 fun p hp => by simpa using (h p hp).ne'

/-- The byte at an address of a cluster whose engine holds some lines over its memory. -/
def engineByte (ls : Tbl (List Byte)) (m : Memory) (a : Nat) : Byte :=
  match ls.find? (fun l => l.1 == a / 64) with
  | some l => l.2.getD (a % 64) 0
  | none => mget m a

theorem State.sramGet_eq (s : State) (k a : Nat) : s.sramGet k a = engineByte (s.cluster k).lines (s.sramOf k) a := by
  unfold State.sramGet engineByte State.lineOf
  cases (s.cluster k).lines.find? (fun l => l.1 == a / 64) <;> rfl

theorem engineByte_tput {ls : Tbl (List Byte)} (h : tsorted ls = true) (m : Memory) (n a : Nat) (bs : List Byte) :
    engineByte (tput ls n bs) m a = if a / 64 = n then bs.getD (a % 64) 0 else engineByte ls m a := by
  unfold engineByte
  by_cases ha : a / 64 = n
  · rw [if_pos ha, ha, find_tput_same n bs ls h]
  · rw [if_neg ha, find_tput_ne ha]

/-- A line fetched holds what the memory does. -/
theorem getD_line (m : Memory) {n a : Nat} (h : a / 64 = n) : (mread m (n * 64) 64).getD (a % 64) 0 = mget m a := by
  have hlt : a % 64 < 64 := Nat.mod_lt _ (by omega)
  have ha : n * 64 + a % 64 = a := by omega
  simp [mread, hlt, ha]

/-- The oldest line written back reads as it was held. -/
theorem engineByte_evict {l : Nat} {bs : List Byte} {ls : Tbl (List Byte)} {m : Memory} (hs : tsorted ((l, bs) :: ls) = true)
    (hb : bs.length = 64) (hm : Memory.wf m = true) (a : Nat) :
    engineByte ls (mwrite m (64 * l) bs) a = engineByte ((l, bs) :: ls) m a := by
  obtain ⟨hlt, -⟩ := tsorted_cons.1 hs
  unfold engineByte
  rw [mget_mwrite a bs (64 * l) hm, hb]
  by_cases ha : l = a / 64
  · have hoff : a - 64 * l = a % 64 := by omega
    rw [List.find?_cons_of_pos (by simp [ha]), ← ha, find_of_lt hlt, if_pos (by omega), hoff]
  · rw [List.find?_cons_of_neg (by simp [ha])]
    split
    · rfl
    · rw [if_neg (by omega)]

section
variable {s : State} {k : Nat}

/-- Holding a line changes no byte's value. -/
theorem State.sramGet_holdLine (hw : (s.cluster k).LinesWhole) (hm : Memory.wf (s.sramOf k) = true) (a j : Nat) :
    (s.holdLine k a).sramGet k j = s.sramGet k j := by
  unfold State.holdLine
  split
  · rfl
  · next hno =>
    have hnone : j / 64 = a / 64 → engineByte (s.cluster k).lines (s.sramOf k) j = mget (s.sramOf k) j := fun h => by
      have hfind : (s.cluster k).lines.find? (fun l => l.1 == a / 64) = none :=
        Option.map_eq_none_iff.1 (Option.not_isSome_iff_eq_none.1 hno)
      rw [engineByte, h, hfind]
    have hfetch {ls : Tbl (List Byte)} (hs : tsorted ls = true) {m : Memory}
        (hls : engineByte ls m j = engineByte (s.cluster k).lines (s.sramOf k) j) :
        engineByte (tput ls (a / 64) (mread (s.sramOf k) (a / 64 * 64) 64)) m j =
          engineByte (s.cluster k).lines (s.sramOf k) j := by
      rw [engineByte_tput hs]
      split
      · next h => rw [getD_line _ h, hnone h]
      · exact hls
    rw [State.sramGet_eq, State.sramGet_eq]
    extract_lets c bytes
    split
    · next l bs rest e =>
      have hs : tsorted ((l, bs) :: rest) = true := e ▸ hw.1
      have hb : bs.length = 64 := hw.2 (l, bs) (by simp [c] at e; simp [e])
      split
      · simpa [c, bytes, State.sramOf] using hfetch hw.1 rfl
      · have hev := engineByte_evict hs hb hm j
        have he : (s.cluster k).lines = (l, bs) :: rest := e
        simpa [bytes, State.sramOf] using hfetch (tsorted_cons.1 hs).2 (hev.trans (by rw [he]))
    · next e =>
      have he : (s.cluster k).lines = [] := e
      simpa [bytes, State.sramOf, tput] using hfetch (ls := []) rfl (by rw [he]; rfl)

end

/-! ### The operations -/

theorem apply_eq_atomNew (op : AOp) {w : Nat} (m v c : BitVec w) : op.apply w m v c = atomNew op w m v c := by
  cases op with
  | add => simp [AOp.apply, atomNew, BitVec.ofNat_add]
  | min =>
    rcases lt_or_ge m.toNat v.toNat with h | h
    · simp [AOp.apply, atomNew, BitVec.ult, h, min_eq_left h.le]
    · simp [AOp.apply, atomNew, BitVec.ult, h.not_gt, min_eq_right h]
  | max =>
    rcases lt_or_ge m.toNat v.toNat with h | h
    · simp [AOp.apply, atomNew, BitVec.ult, h, max_eq_right h.le]
    · simp [AOp.apply, atomNew, BitVec.ult, h.not_gt, max_eq_left h]
  | mins =>
    rcases lt_or_ge m.toInt v.toInt with h | h
    · simp [AOp.apply, atomNew, BitVec.slt, h, min_eq_left h.le]
    · simp [AOp.apply, atomNew, BitVec.slt, h.not_gt, min_eq_right h]
  | maxs =>
    rcases lt_or_ge m.toInt v.toInt with h | h
    · simp [AOp.apply, atomNew, BitVec.slt, h, max_eq_right h.le]
    · simp [AOp.apply, atomNew, BitVec.slt, h.not_gt, max_eq_left h]
  | cas => simp only [AOp.apply, atomNew, BitVec.toNat_inj]
  | _ => rfl

/-- Byte `i` of a number's bytes. -/
theorem getD_natBytes {w : Nat} (x : BitVec w) {n i : Nat} (hi : i < n) : (natBytes n x.toNat).getD i 0 = byteOf x i := by
  apply BitVec.eq_of_toNat_eq
  simp [natBytes, hi, byteOf, Nat.shiftRight_eq_div_pow, pow_mul]

/-! ### One request -/

/-- A line with bytes written from an offset. -/
theorem getD_splice {l bs : List Byte} {o : Nat} (hl : l.length = 64) (ho : o + bs.length ≤ 64) {i : Nat} (hi : i < 64) :
    ((l.take o ++ bs ++ l.drop (o + bs.length)).take 64).getD i 0 =
      if o ≤ i ∧ i < o + bs.length then bs.getD (i - o) 0 else l.getD i 0 := by
  have hto : (l.take o).length = o := by simp [hl]; omega
  rw [List.getD_eq_getElem?_getD, List.getElem?_take_of_lt hi]
  by_cases h1 : i < o
  · rw [if_neg (by omega), List.append_assoc, List.getElem?_append_left (by omega), List.getElem?_take_of_lt h1,
      List.getD_eq_getElem?_getD]
  · by_cases h2 : i < o + bs.length
    · rw [if_pos ⟨by omega, h2⟩, List.getElem?_append_left (by simp; omega), List.getElem?_append_right (by omega), hto,
        List.getD_eq_getElem?_getD]
    · rw [if_neg (by omega), List.getElem?_append_right (by simp; omega), List.getElem?_drop, List.getD_eq_getElem?_getD]
      congr 2
      simp
      omega

section
variable {s : State} {k : Nat}

/-- The line that an engine holds at an address gives its bytes. -/
theorem State.getD_lineOf {a j : Nat} {l : List Byte} (hl : s.lineOf k a = some l) (hj : j / 64 = a / 64) :
    l.getD (j % 64) 0 = s.sramGet k j := by
  have hlj : s.lineOf k j = some l := by rw [← hl, State.lineOf, State.lineOf, hj]
  simp [State.sramGet, hlj]

/-- Holding a line changes the lines of the engine, which stay whole. -/
theorem State.cluster_holdLine (hw : (s.cluster k).LinesWhole) (a : Nat) : ∃ ls,
    (s.holdLine k a).cluster k = { s.cluster k with lines := ls } ∧ tsorted ls = true ∧ ∀ l ∈ ls, l.2.length = 64 := by
  unfold State.holdLine
  split
  · exact ⟨_, rfl, hw⟩
  · extract_lets c bytes
    have hb : bytes.length = 64 := mread_length ..
    split
    · next l bs rest e =>
      have hrest : tsorted c.lines = true ∧ ∀ l ∈ c.lines, l.2.length = 64 := hw
      rw [e] at hrest
      split
      · exact ⟨tput c.lines (a / 64) bytes, by rw [State.cluster_setCluster, if_pos rfl], hw.put _ hb⟩
      · exact ⟨tput rest (a / 64) bytes, by rw [State.cluster_setCluster, if_pos rfl],
          tsorted_tput _ _ (tsorted_cons.1 hrest.1).2, forall_tput (fun p hp => hrest.2 p (by simp [hp])) hb⟩
    · exact ⟨[(a / 64, bytes)], by rw [State.cluster_setCluster, if_pos rfl], rfl, by simp [hb]⟩

@[simp] theorem State.units_holdLine (a : Nat) : (s.holdLine k a).units = s.units := by
  unfold State.holdLine
  split
  · rfl
  · extract_lets c bytes
    split
    · split <;> rfl
    · rfl

/-- An engine with a line put in its store. -/
def State.putLine (s : State) (k a : Nat) (l : List Byte) : State :=
  s.setCluster k { s.cluster k with lines := tput (s.cluster k).lines (a / 64) l }

theorem State.length_lineOf_holdLine {a : Nat} {l : List Byte} (hw : (s.cluster k).LinesWhole)
    (hl : (s.holdLine k a).lineOf k a = some l) : l.length = 64 := by
  obtain ⟨ls, hc, hls⟩ := State.cluster_holdLine hw a
  exact State.length_lineOf (by rw [hc]; exact hls) hl

theorem State.applyAtom_of_raw {r : AtomReq} {l : List Byte} (hw : (s.cluster k).LinesWhole) (hm : Memory.wf (s.sramOf k) = true)
    (h : r.cs = 0 ∨ s.isCompressed { place := .sram k, addr := r.addr } = false)
    (hl : (s.holdLine k r.addr).lineOf k r.addr = some l) (hle : r.addr % 64 + r.bytes ≤ 64) :
    let o := r.addr % 64
    let old := natOfBytes ((List.range r.bytes).map (fun i => s.sramGet k (r.addr + i)))
    let w := 8 * r.bytes
    let new := atomNew r.op w (BitVec.ofNat w old) (r.v.setWidth w) (r.cmp.setWidth w)
    s.applyAtom k r = ((s.holdLine k r.addr).putLine k r.addr
      ((l.take o ++ natBytes r.bytes new.toNat ++ l.drop (o + r.bytes)).take 64)).atomReply k r (BitVec.ofNat 64 old) := by
  have hd : s.demote { place := .sram k, addr := r.addr } r.cs false = some s := by
    rw [State.demote, if_pos (by simpa using h)]
  rw [State.applyAtom, hd]
  have hlen := State.length_lineOf_holdLine hw hl
  have hold : (l.drop (r.addr % 64)).take r.bytes = (List.range r.bytes).map (fun i => s.sramGet k (r.addr + i)) := by
    refine List.ext_getElem (by simp [hlen]; omega) fun i h1 h2 => ?_
    have hi : i < r.bytes := by simpa using h2
    have hb := State.getD_lineOf hl (j := r.addr + i) (by omega)
    rw [State.sramGet_holdLine hw hm, show (r.addr + i) % 64 = r.addr % 64 + i by omega] at hb
    have hlt : r.addr % 64 + i < l.length := by omega
    simpa [hlt] using hb
  simp only [hl, Option.getD_some, apply_eq_atomNew, hold]
  rfl

@[simp] theorem State.sramGet_atomReply (r : AtomReq) (v : Word) (a : Nat) : (s.atomReply k r v).sramGet k a = s.sramGet k a := by
  simp [State.sramGet_eq, State.atomReply, State.sramOf]

theorem State.sramGet_putLine (hs : tsorted (s.cluster k).lines = true) (a j : Nat) (l : List Byte) :
    (s.putLine k a l).sramGet k j = if j / 64 = a / 64 then l.getD (j % 64) 0 else s.sramGet k j := by
  rw [State.sramGet_eq, State.sramGet_eq, ← engineByte_tput hs]
  simp [State.putLine, State.sramOf]

/-- The word of a line spliced in is the word that is read, and every other byte is as it was. -/
theorem State.sramGet_putLine_splice {a n : Nat} {l bs : List Byte} (hs : tsorted (s.cluster k).lines = true)
    (hl : s.lineOf k a = some l) (hlen : l.length = 64) (hn : bs.length = n) (hle : a % 64 + n ≤ 64) (j : Nat) :
    (s.putLine k a ((l.take (a % 64) ++ bs ++ l.drop (a % 64 + n)).take 64)).sramGet k j =
      if a ≤ j ∧ j < a + n then bs.getD (j - a) 0 else s.sramGet k j := by
  rw [State.sramGet_putLine hs]
  split
  · next hj =>
    subst hn
    rw [getD_splice hlen hle (Nat.mod_lt _ (by omega)), State.getD_lineOf hl hj, show j % 64 - a % 64 = j - a by omega]
    exact if_congr (by omega) rfl rfl
  · rw [if_neg (by omega)]
end

theorem exec_atomApply_of_granted {s : State} {k q : Nat} {r : AtomReq} (hk : k < 32) (hshed : s.isShed (k / 8) = false)
    (hdie : s.diePhase (k / 8) ≤ 2) (hdusk : s.duskPhase ≤ 1) (hg : (s.cluster k).granted = some q)
    (hr : (s.cluster k).firstReq q = some r) (hway : s.wayOpen (dieAt r.unit) (k / 8) r.addr = true) :
    exec (.atomApply k q) s = .next ((s.setCluster k { s.cluster k with
      reqs := (s.cluster k).reqs.erase r, grantFrom := (q + 1) % 18 }).applyAtom k r) := by
  show execAtomApply k q s = _
  unfold execAtomApply
  rw [if_neg (by omega)]
  dsimp only
  rw [if_neg (by simp [hg, hshed]; omega), hr]
  simp [hway]

/-- Settles O11: the engine puts the word's line, spliced, in its store, and replies. -/
theorem atomicEngineApplies : Obligations.AtomicEngineApplies := by
  intro k q r s hk hshed hdie hdusk hraw hg hr hway hbytes halign hw hm old w new
  have hexec := exec_atomApply_of_granted hk hshed hdie hdusk hg hr hway
  set s1 := s.setCluster k { s.cluster k with reqs := (s.cluster k).reqs.erase r, grantFrom := (q + 1) % 18 } with hs1
  have hc1 : s1.cluster k = { s.cluster k with reqs := (s.cluster k).reqs.erase r, grantFrom := (q + 1) % 18 } := by
    rw [hs1, State.cluster_setCluster, if_pos rfl]
  have hw1 : (s1.cluster k).LinesWhole := by rw [hc1]; exact hw
  have hget (a : Nat) : s1.sramGet k a = s.sramGet k a := by
    rw [State.sramGet_eq, State.sramGet_eq, hc1]
    rfl
  obtain ⟨l, hl⟩ := Option.isSome_iff_exists.1 (State.lineOf_holdLine hw1 r.addr)
  have hlen := State.length_lineOf_holdLine hw1 hl
  have hle : r.addr % 64 + r.bytes ≤ 64 := by rcases hbytes with h | h <;> rw [h] at halign ⊢ <;> omega
  have happly := State.applyAtom_of_raw hw1 hm hraw hl hle
  simp only [hget] at happly
  obtain ⟨ls, hcl, hls⟩ := State.cluster_holdLine hw1 r.addr
  rw [happly] at hexec
  refine ⟨_, hexec, fun i hi => ?_, fun a ha => ?_, ?_, ?_, ?_, ?_⟩
  · rw [State.sramGet_atomReply, State.sramGet_putLine_splice (by rw [hcl]; exact hls.1) hl hlen (natBytes_length ..) hle,
      if_pos (by omega), show r.addr + i - r.addr = i by omega, getD_natBytes _ hi]
  · rw [State.sramGet_atomReply, State.sramGet_putLine_splice (by rw [hcl]; exact hls.1) hl hlen (natBytes_length ..) hle,
      if_neg (by omega), State.sramGet_holdLine hw1 hm, hget]
  · simp only [State.atomReply, State.putLine, State.cluster_setCluster, if_true, hcl, hc1]
    cases r.id with
    | none => exact (List.append_nil _).symm
    | some id => rfl
  · simp [State.atomReply, State.putLine, hcl, hc1]
  · simp [State.atomReply, State.putLine, hcl, hc1]
  · exact State.units_holdLine ..

end Sys2Proof.Machine
end

/-! ## Issue of matrix and copy-slot commands

What a new command holds (R221, R244), and the queue, mailbox and tag that it enters (R82, R126, R241, R256, R261, R265): O32. -/

section
namespace Sys2Proof.Machine

/-! ### New commands -/

@[simp] theorem tput_tput {α : Type} (i : Nat) (v w : α) : ∀ t : Tbl α, tput (tput t i v) i w = tput t i w
  | [] => by simp [tput]
  | (k, x) :: t => by
    by_cases h1 : i < k
    · simp [tput, h1]
    · by_cases h2 : i = k
      · simp [tput, h2]
      · simp [tput, h1, h2, tput_tput i v w t]

section
variable (s : State)

theorem State.modCur_congr {f g : Unit → Unit} (h : f s.cur = g s.cur) : s.modCur f = s.modCur g := by
  simp only [State.modCur, State.modUnit]
  exact congrArg (s.setUnit s.focus) h

theorem State.modCur_modCur (f g : Unit → Unit) : (s.modCur f).modCur g = s.modCur (fun x => g (f x)) := by
  have hcur : (s.modCur f).cur = f s.cur := s.cur_modCur f
  simp only [State.cur] at hcur
  simp only [State.modCur, State.modUnit, State.setUnit] at hcur ⊢
  rw [hcur, tput_tput]

/-- What the slots of a bundle read keeps what a change of the unit keeps. -/
theorem State.src_modCur {α : Type} (p : Unit → α) {f : Unit → Unit} (h : ∀ x, p (f x) = p x) :
    p (s.modCur f).src = p s.src := by
  unfold State.src
  rw [State.modCur_issue, State.cur_modCur]
  cases s.issue.snap with
  | none => exact h _
  | some y => rfl

end

/-- The command that a matrix instruction makes. -/
def State.newMatrix (s : State) (serial : Nat) (var : MVar) (o : MOps) (stg : List Word) (after : Option Nat) : MCmd :=
  { serial := serial, pc := s.src.pc, var := var, o := o, stg := stg, fcsr := s.src.regs.fcsr,
    scales := s.src.scales, scaleSer := s.src.scaleSer, bundle := s.src.serial,
    old := if after.isSome then [] else s.bundleOld, after := after, follow := after.isSome,
    handler := s.src.handler, started := none, opsRead := false, level := 0, replays := 0, record := none }

theorem State.matrixPush_eq (s : State) (var : MVar) (o : MOps) (stg : List Word) (after : Option Nat) :
    s.matrixPush var o stg after = s.modCur (fun x => x.withMatrix (s.newMatrix s.cur.serial var o stg after)) :=
  s.modCur_congr rfl

theorem stagingCount_le (var : MVar) (acc : BitVec 2) : stagingCount var.num acc ≤ 5 := by
  cases var <;> simp [stagingCount, MVar.num] <;> split <;> omega

/-- A new matrix command holds its fields and the staging registers from its set on. -/
theorem State.isNew_newMatrix (s : State) (serial : Nat) (var : MVar) (o : MOps) (after : Option Nat) :
    (s.newMatrix serial var o (s.src.matrixStaging var.num o) after).isNew s var o := by
  refine ⟨rfl, rfl, rfl, rfl, rfl, rfl, rfl, rfl, rfl, ?_, fun i hi => ?_⟩
  · exact (List.length_take_le ..).trans (stagingCount_le var o.acc)
  · simp only [State.newMatrix, Unit.matrixStaging, Unit.mgs] at hi ⊢
    simp only [List.length_take, List.length_drop, List.length_map, List.length_range, lt_min_iff] at hi
    have h16 : o.set.toNat + i < 16 := by omega
    simp [hi.1, h16]

theorem Unit.enqueue_eq (x : Unit) (c : CCmd) :
    ({ x.tagIssue c.tag with serial := x.serial + 1 } : Unit).enqueue c = x.withCopy c := by
  unfold Unit.enqueue Unit.withCopy
  cases c.engine <;> rfl

theorem State.copyPush_eq (s : State) (c : CCmd) : s.copyPush c = s.modCur (fun x => x.withCopy c) :=
  s.modCur_congr (Unit.enqueue_eq _ c)

theorem State.isNew_newCommand (s : State) (i : Instr) (e : Engine) (o : COps) : (s.newCommand i e o).isNew s i e o := by
  refine ⟨rfl, rfl, rfl, rfl, rfl, rfl, rfl, ?_, fun j hj => ?_⟩
  · simp [State.newCommand, Unit.block]
  · simp [State.newCommand, Unit.block, hj]

/-! ### The instructions -/

theorem exec_matrixRow {row : (MOps → Instr) × MVar} (hrow : row ∈ matrixRows) (o : MOps) (s : State) :
    exec (row.1 o) s = matrixIssue s (row.1 o) row.2 o := by
  simp only [matrixRows, List.mem_cons, List.not_mem_nil, or_false] at hrow
  rcases hrow with rfl | rfl | rfl | rfl | rfl | rfl | rfl <;> rfl

theorem exec_copyRow {row : Engine → COps → Instr} (hrow : row ∈ copyRows) (e : Engine) (o : COps) (s : State) :
    exec (row e o) s = copyIssue s (row e o) e o := by
  simp only [copyRows, List.mem_cons, List.not_mem_nil, or_false] at hrow
  rcases hrow with rfl | rfl | rfl | rfl | rfl | rfl | rfl | rfl | rfl | rfl <;> rfl

/-- The command of an SCLD: from a tile buffer it has read its bytes. -/
def State.newScld (s : State) (e : Engine) (o : COps) : CCmd :=
  if o.from < 4 then
    { s.newCommand (.scld e o) e o with
      phase := .moved, old := []
      got := [(0, s.src.bread (bufOf o.from) (field (sreg (s.src.block o) 0) 0 20).toNat 1024)] }
  else s.newCommand (.scld e o) e o

theorem State.isNew_newScld (s : State) (e : Engine) (o : COps) : (s.newScld e o).isNew s (.scld e o) e o := by
  unfold State.newScld
  split <;> exact s.isNew_newCommand ..

theorem exec_scld_queued {e : Engine} {o : COps} {s : State} (h : s.runs (.scld e o)) (hf : ¬ o.from < 4) :
    exec (.scld e o) s = .next (s.modCur (fun x => x.withCopy (s.newScld e o))) := by
  have hrun : execScld e o s = _ := slotStep_runs h
  rw [← State.copyPush_eq, State.newScld, if_neg hf]
  rw [if_neg hf] at hrun
  exact hrun

theorem exec_scld_local {e : Engine} {o : COps} {s : State} (h : s.runs (.scld e o)) (hf : o.from < 4) :
    exec (.scld e o) s = .next (s.modCur (fun x => { x with
      serial := x.serial + 1, tags := tput x.tags (s.newScld e o).tag (tget 0 x.tags (s.newScld e o).tag + 1),
      sclds := x.sclds ++ [s.newScld e o] })) := by
  have hrun : execScld e o s = _ := slotStep_runs h
  rw [State.newScld, if_pos hf]
  rw [if_pos hf] at hrun
  exact hrun

theorem exec_mail {i : Instr} {e : Engine} {o : COps} {s : State} (hi : i = .coll e o ∨ i = .repart e o) (h : s.runs i) :
    exec i s = .next (s.modCur (fun x => { x.withCopy (s.newCommand i e o) with
      mail := x.mail ++ [{ serial := s.cur.serial, pc := s.src.pc, tag := o.tag.toNat, coll := o.flags.toNat % 4 }] })) := by
  have hexec : exec i s = mailIssue s i e o := by rcases hi with rfl | rfl <;> rfl
  have hcoll : (field o.flags 0 2).toNat = o.flags.toNat % 4 := by simp [field]
  rw [hexec, mailIssue, slotStep_runs h]
  simp only [State.copyPush_eq, State.modCur_modCur, hcoll]
  rfl

theorem MCmd.isNew.of_modCur {m : MCmd} {s : State} {f : Unit → Unit} {v : MVar} {o : MOps} (hpc : ∀ x, (f x).pc = x.pc)
    (hregs : ∀ x, (f x).regs = x.regs) (hscales : ∀ x, (f x).scales = x.scales) (h : m.isNew (s.modCur f) v o) :
    m.isNew s v o := by
  have hp := s.src_modCur Unit.pc hpc
  have hr := s.src_modCur Unit.regs hregs
  have hs := s.src_modCur Unit.scales hscales
  simpa only [MCmd.isNew, hp, hr, hs] using h

/-- A CPYM queues the command, and behind it the matrix command that its header holds. -/
theorem exec_cpym {row : (MOps → Instr) × MVar} (hrow : row ∈ matrixRows.take 4) {e : Engine} {o : COps} {m0 : MOps}
    {s : State} (h : s.runs (.cpym e o)) (hdec : followOn (s.src.block o) = .ok (row.1 m0)) :
    let c := s.newCommand (.cpym e o) e o
    let t := s.modCur (fun x => x.withCopy c)
    exec (.cpym e o) s = .next (t.modCur (fun x => x.withMatrix
      (t.newMatrix (s.cur.serial + 1) row.2 m0 (t.src.matrixStaging row.2.num m0) (some s.cur.serial)))) := by
  intro c t
  have hserial : t.cur.serial = s.cur.serial + 1 := by simp only [t, State.cur_modCur]; rfl
  have hmgs : t.src.mgs = s.src.mgs := s.src_modCur Unit.mgs fun _ => rfl
  have hrun : execCpym e o s = _ := slotStep_runs h
  have hstg : (s.newCommand (.cpym e o) e o).stg = s.src.block o := rfl
  simp only [hstg, State.copyPush_eq, State.matrixPush_eq] at hrun
  rw [← hserial, Unit.matrixStaging, hmgs]
  simp only [matrixRows, List.take_succ_cons, List.take_zero, List.mem_cons, List.not_mem_nil, or_false] at hrow
  rcases hrow with rfl | rfl | rfl | rfl <;> rw [hdec] at hrun <;> exact hrun

/-- Settles O32: each instruction is its queue's push. -/
theorem commandsEnterTheirQueues : Obligations.CommandsEnterTheirQueues := by
  refine ⟨fun row hrow o s h => ?_, fun row hrow e o s h => ?_, fun e o s h => ?_, fun i e o s hi h => ?_,
    fun row hrow e o m0 s h hdec => ?_⟩
  · refine ⟨s.newMatrix s.cur.serial row.2 o (s.src.matrixStaging row.2.num o) none, ?_, s.isNew_newMatrix .., rfl, rfl⟩
    rw [exec_matrixRow hrow, matrixIssue, slotStep_runs h, State.matrixPush_eq]
  · refine ⟨s.newCommand (row e o) e o, ?_, s.isNew_newCommand .., rfl⟩
    rw [exec_copyRow hrow, copyIssue, slotStep_runs h, State.copyPush_eq]
  · refine ⟨s.newScld e o, s.isNew_newScld e o, ?_, fun hf => ⟨exec_scld_queued h (by omega), ?_⟩,
      fun hf => ⟨exec_scld_local h hf, ?_⟩⟩
    · unfold State.newScld; split <;> rfl
    · rw [State.newScld, if_neg (by omega)]; rfl
    · rw [State.newScld, if_pos hf]
      have hoff : (field (sreg (s.src.block o) 0) 0 20).toNat = ((s.src.block o).getD 0 0).toNat % 2 ^ 20 := by
        simp [field, sreg]
      rw [hoff]
      exact ⟨rfl, rfl⟩
  · exact ⟨s.newCommand i e o, exec_mail hi h, s.isNew_newCommand .., rfl⟩
  · have hf : followOn (s.src.block o) = .ok (row.1 m0) := by
      rw [← hdec, BitVec.setWidth_eq_extractLsb' (w := 32) (by omega)]
      simp [followOn, field, sreg, Unit.block]
    have hexec := exec_cpym hrow h hf
    simp only [State.modCur_modCur] at hexec
    have hnew := State.isNew_newMatrix (s.modCur (fun x => x.withCopy (s.newCommand (.cpym e o) e o))) (s.cur.serial + 1) row.2 m0
      (some s.cur.serial)
    have hold := MCmd.isNew.of_modCur (f := fun x => x.withCopy _) (fun _ => rfl) (fun _ => rfl) (fun _ => rfl) hnew
    exact ⟨_, _, hexec, s.isNew_newCommand .., rfl, hold, rfl, rfl⟩

end Sys2Proof.Machine
end

/-! ## Bytes that an engine writes to a buffer

A command's writes past the gated stores, with the bytes kept for the commands of its bundle (R79, R84). -/

section
namespace Sys2Proof.Machine

/-- The unit with its buffers and gated stores written, and with what its queued commands keep of them. -/
def Unit.Rewritten (x y : Unit) : Prop := ∃ wb ab cb sb gated mq q0 q1,
  y = { x with wb := wb, ab := ab, cb := cb, sb := sb, gated := gated, mq := mq, q0 := q0, q1 := q1 } ∧
    mq.map (·.serial) = x.mq.map (·.serial)

theorem Unit.Rewritten.refl (x : Unit) : x.Rewritten x := ⟨_, _, _, _, _, _, _, _, rfl, rfl⟩

theorem Unit.Rewritten.trans {x y z : Unit} (h : x.Rewritten y) (h' : y.Rewritten z) : x.Rewritten z := by
  obtain ⟨_, _, _, _, _, mq, _, _, rfl, hq⟩ := h
  obtain ⟨_, _, _, _, _, mq', _, _, rfl, hq'⟩ := h'
  exact ⟨_, _, _, _, _, _, _, _, rfl, hq'.trans hq⟩

theorem Unit.Rewritten.bput (x : Unit) (b : Buf) (bs : List (Nat × Byte)) : x.Rewritten (x.bput b bs) := by
  have hq (f : MCmd → MCmd) (hf : ∀ m, (f m).serial = m.serial) : (x.mq.map f).map (·.serial) = x.mq.map (·.serial) := by
    simp [Function.comp_def, hf]
  cases b <;> exact ⟨_, _, _, _, _, _, _, _, rfl, hq _ fun _ => rfl⟩

theorem Unit.BuffersCanonical.of_buf {x y : Unit} (h : x.BuffersCanonical) (hb : ∀ b, y.buf b = x.buf b) : y.BuffersCanonical :=
  fun b => by rw [hb]; exact h b

theorem Unit.bget_congr {x y : Unit} (hg : y.gated = x.gated) (hb : ∀ b, y.buf b = x.buf b) (b : Buf) (a : Nat) :
    y.bget b a = x.bget b a := by
  rw [Unit.bget, Unit.bget, hg, hb]

/-- What is kept before a write changes the queues alone. -/
theorem State.unit_keepBytes (s : State) (u serial n : Nat) (l : Loc) (bs : List Byte) : ∃ mq q0 q1,
    (s.keepBytes u serial n l bs).unit u = { s.unit u with mq := mq, q0 := q0, q1 := q1 } ∧
      mq.map (·.serial) = (s.unit u).mq.map (·.serial) := by
  refine ⟨_, _, _, by rw [State.keepBytes, State.unit_modUnit, if_pos rfl], ?_⟩
  simp only [List.map_map]
  refine List.map_congr_left fun m _ => ?_
  simp only [Function.comp_apply]
  split <;> rfl

theorem State.unit_keepBytes_ne (s : State) {u v : Nat} (h : v ≠ u) (serial n : Nat) (l : Loc) (bs : List Byte) :
    (s.keepBytes u serial n l bs).unit v = s.unit v := by
  rw [State.keepBytes, State.unit_modUnit, if_neg h]

/-- The unit as one byte of a buffer of its own is written by an engine. -/
theorem State.engineWrite_byte (s : State) (u serial n : Nat) (b : Buf) (a : Nat) (v : Byte)
    (h : (s.unit u).BuffersCanonical) :
    let t := s.engineWrite u serial n { place := .buf u b, addr := a } [v]
    (s.unit u).Rewritten (t.unit u) ∧ (t.unit u).BuffersCanonical ∧
      (∀ c j, (t.unit u).bget c j = if c = b ∧ j = a then v else (s.unit u).bget c j) ∧
      ∀ w, w ≠ u → t.unit w = s.unit w := by
  intro t
  let l : Loc := { place := .buf u b, addr := a }
  let k := s.keepBytes u serial n l (s.locRead l 1)
  have ht : t = k.modUnit u (fun x => x.bput b [(a, v)]) := rfl
  obtain ⟨mq, q0, q1, hk, hmq⟩ := s.unit_keepBytes u serial n l (s.locRead l 1)
  have hbuf (c : Buf) : (k.unit u).buf c = (s.unit u).buf c := by rw [hk]; cases c <;> rfl
  have hgated : (k.unit u).gated = (s.unit u).gated := by rw [hk]
  have hcan : (k.unit u).BuffersCanonical := h.of_buf hbuf
  have htu : t.unit u = (k.unit u).bput b [(a, v)] := by rw [ht, State.unit_modUnit, if_pos rfl]
  refine ⟨?_, ?_, fun c j => ?_, fun w hw => ?_⟩
  · rw [htu]
    exact Unit.Rewritten.trans ⟨_, _, _, _, _, _, _, _, hk, hmq⟩ (.bput ..)
  · rw [htu]
    exact hcan.bput b _
  · rw [htu, Unit.bget_bput (hcan b), Unit.bget_congr hgated hbuf, Unit.bget_congr hgated hbuf, lastByte_cons]
    by_cases hc : c = b <;> by_cases hj : a = j <;> simp [hc, hj, eq_comm]
  · rw [ht, State.unit_modUnit, if_neg hw, State.unit_keepBytes_ne _ hw]

theorem State.now_matrixWrite (u : Nat) (m : MCmd) (b : Buf) : ∀ (bs : List (Nat × Byte)) (s : State),
    (s.matrixWrite u m b bs).now = s.now
  | [], _ => rfl
  | p :: bs, s => State.now_matrixWrite u m b bs (s.engineWrite u m.serial m.bundle { place := .buf u b, addr := p.1 } [p.2])

/-- The unit as a matrix command writes bytes of a buffer. -/
theorem State.matrixWrite_spec {u : Nat} (m : MCmd) (b : Buf) : ∀ (bs : List (Nat × Byte)) {s : State},
    (s.unit u).BuffersCanonical →
    let t := s.matrixWrite u m b bs
    (s.unit u).Rewritten (t.unit u) ∧ (t.unit u).BuffersCanonical ∧
      (∀ c j, (t.unit u).bget c j = if c = b then (lastByte bs j).getD ((s.unit u).bget b j) else (s.unit u).bget c j) ∧
      ∀ w, w ≠ u → t.unit w = s.unit w
  | [], s, h => ⟨.refl _, h, fun c j => by split <;> simp_all [State.matrixWrite], fun _ _ => rfl⟩
  | p :: bs, s, h => by
    obtain ⟨hr, hc, hb, hw⟩ := s.engineWrite_byte u m.serial m.bundle b p.1 p.2 h
    obtain ⟨hr', hc', hb', hw'⟩ := State.matrixWrite_spec m b bs hc
    refine ⟨hr.trans hr', hc', fun c j => ?_, fun w hne => (hw' w hne).trans (hw w hne)⟩
    rw [State.matrixWrite, List.foldl_cons]
    refine (hb' c j).trans ?_
    rw [hb, hb, lastByte_cons]
    by_cases hcb : c = b
    · by_cases hj : j = p.1 <;> cases lastByte bs j <;> simp [hcb, hj, eq_comm]
    · simp [hcb]

end Sys2Proof.Machine
end

/-! ## Matrix commands

The start of a command, the reading of its operands, and the end of a run (R218, R230 to R232, R239, R312, R320): O33. -/

section
namespace Sys2Proof.Machine

theorem matrixClocks_eq (var : MVar) (shape : BitVec 3) : matrixClocks var shape = clocksD var shape := by
  have h : ∀ shape : BitVec 3, [1, 2, 4, 8, 16].getD shape.toNat 16 = 2 ^ min shape.toNat 4 := by decide
  cases var <;> simp only [matrixClocks, clocksD, h] <;> simp [Nat.mul_comm]

/-! ### Start -/

section
variable {s : State} {u : Nat} {m : MCmd}

theorem State.matrixMayStart_of (hp : s.powered u = true) (hf : (s.unit u).run ≠ .frozen) (hh : (s.unit u).run ≠ .halted)
    (ha : m.after = none) (hr : ∀ n ∈ (s.unit u).mq, n.started.isSome = true → n.opsRead = true)
    (hl : ((s.unit u).mq.filter (fun n => n.started.isSome)).length < 2) (hs : s.shadeOf (clusterOf u) < 3)
    (hc : s.matrixClear u m = true) (ht : (s.unit u).rowsPending m.tileRegs = false)
    (hw : ∀ n ∈ (s.unit u).mq, n.serial < m.serial → ∀ r ∈ n.scaleWrites, r ∉ m.scaleReads) :
    s.matrixMayStart u m = true := by
  have hall : ((s.unit u).mq.filter (fun n => n.started.isSome)).all (fun n => n.opsRead) = true :=
    List.all_eq_true.2 fun n hn => hr n (List.mem_of_mem_filter hn) (List.mem_filter.1 hn).2
  simp [State.matrixMayStart, hp, hf, hh, ha, hall, hl, hs, hc, ht]
  exact hw

theorem field_setBit_ne (x : Word) {b lo w : Nat} (hb : b < 64) (h : b < lo ∨ lo + w ≤ b) :
    field (setBit x b) lo w = field x lo w := by
  apply BitVec.eq_of_getLsbD_eq
  intro i hi
  have hx := bitOf_field (setBit x b) lo w i
  have hy := bitOf_field x lo w i
  rw [bitOf_setBit x hb, decide_eq_false (by omega : ¬ lo + i = b), Bool.or_false, ← hy] at hx
  exact hx

/-- FIDSTAT at a start: LAST, LIMIT and CAPPED, and the other bits as they were. -/
theorem fidstatStart_fields (w : Word) {level limit fidmax : Nat} (hl : level < 4) (hm : limit < 4) :
    let f := fidstatStart w level limit fidmax
    (field f 14 2).toNat = level ∧ (field f 12 2).toNat = limit ∧ (bitOf f 8 = (bitOf w 8 || decide (level < fidmax))) ∧
      ∀ i < 64, i ∉ [8, 12, 13, 14, 15] → bitOf f i = bitOf w i := by
  intro f
  let g := setField (setField w 14 (BitVec.ofNat 2 level)) 12 (BitVec.ofNat 2 limit)
  have h14 : field g 14 2 = BitVec.ofNat 2 level := by
    rw [field_setField_ne _ _ _ _ _ (by omega) (by omega), field_setField_same _ _ _ (by omega)]
  have h12 : field g 12 2 = BitVec.ofNat 2 limit := field_setField_same _ _ _ (by omega)
  have hbits (i : Nat) (hi : i < 64) (hne : i ∉ [12, 13, 14, 15]) : bitOf g i = bitOf w i := by
    simp only [List.mem_cons, List.not_mem_nil, or_false, not_or] at hne
    rw [bitOf_setField _ _ _ _ hi, if_neg (by omega), bitOf_setField _ _ _ _ hi, if_neg (by omega)]
  have hf : f = if level < fidmax then setBit g 8 else g := rfl
  have hfield {lo : Nat} (hlo : 8 < lo) : field f lo 2 = field g lo 2 := by
    rw [hf]
    split
    · exact field_setBit_ne _ (by omega) (by omega)
    · rfl
  have hbit (i : Nat) : bitOf f i = (bitOf g i || (decide (level < fidmax) && decide (i = 8))) := by
    rw [hf]
    split
    · next h => rw [bitOf_setBit _ (by omega)]; simp [h]
    · next h => simp [h]
  refine ⟨?_, ?_, ?_, fun i hi hne => ?_⟩
  · rw [hfield (by omega), h14, BitVec.toNat_ofNat]; omega
  · rw [hfield (by omega), h12, BitVec.toNat_ofNat]; omega
  · rw [hbit, hbits 8 (by omega) (by simp)]; simp
  · simp only [List.mem_cons, not_or] at hne
    rw [hbit, hbits i hi (by simp_all), decide_eq_false hne.1]; simp

end

/-! ### The end of a run -/

/-- Accounting a run changes the counters alone. -/
theorem Unit.accountRun_eq (x : Unit) (m : MCmd) (o : MOut) (ds : List Detection) : ∃ colerr fidstat gsum1 gsum2 injCount,
    x.accountRun m o ds = { x with
      colerr := colerr, fidstat := fidstat, gsum1 := gsum1, gsum2 := gsum2, injCount := injCount } := by
  have hcount (l : List Detection) (y : Unit) : ∃ colerr, y.countColumns l = { y with colerr := colerr } := by
    induction l generalizing y with
    | nil => exact ⟨_, rfl⟩
    | cons d l ih =>
      have hstep : ∃ colerr, y.countColumns (d :: l) = Unit.countColumns { y with colerr := colerr } l := by
        unfold Unit.countColumns
        rw [List.foldl_cons]
        split
        · exact ⟨_, rfl⟩
        · exact ⟨y.colerr, rfl⟩
      obtain ⟨colerr, h⟩ := hstep
      obtain ⟨colerr', h'⟩ := ih { y with colerr := colerr }
      exact ⟨colerr', h.trans h'⟩
  obtain ⟨colerr, h⟩ := hcount ds x
  exact ⟨colerr, _, _, _, _, by rw [Unit.accountRun, h]⟩

theorem Unit.settle_of_running {x : Unit} (h : x.run = .running) : x.settle = x := by
  simp [Unit.settle, h]

theorem Unit.stopCopies_of_running {x : Unit} (h : x.run = .running) (now : Nat) : x.stopCopies now = x := by
  simp [Unit.stopCopies, h]

theorem Unit.postPend_of_running {x : Unit} (h : x.run = .running) (p : Pend) :
    x.postPend p = { x with pend := x.pend ++ [{ p with late := x.waiting && !p.rollback }] } := by
  simp [Unit.postPend, h]

/-- The bytes written back at the replay limit. -/
theorem lastByte_writeBack {m : MCmd} {r : MRecord} (hr : m.record = some r) (o : MOut) (a : Nat) :
    lastByte (m.writeBack o) a = if ∃ p ∈ o.cb, p.1 = a then some (mget r.cb a) else none := by
  have hmap : m.writeBack o = o.cb.map (fun p => (p.1, mget r.cb p.1)) := by
    simp [MCmd.writeBack, hr, mread, List.map_eq_flatMap]
  rw [hmap]
  induction o.cb with
  | nil => simp
  | cons p l ih =>
    rw [List.map_cons, lastByte_cons, ih]
    by_cases hp : p.1 = a <;> by_cases hl : ∃ q ∈ l, q.1 = a <;> simp [hp, hl]

theorem replaysUp_field (w : Word) : (field (replaysUp w) 32 16).toNat = min 0xFFFF ((field w 32 16).toNat + 1) := by
  rw [replaysUp, field_setField_same _ _ _ (by omega)]
  simp

/-- The unit as the oldest command leaves it without a detection in a nominal slice. -/
def Unit.matrixEnd (x : Unit) (m : MCmd) (o : MOut) (now : Nat) : Unit :=
  ((({ x with mstat := x.mstat ||| o.mstat }.acvtPairs m o.pairs).matrixLeave m).settle).stopCopies now

/-- The trap of the replay limit. -/
def MCmd.limitPend (m : MCmd) (now : Nat) : Pend :=
  { cause := .fidelityReplayLimit, resume := none, val := delayedVal m.pc m.o.tag.toNat,
    rollback := false, handler := m.handler, tag := m.o.tag.toNat, arose := now }

/-- The unit as the oldest command leaves it at the replay limit. -/
def Unit.matrixLimit (x : Unit) (m : MCmd) (o : MOut) (now : Nat) : Unit :=
  ((({ x with mstat := setBit (x.mstat ||| (o.mstat &&& setBit 0 msMeta)) msLimit }.matrixLeave m).postPend
    (m.limitPend now)).settle).stopCopies now

theorem Unit.matrixEnd_of_running {x : Unit} (h : x.run = .running) (m : MCmd) (o : MOut) (now : Nat) :
    x.matrixEnd m o now = ({ x with mstat := x.mstat ||| o.mstat }.acvtPairs m o.pairs).matrixLeave m := by
  rw [Unit.matrixEnd, Unit.settle_of_running, Unit.stopCopies_of_running] <;> exact h

theorem Unit.matrixLimit_of_running {x : Unit} (h : x.run = .running) (m : MCmd) (o : MOut) (now : Nat) :
    x.matrixLimit m o now = { x.matrixLeave m with
      mstat := setBit (x.mstat ||| (o.mstat &&& setBit 0 msMeta)) msLimit
      pend := x.pend ++ [{ m.limitPend now with late := x.waiting }] } := by
  have hp := Unit.postPend_of_running
    (x := { x with mstat := setBit (x.mstat ||| (o.mstat &&& setBit 0 msMeta)) msLimit }.matrixLeave m) h (m.limitPend now)
  rw [Unit.matrixLimit, hp, Unit.settle_of_running, Unit.stopCopies_of_running]
  · simp [Unit.matrixLeave, Unit.tagDone, MCmd.limitPend]
  all_goals exact h

theorem serials_filter (k : Nat) (l : List MCmd) :
    (l.filter (fun n => n.serial != k)).map (·.serial) = (l.map (·.serial)).filter (· != k) := by
  rw [List.filter_map]
  rfl

theorem serials_acvtPairs (x : Unit) (m : MCmd) (ps : List (Nat × Nat)) :
    (x.acvtPairs m ps).mq.map (·.serial) = x.mq.map (·.serial) := by
  simp only [Unit.acvtPairs, List.map_map]
  refine List.map_congr_left fun n _ => ?_
  simp only [Function.comp_apply]
  split <;> rfl

theorem serials_matrixLeave (x : Unit) (m : MCmd) : (x.matrixLeave m).mq.map (·.serial) =
    (x.mq.map (·.serial)).filter (· != m.serial) := serials_filter ..

theorem tags_matrixLeave (x : Unit) (m : MCmd) :
    tget 0 (x.matrixLeave m).tags m.o.tag.toNat = tget 0 x.tags m.o.tag.toNat - 1 := by
  simp [Unit.matrixLeave, Unit.tagDone, tmod]

theorem bget_matrixLeave (x : Unit) (m : MCmd) (b : Buf) (a : Nat) : (x.matrixLeave m).bget b a = x.bget b a :=
  Unit.bget_congr rfl (fun b => by cases b <;> rfl) b a

theorem bget_flagged (x : Unit) (w : Word) (ps : List Pend) (b : Buf) (a : Nat) :
    ({ x with mstat := w, pend := ps } : Unit).bget b a = x.bget b a := Unit.bget_congr rfl (fun b => by cases b <;> rfl) b a

theorem bget_acvtPairs (x : Unit) (m : MCmd) (ps : List (Nat × Nat)) (b : Buf) (a : Nat) :
    (x.acvtPairs m ps).bget b a = x.bget b a := Unit.bget_congr rfl (fun b => by cases b <;> rfl) b a

section
variable {u t0 : Nat} {m : MCmd} {ms : List MCmd} {r : MRecord} {s : State}

/-- The oldest command has ended a run. -/
structure RunEnds (u t0 : Nat) (m : MCmd) (ms : List MCmd) (r : MRecord) (s : State) : Prop where
  tile : u < 512
  queue : (s.unit u).mq = m :: ms
  record : m.record = some r
  read : m.opsRead = true
  started : m.started = some t0
  due : t0 + 25 * (clocksD m.var m.o.shape * (1 + m.replays) + 64) ≤ s.now
  powered : s.powered u = true
  running : (s.unit u).run = .running
  serials : ∀ n ∈ ms, n.serial ≠ m.serial
  canonical : (s.unit u).BuffersCanonical

/-- The unit with the run accounted. -/
def State.accounted (s : State) (u : Nat) (m : MCmd) (r : MRecord) (ds : List Detection) : Unit :=
  (s.unit u).accountRun m ((s.unit u).matrixRun m r) (m.detections ((s.unit u).matrixRun m r) ds)

/-- The end of a run, by its detections. -/
theorem RunEnds.exec_complete (h : RunEnds u t0 m ms r s) (ds : List Detection) :
    exec (.matrixCommandComplete u ds) s = .next (
      if ¬ ∃ d ∈ m.detections ((s.unit u).matrixRun m r) ds, m.level ≤ d.slice then
        (((s.setUnit u (s.accounted u m r ds)).matrixWrite u m .cb ((s.unit u).matrixRun m r).cb).matrixWrite u m .ab
          ((s.unit u).matrixRun m r).ab).modUnit u (fun x => x.matrixEnd m ((s.unit u).matrixRun m r) s.now)
      else if m.replays < 3 then
        s.setUnit u { s.accounted u m r ds with
          mstat := replaysUp (s.accounted u m r ds).mstat
          mq := (s.accounted u m r ds).mq.map (fun n => if n.serial = m.serial then { n with replays := n.replays + 1 } else n) }
      else ((s.setUnit u (s.accounted u m r ds)).matrixWrite u m .cb (m.writeBack ((s.unit u).matrixRun m r))).modUnit u
        (fun x => x.matrixLimit m ((s.unit u).matrixRun m r) s.now)) := by
  obtain ⟨hu, hmq, hr, ho, hs, ht, hp, -, -, -⟩ := h
  set o := (s.unit u).matrixRun m r
  set x := s.accounted u m r ds
  show execMatrixCommandComplete u ds s = _
  unfold execMatrixCommandComplete
  rw [if_neg (by omega)]
  simp only [hmq, hr]
  rw [if_neg (by simp [ho, hs, hp, matrixClocks_eq]; omega)]
  have hany : (!((m.detections o ds).any (fun d => decide (m.level ≤ d.slice)))) = true ↔
      ¬ ∃ d ∈ m.detections o ds, m.level ≤ d.slice := by simp
  by_cases hn : ∃ d ∈ m.detections o ds, m.level ≤ d.slice
  · rw [if_neg (by rw [hany]; exact not_not.2 hn), if_neg (not_not.2 hn)]
    split
    · rfl
    · have hnow : ((s.setUnit u x).matrixWrite u m .cb (m.writeBack o)).now = s.now := State.now_matrixWrite ..
      rw [← hnow]
      rfl
  · have hnow : (((s.setUnit u x).matrixWrite u m .cb o.cb).matrixWrite u m .ab o.ab).now = s.now :=
      (State.now_matrixWrite ..).trans (State.now_matrixWrite ..)
    rw [if_pos (hany.2 hn), if_pos hn, ← hnow]
    rfl

/-- The unit with the run accounted and the bytes of a buffer written. -/
theorem accounted_write (h : (s.unit u).BuffersCanonical) (ds : List Detection) (b : Buf) (bs : List (Nat × Byte)) :
    let t := (s.setUnit u (s.accounted u m r ds)).matrixWrite u m b bs
    (∃ colerr fidstat gsum1 gsum2 injCount, Unit.Rewritten { s.unit u with
      colerr := colerr, fidstat := fidstat, gsum1 := gsum1, gsum2 := gsum2, injCount := injCount } (t.unit u)) ∧
      (t.unit u).BuffersCanonical ∧
      (∀ c j, (t.unit u).bget c j = if c = b then (lastByte bs j).getD ((s.unit u).bget b j) else (s.unit u).bget c j) ∧
      ∀ v, v ≠ u → t.unit v = s.unit v := by
  intro t
  obtain ⟨colerr, fidstat, gsum1, gsum2, injCount, hx⟩ :=
    (s.unit u).accountRun_eq m ((s.unit u).matrixRun m r) (m.detections ((s.unit u).matrixRun m r) ds)
  have hxu : (s.setUnit u (s.accounted u m r ds)).unit u = { s.unit u with
      colerr := colerr, fidstat := fidstat, gsum1 := gsum1, gsum2 := gsum2, injCount := injCount } := by
    rw [State.unit_setUnit, if_pos rfl, State.accounted, hx]
  have hget (c : Buf) (j : Nat) : ((s.setUnit u (s.accounted u m r ds)).unit u).bget c j = (s.unit u).bget c j :=
    Unit.bget_congr (by rw [hxu]) (fun b => by rw [hxu]; cases b <;> rfl) c j
  obtain ⟨hr, hc, hb, hw⟩ := State.matrixWrite_spec m b bs (s := s.setUnit u (s.accounted u m r ds))
    (h.of_buf fun b => by rw [hxu]; cases b <;> rfl)
  rw [hxu] at hr
  refine ⟨⟨_, _, _, _, _, hr⟩, hc, fun c j => ?_, fun v hv => ?_⟩
  · rw [hb, hget, hget]
  · rw [hw v hv, State.unit_setUnit, if_neg hv]

/-- What stands behind the oldest command. -/
theorem RunEnds.serials_left (h : RunEnds u t0 m ms r s) :
    ((s.unit u).mq.map (·.serial)).filter (· != m.serial) = ms.map (·.serial) := by
  have hms : (ms.map (·.serial)).filter (· != m.serial) = ms.map (·.serial) :=
    List.filter_eq_self.2 fun k hk => by
      obtain ⟨n, hn, rfl⟩ := List.mem_map.1 hk
      simpa using h.serials n hn
  rw [h.queue, List.map_cons, List.filter_cons_of_neg (by simp), hms]

/-- A run without a detection in a nominal slice leaves its bytes. -/
theorem RunEnds.exec_done (h : RunEnds u t0 m ms r s) {ds : List Detection}
    (hn : ¬ ∃ d ∈ m.detections ((s.unit u).matrixRun m r) ds, m.level ≤ d.slice) :
    let o := (s.unit u).matrixRun m r
    ∃ t, exec (.matrixCommandComplete u ds) s = .next t ∧ (∀ v, v ≠ u → t.unit v = s.unit v) ∧
      (t.unit u).regs = (s.unit u).regs ∧ (∀ a, (t.unit u).bget .cb a = (lastByte o.cb a).getD ((s.unit u).bget .cb a)) ∧
      (∀ a, (t.unit u).bget .ab a = (lastByte o.ab a).getD ((s.unit u).bget .ab a)) ∧
      (∀ b a, b ≠ .cb → b ≠ .ab → (t.unit u).bget b a = (s.unit u).bget b a) ∧
      (t.unit u).mstat = (s.unit u).mstat ||| o.mstat ∧ (t.unit u).mq.map (·.serial) = ms.map (·.serial) ∧
      tget 0 (t.unit u).tags m.o.tag.toNat = tget 0 (s.unit u).tags m.o.tag.toNat - 1 := by
  intro o
  obtain ⟨⟨_, _, _, _, _, hr⟩, hc, hb, hw⟩ := accounted_write (m := m) (r := r) h.canonical ds .cb o.cb
  obtain ⟨hr', -, hb', hw'⟩ := State.matrixWrite_spec m .ab o.ab hc
  have hexec := (h.exec_complete ds).trans (congrArg _ (if_pos hn))
  set t := ((s.setUnit u (s.accounted u m r ds)).matrixWrite u m .cb o.cb).matrixWrite u m .ab o.ab
  obtain ⟨_, _, _, _, _, mq, _, _, hz, hmq⟩ := hr.trans hr'
  have hrun : (t.unit u).run = .running := by rw [hz]; exact h.running
  have hget (b : Buf) (a : Nat) : ((t.unit u).matrixEnd m o s.now).bget b a = (t.unit u).bget b a := by
    rw [Unit.matrixEnd_of_running hrun, bget_matrixLeave, bget_acvtPairs]
    exact Unit.bget_congr rfl (fun b => by cases b <;> rfl) b a
  refine ⟨_, hexec, fun v hv => ?_, ?_⟩
  · rw [State.unit_modUnit, if_neg hv, hw' v hv, hw v hv]
  rw [State.unit_modUnit, if_pos rfl]
  refine ⟨?_, fun a => ?_, fun a => ?_, fun b a h1 h2 => ?_, ?_, ?_, ?_⟩
  · rw [Unit.matrixEnd_of_running hrun, hz]; rfl
  · rw [hget, hb', if_neg (by decide), hb, if_pos rfl]
  · rw [hget, hb', if_pos rfl, hb, if_neg (by decide)]
  · rw [hget, hb', if_neg h2, hb, if_neg h1]
  · rw [Unit.matrixEnd_of_running hrun, hz]; rfl
  · rw [Unit.matrixEnd_of_running hrun, serials_matrixLeave, serials_acvtPairs, ← h.serials_left, ← hmq, hz]
  · rw [Unit.matrixEnd_of_running hrun, tags_matrixLeave, hz]; rfl

/-- A run with a detection in a nominal slice runs again. -/
theorem RunEnds.exec_replay (h : RunEnds u t0 m ms r s) {ds : List Detection}
    (hn : ∃ d ∈ m.detections ((s.unit u).matrixRun m r) ds, m.level ≤ d.slice) (h3 : m.replays < 3) :
    ∃ t, exec (.matrixCommandComplete u ds) s = .next t ∧ (∀ v, v ≠ u → t.unit v = s.unit v) ∧
      (t.unit u).regs = (s.unit u).regs ∧ (∀ b a, (t.unit u).bget b a = (s.unit u).bget b a) ∧
      (t.unit u).mq = { m with replays := m.replays + 1 } :: ms ∧ (t.unit u).tags = (s.unit u).tags ∧
      (field (t.unit u).mstat 32 16).toNat = min 0xFFFF ((field (s.unit u).mstat 32 16).toNat + 1) := by
  obtain ⟨_, _, _, _, _, hx⟩ :=
    (s.unit u).accountRun_eq m ((s.unit u).matrixRun m r) (m.detections ((s.unit u).matrixRun m r) ds)
  have hexec := (h.exec_complete ds).trans (congrArg _ ((if_neg (not_not.2 hn)).trans (if_pos h3)))
  refine ⟨_, hexec, fun v hv => by rw [State.unit_setUnit, if_neg hv], ?_⟩
  rw [State.unit_setUnit, if_pos rfl, State.accounted, hx]
  refine ⟨rfl, fun b a => Unit.bget_congr rfl (fun b => by cases b <;> rfl) b a, ?_, rfl, replaysUp_field _⟩
  have hms : ms.map (fun n => if n.serial = m.serial then { n with replays := n.replays + 1 } else n) = ms :=
    (List.map_congr_left fun n hn => if_neg (h.serials n hn)).trans (List.map_id _)
  simp only [h.queue, List.map_cons, if_true, hms]

/-- At the replay limit C is written back. -/
theorem RunEnds.exec_limit (h : RunEnds u t0 m ms r s) {ds : List Detection}
    (hn : ∃ d ∈ m.detections ((s.unit u).matrixRun m r) ds, m.level ≤ d.slice) (h3 : 3 ≤ m.replays) :
    let o := (s.unit u).matrixRun m r
    ∃ t, exec (.matrixCommandComplete u ds) s = .next t ∧ (∀ v, v ≠ u → t.unit v = s.unit v) ∧
      (t.unit u).regs = (s.unit u).regs ∧ (∀ b a, b ≠ .cb → (t.unit u).bget b a = (s.unit u).bget b a) ∧
      (∀ a, (t.unit u).bget .cb a = if ∃ p ∈ o.cb, p.1 = a then mget r.cb a else (s.unit u).bget .cb a) ∧
      (t.unit u).mq.map (·.serial) = ms.map (·.serial) ∧
      tget 0 (t.unit u).tags m.o.tag.toNat = tget 0 (s.unit u).tags m.o.tag.toNat - 1 ∧ bitOf (t.unit u).mstat 7 = true ∧
      (t.unit u).pend = (s.unit u).pend ++ [{ m.limitPend s.now with late := (s.unit u).waiting }] := by
  intro o
  obtain ⟨⟨_, _, _, _, _, hr⟩, -, hb, hw⟩ := accounted_write (m := m) (r := r) h.canonical ds .cb (m.writeBack o)
  have hexec := (h.exec_complete ds).trans (congrArg _ ((if_neg (not_not.2 hn)).trans (if_neg (not_lt.2 h3))))
  generalize (s.setUnit u (s.accounted u m r ds)).matrixWrite u m .cb (m.writeBack o) = t at hr hb hw hexec
  obtain ⟨_, _, _, _, _, mq, _, _, hz, hmq⟩ := hr
  have hrun : (t.unit u).run = .running := by rw [hz]; exact h.running
  have hget (b : Buf) (a : Nat) : ((t.unit u).matrixLimit m o s.now).bget b a = (t.unit u).bget b a := by
    rw [Unit.matrixLimit_of_running hrun, bget_flagged, bget_matrixLeave]
  refine ⟨_, hexec, fun v hv => ?_, ?_⟩
  · rw [State.unit_modUnit, if_neg hv, hw v hv]
  rw [State.unit_modUnit, if_pos rfl]
  refine ⟨?_, fun b a h1 => ?_, fun a => ?_, ?_, ?_, ?_, ?_⟩
  · rw [Unit.matrixLimit_of_running hrun, hz]; rfl
  · rw [hget, hb, if_neg h1]
  · rw [hget, hb, if_pos rfl, lastByte_writeBack h.record]
    split <;> rfl
  · rw [Unit.matrixLimit_of_running hrun, ← h.serials_left, ← hmq, ← serials_filter, hz]; rfl
  · rw [Unit.matrixLimit_of_running hrun]
    exact (tags_matrixLeave _ m).trans (by rw [hz])
  · rw [Unit.matrixLimit_of_running hrun]
    exact (bitOf_setBit _ (by decide) 7).trans (by simp [msLimit])
  · rw [Unit.matrixLimit_of_running hrun, hz]

end

/-- Settles O33: the start and the reading by their conditions, the end of a run by its three outcomes. -/
theorem matrixCommandsRun : Obligations.MatrixCommandsRun := by
  refine ⟨⟨fun u m s hu hm hp hf hh ha hr hl hs hc ht hw => ?_, fun u t0 m s hu hm hst hp ht => ?_⟩,
    fun u t0 m ms r ds s hu hmq hr ho hs ht hp hrun hser hwf => ?_⟩
  · intro limit level
    have hlimit : limit < 4 := (field (s.cget (fidlimAddr (clusterOf u))) 0 2).isLt
    have hlevel : level < 4 := by unfold level; split <;> omega
    refine ⟨(s.unit u).matrixRecord u m, if m.floating then fidstatStart (s.unit u).fidstat level limit (s.unit u).card.fidmax
      else (s.unit u).fidstat, rfl, rfl, ?_, fun h => if_neg (by simp [h]), fun h => ?_⟩
    · show execMatrixCommandStart u s = _
      have hstart := State.matrixMayStart_of hp hf hh ha hr hl hs hc ht hw
      unfold execMatrixCommandStart
      rw [if_neg (by omega)]
      simp only [Unit.nextMatrix, hm, hstart, Bool.not_true, Bool.false_eq_true, if_false]
      rfl
    · rw [if_pos h]
      exact fidstatStart_fields _ hlevel hlimit
  · show execMatrixOperandsRead u s = _
    unfold execMatrixOperandsRead
    rw [if_neg (by omega)]
    simp only [hm]
    rw [if_neg (by simp [hst, hp, matrixClocks_eq]; omega)]
    rfl
  · intro o nominal last
    have h : RunEnds u t0 m ms r s := ⟨hu, hmq, hr, ho, hs, ht, hp, hrun, hser, hwf⟩
    by_cases hn : nominal
    · by_cases h3 : m.replays < 3
      · obtain ⟨t, hexec, hother, hregs, hget, hq, htags, hreplays⟩ := h.exec_replay hn h3
        exact ⟨t, hexec, hother, hregs, fun hno => absurd hn hno, fun _ b a _ => hget b a,
          fun _ _ => ⟨fun a => hget .cb a, hq, htags, hreplays⟩, fun _ hlim => by omega⟩
      · obtain ⟨t, hexec, hother, hregs, hget, hcb, hq, htags, hlim, hpend⟩ := h.exec_limit hn (by omega)
        refine ⟨t, hexec, hother, hregs, fun hno => absurd hn hno, fun _ => hget, fun _ hlt => absurd hlt h3,
          fun _ _ => ⟨hcb, hq, htags, hlim, ?_⟩⟩
        have hval : delayedVal m.pc m.o.tag.toNat = BitVec.ofNat 64 (m.pc % 2 ^ 32 * 2 ^ 32 + m.o.tag.toNat) := by
          rw [delayedVal, Nat.mod_eq_of_lt m.o.tag.isLt]
        rw [hpend, MCmd.limitPend, hval]
    · obtain ⟨t, hexec, hother, hregs, hcb, hab, hget, hmstat, hq, htags⟩ := h.exec_done hn
      exact ⟨t, hexec, hother, hregs,
        fun _ => ⟨hcb, hab, fun a => hget .wb a (by decide) (by decide), fun a => hget .sb a (by decide) (by decide), hmstat,
          hq, htags⟩,
        fun hyes => absurd hyes hn, fun hyes => absurd hyes hn, fun hyes => absurd hyes hn⟩

end Sys2Proof.Machine
end

/-! ## Copy commands that complete

What the end of a command changes: its queue place, its tag, and after an error CSTAT and a ready trap (R83, R126, R252); with
it the landing of an `SCLD` (R261) and the completion of a `CFENCE` (R262). -/

section
namespace Sys2Proof.Machine

/-! ### Commands found and freed -/

/-- The command of a copy engine by its number. -/
theorem Unit.serial_of_command {x : Unit} {e : Engine} {id : Nat} {c : CCmd} (h : x.command e id = some c) : c.serial = id := by
  simpa using List.find?_some h

theorem Unit.queueOf_congr {x y : Unit} {e : Engine} (h0 : y.q0 = x.q0) (h1 : y.q1 = x.q1) : y.queueOf e = x.queueOf e := by
  cases e
  · exact h0
  · exact h1

/-- Only the queue of the engine changes. -/
theorem Unit.setQueue_keeps (x : Unit) (e : Engine) (q : List CCmd) :
    (x.setQueue e q).regs = x.regs ∧ (x.setQueue e q).run = x.run ∧ (x.setQueue e q).tags = x.tags ∧
      (x.setQueue e q).pend = x.pend ∧ (x.setQueue e q).waiting = x.waiting ∧ (x.setQueue e q).mq = x.mq := by
  cases e <;> exact ⟨rfl, rfl, rfl, rfl, rfl, rfl⟩

theorem Unit.copyDone_of_ok (x : Unit) (e : Engine) {c : CCmd} (h : c.err = none) : x.copyDone e c = x.withoutCommand e c := by
  cases e <;> simp [Unit.copyDone, h, Unit.withoutCommand, Unit.setQueue, Unit.queueOf, Unit.tagDone, tmod]

theorem Unit.foldl_tagDone (l : List MCmd) (x : Unit) :
    ∃ ts, l.foldl (fun (y : Unit) m => y.tagDone m.o.tag.toNat) x = { x with tags := ts } := by
  induction l generalizing x with
  | nil => exact ⟨_, rfl⟩
  | cons m l ih => exact (ih _).imp fun ts h => h

/-- A command that is done leaves its queue, and only tags and follow-ons change besides. -/
theorem Unit.copyDone_eq (x : Unit) (e : Engine) (c : CCmd) : ∃ ts mq,
    x.copyDone e c = { x.setQueue e ((x.queueOf e).filter (fun d => d.serial != c.serial)) with tags := ts, mq := mq } := by
  by_cases h : c.err.isNone
  · refine ⟨(x.tagDone c.tag).tags, ?_⟩
    rw [Unit.copyDone, if_pos h]
    cases e <;> exact ⟨_, rfl⟩
  · obtain ⟨ts, hts⟩ := Unit.foldl_tagDone ((((x.tagDone c.tag).setQueue e ((x.queueOf e).filter (fun d =>
      d.serial != c.serial))).mq).filter (fun m => m.after = some c.serial))
      ((x.tagDone c.tag).setQueue e ((x.queueOf e).filter (fun d => d.serial != c.serial)))
    refine ⟨ts, ?_⟩
    rw [Unit.copyDone, if_neg h]
    simp only [hts]
    cases e <;> exact ⟨_, rfl⟩

@[simp] theorem State.unit_release (s : State) (counted : List Nat) (xs : List Xlat) (v : Nat) :
    (s.release counted xs).unit v = s.unit v := s.unit_busyDown counted v

theorem State.now_busyDown (keys : List Nat) (s : State) : (s.busyDown keys).now = s.now := by
  induction keys generalizing s with
  | nil => rfl
  | cons k ks ih => exact ih _

@[simp] theorem State.now_release (s : State) (counted : List Nat) (xs : List Xlat) : (s.release counted xs).now = s.now :=
  s.now_busyDown counted

/-! ### The end of a command -/

/-- The trap that a command with a data error leaves (R252). -/
def CCmd.accessPend (c : CCmd) (code : Byte) (now : Nat) (late : Bool) : Pend :=
  { cause := .copyAccess, resume := none
    val := BitVec.ofNat 64 (c.pc % 2 ^ 32 * 2 ^ 32 + code.toNat * 256 + c.tag % 64)
    rollback := false, handler := c.handler, tag := c.tag, arose := now, late := late }

/-- What the completion of a command comes to in its unit. -/
structure Unit.Completes (x y : Unit) (e : Engine) (c : CCmd) (now : Nat) : Prop where
  gone : y.command e c.serial = none
  regs : y.regs = x.regs
  ok : c.err = none → tget 0 y.tags c.tag = tget 0 x.tags c.tag - 1 ∧ y.pend = x.pend
  failed : ∀ code, c.err = some code → c.peer = false →
    bitOf y.cstat 1 = true ∧ field y.cstat 16 8 = code ∧ y.pend = x.pend ++ [c.accessPend code now x.waiting]

theorem cstatError_fields (w : Word) (code : Byte) (tag : Nat) :
    bitOf (cstatError w csErr code.toNat tag) 1 = true ∧ field (cstatError w csErr code.toNat tag) 16 8 = code := by
  refine ⟨by simp [cstatError, csErr, bitOf_setBit], ?_⟩
  rw [cstatError, csErr, field_setBit_ne _ (by omega) (by omega), field_setField_ne _ _ _ _ _ (by omega) (by omega),
    field_setField_same _ _ _ (by omega), BitVec.ofNat_toNat, BitVec.setWidth_eq]

theorem Unit.command_filtered {x : Unit} {e : Engine} {c : CCmd} {q : List CCmd}
    (h : x.queueOf e = q.filter (fun d => d.serial != c.serial)) : x.command e c.serial = none := by
  rw [Unit.command, h, List.find?_eq_none]
  intro d hd
  simpa using (List.mem_filter.1 hd).2

/-- A command that completes in a unit that runs. -/
theorem State.completeCopy_spec {s : State} {u : Nat} (e : Engine) (c : CCmd) (hrun : (s.unit u).run = .running) :
    (s.unit u).Completes ((s.completeCopy u e c).unit u) e c s.now ∧
      ∀ v, v ≠ u → (s.completeCopy u e c).unit v = s.unit v := by
  obtain ⟨ts, mq, hd⟩ := (s.unit u).copyDone_eq e c
  obtain ⟨hkregs, hkrun, -, hkpend, hkwait, -⟩ :=
    (s.unit u).setQueue_keeps e (((s.unit u).queueOf e).filter (fun d => d.serial != c.serial))
  have hq : ((s.unit u).copyDone e c).queueOf e = ((s.unit u).queueOf e).filter (fun d => d.serial != c.serial) := by
    rw [hd]; cases e <;> rfl
  have hregs : ((s.unit u).copyDone e c).regs = (s.unit u).regs := by rw [hd]; exact hkregs
  have hruns : ((s.unit u).copyDone e c).run = .running := by rw [hd]; exact hkrun.trans hrun
  have hpend : ((s.unit u).copyDone e c).pend = (s.unit u).pend := by rw [hd]; exact hkpend
  have hwait : ((s.unit u).copyDone e c).waiting = (s.unit u).waiting := by rw [hd]; exact hkwait
  unfold State.completeCopy
  rcases herr : c.err with _ | code
  · simp only [State.unit_modUnit, if_pos, State.unit_release]
    rw [Unit.settle_of_running hruns]
    refine ⟨⟨Unit.command_filtered hq, hregs, fun _ => ⟨?_, hpend⟩, fun code hc => ?_⟩, fun v hv => by rw [if_neg hv]⟩
    · rw [Unit.copyDone_of_ok _ _ herr]
      simp [Unit.withoutCommand]
    · rw [herr] at hc; cases hc
  · by_cases hp : c.peer
    · simp only [hp, if_true, State.unit_modUnit, State.unit_release]
      rw [Unit.settle_of_running (by exact hruns)]
      exact ⟨⟨Unit.command_filtered ((Unit.queueOf_congr rfl rfl).trans hq), hregs,
        fun h => absurd (herr.symm.trans h) (by simp), fun _ _ h => absurd (hp.symm.trans h) (by simp)⟩,
        fun v hv => by rw [if_neg hv]⟩
    · simp only [hp, Bool.false_eq_true, if_false, State.unit_modUnit, State.unit_release, if_true, State.now_release]
      rw [Unit.copyError, Unit.postPend_of_running (by exact hruns), Unit.settle_of_running (by exact hruns)]
      refine ⟨⟨Unit.command_filtered ((Unit.queueOf_congr rfl rfl).trans hq), hregs,
        fun h => absurd (herr.symm.trans h) (by simp), fun code' hc _ => ?_⟩, fun v hv => by rw [if_neg hv]⟩
      obtain rfl : code = code' := by rw [herr] at hc; exact Option.some.inj hc
      obtain ⟨hbit, hcode⟩ := cstatError_fields (s.unit u).cstat code c.tag
      have hcstat : ((s.unit u).copyDone e c).cstat = (s.unit u).cstat := by rw [hd]; cases e <;> rfl
      refine ⟨?_, ?_, ?_⟩
      · rw [← hcstat] at hbit; exact hbit
      · rw [← hcstat] at hcode; exact hcode
      · simp only [CCmd.accessPend, hpend, hwait, Bool.not_false, Bool.and_true]

/-- A command of which every piece has landed has nothing left to land. -/
theorem CCmd.landing_of_wrote {c : CCmd} (h : ∀ r ∈ c.runs, r.wrote = true) (now : Nat) : c.landing now = [] := by
  have hnum : ∀ p ∈ c.numbered, p.2.wrote = true := by
    intro p hp
    obtain ⟨i, -, hi⟩ := List.mem_filterMap.1 hp
    obtain ⟨r, hr, rfl⟩ := Option.map_eq_some_iff.1 hi
    exact h r (List.mem_of_getElem? hr)
  have hfold : ∀ l : List (Nat × Run), (∀ p ∈ l, p.2.wrote = true) → ∀ a : List (Nat × Run) × List Run,
      l.foldl (fun (a : List (Nat × Run) × List Run) p =>
        if p.2.wrote then a
        else if c.pieceReady now p.1 p.2 && !(a.2.any p.2.meets) then (a.1 ++ [p], a.2)
        else (a.1, a.2 ++ [p.2])) a = a := by
    intro l
    induction l with
    | nil => intro _ _; rfl
    | cons p l ih =>
      intro hl a
      rw [List.foldl_cons, if_pos (hl p List.mem_cons_self)]
      exact ih (fun q hq => hl q (List.mem_cons_of_mem _ hq)) a
  rw [CCmd.landing, hfold _ hnum]

theorem State.landDue_of_landed {s : State} {c : CCmd} (h : c.landing s.now = []) (u : Nat) (e : Engine) :
    s.landDue u e c = (s.putCmd u e c, c) := by
  simp [State.landDue, h]

/-- The place of a command taken by a form of it. -/
theorem Unit.Completes.of_modCmd {x y : Unit} {e : Engine} {c : CCmd} {now n : Nat} {f : CCmd → CCmd}
    (h : (x.modCmd e n f).Completes y e c now) : x.Completes y e c now := by
  obtain ⟨hregs, -, htags, hpend, hwait, -⟩ :=
    x.setQueue_keeps e ((x.queueOf e).map (fun c => if c.serial = n then f c else c))
  refine ⟨h.gone, h.regs.trans hregs, fun he => ?_, fun code hc hp => ?_⟩
  · obtain ⟨ht, hpd⟩ := h.ok he
    exact ⟨ht.trans (by rw [Unit.modCmd, htags]), hpd.trans hpend⟩
  · obtain ⟨hbit, hcode, hpd⟩ := h.failed code hc hp
    exact ⟨hbit, hcode, hpd.trans (by rw [Unit.modCmd, hpend, hwait])⟩

/-- A command whose pieces have all landed completes. -/
theorem State.closeCopy_spec {s : State} {u : Nat} (e : Engine) {c : CCmd} (hrun : (s.unit u).run = .running)
    (hw : ∀ r ∈ c.runs, r.wrote = true) :
    (s.unit u).Completes ((s.closeCopy u e c).unit u) e c s.now ∧ ∀ v, v ≠ u → (s.closeCopy u e c).unit v = s.unit v := by
  have hall : c.runs.all Run.wrote = true := List.all_eq_true.2 hw
  have hclose : s.closeCopy u e c = (s.putCmd u e c).completeCopy u e c := by
    rw [State.closeCopy, State.landDue_of_landed (CCmd.landing_of_wrote hw _)]
    exact if_pos hall
  have hunit : (s.putCmd u e c).unit u = (s.unit u).modCmd e c.serial (fun _ => c) := by
    rw [State.putCmd, State.unit_modUnit, if_pos rfl]
  obtain ⟨hc, hother⟩ := State.completeCopy_spec (s := s.putCmd u e c) e c
    (by rw [hunit, Unit.modCmd, (Unit.setQueue_keeps _ e _).2.1, hrun])
  rw [hclose]
  rw [hunit] at hc
  exact ⟨hc.of_modCmd, fun v hv => (hother v hv).trans (by rw [State.putCmd, State.unit_modUnit, if_neg hv])⟩

theorem Unit.engines_of_running {x : Unit} (h : x.run = .running) : x.engines = true := by
  simp [Unit.engines, h]

/-- The event of a command that has moved and whose writes have had their slots. -/
theorem exec_copyCommandComplete_close {u id : Nat} {e : Engine} {c : CCmd} {s : State} {err : Option Byte} (data : List Byte)
    (hu : u < unitCount) (hc : ((s.placeEngine u e).unit u).command e id = some c) (hm : c.phase = .moved)
    (hrun : ((s.placeEngine u e).unit u).run = .running) (hpow : (s.placeEngine u e).powered u = true)
    (hl : c.writesLanded (s.placeEngine u e).now = true) (hop : c.fields.1 ≤ 6 ∨ c.fields.1 = 8)
    (herr : ∀ x, err = some x → peerCode x = true) :
    exec (.copyCommandComplete u e id err data) s = .next ((s.placeEngine u e).closeCopy u e c) := by
  have hall : err.all peerCode = true := by cases err <;> simp_all
  change execCopyCommandComplete u e id err data s = _
  have hfind : (((s.placeEngine u e).unit u).queueOf e).find? (fun c => c.serial == id) = some c := hc
  have h7 : c.fields.1 ≠ 0x07 := by omega
  have h10 : c.fields.1 ≠ 0x10 := by omega
  have h11 : c.fields.1 ≠ 0x11 := by omega
  have h12 : c.fields.1 ≠ 0x12 := by omega
  simp [execCopyCommandComplete, Nat.not_le.2 hu, hfind, Unit.engines_of_running hrun, hpow, hall, hm, hl, h7, h10, h11, h12]

/-! ### Scale registers -/

/-- Pairs that keep what stood in them leave the other pairs of the register. -/
theorem field_foldl_keep (old : ScaleReg) {k : Nat} (hk : k < 512) : ∀ (ks : List Nat) (w : ScaleReg), k ∉ ks →
    field (ks.foldl (fun (w : ScaleReg) j => setField w (16 * j) (field old (16 * j) 16)) w) (16 * k) 16 = field w (16 * k) 16
  | [], _, _ => rfl
  | j :: ks, w, h => by
    obtain ⟨hj, hks⟩ := List.ne_and_not_mem_of_not_mem_cons h
    rw [List.foldl_cons, field_foldl_keep old hk ks _ hks, field_setField_ne _ _ _ _ _ (by omega) (by omega)]

/-- The landing of an `SCLD` that has all its data. -/
theorem Unit.landScld_of_ok {x : Unit} {c : CCmd} (he : c.err = none) (hl : c.lost = []) (now : Nat) :
    (∀ k < 512, ¬ c.serial < scaleSerial x.scaleSer (scldReg c.fields.2) k →
      field (tget 0 (x.landScld now c).scales (scldReg c.fields.2)) (16 * k) 16 =
        field (ofBytes 8192 (c.got.flatMap (·.2)) : ScaleReg) (16 * k) 16) ∧
    (∀ r, r ≠ scldReg c.fields.2 → tget 0 (x.landScld now c).scales r = tget 0 x.scales r) ∧
    tget 0 (x.landScld now c).tags c.tag = tget 0 x.tags c.tag - 1 ∧
    (∀ d ∈ (x.landScld now c).sclds ++ (x.landScld now c).q0 ++ (x.landScld now c).q1, d.serial ≠ c.serial) ∧
    (x.landScld now c).regs = x.regs ∧ (x.landScld now c).run = x.run := by
  have hpairs : c.lostPairs = [] := by simp [CCmd.lostPairs, CCmd.lostUnits, hl]
  simp only [Unit.landScld, he, CCmd.scaleBytes, hpairs, List.nil_append, CCmd.scaleOver, hl, List.isEmpty_nil, if_true]
  refine ⟨fun k hk hs => ?_, fun r hr => ?_, ?_, fun d hd => ?_, rfl, rfl⟩
  · rw [tget_tput, if_pos rfl, field_foldl_keep _ hk]
    simp [hs]
  · rw [tget_tput, if_neg hr]
  · simp [Unit.tagDone, tmod]
  · simp only [List.mem_append, List.mem_filter, bne_iff_ne] at hd
    rcases hd with (⟨-, h⟩ | ⟨-, h⟩) | ⟨-, h⟩ <;> exact h

/-- The event of an `SCLD` that is due. -/
theorem exec_scldLanding_due {u id : Nat} {c : CCmd} {s : State} (hu : u < 512)
    (hc : ((s.unit u).sclds ++ (s.unit u).q0 ++ (s.unit u).q1).find? (fun d => d.serial == id && d.isScld) = some c)
    (hm : c.phase = .moved) (hleft : c.left = 0) (hrun : (s.unit u).run = .running) (hpow : s.powered u = true) :
    exec (.scldLanding u id) s = .next ((s.release c.counted c.xlat).setUnit u ((s.unit u).landScld s.now c).settle) := by
  change execScldLanding u id s = _
  simp only [execScldLanding, Nat.not_le.2 hu, if_false, hc]
  rw [if_neg]
  simp [Unit.scldReady, hm, hleft, Unit.engines_of_running hrun, hpow]

/-! ### Fences -/

/-- The event of a `CFENCE` that no earlier command holds. -/
theorem exec_cfenceStart_first {u id : Nat} {c : CCmd} {s : State} (hu : u < unitCount)
    (hc : ((s.unit u).q0 ++ (s.unit u).q1).find? (fun d => d.serial == id &&
      (match d.op with | .cfence _ _ => true | _ => false)) = some c) (he : c.err = none)
    (hfirst : ∀ d ∈ (s.unit u).q0 ++ (s.unit u).q1 ++ (s.unit u).sclds, id ≤ d.serial)
    (hrun : (s.unit u).run = .running) (hpow : s.powered u = true) :
    exec (.cfenceStart u id) s = .next (s.modUnit u (fun x => x.withoutCommand c.engine c)) := by
  have hnone : ((s.unit u).q0 ++ (s.unit u).q1 ++ (s.unit u).sclds).any (fun d => decide (d.serial < id)) = false :=
    List.any_eq_false.2 fun d hd => by simpa using hfirst d hd
  have hexec : exec (.cfenceStart u id) s = .next (s.setUnit u ((s.unit u).copyDone c.engine c).settle) := by
    change execCfenceStart u id s = _
    unfold execCfenceStart
    rw [if_neg (Nat.not_le.2 hu)]
    dsimp only
    split
    · next h => exact absurd (h.symm.trans hc) (by simp)
    · next d h =>
      obtain rfl : d = c := Option.some.inj (h.symm.trans hc)
      rw [if_neg]
      simp only [hnone, Unit.engines_of_running hrun, hpow]
      simp
  rw [hexec, Unit.copyDone_of_ok _ _ he, Unit.settle_of_running (by exact hrun)]
  rfl

end Sys2Proof.Machine
end

/-! ## DRAM reads that deliver

What a delivery makes of a command's pieces (R252, R410), and the landing of one piece in a tile buffer (R254). -/

section
namespace Sys2Proof.Machine

/-! ### Pieces delivered -/

/-- The command as a piece of one request arrives or is lost. -/
def State.deliverPiece (s : State) (u req : Nat) (err : Option Byte) (c : CCmd) (i : Nat) : CCmd :=
  match c.runs[i]? with
  | none => c
  | some r =>
    if r.req ≠ some req ∨ c.lost.contains i then c
    else
      match err with
      | some x => s.losePiece c i x
      | none => s.readPiece u c i r

theorem State.deliver_eq (s : State) (u : Nat) (c : CCmd) (req : Nat) (err : Option Byte) :
    s.deliver u c req err = (List.range c.runs.length).foldl (s.deliverPiece u req err) c := by
  unfold State.deliver
  congr 1
  funext c i
  unfold State.deliverPiece
  generalize c.runs[i]? = r
  cases r
  · rfl
  · cases err <;> rfl

/-- A command goes on to another form of it with more pieces at hand or lost. -/
def CCmd.Delivers (c d : CCmd) : Prop :=
  (∃ got blocks lost err, d = { c with got := got, blocks := blocks, lost := lost, err := err }) ∧
    ∀ i ∈ c.lost, i ∈ d.lost

theorem CCmd.Delivers.refl (c : CCmd) : c.Delivers c := ⟨⟨_, _, _, _, rfl⟩, fun _ h => h⟩

theorem CCmd.Delivers.trans {c d f : CCmd} (h : c.Delivers d) (h' : d.Delivers f) : c.Delivers f := by
  obtain ⟨⟨_, _, _, _, rfl⟩, hl⟩ := h
  obtain ⟨⟨_, _, _, _, rfl⟩, hl'⟩ := h'
  exact ⟨⟨_, _, _, _, rfl⟩, fun i hi => hl' i (hl i hi)⟩

theorem CCmd.Delivers.foldl {α : Type} {f : CCmd → α → CCmd} (h : ∀ (c : CCmd) a, c.Delivers (f c a)) (l : List α)
    (c : CCmd) : c.Delivers (l.foldl f c) := by
  induction l generalizing c with
  | nil => exact .refl c
  | cons a l ih => exact (h c a).trans (ih _)

theorem CCmd.Delivers.lose (c : CCmd) (i : Nat) (code : Byte) : c.Delivers (c.lose i code) := by
  unfold CCmd.lose
  split
  · exact .refl c
  · exact ⟨⟨_, _, _, _, rfl⟩, fun j hj => List.mem_append_left _ hj⟩

theorem CCmd.Delivers.losePiece (s : State) (c : CCmd) (i : Nat) (code : Byte) : c.Delivers (s.losePiece c i code) :=
  .foldl (fun c k => .lose c k code) _ c

theorem CCmd.Delivers.readBlock (s : State) (c : CCmd) (r : Run) : c.Delivers (s.readBlock c r) := by
  unfold State.readBlock
  split
  · exact .refl c
  · split
    · exact .refl c
    · exact ⟨⟨_, _, _, _, rfl⟩, fun _ h => h⟩

theorem CCmd.Delivers.readPiece (s : State) (u : Nat) (c : CCmd) (i : Nat) (r : Run) : c.Delivers (s.readPiece u c i r) := by
  refine (CCmd.Delivers.readBlock s c r).trans ?_
  unfold State.readPiece
  dsimp only
  split
  · exact ⟨⟨_, _, _, _, rfl⟩, fun _ h => h⟩
  · exact .losePiece s _ i 5

theorem CCmd.Delivers.deliverPiece (s : State) (u req : Nat) (err : Option Byte) (c : CCmd) (i : Nat) :
    c.Delivers (s.deliverPiece u req err c i) := by
  unfold State.deliverPiece
  split
  · exact .refl c
  · next r _ =>
    split
    · exact .refl c
    · split
      · exact .losePiece s c i _
      · exact .readPiece s u c i r

theorem CCmd.Delivers.deliver (s : State) (u : Nat) (c : CCmd) (req : Nat) (err : Option Byte) :
    c.Delivers (s.deliver u c req err) := by
  rw [State.deliver_eq]
  exact .foldl (fun c i => .deliverPiece s u req err c i) _ c

/-! ### Bytes and losses of a piece -/

theorem CCmd.got_lose (c : CCmd) (k : Nat) (code : Byte) : (c.lose k code).got = c.got := by
  unfold CCmd.lose
  split <;> rfl

theorem State.got_losePiece (s : State) (c : CCmd) (i : Nat) (code : Byte) : (s.losePiece c i code).got = c.got := by
  have hfold : ∀ (l : List Nat) (c : CCmd), (l.foldl (fun (c : CCmd) k => c.lose k code) c).got = c.got := by
    intro l
    induction l with
    | nil => intro c; rfl
    | cons k l ih => intro c; rw [List.foldl_cons, ih, CCmd.got_lose]
  exact hfold _ c

theorem State.got_readBlock (s : State) (c : CCmd) (r : Run) : (s.readBlock c r).got = c.got := by
  unfold State.readBlock
  split
  · rfl
  · split <;> rfl

/-- A piece leaves the bytes of the other pieces. -/
theorem State.got_deliverPiece (s : State) (u req : Nat) (err : Option Byte) (c : CCmd) {i j : Nat} (h : j ≠ i) :
    tget [] (s.deliverPiece u req err c i).got j = tget [] c.got j := by
  unfold State.deliverPiece
  split
  · rfl
  · split
    · rfl
    · split
      · rw [State.got_losePiece]
      · unfold State.readPiece
        dsimp only
        split
        · rw [tget_tput_ne _ _ _ _ h, State.got_readBlock]
        · rw [State.got_losePiece, State.got_readBlock]

theorem State.got_deliverPieces (s : State) (u req : Nat) (err : Option Byte) {j : Nat} :
    ∀ (l : List Nat) (c : CCmd), j ∉ l →
    tget [] (l.foldl (s.deliverPiece u req err) c).got j = tget [] c.got j
  | [], _, _ => rfl
  | i :: l, c, h => by
    obtain ⟨hi, hl⟩ := List.ne_and_not_mem_of_not_mem_cons h
    rw [List.foldl_cons, State.got_deliverPieces s u req err l _ hl, State.got_deliverPiece s u req err c hi]

/-- The bytes of a piece are read as its command's place and kept bytes say. -/
theorem CCmd.Delivers.locReadFor {c d : CCmd} (h : c.Delivers d) (s : State) (u : Nat) (l : Loc) (n : Nat) :
    s.locReadFor u d l n = s.locReadFor u c l n := by
  obtain ⟨⟨_, _, _, _, rfl⟩, -⟩ := h
  rfl

theorem CCmd.Delivers.runs {c d : CCmd} (h : c.Delivers d) : d.runs = c.runs := by
  obtain ⟨⟨_, _, _, _, rfl⟩, -⟩ := h
  rfl

/-- A piece of raw data of the request that arrives holds what its source holds. -/
theorem State.got_deliverPiece_self (s : State) {u q j : Nat} {c : CCmd} {p : Run} {l : Loc} (hp : c.runs[j]? = some p)
    (hq : p.req = some q) (hl : j ∉ c.lost) (hsc : p.scs = 0) (hsrc : p.src = some l) :
    tget [] (s.deliverPiece u q none c j).got j = s.locReadFor u c l p.len := by
  have hdata : s.pieceData u (s.readBlock c p) p = some (s.locReadFor u c l p.len) := by
    simp only [State.pieceData, hsrc, hsc, true_or, if_true, (CCmd.Delivers.readBlock s c p).locReadFor]
  have hstep : s.deliverPiece u q none c j = s.readPiece u c j p := by
    simp [State.deliverPiece, hp, hq, hl]
  rw [hstep, State.readPiece]
  simp only [hdata]
  rw [tget_tput_same]

/-- The pieces are delivered in order: those before a piece, the piece, and those behind it. -/
theorem State.deliver_split (s : State) (u : Nat) (c : CCmd) (req : Nat) (err : Option Byte) {j : Nat}
    (hj : j < c.runs.length) : ∃ l r : List Nat, j ∉ r ∧
    s.deliver u c req err =
      r.foldl (s.deliverPiece u req err) (s.deliverPiece u req err (l.foldl (s.deliverPiece u req err) c) j) := by
  obtain ⟨l, r, h⟩ := List.append_of_mem (List.mem_range.2 hj)
  refine ⟨l, r, ?_, ?_⟩
  · have hn := List.nodup_range (n := c.runs.length)
    rw [h] at hn
    exact (List.nodup_cons.1 (List.nodup_append.1 hn).2.1).1
  · rw [State.deliver_eq, h, List.foldl_append, List.foldl_cons]

theorem State.got_deliver (s : State) {u q j : Nat} {c : CCmd} {p : Run} {l : Loc} (hp : c.runs[j]? = some p)
    (hq : p.req = some q) (hl : j ∉ (s.deliver u c q none).lost) (hsc : p.scs = 0) (hsrc : p.src = some l) :
    tget [] (s.deliver u c q none).got j = s.locReadFor u c l p.len := by
  obtain ⟨before, behind, hj, hd⟩ := s.deliver_split u c q none (List.getElem?_eq_some_iff.1 hp).1
  have hfirst : c.Delivers (before.foldl (s.deliverPiece u q none) c) := .foldl (fun c i => .deliverPiece s u q none c i) _ c
  have hrest := CCmd.Delivers.foldl (fun c i => .deliverPiece s u q none c i) behind
    (s.deliverPiece u q none (before.foldl (s.deliverPiece u q none) c) j)
  have hnot : j ∉ (before.foldl (s.deliverPiece u q none) c).lost := fun h =>
    hl (hd ▸ hrest.2 j ((CCmd.Delivers.deliverPiece s u q none _ j).2 j h))
  rw [hd, State.got_deliverPieces _ _ _ _ _ _ hj, s.got_deliverPiece_self (by rw [hfirst.runs]; exact hp) hq hnot hsc hsrc,
    hfirst.locReadFor]

/-! ### Pieces lost -/

/-- The error of a command that loses pieces: its first. -/
def CCmd.Errs (c d : CCmd) (x : Byte) : Prop := d.err = some (c.err.getD x) ∨ d.err = c.err ∧ d.lost = c.lost

theorem CCmd.Errs.lose {c d : CCmd} {x : Byte} (h : c.Errs d x) (k : Nat) : c.Errs (d.lose k x) x := by
  unfold CCmd.lose
  split
  · exact h
  · left
    rcases h with h | ⟨h, -⟩ <;> simp [h]

theorem CCmd.Errs.losePiece {c d : CCmd} {x : Byte} (h : c.Errs d x) (s : State) (i : Nat) : c.Errs (s.losePiece d i x) x := by
  have hfold : ∀ (l : List Nat) (d : CCmd), c.Errs d x → c.Errs (l.foldl (fun (c : CCmd) k => c.lose k x) d) x := by
    intro l
    induction l with
    | nil => intro d h; exact h
    | cons k l ih => intro d h; exact ih _ (h.lose k)
  exact hfold _ d h

theorem CCmd.Errs.deliverPieces (s : State) (u q : Nat) {c : CCmd} {x : Byte} : ∀ (l : List Nat) (d : CCmd), c.Errs d x →
    c.Errs (l.foldl (s.deliverPiece u q (some x)) d) x
  | [], _, h => h
  | i :: l, d, h => by
    rw [List.foldl_cons]
    refine CCmd.Errs.deliverPieces s u q l _ ?_
    unfold State.deliverPiece
    split
    · exact h
    · split
      · exact h
      · exact h.losePiece s i

theorem CCmd.mem_lose (c : CCmd) (k : Nat) (x : Byte) : k ∈ (c.lose k x).lost := by
  unfold CCmd.lose
  split
  · next h => simpa using h
  · simp

theorem mem_ite_of_mem {α : Type} {w : Prop} [Decidable w] {a : α} {l m : List α} (hl : a ∈ l) (hm : a ∈ m) :
    a ∈ if w then l else m := by
  split
  · exact hl
  · exact hm

/-- A piece that is lost is among those lost with it. -/
theorem State.mem_lostWith (s : State) {c : CCmd} {i : Nat} {r : Run} (h : c.runs[i]? = some r) : i ∈ s.lostWith c i := by
  have hi : i < c.runs.length := (List.getElem?_eq_some_iff.1 h).1
  have hr : c.runs[i] = r := (List.getElem?_eq_some_iff.1 h).2
  rw [State.lostWith, h]
  exact mem_ite_of_mem (by simp [hi, hr]) (by simp)

theorem State.mem_losePiece (s : State) {c : CCmd} {i : Nat} {r : Run} (h : c.runs[i]? = some r) (x : Byte) :
    i ∈ (s.losePiece c i x).lost := by
  obtain ⟨l, r, hl⟩ := List.append_of_mem (s.mem_lostWith h)
  rw [State.losePiece, hl, List.foldl_append, List.foldl_cons]
  exact (CCmd.Delivers.foldl (fun c k => .lose c k x) r _).2 i (CCmd.mem_lose _ i x)

/-- A delivery with an error loses every piece of its request (R252). -/
theorem State.lost_deliver (s : State) {u q j : Nat} {c : CCmd} {p : Run} {x : Byte} (hp : c.runs[j]? = some p)
    (hq : p.req = some q) (hl : j ∉ c.lost) :
    j ∈ (s.deliver u c q (some x)).lost ∧ (s.deliver u c q (some x)).err = some (c.err.getD x) := by
  have hmem : j ∈ (s.deliver u c q (some x)).lost := by
    obtain ⟨before, behind, -, hd⟩ := s.deliver_split u c q (some x) (List.getElem?_eq_some_iff.1 hp).1
    have hfirst : c.Delivers (before.foldl (s.deliverPiece u q (some x)) c) :=
      .foldl (fun c i => .deliverPiece s u q (some x) c i) _ c
    have hp' : (before.foldl (s.deliverPiece u q (some x)) c).runs[j]? = some p := by rw [hfirst.runs]; exact hp
    rw [hd]
    refine (CCmd.Delivers.foldl (fun c i => .deliverPiece s u q (some x) c i) behind _).2 j ?_
    by_cases hin : j ∈ (before.foldl (s.deliverPiece u q (some x)) c).lost
    · exact (CCmd.Delivers.deliverPiece s u q (some x) _ j).2 j hin
    · simp only [State.deliverPiece, hp', hq]
      rw [if_neg (by simpa using hin)]
      exact s.mem_losePiece hp' x
  refine ⟨hmem, ?_⟩
  have herrs := CCmd.Errs.deliverPieces s u q (x := x) (List.range c.runs.length) c (.inr ⟨rfl, rfl⟩)
  rw [← State.deliver_eq] at herrs
  rcases herrs with h | ⟨-, h⟩
  · exact h
  · exact absurd (h ▸ hmem) hl

/-! ### The event -/

theorem State.strays_of_none (s : State) {c : CCmd} (h : ∀ p ∈ c.runs, s.resetDie p = none) : s.strays c = (s, c) := by
  have hhit : (c.numbered.filter (fun p => !p.2.wrote)).filterMap (fun p => (s.resetDie p.2).map (fun d => (p.1, d))) = [] := by
    rw [List.filterMap_eq_nil_iff]
    intro p hp
    obtain ⟨i, -, hi⟩ := List.mem_filterMap.1 (List.mem_of_mem_filter hp)
    obtain ⟨r, hr, rfl⟩ := Option.map_eq_some_iff.1 hi
    rw [h r (List.mem_of_getElem? hr), Option.map_none]
  simp [State.strays, hhit]

/-- A delivery with pieces still to come: what is due lands. -/
theorem exec_dramReadDelivery_lands {u id i q t0 : Nat} {e : Engine} {r : Run} {err : Option Byte} {c : CCmd} {s : State}
    {y : Req} (hu : u < unitCount) (hc : ((s.placeEngine u e).unit u).command e id = some c) (hn : c.nextDram = some i)
    (hr : c.runs[i]? = some r) (hq : r.req = some q) (hy : c.reqs[q]? = some y) (ht : y.slot = some t0)
    (hf : ((s.placeEngine u e).unit u).firstRead e t0 = true) (hpow : (s.placeEngine u e).powered u = true)
    (hnow : t0 + ns 288 ≤ (s.placeEngine u e).now) (hph : c.phase = .started) (hstop : c.stop = none)
    (hrun : ((s.placeEngine u e).unit u).run = .running) (herr : ∀ x, err = some x → x = 1 ∨ x = 6)
    (harr : ((s.placeEngine u e).deliver u c q err).arrived = false)
    (hheld : (s.placeEngine u e).heldUp u ((s.placeEngine u e).deliver u c q err) = false)
    (hreset : ∀ p ∈ c.runs, (s.placeEngine u e).resetDie p = none) :
    exec (.dramReadDelivery u e id err) s =
      .next ((s.placeEngine u e).landDue u e ((s.placeEngine u e).deliver u c q err)).1 := by
  have hall : err.all dataError = true := by
    cases err with
    | none => rfl
    | some x => rcases herr x rfl with rfl | rfl <;> rfl
  have hfind : (((s.placeEngine u e).unit u).queueOf e).find? (fun c => c.serial == id) = some c := hc
  have hmoves : ((s.placeEngine u e).unit u).moves c i = true := by
    simp [Unit.moves, hstop, Unit.engines_of_running hrun]
  have hexec : exec (.dramReadDelivery u e id err) s =
      .next ((s.placeEngine u e).finishCopy u e ((s.placeEngine u e).deliver u c q err)) := by
    change execDramReadDelivery u e id err s = _
    simp [execDramReadDelivery, Nat.not_le.2 hu, hfind, hn, hr, hq, hy, ht, hph, hmoves, Nat.not_lt.2 hnow, hall, hf, hpow]
  have hruns : ∀ p ∈ ((s.placeEngine u e).deliver u c q err).runs, (s.placeEngine u e).resetDie p = none := by
    rw [(CCmd.Delivers.deliver _ u c q err).runs]
    exact hreset
  rw [hexec, State.finishCopy]
  simp [hheld, State.strays_of_none _ hruns, harr]

/-! ### The landing of one piece in a buffer -/

/-- What a change of one unit leaves of every place, where it leaves the unit's buffers as its accesses read them. -/
theorem State.locGet_modUnit {s : State} {u : Nat} {f : Unit → Unit}
    (h : ∀ b a, (f (s.unit u)).bget b a = (s.unit u).bget b a) (y : Loc) : (s.modUnit u f).locGet y = s.locGet y := by
  unfold State.locGet
  split
  · next v b _ =>
    rw [State.unit_modUnit]
    split
    · next hv => rw [hv, h]
    · rfl
  all_goals rfl

/-- A byte written to a buffer, as every place is read after it. -/
theorem State.locGet_locPut_buf {s : State} {l : Loc} {v : Nat} {b : Buf} (hl : l.place = .buf v b)
    (h : (s.unit v).BuffersCanonical) (x : Byte) (y : Loc) : (s.locPut l x).locGet y = if y = l then x else s.locGet y := by
  obtain ⟨p, a⟩ := l
  obtain rfl : p = .buf v b := hl
  obtain ⟨p, k⟩ := y
  have hput : s.locPut ⟨.buf v b, a⟩ x = s.modUnit v (fun z => z.bput b [(a, x)]) := rfl
  rw [hput]
  cases p with
  | buf w d =>
    have hget (s : State) : s.locGet ⟨.buf w d, k⟩ = (s.unit w).bget d k := rfl
    rw [hget, hget, State.unit_modUnit]
    by_cases hw : w = v
    · subst hw
      rw [if_pos rfl, Unit.bget_bput (h b), lastByte_cons]
      by_cases hd : d = b
      · by_cases hk : a = k <;> simp [hd, hk, eq_comm]
      · simp [hd]
    · simp [hw]
  | sram _ => simp; rfl
  | dram => simp; rfl
  | host => simp; rfl
  | doorbell => simp; rfl
  | scale _ => simp; rfl

theorem State.BuffersCanonical_locPut {s : State} {l : Loc} {v : Nat} {b : Buf} (hl : l.place = .buf v b)
    (h : (s.unit v).BuffersCanonical) (x : Byte) : ((s.locPut l x).unit v).BuffersCanonical := by
  rw [State.locPut, hl]
  dsimp only
  rw [State.unit_modUnit, if_pos rfl]
  exact h.bput b _

/-- Bytes written to a buffer, as every place is read after them. -/
theorem State.locGet_locWrite_buf {v : Nat} {b : Buf} : ∀ (bs : List Byte) {s : State} {l : Loc}, l.place = .buf v b →
    (s.unit v).BuffersCanonical → ∀ y : Loc,
    (s.locWrite l bs).locGet y =
      if y.place = l.place ∧ l.addr ≤ y.addr ∧ y.addr < l.addr + bs.length then bs.getD (y.addr - l.addr) 0 else s.locGet y
  | [], s, l, _, _, y => by
    rw [if_neg (by simp only [List.length_nil]; omega)]
    rfl
  | x :: bs, s, l, hl, h, y => by
    have hput := State.locGet_locPut_buf hl h x y
    have hy : y = l ↔ y.place = l.place ∧ y.addr = l.addr := by cases y; cases l; simp
    rw [State.locWrite, State.locGet_locWrite_buf bs (l := { l with addr := l.addr + 1 }) hl
      (State.BuffersCanonical_locPut hl h x), hput]
    simp only [List.length_cons, hy]
    by_cases hp : y.place = l.place
    · rcases Nat.lt_trichotomy y.addr l.addr with hlt | heq | hgt
      · rw [if_neg (by omega), if_neg (by omega), if_neg (by omega)]
      · rw [if_neg (by omega), if_pos ⟨hp, heq⟩, if_pos ⟨hp, by omega, by omega⟩, heq, Nat.sub_self]
        rfl
      · by_cases hin : y.addr < l.addr + (bs.length + 1)
        · rw [if_pos ⟨hp, by omega, by omega⟩, if_pos ⟨hp, by omega, hin⟩]
          obtain ⟨k, hk⟩ : ∃ k, y.addr - l.addr = k + 1 := ⟨y.addr - l.addr - 1, by omega⟩
          rw [hk, List.getD_cons_succ]
          congr 1
          omega
        · rw [if_neg (by omega), if_neg (by omega), if_neg (by omega)]
    · simp [hp]

theorem Unit.bget_setQueue (x : Unit) (e : Engine) (q : List CCmd) (b : Buf) (a : Nat) :
    (x.setQueue e q).bget b a = x.bget b a := by
  cases e <;> exact Unit.bget_congr rfl (fun b => by cases b <;> rfl) b a

theorem State.locGet_keepBytes (s : State) (u serial n : Nat) (l : Loc) (bs : List Byte) (y : Loc) :
    (s.keepBytes u serial n l bs).locGet y = s.locGet y :=
  State.locGet_modUnit (fun b a => Unit.bget_congr rfl (fun b => by cases b <;> rfl) b a) y

theorem State.locGet_close (r : Landed) (u : Nat) (e : Engine) (c : CCmd) (y : Loc) :
    (r.close u e c).1.locGet y = r.s.locGet y := by
  unfold Landed.close
  dsimp only
  rw [State.putCmd, State.locGet_modUnit (fun b a => Unit.bget_setQueue _ e _ b a),
    State.locGet_modUnit (fun b a => Unit.bget_congr rfl (fun b => by cases b <;> rfl) b a)]

theorem State.BuffersCanonical_keepBytes {s : State} {v : Nat} (h : (s.unit v).BuffersCanonical) {u serial n : Nat} {l : Loc}
    {bs : List Byte} : ((s.keepBytes u serial n l bs).unit v).BuffersCanonical := by
  rw [State.keepBytes, State.unit_modUnit]
  split
  · next hv => exact (hv ▸ h).of_buf fun b => by cases b <;> rfl
  · exact h

/-- The landing of one raw piece that goes to a buffer. -/
theorem State.landDue_one {s : State} {u : Nat} (e : Engine) {c : CCmd} {j : Nat} {p : Run} {v : Nat} {b : Buf}
    (hl : c.landing s.now = [(j, p)]) (hheld : s.heldUp u c = false) (hop : c.fields.1 ≠ 6) (hlost : c.lost = [])
    (hd : p.dcs = 0) (hp : p.dst.place = .buf v b) (h : (s.unit v).BuffersCanonical) (y : Loc) :
    (s.landDue u e c).1.locGet y =
      if y.place = p.dst.place ∧ p.dst.addr ≤ y.addr ∧ y.addr < p.dst.addr + (tget [] c.got j).length then
        (tget [] c.got j).getD (y.addr - p.dst.addr) 0
      else s.locGet y := by
  have hbytes : c.bytesOf [(j, p)] = [(p, tget [] c.got j)] := by
    simp [CCmd.bytesOf, CCmd.unwritten, CCmd.lostUnits, hlost]
  have hland : (s.landWrites u c [(p, tget [] c.got j)]).s =
      s.engineWrite u c.serial c.bundle p.dst (tget [] c.got j) := by
    simp [State.landWrites, joinDoor, schemeBlocks, hd, hp, State.landBytes]
  have hdue : (s.landDue u e c).1 = ((s.landWrites u c [(p, tget [] c.got j)]).close u e (c.wroteOf [j])).1 := by
    simp [State.landDue, hl, hheld, State.refresh, hop, hbytes]
  rw [hdue, State.locGet_close, hland, State.engineWrite, State.keepOld,
    State.locGet_locWrite_buf _ hp (State.BuffersCanonical_keepBytes h), State.locGet_keepBytes]

theorem State.length_locReadFor (s : State) (u : Nat) (c : CCmd) (l : Loc) (n : Nat) : (s.locReadFor u c l n).length = n := by
  simp [State.locReadFor]

/-- A byte of DRAM as a command reads it that has kept none. -/
theorem State.getD_locReadFor_dram (s : State) (u : Nat) {c : CCmd} (ho : c.old = []) {l : Loc} (hl : l.place = .dram) {k n : Nat}
    (hk : k < n) : (s.locReadFor u c l n).getD k 0 = s.locGet (l.plus k) := by
  simp [State.locReadFor, oldByte, ho, hl, hk, Loc.plus]

/-! ### O35 -/

/-- Settles O35: a delivery goes piece by piece in order, what lands of one piece is one write, and the end of a command
frees its place and its tag. -/
theorem copyCommandsComplete : Obligations.CopyCommandsComplete := by
  refine ⟨fun u e id i q t0 r err c s hu => ?_, fun u e id err data c s hu => ?_,
    fun u id c s hu hc he hl hm hleft hrun hpow => ?_,
    fun u id c o e s hu hc hop he hfirst hrun hpow => exec_cfenceStart_first hu hc he hfirst hrun hpow⟩
  · intro s' d hc hn hr hq ⟨y, hy, ht⟩ hf hpow hnow hph hstop hrun herr harr hheld hreset hop
    have hexec := exec_dramReadDelivery_lands hu hc hn hr hq hy ht hf hpow hnow hph hstop hrun herr harr hheld hreset
    have hdel : c.Delivers d := .deliver s' u c q err
    obtain ⟨⟨_, _, _, _, hd⟩, -⟩ := hdel
    refine ⟨fun hland => ?_, fun j p hp hpq hj => ⟨fun hnone hsc hjl l hsrc => ?_, fun x hx => ?_⟩⟩
    · have hser : d.serial = id := by rw [hd]; exact (Unit.serial_of_command hc : c.serial = id)
      rw [hexec, State.landDue_of_landed hland, State.putCmd, hser]
      rfl
    · subst hnone
      have hgot : tget [] d.got j = s'.locReadFor u c l p.len := s'.got_deliver hp hpq hjl hsc hsrc
      refine ⟨hgot, fun v b hland hlost hdc hdst hsrcl hwf hold => ⟨_, hexec, ?_⟩⟩
      have hbyte := State.landDue_one e hland hheld (by rw [hd]; exact hop) hlost hdc hdst (hwf v)
      rw [hgot, State.length_locReadFor] at hbyte
      refine ⟨fun k hk => ?_, fun y hy => ?_⟩
      · rw [hbyte, if_pos ⟨rfl, by simp [Loc.plus], by simpa [Loc.plus] using hk⟩]
        have hsub : (p.dst.plus k).addr - p.dst.addr = k := by simp [Loc.plus]
        rw [hsub, s'.getD_locReadFor_dram u hold hsrcl hk]
      · rw [hbyte, if_neg]
        rintro ⟨h1, h2, h3⟩
        rcases hy with hy | hy | hy
        · exact hy h1
        · omega
        · omega
    · subst hx
      exact s'.lost_deliver hp hpq hj
  · intro s' hc hm hrun hpow hl hw hop herr
    obtain ⟨hdone, hother⟩ := State.closeCopy_spec e hrun hw
    refine ⟨_, exec_copyCommandComplete_close data hu hc hm hrun hpow hl hop herr, ?_, hdone.regs, hother, hdone.ok,
      fun code hcode hpeer => hdone.failed code hcode hpeer⟩
    rw [← Unit.serial_of_command hc]
    exact hdone.gone
  · obtain ⟨hpairs, hregsc, htags, hgone, hregs, hruns⟩ := Unit.landScld_of_ok (x := s.unit u) he hl s.now
    refine ⟨_, exec_scldLanding_due hu hc hm hleft hrun hpow, ?_⟩
    rw [State.unit_setUnit, if_pos rfl, Unit.settle_of_running (hruns.trans hrun)]
    exact ⟨hpairs, hregsc, htags, hgone, hregs⟩

end Sys2Proof.Machine
end

/-! ## Encodings

A word is put together exactly from the fields read from it (R105, R116, R119, R123, R125): one law for each format of a slot.
With the tables of names in both directions, a word decodes to an instruction where it is its word and no check of its fields
fails: one law for each kind of slot, then the statements of O52 to O54. -/

section
namespace Sys2Proof

/-! ### Words put together from fields -/

theorem append_eq_iff {m n : Nat} {x : BitVec m} {y : BitVec n} {w : BitVec (m + n)} :
    x ++ y = w ↔ field w n m = x ∧ field w 0 n = y := by
  constructor
  · rintro rfl
    exact ⟨BitVec.extractLsb'_append_eq_left, BitVec.extractLsb'_append_eq_right⟩
  · rintro ⟨rfl, rfl⟩
    have hglue : field w n m ++ field w 0 n = field w 0 (m + n) :=
      BitVec.extractLsb'_append_extractLsb'_eq_extractLsb' (Nat.zero_add n).symm
    exact hglue.trans BitVec.extractLsb'_eq_self

theorem eq_append_iff {m n : Nat} {x : BitVec m} {y : BitVec n} {w : BitVec (m + n)} :
    w = x ++ y ↔ field w n m = x ∧ field w 0 n = y := eq_comm.trans append_eq_iff

theorem field_field {n : Nat} (x : BitVec n) {lo k lo' w : Nat} (h : lo' + w ≤ k) :
    field (field x lo k) lo' w = field x (lo + lo') w := by
  apply BitVec.eq_of_getLsbD_eq
  intro i hi
  simp [field, show lo' + i < k by omega, Nat.add_assoc, hi]

theorem field_one {n : Nat} (x : BitVec n) (i : Nat) : field x i 1 = ofBool 1 (bitOf x i) := by
  apply BitVec.eq_of_getLsbD_eq
  intro k hk
  obtain rfl : k = 0 := by omega
  cases h : x.getLsbD i <;> simp [ofBool, bitOf, field, h]

theorem ofBool_inj {a b : Bool} : ofBool 1 a = ofBool 1 b ↔ a = b := by cases a <;> cases b <;> decide

theorem field_eq_ofBool_iff {n : Nat} {x : BitVec n} {i : Nat} {b : Bool} : field x i 1 = ofBool 1 b ↔ bitOf x i = b := by
  rw [field_one, ofBool_inj]

/-! ### The formats of the slots

The law of a format peels its fields off the word, from the highest to the lowest. -/

theorem packBare_eq_iff {op f : Nat} {w : BitVec 32} :
    packBare op f = w ↔ field w 0 6 = BitVec.ofNat 6 op ∧ field w 29 3 = BitVec.ofNat 3 f ∧
      field w 6 6 = 0 ∧ field w 12 6 = 0 ∧ field w 18 6 = 0 ∧ field w 24 3 = 0 ∧ field w 27 1 = 0 ∧ field w 28 1 = 0 := by
  have hzero : (0 : BitVec 23) = 0#1 ++ (0#1 ++ (0#3 ++ (0#6 ++ (0#6 ++ 0#6)))) := rfl
  rw [packBare, hzero, append_eq_iff, eq_append_iff, eq_append_iff (m := 1) (n := 1 + (3 + (6 + (6 + 6))))]
  repeat rw [eq_append_iff]
  simp only [field_field, Nat.reduceAdd, Nat.reduceLeDiff, BitVec.ofNat_eq_ofNat, and_assoc, and_comm]

theorem packSR_eq_iff {op : Nat} {f : BitVec 3} {o : SR} {w : BitVec 32} :
    packSR op f o = w ↔ field w 0 6 = BitVec.ofNat 6 op ∧ field w 29 3 = f ∧ srOf w = o := by
  obtain ⟨nw, pn, p, b, a, d⟩ := o
  rw [packSR, append_eq_iff]
  repeat rw [eq_append_iff]
  simp only [field_field, field_eq_ofBool_iff, Nat.reduceAdd, Nat.reduceLeDiff, srOf, SR.mk.injEq,
    and_assoc, and_comm, and_left_comm]

theorem packSI_eq_iff {op : Nat} {o : SI} {w : BitVec 32} :
    packSI op o = w ↔ field w 0 6 = BitVec.ofNat 6 op ∧ siOf w = o := by
  obtain ⟨imm9, nw, pn, p, a, d⟩ := o
  rw [packSI, siOf, SI.mk.injEq, append_eq_iff, append_eq_iff]
  repeat rw [eq_append_iff]
  simp only [field_field, field_eq_ofBool_iff, Nat.reduceAdd, Nat.reduceLeDiff, eq_comm (a := field imm9 _ _),
    and_assoc, and_comm, and_left_comm]

theorem packSL_eq_iff {op : Nat} {o : SL} {w : BitVec 32} :
    packSL op o = w ↔ field w 0 6 = BitVec.ofNat 6 op ∧ field w 30 2 = 0 ∧ slOf w = o := by
  obtain ⟨imm18, d⟩ := o
  rw [packSL, append_eq_iff]
  repeat rw [eq_append_iff]
  simp only [field_field, Nat.reduceAdd, Nat.reduceLeDiff, slOf, SL.mk.injEq, and_assoc, and_comm]

theorem packSB_eq_iff {op : Nat} {o : SB} {w : BitVec 32} :
    packSB op o = w ↔ field w 0 6 = BitVec.ofNat 6 op ∧ field w 30 2 = 0 ∧ sbOf w = o := by
  obtain ⟨off20, pn, p⟩ := o
  rw [packSB, sbOf, SB.mk.injEq]
  repeat rw [append_eq_iff]
  repeat rw [eq_append_iff]
  simp only [field_field, field_eq_ofBool_iff, Nat.reduceAdd, Nat.reduceLeDiff, eq_comm (a := field off20 _ _),
    and_assoc, and_comm, and_left_comm]

theorem packV_eq_iff {op : Nat} {o : VOps} {w : BitVec 48} :
    packV op o = w ↔ field w 0 8 = BitVec.ofNat 8 op ∧ vopsOf w = o := by
  obtain ⟨vd, va, vb, vc, mask, neg, rnd, ty, nw, fn⟩ := o
  rw [packV, append_eq_iff]
  repeat rw [eq_append_iff]
  simp only [field_field, field_eq_ofBool_iff, Nat.reduceAdd, Nat.reduceLeDiff, vopsOf, VOps.mk.injEq,
    and_assoc, and_comm, and_left_comm]

theorem packM_eq_iff {var : Nat} {o : MOps} {w : BitVec 48} :
    packM var o = w ↔ field w 3 3 = BitVec.ofNat 3 var ∧ field w 32 16 = 0 ∧ mopsOf w = o := by
  obtain ⟨shape, fa, fb, acc, set, tag, rnd, asrc, base⟩ := o
  rw [packM, append_eq_iff]
  repeat rw [eq_append_iff]
  simp only [field_field, field_eq_ofBool_iff, Nat.reduceAdd, Nat.reduceLeDiff, mopsOf, MOps.mk.injEq,
    and_assoc, and_comm, and_left_comm]

theorem packC_eq_iff {op : Nat} {o : COps} {w : BitVec 32} :
    packC op o = w ↔ field w 0 6 = BitVec.ofNat 6 op ∧ copsOf w = o := by
  obtain ⟨flags, pn, p, tag, blk⟩ := o
  rw [packC, append_eq_iff]
  repeat rw [eq_append_iff]
  simp only [field_field, field_eq_ofBool_iff, Nat.reduceAdd, Nat.reduceLeDiff, copsOf, COps.mk.injEq,
    and_assoc, and_comm, and_left_comm]

theorem Bundle.word_eq_iff {b : Bundle} {w : BitVec 256} : b.word = w ↔ bundleOf w = b := by
  obtain ⟨header, s, va, vb, m, c0, c1⟩ := b
  rw [Bundle.word, append_eq_iff]
  repeat rw [eq_append_iff]
  simp only [field_field, Nat.reduceAdd, Nat.reduceLeDiff, bundleOf, Bundle.mk.injEq, and_assoc, and_comm]

theorem eq_ofNat_iff {k n : Nat} {x : BitVec k} : x = BitVec.ofNat k n ↔ x.toNat = n % 2 ^ k := by
  rw [← BitVec.toNat_inj, BitVec.toNat_ofNat]

/-! ### Faults and well-formed instructions -/

theorem zeroField_eq_nil {n : Nat} {lo : Nat} {x : BitVec n} : zeroField lo x = [] ↔ x = 0 := by
  by_cases h : x = 0 <;> simp [zeroField, h]

theorem Dec.check_eq_ok_iff {i j : Instr} {faults : List Nat} : Dec.check i faults = .ok j ↔ faults = [] ∧ i = j := by
  by_cases h : faults = [] <;> simp [Dec.check, h]

theorem family_ne_event_iff {i : Instr} : i.family ≠ .event ↔
    isScalar i = true ∨ (vectorOf i).isSome = true ∨ (matrixOf i).isSome = true ∨ (copyOf i).isSome = true := by
  unfold Instr.family
  split_ifs <;> simp [*]

theorem wellFormed_iff {i : Instr} : WellFormed i = true ↔ i.family ≠ .event ∧ encodingFaults i = [] := by
  simp [WellFormed]

/-! ### Scalar words -/

/-- The table of names reads each row back from the fields of its format; `LD`, `LDSP`, `ST` and the atomics have a row for each
buffer or width. -/
theorem scalarName_of_encodeScalar {i : Instr} {w : BitVec 32} (h : encodeScalar i = some w) :
    scalarName w = .ok i ∧ scalarWordFaults w i = [] := by
  cases i with
  | nop | endTask | eret | duskdone =>
    obtain ⟨hop, hf, hbare⟩ := packBare_eq_iff.1 (Option.some.inj h)
    exact ⟨by rw [scalarName, subOf, hop, hf]; rfl, by simp [scalarWordFaults, zeroField_eq_nil, hbare, hf]⟩
  | add | sub | and | or | xor | andn | orn | xnor | shl | shr | sar | rol | ror | mul | mulh | mulhs | div | divs | rem
  | rems | min | max | mins | maxs | clz | ctz | popc | brev | sext | zext | fshl | fshr | setpEq | setpNe | setpLt | setpLts
  | setpLe | setpLes | pand | por | pxor | pnot | br | ret | stg | waitcTag | waitcMask | bar | xfer | rdsys | wrsys | trap
  | fence | sld | sst | addsh | sel | xext =>
    obtain ⟨hop, hf, ho⟩ := packSR_eq_iff.1 (Option.some.inj h)
    exact ⟨by rw [scalarName, subOf, hop, hf, ho]; rfl, rfl⟩
  | ld row | ldsp row | st row | atomAdd row | atomAnd row | atomOr row | atomXor row | atomMin row | atomMax row
  | atomMins row | atomMaxs row | atomXchg row | atomCas row =>
    cases row
    all_goals
      obtain ⟨hop, hf, ho⟩ := packSR_eq_iff.1 (Option.some.inj h)
      exact ⟨by rw [scalarName, subOf, hop, hf, ho]; rfl, rfl⟩
  | addi | andi | ori | xori | shli | shri | sari | setpiEq | setpiNe | setpiLt | setpiLts | setpiLe | setpiLes | loop | chk =>
    obtain ⟨hop, ho⟩ := packSI_eq_iff.1 (Option.some.inj h)
    exact ⟨by rw [scalarName, hop, ho]; rfl, rfl⟩
  | movi | movh =>
    obtain ⟨hop, h0, ho⟩ := packSL_eq_iff.1 (Option.some.inj h)
    exact ⟨by rw [scalarName, hop, ho]; rfl, zeroField_eq_nil.2 h0⟩
  | bri | call =>
    obtain ⟨hop, h0, ho⟩ := packSB_eq_iff.1 (Option.some.inj h)
    exact ⟨by rw [scalarName, hop, ho]; rfl, zeroField_eq_nil.2 h0⟩
  | _ => cases h

theorem packSR_srOf_eq_iff {op : Nat} {f : BitVec 3} {w : BitVec 32} :
    packSR op f (srOf w) = w ↔ (field w 0 6).toNat = op % 64 ∧ (field w 29 3).toNat = f.toNat := by
  rw [packSR_eq_iff, eq_ofNat_iff, BitVec.toNat_inj]
  simp

/-- The word of each row of the table of names, by its opcode and sub-code, has the fields of the row's format. -/
theorem encodeScalar_of_scalarName {i : Instr} {w : BitVec 32} (h : scalarName w = .ok i) (hw : scalarWordFaults w i = []) :
    encodeScalar i = some w := by
  have hsub : (field w 29 3).toNat < 8 := (field w 29 3).isLt
  unfold scalarName subOf at h
  -- the opcode, then the sub-code where the opcode has several instructions
  split at h
  all_goals try split at h
  all_goals cases h
  all_goals simp only [scalarWordFaults, List.append_eq_nil_iff, zeroField_eq_nil] at hw
  all_goals refine congrArg some ?_
  all_goals simp [packSR_srOf_eq_iff, packBare_eq_iff, packSI_eq_iff, packSL_eq_iff, packSB_eq_iff,
    eq_ofNat_iff (x := field w 0 6), eq_ofNat_iff (x := field w 29 3), *]
  -- the last row of a table whose sub-codes are all in use
  all_goals
    simp only [imp_false] at *
    omega

theorem decodeScalar_eq_ok_iff {i : Instr} {w : BitVec 32} :
    decodeScalar w = .ok i ↔ encodeScalar i = some w ∧ encodingFaults i = [] := by
  rw [decodeScalar]
  constructor
  · intro h
    split at h
    · cases h
    next j hj =>
      obtain ⟨hfaults, rfl⟩ := Dec.check_eq_ok_iff.1 h
      obtain ⟨hword, henc⟩ := List.append_eq_nil_iff.1 hfaults
      exact ⟨encodeScalar_of_scalarName hj hword, henc⟩
  · rintro ⟨henc, hfaults⟩
    obtain ⟨hname, hword⟩ := scalarName_of_encodeScalar henc
    simp [hname, Dec.check_eq_ok_iff, hword, hfaults]

theorem isScalar_eq_isSome_encodeScalar (i : Instr) : isScalar i = (encodeScalar i).isSome := by
  cases i with
  | ld row | ldsp row | st row | atomAdd row | atomAnd row | atomOr row | atomXor row | atomMin row | atomMax row
  | atomMins row | atomMaxs row | atomXchg row | atomCas row => cases row <;> rfl
  | _ => rfl

/-! ### O52 -/

/-- Settles O52: a scalar word decodes where it is the word of an instruction without faults. -/
theorem scalarDecodeEncode : Obligations.ScalarDecodeEncode := by
  unfold Obligations.ScalarDecodeEncode
  refine ⟨fun i w hwf henc => ?_, fun i w hdec => ?_⟩
  · exact decodeScalar_eq_ok_iff.2 ⟨henc, Machine.encodingFaults_of_wellFormed hwf⟩
  · obtain ⟨henc, hfaults⟩ := decodeScalar_eq_ok_iff.1 hdec
    have hscalar : isScalar i = true := by rw [isScalar_eq_isSome_encodeScalar, henc]; rfl
    exact ⟨wellFormed_iff.2 ⟨family_ne_event_iff.2 (.inl hscalar), hfaults⟩, henc⟩

/-! ### Vector words -/

theorem vectorName_of_vectorOf {i : Instr} {op : Nat} {c : Cluster} {o : VOps} (h : vectorOf i = some (op, c, o))
    (hv : variantOk i = true) : vectorName (BitVec.ofNat 8 op).toNat c o = some i := by
  cases i with
  | vtrimX | vtrimM | vtrimXb | vrnd | vrndSeed | vsfckMor | vsfckHil | kmov | kmovVk | kmovKv =>
    cases h
    have hfn := beq_iff_eq.1 hv
    simp [vectorName, hfn]
  | _ => cases h <;> rfl

theorem vectorOf_of_vectorName {op : Nat} {c : Cluster} {o : VOps} {i : Instr} (h : vectorName op c o = some i) :
    vectorOf i = some (op, c, o) := by
  unfold vectorName at h
  split at h
  all_goals cases h
  all_goals repeat' split
  all_goals rfl

theorem variantOk_of_encodingFaults {i : Instr} {op : Nat} {c : Cluster} {o : VOps} (h : vectorOf i = some (op, c, o))
    (hf : encodingFaults i = []) : variantOk i = true := by
  simp only [encodingFaults, h] at hf
  split at hf
  · have hneed : need 43 (variantOk i) = [] := (List.append_eq_nil_iff.1 hf).2
    simpa [need] using hneed
  · cases hf

theorem decodeVector_eq_ok_iff {i : Instr} {c : Cluster} {w : BitVec 48} :
    decodeVector c w = .ok i ↔ encodingFaults i = [] ∧ ∃ op o, vectorOf i = some (op, c, o) ∧ packV op o = w := by
  rw [decodeVector]
  constructor
  · intro h
    split at h
    · cases h
    next j hj =>
      obtain ⟨hfaults, rfl⟩ := Dec.check_eq_ok_iff.1 h
      exact ⟨hfaults, _, _, vectorOf_of_vectorName hj, packV_eq_iff.2 ⟨by simp, rfl⟩⟩
  · rintro ⟨hfaults, op, o, hof, hpack⟩
    obtain ⟨hop, ho⟩ := packV_eq_iff.1 hpack
    rw [hop, ho, vectorName_of_vectorOf hof (variantOk_of_encodingFaults hof hfaults)]
    exact Dec.check_eq_ok_iff.2 ⟨hfaults, rfl⟩

/-! ### Matrix words -/

theorem matrixName_of_matrixOf {i : Instr} {var : Nat} {o : MOps} (h : matrixOf i = some (var, o)) :
    matrixName (BitVec.ofNat 3 var).toNat o = some i := by
  cases i with
  | mm | mmsN24 | mmsN48 | mmt | azero | ascl | acvt => cases h; rfl
  | _ => cases h

theorem matrixOf_of_matrixName {var : Nat} {o : MOps} {i : Instr} (h : matrixName var o = some i) :
    matrixOf i = some (var, o) := by
  unfold matrixName at h
  split at h <;> cases h <;> rfl

theorem decodeMatrix_eq_ok_iff {i : Instr} {w : BitVec 48} :
    decodeMatrix w = .ok i ↔ encodingFaults i = [] ∧ encodeMatrix i = some w := by
  rw [decodeMatrix]
  constructor
  · intro h
    split at h
    · cases h
    next j hj =>
      obtain ⟨hfaults, rfl⟩ := Dec.check_eq_ok_iff.1 h
      obtain ⟨hzero, henc⟩ := List.append_eq_nil_iff.1 hfaults
      refine ⟨henc, ?_⟩
      rw [encodeMatrix, matrixOf_of_matrixName hj]
      exact congrArg some (packM_eq_iff.2 ⟨by simp, zeroField_eq_nil.1 hzero, rfl⟩)
  · rintro ⟨hfaults, henc⟩
    obtain ⟨⟨var, o⟩, hof, hpack⟩ := Option.map_eq_some_iff.1 henc
    obtain ⟨hvar, hzero, ho⟩ := packM_eq_iff.1 hpack
    rw [hvar, ho, matrixName_of_matrixOf hof]
    exact Dec.check_eq_ok_iff.2 ⟨by rw [zeroField_eq_nil.2 hzero, hfaults]; rfl, rfl⟩

/-! ### Copy words -/

theorem copyName_of_copyOf {i : Instr} {op : Nat} {e : Engine} {o : COps} (h : copyOf i = some (op, e, o)) :
    copyName (BitVec.ofNat 6 op).toNat e o = some i := by
  cases i with
  | cpy | cpym | gath | scat | fill | cmpr | scld | pref | cfence | coll | repart | walk | fsend | ffetch => cases h; rfl
  | _ => cases h

theorem copyOf_of_copyName {op : Nat} {e : Engine} {o : COps} {i : Instr} (h : copyName op e o = some i) :
    copyOf i = some (op, e, o) := by
  unfold copyName at h
  split at h <;> cases h <;> rfl

theorem decodeCopy_eq_ok_iff {i : Instr} {e : Engine} {w : BitVec 32} :
    decodeCopy e w = .ok i ↔ encodingFaults i = [] ∧ ∃ op o, copyOf i = some (op, e, o) ∧ packC op o = w := by
  rw [decodeCopy]
  constructor
  · intro h
    split at h
    · cases h
    next j hj =>
      obtain ⟨hfaults, rfl⟩ := Dec.check_eq_ok_iff.1 h
      exact ⟨hfaults, _, _, copyOf_of_copyName hj, packC_eq_iff.2 ⟨by simp, rfl⟩⟩
  · rintro ⟨hfaults, op, o, hof, hpack⟩
    obtain ⟨hop, ho⟩ := packC_eq_iff.1 hpack
    rw [hop, ho, copyName_of_copyOf hof]
    exact Dec.check_eq_ok_iff.2 ⟨hfaults, rfl⟩

/-! ### O53 -/

/-- Settles O53: the laws of the vector, matrix and copy words, and of the bundle. -/
theorem slotDecodeEncode : Obligations.SlotDecodeEncode := by
  unfold Obligations.SlotDecodeEncode
  refine ⟨fun i op c o w hwf hof henc => ?_, fun i w hwf henc => ?_, fun i op e o w hwf hof henc => ?_,
    fun i c w hdec => ?_, fun i w hdec => ?_, fun i e w hdec => ?_, fun b => Bundle.word_eq_iff.1 rfl⟩
  · rw [encodeVector, hof] at henc
    exact decodeVector_eq_ok_iff.2 ⟨Machine.encodingFaults_of_wellFormed hwf, op, o, hof, Option.some.inj henc⟩
  · exact decodeMatrix_eq_ok_iff.2 ⟨Machine.encodingFaults_of_wellFormed hwf, henc⟩
  · rw [encodeCopy, hof] at henc
    exact decodeCopy_eq_ok_iff.2 ⟨Machine.encodingFaults_of_wellFormed hwf, op, o, hof, Option.some.inj henc⟩
  · obtain ⟨hfaults, op, o, hof, hpack⟩ := decodeVector_eq_ok_iff.1 hdec
    have hfamily : i.family ≠ .event := family_ne_event_iff.2 (.inr (.inl (by rw [hof]; rfl)))
    exact ⟨wellFormed_iff.2 ⟨hfamily, hfaults⟩, by rw [encodeVector, hof]; exact congrArg some hpack, op, o, hof⟩
  · obtain ⟨hfaults, henc⟩ := decodeMatrix_eq_ok_iff.1 hdec
    obtain ⟨_, hof, _⟩ := Option.map_eq_some_iff.1 henc
    have hfamily : i.family ≠ .event := family_ne_event_iff.2 (.inr (.inr (.inl (by rw [hof]; rfl))))
    exact ⟨wellFormed_iff.2 ⟨hfamily, hfaults⟩, henc⟩
  · obtain ⟨hfaults, op, o, hof, hpack⟩ := decodeCopy_eq_ok_iff.1 hdec
    have hfamily : i.family ≠ .event := family_ne_event_iff.2 (.inr (.inr (.inr (by rw [hof]; rfl))))
    exact ⟨wellFormed_iff.2 ⟨hfamily, hfaults⟩, by rw [encodeCopy, hof]; exact congrArg some hpack, op, o, hof⟩

/-! ### O54 -/

/-- Settles O54: the decoder evaluated on each word. -/
theorem wordsDecode : Obligations.WordsDecode := by
  unfold Obligations.WordsDecode
  and_intros <;> decide

end Sys2Proof
end

/-! ## Slots that do not execute

Only an instruction with a predicate field can fail to execute, and each of these is a slot step (R129): O3. -/

section
namespace Sys2Proof.Machine

/-- An instruction with a predicate field is a slot step, whatever its effect (R129). -/
theorem exec_of_predicated {i : Instr} (h : (predOf i).isSome = true) (s : State) :
    ∃ eff, exec i s = s.slotStep i eff := by
  cases i
  case add | sub | and | or | xor | andn | orn | xnor | shl | shr | sar | rol | ror | mul | mulh | mulhs | div | divs | rem |
    rems | min | max | mins | maxs | addsh | sel =>
    simp only [exec, execAdd, execSub, execAnd, execOr, execXor, execAndn, execOrn, execXnor, execShl, execShr, execSar, execRol,
      execRor, execMul, execMulh, execMulhs, execDiv, execDivs, execRem, execRems, execMin, execMax, execMins, execMaxs,
      execAddsh, execSel]
    exact ⟨_, rfl⟩
  case clz | ctz | popc | brev | sext | zext | fshl | fshr | addi | andi | ori | xori | shli | shri | sari | setpEq | setpNe |
    setpLt | setpLts | setpLe | setpLes | setpiEq | setpiNe | setpiLt | setpiLts | setpiLe | setpiLes =>
    simp only [exec, execClz, execCtz, execPopc, execBrev, execSext, execZext, execFshl, execFshr, execAddi, execAndi, execOri,
      execXori, execShli, execShri, execSari, execSetpEq, execSetpNe, execSetpLt, execSetpLts, execSetpLe, execSetpLes,
      execSetpiEq, execSetpiNe, execSetpiLt, execSetpiLts, execSetpiLe, execSetpiLes]
    exact ⟨_, rfl⟩
  case pand | por | pxor | pnot | bri | call | br | ret | loop | chk | ld | ldsp | st | xext | stg | waitcTag | waitcMask | bar |
    xfer | rdsys | wrsys | trap | fence | sld | sst =>
    simp only [exec, execPand, execPor, execPxor, execPnot, execBri, execCall, execBr, execRet, execLoop, execChk, execLd,
      execLdsp, execSt, execXext, execStg, execWaitcTag, execWaitcMask, execBar, execXfer, execRdsys, execWrsys, execTrap,
      execFence, execSld, execSst]
    exact ⟨_, rfl⟩
  case atomAdd | atomAnd | atomOr | atomXor | atomMin | atomMax | atomMins | atomMaxs | atomXchg | atomCas | cpy | cpym | gath |
    scat | fill | cmpr | scld | pref | cfence | coll | repart | walk | fsend | ffetch =>
    simp only [exec, execAtomAdd, execAtomAnd, execAtomOr, execAtomXor, execAtomMin, execAtomMax, execAtomMins, execAtomMaxs,
      execAtomXchg, execAtomCas, execCpy, execCpym, execGath, execScat, execFill, execCmpr, execScld, execPref, execCfence,
      execColl, execRepart, execWalk, execFsend, execFfetch]
    exact ⟨_, rfl⟩
  all_goals cases h

theorem predOf_isSome_of_not_executes {x : Unit} {i : Instr} (h : x.executes i = false) : (predOf i).isSome = true := by
  unfold Unit.executes at h
  split at h
  · cases h
  · next hp => rw [hp]; rfl

/-- Settles O3: only a predicated instruction can fail to execute, and its effect is a slot step's. -/
theorem notExecutedHasNoEffect : Obligations.NotExecutedHasNoEffect := by
  intro i s hready hx
  obtain ⟨eff, hexec⟩ := exec_of_predicated (predOf_isSome_of_not_executes hx) s
  rw [hexec, slotStep_not_executed hready hx]

end Sys2Proof.Machine
end

/-! ## Double faults

A synchronous trap in handler mode, on a tile and on a sequencer (R154, R288): O17. -/

section
namespace Sys2Proof.Machine

theorem Unit.syncTrap_handler_tile {u : Nat} {x : Unit} (hu : u < 512) (h : x.handler = true) (c : Cause) (v : Word) :
    Unit.syncTrap u x c v = x.endFaulted c.word v := by
  simp [Unit.syncTrap, isTile, h, hu]

theorem Unit.syncTrap_handler_sequencer {u : Nat} {x : Unit} (hu : 512 ≤ u) (h : x.handler = true) (c : Cause) (v : Word) :
    Unit.syncTrap u x c v = { x with run := .seqHalted, trapCause := c.word, trapVal := v } := by
  simp [Unit.syncTrap, isTile, h, Nat.not_lt.2 hu]

/-- Settles O17: a tile's member ends as faulted, a sequencer halts. -/
theorem doubleFault : Obligations.DoubleFault := by
  intro u x c v h
  by_cases hu : u < 512
  · rw [Unit.syncTrap_handler_tile hu h]
    exact ⟨rfl, rfl, fun _ => ⟨rfl, rfl, rfl⟩, fun h512 => absurd hu (Nat.not_lt.2 h512), h, rfl⟩
  · rw [Unit.syncTrap_handler_sequencer (Nat.not_lt.1 hu) h]
    exact ⟨rfl, rfl, fun h512 => absurd h512 hu, fun _ => ⟨rfl, rfl⟩, h, rfl⟩

end Sys2Proof.Machine
end

/-! ## Control flow

Taken branches and the loops that they leave (R148 to R153): O4; LOOP, and what the end of a bundle makes of the unit (R5, R33,
R34, R150 to R152): O5. -/

section
namespace Sys2Proof.Machine

/-! ### Taken branches -/

theorem popTo_eq (t : Nat) : ∀ l : List LoopEntry, popTo t l = leavesLoops t l
  | [] => rfl
  | e :: es => by
    unfold popTo leavesLoops
    rw [List.dropWhile_cons]
    by_cases h : e.start ≤ t ∧ t ≤ e.last
    · simp [h]
    · rw [if_neg h, if_pos (by simpa [-not_and, not_and_or] using h), popTo_eq t es]
      rfl

theorem State.branchTo_pops (s : State) (t : Nat) :
    s.branchTo t true = (s.branches t).modCur (fun x => x.setLoops (leavesLoops t x.loopStack)) := by
  simp only [State.branchTo, popTo_eq, if_true]
  rfl

/-- Settles O4: each instruction is a slot step that takes its branch. -/
theorem branchesTaken : Obligations.BranchesTaken := by
  refine ⟨fun o s h => ?_, fun o s h => ?_, fun o s h => ?_, fun o s h => ?_, fun o s h hd => ?_, fun o s h hd => ?_⟩
  · change execBri o s = _
    exact (slotStep_runs h).trans (congrArg _ (s.branchTo_pops _))
  · change execCall o s = _
    exact slotStep_runs h
  · change execBr o s = _
    exact (slotStep_runs h).trans (congrArg _ (s.branchTo_pops _))
  · change execRet o s = _
    exact slotStep_runs h
  · change execChk o s = _
    exact (slotStep_runs h).trans (congrArg _ ((if_pos hd).trans (s.branchTo_pops _)))
  · change execChk o s = _
    refine (slotStep_runs h).trans (congrArg _ (if_neg ?_))
    exact Bool.eq_false_iff.1 hd

/-! ### Loops -/

theorem backEdge_eq (n : Nat) : ∀ l : List LoopEntry, backEdge n l = backEdgeStep n l
  | [] => rfl
  | e :: es => by
    unfold backEdge backEdgeStep
    by_cases hl : e.last = n
    · simp only [hl, ne_eq, not_true_eq_false, if_false, if_true, Nat.sub_pos_iff_lt, backEdge_eq n es]
    · simp [hl]

theorem length_backEdge_le (n : Nat) : ∀ l : List LoopEntry, (backEdge n l).1.length ≤ l.length
  | [] => Nat.le_refl _
  | e :: es => by
    unfold backEdge
    split_ifs
    · exact Nat.le_refl _
    · exact Nat.le_refl _
    · exact (length_backEdge_le n es).trans (Nat.le_succ _)

/-- The loop stack reads as set; a handler has room for one entry (R152). -/
theorem Unit.loopStack_setLoops {x : Unit} {l : List LoopEntry} (h : x.handler = true → l.length ≤ 1) :
    (x.setLoops l).loopStack = l := by
  cases hh : x.handler with
  | false => simp [Unit.setLoops, Unit.loopStack, hh]
  | true =>
    match l, h hh with
    | [], _ | [_], _ => simp [Unit.setLoops, Unit.loopStack, hh]

theorem Unit.length_loopStack_le {x : Unit} (h : x.handler = true) : x.loopStack.length ≤ 1 := by
  cases hl : x.hloop <;> simp [Unit.loopStack, h, hl]

section
variable (x : Unit) (l : List LoopEntry)

@[simp] theorem Unit.flight_setLoops : (x.setLoops l).flight = x.flight := by unfold Unit.setLoops; split <;> rfl
@[simp] theorem Unit.pc_setLoops : (x.setLoops l).pc = x.pc := by unfold Unit.setLoops; split <;> rfl

end

/-! ### The end of a bundle -/

theorem Unit.flight_countBundle (x : Unit) : x.countBundle.flight = x.flight.map (fun r => { r with k := r.k - 1 }) := by
  unfold Unit.countBundle; dsimp only; split <;> rfl
theorem Unit.pc_countBundle (x : Unit) : x.countBundle.pc = x.pc := by
  unfold Unit.countBundle; dsimp only; split <;> rfl
theorem Unit.loopStack_countBundle (x : Unit) : x.countBundle.loopStack = x.loopStack := by
  unfold Unit.countBundle; dsimp only; split <;> rfl

theorem Unit.advance_of_branch (x : Unit) (t : Nat) (skip : Option Nat) :
    x.advance (some t) skip = { x.clearLatches with pc := t } := rfl

theorem Unit.advance_of_next {x : Unit} {l : List LoopEntry} {back : Option Nat} (skip : Option Nat)
    (h : backEdge x.pc x.loopStack = (l, back)) :
    x.advance none skip = { x.setLoops l with pc := back.getD (skip.getD (x.pc + 32)) } := by
  simp only [Unit.advance, h, Unit.pc_setLoops]

theorem Unit.flight_advance (x : Unit) (branch skip : Option Nat) : (x.advance branch skip).flight = x.flight := by
  cases branch with
  | some t => rfl
  | none => rw [Unit.advance_of_next skip rfl, Unit.flight_setLoops]

/-- The back-edge step sets the loop stack and the next offset (R151, R152). -/
theorem Unit.advance_loops (x : Unit) (skip : Option Nat) :
    (x.advance none skip).loopStack = (backEdgeStep x.pc x.loopStack).1 ∧
      (x.advance none skip).pc = (backEdgeStep x.pc x.loopStack).2.getD (skip.getD (x.pc + 32)) := by
  rw [Unit.advance_of_next skip rfl, ← backEdge_eq]
  refine ⟨Unit.loopStack_setLoops fun h => ?_, rfl⟩
  exact (length_backEdge_le _ _).trans (Unit.length_loopStack_le h)

theorem State.finishBundle_of_plain {s : State} {y : Unit} (hsnap : s.issue.snap = some y) (hafter : s.issue.after = none) :
    s.finishBundle = { s.setUnit s.focus (s.cur.countBundle.advance s.issue.branch s.issue.skip) with issue := {} } := by
  simp [State.finishBundle, State.endBundle, hsnap, hafter]

/-- R150: LOOP skips its body or opens an entry, as its count says. -/
theorem exec_loop_of_runs {o : SI} {s : State} (h : s.runs (.loop o)) :
    exec (.loop o) s = .next (
      if (s.sval o.a).toNat % 2 ^ 32 = 0 then
        { s with issue := { s.issue with skip := some (s.src.pc + 32 * o.imm9.toNat + 32) } }
      else s.modCur (fun x => x.setLoops
        ({ start := s.src.pc + 32, last := s.src.pc + 32 * o.imm9.toNat, remaining := (s.sval o.a).toNat % 2 ^ 32 } ::
          x.loopStack))) := by
  have hcount : (field (s.src.sreg o.a).v 0 32).toNat = (s.sval o.a).toNat % 2 ^ 32 := by simp [field, State.sval]
  rw [← hcount]
  change execLoop o s = _
  exact slotStep_runs h

/-- Settles O5: LOOP by its count, the end of a bundle by whether it branches, the rest as slot steps without an effect. -/
theorem loopsAndBundleEnd : Obligations.LoopsAndBundleEnd := by
  refine ⟨fun o s h => ?_, fun s y hsnap hafter => ?_, fun s h => ?_, fun o s h => ?_, fun o s h => ?_, fun o s h => ?_⟩
  · intro c last
    exact ⟨fun hc => by rw [exec_loop_of_runs h, if_pos hc], fun hc => by rw [exec_loop_of_runs h, if_neg hc]⟩
  · rw [State.finishBundle_of_plain hsnap hafter]
    intro t x
    have hx : x = s.cur.countBundle.advance s.issue.branch s.issue.skip := (State.unit_setUnit s _ _ _).trans (if_pos rfl)
    refine ⟨?_, rfl, fun v hv => (State.unit_setUnit s _ _ _).trans (if_neg hv), fun a ha => ?_, fun hnone => ?_⟩
    · rw [hx, Unit.flight_advance, Unit.flight_countBundle]
    · rw [hx, ha, Unit.advance_of_branch]
      exact ⟨rfl, s.cur.loopStack_countBundle, fun k => ⟨rfl, rfl, rfl⟩⟩
    · rw [hx, hnone, ← s.cur.pc_countBundle, ← s.cur.loopStack_countBundle]
      exact Unit.advance_loops _ _
  · change execNop s = _
    exact slotStep_runs h
  · change execWaitcTag o s = _
    exact slotStep_runs h
  · change execWaitcMask o s = _
    exact slotStep_runs h
  · change execFence o s = _
    exact slotStep_runs h

end Sys2Proof.Machine
end

/-! ## Local loads

What a load delivers, and when a speculative one delivers a marked zero (R155 to R157): O6. -/

section
namespace Sys2Proof.Machine

/-- A check of a scalar access fails where a condition of R155 holds. -/
theorem trap_isSome_scalarAccess (s : State) (b : Buf) (f : BitVec 3) (o : SR) :
    ((s.src.scalarAccess b f o).trap s.focus s.src).isSome = s.accessFault b f o := by
  have hea := ea_scalarAccess s b f o
  have hsize := size_scalarAccess s.src b f o
  have hbuf : (s.src.scalarAccess b f o).buf = b := rfl
  unfold SAccess.trap State.accessFault
  rw [hea, hsize, hbuf]
  dsimp only
  split_ifs <;> simp_all

/-- The low `w` bits of a word, sign-extended: up to its top and back. -/
theorem sshiftRight_shiftLeft_eq_signExtend {w : Nat} (hw : w ≤ 64) (a : Word) :
    (a <<< (64 - w)).sshiftRight (64 - w) = (a.setWidth w).signExtend 64 := by
  apply BitVec.eq_of_getLsbD_eq
  intro i hi
  rw [BitVec.getLsbD_sshiftRight, BitVec.getLsbD_signExtend, BitVec.msb_eq_getLsbD_last, BitVec.msb_eq_getLsbD_last]
  by_cases hlow : i < w
  · have hin : 64 - w + i < 64 := by omega
    simp [hi, hlow, hin]
  · have hout : ¬ 64 - w + i < 64 := by omega
    have htop : 63 - (64 - w) = w - 1 := by omega
    rcases Nat.eq_zero_or_pos w with rfl | hpos
    · simp
    · have hin : ¬ 63 < 64 - w := by omega
      have hlast : a.getLsbD (w - 1) = a[w - 1] := BitVec.getLsbD_eq_getElem (by omega)
      simp [hi, Nat.not_le.2 hi, hlow, hout, htop, hpos, hin, hlast]

theorem eight_mul_accessBytes_le : ∀ f : BitVec 3, 8 * accessBytes f ≤ 64 := by decide

/-- The value of a load is that of its bytes (R156). -/
theorem loadValue_loadBytes (s : State) (b : Buf) (f : BitVec 3) (o : SR) :
    loadValue f (s.src.loadBytes (s.src.scalarAccess b f o)) = extended f (s.loaded b f o) := by
  have hbytes : s.src.loadBytes (s.src.scalarAccess b f o) =
      (List.range (accessBytes f)).map (fun i => s.src.bget b ((s.effective f o).toNat + i)) := by
    rw [Unit.loadBytes, ea_scalarAccess, size_scalarAccess]
    rfl
  have hwidth : 8 * accessBytes f ≤ 64 := eight_mul_accessBytes_le f
  rw [hbytes]
  unfold loadValue extended
  simp only [List.length_map, List.length_range, sshiftRight_shiftLeft_eq_signExtend hwidth, BitVec.setWidth_ofNat_of_le hwidth]
  rfl

/-- R157: a speculative load delivers its value, or a marked zero. -/
theorem exec_ldsp_of_runs {b : Buf} {f : BitVec 3} {o : SR} {s : State} (h : s.runs (.ldsp b f o)) {bad : Bool}
    (hbad : (s.sdef o.a || s.accessFault b f o) = bad) :
    exec (.ldsp b f o) s = .next (s.withFlight (s.scalarResult o.nw (.sreg o.d.toNat) 4
      (if bad then 0 else extended f (s.loaded b f o)) bad)) := by
  rw [← loadValue_loadBytes, ← hbad, ← trap_isSome_scalarAccess]
  change execLdsp b f o s = _
  exact slotStep_runs h

/-- Settles O6: a load delivers what its bytes hold. -/
theorem loadsDeliver : Obligations.LoadsDeliver := by
  refine fun b f o s => ⟨fun h => ?_, fun h hok hd => ?_, fun h hbad => ?_⟩
  · rw [← loadValue_loadBytes]
    change execLd b f o s = _
    exact slotStep_runs h
  · exact exec_ldsp_of_runs h (bad := false) (by rw [hok, hd]; rfl)
  · exact exec_ldsp_of_runs h (bad := true) (by rw [Bool.or_eq_true]; exact hbad.symm)

end Sys2Proof.Machine
end

/-! ## Scalar arithmetic

The operations on words as the numbers that they stand for (R133, R135, R138, R141, R142), counts of bits, extensions and funnel
shifts (R136, R139, R140): O1. -/

section
namespace Sys2Proof.Machine

/-! ### Words as numbers -/

theorem shl_eq_ofNat (a : Word) (n : Nat) : a <<< n = BitVec.ofNat 64 (a.toNat * 2 ^ n) := by
  apply BitVec.eq_of_toNat_eq
  simp [Nat.shiftLeft_eq]

theorem shr_eq_ofNat (a : Word) (n : Nat) : a >>> n = BitVec.ofNat 64 (a.toNat / 2 ^ n) := by
  apply BitVec.eq_of_toNat_eq
  rw [BitVec.toNat_ushiftRight, Nat.shiftRight_eq_div_pow, BitVec.toNat_ofNat,
    Nat.mod_eq_of_lt (lt_of_le_of_lt (Nat.div_le_self ..) a.isLt)]

theorem sar_eq_ofInt (a : Word) (n : Nat) : a.sshiftRight n = BitVec.ofInt 64 (a.toInt / 2 ^ n) := by
  rw [BitVec.sshiftRight, Int.shiftRight_eq_div_pow]
  rfl

theorem rotateLeft_amount (a b : Word) :
    a.rotateLeft (amount b) = (a <<< (b.toNat % 64)) ||| (a >>> (64 - b.toNat % 64)) := by
  rw [BitVec.rotateLeft_def, amount, Nat.mod_mod]

theorem rotateRight_amount (a b : Word) :
    a.rotateRight (amount b) = (a >>> (b.toNat % 64)) ||| (a <<< (64 - b.toNat % 64)) := by
  rw [BitVec.rotateRight_def, amount, Nat.mod_mod]

theorem ite_eq_ofNat_min (a b : Word) : (if b.toNat < a.toNat then b else a) = BitVec.ofNat 64 (min a.toNat b.toNat) := by
  split
  · next h => rw [Nat.min_eq_right h.le, BitVec.ofNat_toNat, BitVec.setWidth_eq]
  · next h => rw [Nat.min_eq_left (not_lt.1 h), BitVec.ofNat_toNat, BitVec.setWidth_eq]

theorem ite_eq_ofNat_max (a b : Word) : (if a.toNat < b.toNat then b else a) = BitVec.ofNat 64 (max a.toNat b.toNat) := by
  split
  · next h => rw [Nat.max_eq_right h.le, BitVec.ofNat_toNat, BitVec.setWidth_eq]
  · next h => rw [Nat.max_eq_left (not_lt.1 h), BitVec.ofNat_toNat, BitVec.setWidth_eq]

theorem ite_eq_ofInt_min (a b : Word) : (if b.toInt < a.toInt then b else a) = BitVec.ofInt 64 (min a.toInt b.toInt) := by
  split
  · next h => rw [Int.min_eq_right h.le, BitVec.ofInt_toInt]
  · next h => rw [Int.min_eq_left (not_lt.1 h), BitVec.ofInt_toInt]

theorem ite_eq_ofInt_max (a b : Word) : (if a.toInt < b.toInt then b else a) = BitVec.ofInt 64 (max a.toInt b.toInt) := by
  split
  · next h => rw [Int.max_eq_right h.le, BitVec.ofInt_toInt]
  · next h => rw [Int.max_eq_left (not_lt.1 h), BitVec.ofInt_toInt]

theorem mul_eq_ofNat (a b : Word) : a * b = BitVec.ofNat 64 (a.toNat * b.toNat) := by simp [BitVec.ofNat_mul]
theorem sub_eq_ofInt (a b : Word) : a - b = BitVec.ofInt 64 ((a.toNat : Int) - b.toNat) := by
  apply BitVec.eq_of_toNat_eq
  simp only [BitVec.toNat_sub, BitVec.toNat_ofInt]
  omega

theorem aluR_congr {s : State} {i : Instr} {o : SR} {lat : Nat} {f g : Word → Word → Word} (h : ∀ a b, f a b = g a b) :
    aluR s i o lat f = aluR s i o lat g := congrArg _ (funext₂ h)

/-- Each two-register instruction issues the value of its row. -/
theorem exec_aluRow {row : AluRow} (hrow : row ∈ aluRows) (o : SR) (s : State) :
    exec (row.instr o) s = aluR s (row.instr o) o row.latency row.value := by
  simp only [aluRows, List.mem_cons, List.not_mem_nil, or_false] at hrow
  rcases hrow with rfl | rfl | rfl | rfl | rfl | rfl | rfl | rfl | rfl | rfl | rfl | rfl | rfl | rfl | rfl | rfl | rfl | rfl |
    rfl | rfl | rfl | rfl | rfl | rfl
  · exact (aluR_congr BitVec.add_def : execAdd o s = _)
  · exact (aluR_congr sub_eq_ofInt : execSub o s = _)
  · exact (aluR_congr fun _ _ => rfl : execAnd o s = _)
  · exact (aluR_congr fun _ _ => rfl : execOr o s = _)
  · exact (aluR_congr fun _ _ => rfl : execXor o s = _)
  · exact (aluR_congr fun _ _ => rfl : execAndn o s = _)
  · exact (aluR_congr fun _ _ => rfl : execOrn o s = _)
  · exact (aluR_congr fun _ _ => rfl : execXnor o s = _)
  · exact (aluR_congr fun a b => shl_eq_ofNat a _ : execShl o s = _)
  · exact (aluR_congr fun a b => shr_eq_ofNat a _ : execShr o s = _)
  · exact (aluR_congr fun a b => sar_eq_ofInt a _ : execSar o s = _)
  · exact (aluR_congr rotateLeft_amount : execRol o s = _)
  · exact (aluR_congr rotateRight_amount : execRor o s = _)
  · exact (aluR_congr mul_eq_ofNat : execMul o s = _)
  · exact (aluR_congr fun _ _ => rfl : execMulh o s = _)
  · exact (aluR_congr fun _ _ => rfl : execMulhs o s = _)
  · exact (aluR_congr fun a b => by rw [BitVec.udiv_def] : execDiv o s = _)
  · exact (aluR_congr fun _ _ => rfl : execDivs o s = _)
  · exact (aluR_congr fun a b => by rw [BitVec.umod_def] : execRem o s = _)
  · exact (aluR_congr fun _ _ => rfl : execRems o s = _)
  · exact (aluR_congr ite_eq_ofNat_min : execMin o s = _)
  · exact (aluR_congr ite_eq_ofNat_max : execMax o s = _)
  · exact (aluR_congr ite_eq_ofInt_min : execMins o s = _)
  · exact (aluR_congr ite_eq_ofInt_max : execMaxs o s = _)

/-! ### Bit counts -/

/-- How many numbers from 0 on satisfy `p`, where `k` is the first that does not. -/
theorem length_takeWhile_range {p : Nat → Bool} {n k : Nat} (hk : k ≤ n) (hlow : ∀ j < k, p j = true)
    (hstop : k < n → p k = false) : ((List.range n).takeWhile p).length = k := by
  have hsplit : List.range n = List.range k ++ (List.range (n - k)).map (k + ·) := by
    rw [← List.range_add, Nat.add_sub_cancel' hk]
  have hall : (List.range k).takeWhile p = List.range k := by simpa [List.takeWhile_eq_self_iff] using hlow
  have hrest : ((List.range (n - k)).map (k + ·)).takeWhile p = [] := by
    cases hn : n - k with
    | zero => rfl
    | succ m => simp [List.range_succ_eq_map, hstop (by omega)]
  rw [hsplit, List.takeWhile_append, hall, hrest]
  simp

/-- R139: the leading zero bits are those above the highest one bit. -/
theorem clz64_eq (a : Word) : clz64 a = leadingZeros a := by
  unfold clz64 leadingZeros
  split
  · next h => subst h; exact (length_takeWhile_range (Nat.le_refl 64) (fun j _ => by simp [bitOf]) (by simp)).symm
  · next h =>
    have hne : a.toNat ≠ 0 := fun e => h (BitVec.eq_of_toNat_eq e)
    have hlog : a.toNat.log2 < 64 := (Nat.log2_lt hne).2 a.isLt
    refine (length_takeWhile_range (by omega) (fun j hj => ?_) (fun _ => ?_)).symm
    · have hzero : a.toNat.testBit (63 - j) = false :=
        Nat.testBit_lt_two_pow ((Nat.log2_lt hne).1 (by omega))
      rw [Bool.not_eq_true']
      exact hzero
    · have hone : a.toNat.testBit a.toNat.log2 = true := Nat.testBit_log2 hne
      rw [show 63 - (63 - a.toNat.log2) = a.toNat.log2 by omega, Bool.not_eq_false']
      exact hone

theorem bitOf_reversed (a : Word) (j : Nat) (hj : j < 64) (n : Nat) (hn : n ≤ 64) :
    bitOf ((List.range n).foldl (fun (r : Word) i => setField r (63 - i) (ofBool 1 (bitOf a i))) 0) j =
      (decide (63 - j < n) && bitOf a (63 - j)) := by
  induction n with
  | zero => simp [bitOf]
  | succ n ih =>
    rw [List.range_succ, List.foldl_append, List.foldl_cons, List.foldl_nil, bitOf_setField _ _ _ _ hj, ih (by omega)]
    by_cases h : j = 63 - n
    · subst h
      have hn : 63 - (63 - n) = n := by omega
      cases hb : bitOf a n <;> simp [hn, hb] <;> rfl
    · have hout : ¬ (63 - n ≤ j ∧ j < 63 - n + 1) := by omega
      have hsame : 63 - j < n + 1 ↔ 63 - j < n := by omega
      simp only [if_neg hout, hsame]

/-- R139: bit `i` of a reversed word is bit `63 - i` of the word. -/
theorem bitOf_brev64 (a : Word) {j : Nat} (hj : j < 64) : bitOf (brev64 a) j = bitOf a (63 - j) := by
  rw [brev64, bitOf_reversed a j hj 64 (Nat.le_refl _)]
  simp [show 63 - j < 64 by omega]

theorem takeWhile_congr {α : Type} {p q : α → Bool} :
    ∀ {l : List α}, (∀ a ∈ l, p a = q a) → l.takeWhile p = l.takeWhile q
  | [], _ => rfl
  | a :: l, h => by
    rw [List.takeWhile_cons, List.takeWhile_cons, h a List.mem_cons_self,
      takeWhile_congr fun b hb => h b (List.mem_cons_of_mem a hb)]

/-- R139: the trailing zero bits are the leading ones of the reversed word. -/
theorem ctz64_eq (a : Word) : ctz64 a = trailingZeros a := by
  rw [ctz64, clz64_eq, leadingZeros, trailingZeros]
  refine congrArg List.length (takeWhile_congr fun k hk => ?_)
  have hk : k < 64 := List.mem_range.1 hk
  rw [bitOf_brev64 a (by omega : 63 - k < 64), show 63 - (63 - k) = k by omega]

theorem popNat_eq (n : Nat) (v : Nat) : popNat n v = ((List.range n).filter v.testBit).length := by
  induction n generalizing v with
  | zero => rfl
  | succ n ih =>
    have hshift : (Nat.testBit v ∘ Nat.succ) = (v / 2).testBit := funext fun k => by simp [Nat.testBit_succ]
    rw [popNat, ih, List.range_succ_eq_map, List.filter_cons, List.filter_map, hshift, Nat.testBit_zero]
    rcases Nat.mod_two_eq_zero_or_one v with h | h <;> simp [h, Nat.add_comm]

theorem popNat_toNat (a : Word) : popNat 64 a.toNat = oneBitCount a := popNat_eq 64 a.toNat

/-! ### Extensions and funnel shifts -/

theorem zeroExtended_eq (a : Word) (w : Nat) : BitVec.ofNat 64 (a.toNat % 2 ^ w) = (a.setWidth w).setWidth 64 := by
  apply BitVec.eq_of_toNat_eq
  simp

theorem toNat_append_words (a b : Word) : (a ++ b : BitVec 128).toNat = a.toNat * 2 ^ 64 + b.toNat := by
  rw [BitVec.toNat_append, Nat.shiftLeft_eq, ← Nat.shiftLeft_eq, Nat.shiftLeft_add_eq_or_of_lt b.isLt]

/-- R136: the top word of a pair shifted left. -/
theorem funnelLeft_words (d a : Word) (n : Nat) :
    BitVec.ofNat 64 ((d.toNat * 2 ^ 64 + a.toNat) * 2 ^ n / 2 ^ 64) = ((d ++ a : BitVec 128) <<< n).extractLsb' 64 64 := by
  apply BitVec.eq_of_toNat_eq
  rw [BitVec.extractLsb'_toNat, BitVec.toNat_shiftLeft, toNat_append_words, BitVec.toNat_ofNat, Nat.shiftLeft_eq,
    Nat.shiftRight_eq_div_pow]
  generalize (d.toNat * 2 ^ 64 + a.toNat) * 2 ^ n = m
  omega

/-- R136: the low word of a pair shifted right. -/
theorem funnelRight_words (a d : Word) (n : Nat) :
    BitVec.ofNat 64 ((a.toNat * 2 ^ 64 + d.toNat) / 2 ^ n) = ((a ++ d : BitVec 128) >>> n).extractLsb' 0 64 := by
  apply BitVec.eq_of_toNat_eq
  rw [BitVec.extractLsb'_toNat, BitVec.toNat_ushiftRight, toNat_append_words, BitVec.toNat_ofNat, Nat.shiftRight_zero,
    Nat.shiftRight_eq_div_pow]

/-! ### The shared forms -/

section
variable {s : State} {i : Instr} (h : s.runs i)
include h

theorem aluR_of_runs (o : SR) (lat : Nat) (f : Word → Word → Word) : aluR s i o lat f = .next (s.withFlight
    (s.scalarResult o.nw (.sreg o.d.toNat) lat (f (s.sval o.a) (s.sval o.b)) (s.sdef o.a || s.sdef o.b))) := slotStep_runs h

theorem aluA_of_runs (o : SR) {f : Word → Word} {v : Word} (hv : f (s.sval o.a) = v) : aluA s i o f =
    .next (s.withFlight (s.scalarResult o.nw (.sreg o.d.toNat) 1 v (s.sdef o.a))) := by
  subst hv
  exact slotStep_runs h

theorem aluF_of_runs (o : SR) {f : Word → Word → Nat → Word} {v : Word} (hv : f (s.sval o.d) (s.sval o.a) o.b.toNat = v) :
    aluF s i o f = .next (s.withFlight (s.scalarResult o.nw (.sreg o.d.toNat) 1 v (s.sdef o.d || s.sdef o.a))) := by
  subst hv
  exact slotStep_runs h

end

theorem exec_sext_of_runs {o : SR} {s : State} (h : s.runs (.sext o)) {w : Nat} (hw : extWidth o.b = w) (h64 : w ≤ 64) :
    exec (.sext o) s = .next (s.withFlight (s.scalarResult o.nw (.sreg o.d.toNat) 1
      (((s.sval o.a).setWidth w).signExtend 64) (s.sdef o.a))) :=
  (aluA_of_runs h o (by rw [hw, sshiftRight_shiftLeft_eq_signExtend h64]) : execSext o s = _)

theorem exec_zext_of_runs {o : SR} {s : State} (h : s.runs (.zext o)) {w : Nat} (hw : extWidth o.b = w) :
    exec (.zext o) s = .next (s.withFlight (s.scalarResult o.nw (.sreg o.d.toNat) 1
      (((s.sval o.a).setWidth w).setWidth 64) (s.sdef o.a))) :=
  (aluA_of_runs h o (by rw [hw, zeroExtended_eq]) : execZext o s = _)

/-- Settles O1: each row issues its value, and each other operation the value of its law. -/
theorem scalarRegisterResults : Obligations.ScalarRegisterResults := by
  refine ⟨fun row hrow o s h => ?_, fun o s => ⟨fun h => ?_, fun h => ?_, fun h => ?_, fun h => ?_, fun hb h => ?_,
    fun hb h => ?_, fun hb h => ?_, fun hb h => ?_, fun hb h => ?_, fun hb h => ?_, fun h => ?_, fun h => ?_⟩⟩
  · rw [exec_aluRow hrow, aluR_of_runs h]
  · exact (aluA_of_runs h o (by rw [clz64_eq]) : execClz o s = _)
  · exact (aluA_of_runs h o (by rw [ctz64_eq]) : execCtz o s = _)
  · exact (aluA_of_runs h o (by rw [popNat_toNat]) : execPopc o s = _)
  · refine ⟨brev64 (s.sval o.a), fun i hi => ?_, (aluA_of_runs h o rfl : execBrev o s = _)⟩
    rw [bitOf_brev64 _ (by omega), show 63 - (63 - i) = i by omega]
  · exact exec_sext_of_runs h (w := 8) (by rw [hb]; rfl) (by decide)
  · exact exec_sext_of_runs h (w := 16) (by rw [hb]; rfl) (by decide)
  · exact exec_sext_of_runs h (w := 32) (by rw [hb]; rfl) (by decide)
  · exact exec_zext_of_runs h (w := 8) (by rw [hb]; rfl)
  · exact exec_zext_of_runs h (w := 16) (by rw [hb]; rfl)
  · exact exec_zext_of_runs h (w := 32) (by rw [hb]; rfl)
  · exact (aluF_of_runs h o (funnelLeft_words ..) : execFshl o s = _)
  · exact (aluF_of_runs h o (funnelRight_words ..) : execFshr o s = _)

end Sys2Proof.Machine
end

/-! ## Immediates, constants and predicates

What each shared form delivers, and the values that IMM9, IMM18 and a predicate give (R134, R137, R143 to R146): O2. -/

section
namespace Sys2Proof.Machine

/-! ### The shared forms -/

theorem boolWord_eq (b : Bool) : boolWord b = truth b := by cases b <;> rfl

section
variable {s : State} {i : Instr} (h : s.runs i)
include h

theorem aluI_of_runs (o : SI) {f : Word → Word → Word} {v : Word} (hv : f (s.sval o.a) (o.imm9.signExtend 64) = v) :
    aluI s i o f = .next (s.withFlight (s.scalarResult o.nw (.sreg o.d.toNat) 1 v (s.sdef o.a))) := by
  subst hv
  exact slotStep_runs h

theorem setpR_of_runs (o : SR) (f : Word → Word → Bool) : setpR s i o f = .next (s.withFlight
    (s.scalarResult o.nw (.preg o.d.toNat) 1 (truth (f (s.sval o.a) (s.sval o.b))) (s.sdef o.a || s.sdef o.b))) := by
  rw [← boolWord_eq]
  exact slotStep_runs h

theorem setpI_of_runs (o : SI) (f : Word → Word → Bool) : setpI s i o f = .next (s.withFlight
    (s.scalarResult o.nw (.preg o.d.toNat) 1 (truth (f (s.sval o.a) (o.imm9.signExtend 64))) (s.sdef o.a))) := by
  rw [← boolWord_eq]
  exact slotStep_runs h

theorem predR_of_runs (o : SR) (f : Bool → Bool → Bool) : predR s i o f = .next (s.withFlight (s.scalarResult o.nw
    (.preg o.d.toNat) 1 (truth (f (s.src.preg o.a.toNat).1 (s.src.preg o.b.toNat).1))
    ((s.src.preg o.a.toNat).2 || (s.src.preg o.b.toNat).2))) := by
  rw [← boolWord_eq]
  exact slotStep_runs h

end

/-! ### Comparisons, immediates and constants -/

/-- A comparison of words is one of the numbers that they stand for. -/
theorem exec_condRow {row : CondRow} (hrow : row ∈ condRows) (s : State) :
    (∀ o, exec (row.reg o) s = setpR s (row.reg o) o row.holds) ∧
      ∀ o, exec (row.imm o) s = setpI s (row.imm o) o row.holds := by
  have heq : (fun a b : Word => a == b) = fun a b => decide (a.toNat = b.toNat) :=
    funext₂ fun a b => by simp [← BitVec.toNat_inj, beq_eq_decide]
  have hne : (fun a b : Word => a != b) = fun a b => decide (a.toNat ≠ b.toNat) :=
    funext₂ fun a b => by simp [← BitVec.toNat_inj, bne, beq_eq_decide]
  simp only [condRows, List.mem_cons, List.not_mem_nil, or_false] at hrow
  rcases hrow with rfl | rfl | rfl | rfl | rfl | rfl
  · exact ⟨fun o => congrArg (setpR s (.setpEq o) o) heq, fun o => congrArg (setpI s (.setpiEq o) o) heq⟩
  · exact ⟨fun o => congrArg (setpR s (.setpNe o) o) hne, fun o => congrArg (setpI s (.setpiNe o) o) hne⟩
  · exact ⟨fun _ => rfl, fun _ => rfl⟩
  · exact ⟨fun _ => rfl, fun _ => rfl⟩
  · exact ⟨fun _ => rfl, fun _ => rfl⟩
  · exact ⟨fun _ => rfl, fun _ => rfl⟩

/-- An amount of 0 to 63 in IMM9 shifts by itself (R134). -/
theorem amount_signExtend {i : BitVec 9} (h : i.toNat < 64) : amount (i.signExtend 64) = i.toNat := by
  have hsmall : i.msb = false := by rw [BitVec.msb_eq_decide]; simp; omega
  rw [amount, BitVec.signExtend_eq_setWidth_of_msb_false hsmall, BitVec.toNat_setWidth,
    Nat.mod_eq_of_lt (a := i.toNat) (by omega), Nat.mod_eq_of_lt h]

theorem add_signExtend_eq_ofInt (a : Word) (i : BitVec 9) :
    a + i.signExtend 64 = BitVec.ofInt 64 ((a.toNat : Int) + i.toInt) := by
  rw [BitVec.ofInt_add, BitVec.signExtend]
  simp

theorem exec_immRow_of_runs {row : ImmRow} (hrow : row ∈ immRows) {o : SI} {s : State} (h : s.runs (row.instr o)) :
    exec (row.instr o) s = .next (s.withFlight
      (s.scalarResult o.nw (.sreg o.d.toNat) 1 (row.value (s.sval o.a) o.imm9) (s.sdef o.a))) := by
  simp only [immRows, List.mem_cons, List.not_mem_nil, or_false] at hrow
  rcases hrow with rfl | rfl | rfl | rfl
  · exact (aluI_of_runs h o (add_signExtend_eq_ofInt ..) : execAddi o s = _)
  · exact (aluI_of_runs h o rfl : execAndi o s = _)
  · exact (aluI_of_runs h o rfl : execOri o s = _)
  · exact (aluI_of_runs h o rfl : execXori o s = _)

theorem exec_immShiftRow_of_runs {row : ImmRow} (hrow : row ∈ immShiftRows) {o : SI} {s : State}
    (h64 : o.imm9.toNat < 64) (h : s.runs (row.instr o)) : exec (row.instr o) s = .next (s.withFlight
      (s.scalarResult o.nw (.sreg o.d.toNat) 1 (row.value (s.sval o.a) o.imm9) (s.sdef o.a))) := by
  simp only [immShiftRows, List.mem_cons, List.not_mem_nil, or_false] at hrow
  rcases hrow with rfl | rfl | rfl
  · exact (aluI_of_runs h o (by rw [amount_signExtend h64, shl_eq_ofNat]) : execShli o s = _)
  · exact (aluI_of_runs h o (by rw [amount_signExtend h64, shr_eq_ofNat]) : execShri o s = _)
  · exact (aluI_of_runs h o (by rw [amount_signExtend h64, sar_eq_ofInt]) : execSari o s = _)

theorem add_shl_eq_ofNat (a b : Word) (n : Nat) : a + b <<< n = BitVec.ofNat 64 (a.toNat + b.toNat * 2 ^ n) := by
  rw [shl_eq_ofNat, BitVec.ofNat_add, BitVec.ofNat_toNat, BitVec.setWidth_eq]

theorem shl_or_eq_ofNat (d : Word) (i : BitVec 18) :
    d <<< 18 ||| i.setWidth 64 = BitVec.ofNat 64 (d.toNat * 2 ^ 18 + i.toNat) := by
  have hadd : d <<< 18 ||| i.setWidth 64 = d <<< 18 + i.setWidth 64 := by
    refine (BitVec.add_eq_or_of_and_eq_zero _ _ (BitVec.eq_of_getLsbD_eq fun j hj => ?_)).symm
    rw [BitVec.getLsbD_and, BitVec.getLsbD_shiftLeft, BitVec.getLsbD_setWidth]
    by_cases hlow : j < 18
    · simp [hlow]
    · simp [BitVec.getLsbD_of_ge i j (by omega)]
  rw [hadd, shl_eq_ofNat, BitVec.ofNat_add, BitVec.ofNat_toNat]

/-- Settles O2: each row issues its value, and each other operation the value of its law. -/
theorem scalarImmediateAndPredicateResults : Obligations.ScalarImmediateAndPredicateResults := by
  refine ⟨⟨fun row hrow o s h => exec_immRow_of_runs hrow h, fun row hrow o s h64 h => exec_immShiftRow_of_runs hrow h64 h,
    fun f o s h => ?_, fun o s h => ?_, fun o s h => ?_, fun q o s h => ?_⟩,
    fun row hrow o s h => ?_, fun row hrow o s h => ?_, fun o s => ?_⟩
  · rw [← add_shl_eq_ofNat]
    exact (aluR_of_runs h o 1 _ : execAddsh f o s = _)
  · change execMovi o s = _
    exact slotStep_runs h
  · rw [← shl_or_eq_ofNat]
    change execMovh o s = _
    exact slotStep_runs h
  · change execSel q o s = _
    exact slotStep_runs h
  · rw [(exec_condRow hrow s).1, setpR_of_runs h]
  · rw [(exec_condRow hrow s).2, setpI_of_runs h]
  · refine ⟨fun h => ?_, fun h => ?_, fun h => ?_, fun h => ?_⟩
    · exact (predR_of_runs h o _ : execPand o s = _)
    · exact (predR_of_runs h o _ : execPor o s = _)
    · exact (predR_of_runs h o _ : execPxor o s = _)
    · dsimp only
      rw [← boolWord_eq]
      change execPnot o s = _
      exact slotStep_runs h

end Sys2Proof.Machine
end

/-! ## Crossing, staging and tile registers

A vector result made lane by lane is that of its elements (R167 to R171), and a tile-register instruction moves or converts each
governed lane (R215 to R217); what XEXT and STG deliver (R159, R160): O8. -/

section
namespace Sys2Proof.Machine

/-! ### Lanes and elements as digits -/

theorem mod_two_pow_div_mod (a : Nat) {n m k : Nat} (h : m + k ≤ n) : a % 2 ^ n / 2 ^ m % 2 ^ k = a / 2 ^ m % 2 ^ k := by
  obtain ⟨j, rfl⟩ := Nat.exists_eq_add_of_le (Nat.le_of_add_right_le h)
  rw [pow_add, Nat.mod_mul_right_div_self, Nat.mod_mod_of_dvd _ (pow_dvd_pow 2 (by omega))]

/-- Element `k` of joined elements. -/
theorem joinElems_digit (w : Nat) : ∀ (es : List Nat) (k : Nat), joinElems w es / 2 ^ (w * k) % 2 ^ w = es.getD k 0 % 2 ^ w
  | [], k => by simp [joinElems]
  | e :: es, 0 => by simp [joinElems]
  | e :: es, k + 1 => by
    have hrest : joinElems w (e :: es) / 2 ^ w = joinElems w es := by
      change (e % 2 ^ w + 2 ^ w * joinElems w es) / 2 ^ w = _
      rw [Nat.add_mul_div_left _ _ (Nat.two_pow_pos w), Nat.div_eq_of_lt (Nat.mod_lt _ (Nat.two_pow_pos w)), Nat.zero_add]
    rw [Nat.mul_succ, Nat.add_comm, pow_add, ← Nat.div_div_eq_div_mul, hrest, joinElems_digit w es k, List.getD_cons_succ]

theorem ofNat_div_mod (a : Nat) {n m k : Nat} (h : m + k ≤ n) :
    (BitVec.ofNat n a).toNat / 2 ^ m % 2 ^ k = a / 2 ^ m % 2 ^ k := by
  rw [BitVec.toNat_ofNat, mod_two_pow_div_mod a h]

theorem laneAt_joinLanes (ls : List Nat) {l : Nat} (h : l < 64) : laneAt (joinLanes ls) l = ls.getD l 0 % 2 ^ 32 := by
  rw [← joinElems_digit 32]
  exact ofNat_div_mod (joinElems 32 ls) (by omega)

theorem laneAt_eq (v : VReg) (l : Nat) : laneAt v l = (v.extractLsb' (32 * l) 32).toNat := by
  rw [BitVec.extractLsb'_toNat, Nat.shiftRight_eq_div_pow]
  rfl

section
variable {w : Nat} (hw : w * (32 / w) = 32)
include hw

theorem width_ne_64 : w ≠ 64 := by
  rintro rfl
  simp at hw

theorem width_pos : 0 < w := Nat.pos_of_ne_zero (by rintro rfl; simp at hw)

theorem elemsOfLane_pos : 0 < 32 / w := Nat.pos_of_ne_zero (by intro h; simp [h] at hw)

theorem elemCount_eq : elemCount w = 64 * (32 / w) := by
  rw [elemCount, if_neg (width_ne_64 hw), show 2048 = w * (64 * (32 / w)) by rw [Nat.mul_left_comm, hw],
    Nat.mul_div_cancel_left _ (width_pos hw)]

theorem laneOfElem_eq (e : Nat) : laneOfElem w e = e / (32 / w) := by
  rw [laneOfElem, if_neg (width_ne_64 hw)]
  conv_lhs => rw [← hw, Nat.mul_comm e w, Nat.mul_div_mul_left _ _ (width_pos hw)]

theorem laneOfElem_lt_iff (e : Nat) : laneOfElem w e < 64 ↔ e < elemCount w := by
  rw [laneOfElem_eq hw, elemCount_eq hw, Nat.div_lt_iff_lt_mul (elemsOfLane_pos hw)]

/-- Every element of a lane is element `k` of lane `l` for some place. -/
theorem exists_elem (l : Nat) {k : Nat} (hk : k < 32 / w) : ∃ e, laneOfElem w e = l ∧ e % (32 / w) = k :=
  ⟨32 / w * l + k, by rw [laneOfElem_eq hw, Nat.mul_add_div (elemsOfLane_pos hw), Nat.div_eq_of_lt hk, Nat.add_zero],
    by rw [Nat.mul_add_mod, Nat.mod_eq_of_lt hk]⟩

/-- An element lies in its lane. -/
theorem elem_fits (e : Nat) : w * (e % (32 / w)) + w ≤ 32 :=
  calc w * (e % (32 / w)) + w = w * (e % (32 / w) + 1) := (Nat.mul_succ ..).symm
    _ ≤ w * (32 / w) := Nat.mul_le_mul_left w (Nat.mod_lt e (elemsOfLane_pos hw))
    _ = 32 := hw

/-- Element `e` of a register is an element of its lane (R167). -/
theorem VSrc.elem_eq_el (v : VSrc) (e : Nat) : v.elem w e = BitVec.ofNat w (v.el w (laneOfElem w e) (e % (32 / w))) := by
  have hbit : 32 * (e / (32 / w)) + w * (e % (32 / w)) = w * e := by
    conv_lhs => rw [← hw, Nat.mul_assoc, ← Nat.mul_add, hw, Nat.div_add_mod]
  rw [VSrc.elem, VSrc.el, if_neg (width_ne_64 hw), if_neg (width_ne_64 hw), laneAt, laneOfElem_eq hw,
    mod_two_pow_div_mod _ (elem_fits hw e), Nat.div_div_eq_div_mul, ← pow_add, hbit, BitVec.extractLsb'_toNat,
    Nat.shiftRight_eq_div_pow]

end

/-! ### Results lane by lane -/

theorem bitOf_foldl_flags (i : Nat) : ∀ (l : List FRes) (fl : Flags),
    bitOf (l.foldl (fun f r => f ||| r.fl) fl) i = (bitOf fl i || l.any (fun r => bitOf r.fl i))
  | [], fl => by simp
  | r :: l, fl => by
    rw [List.foldl_cons, bitOf_foldl_flags i l, List.any_cons, ← Bool.or_assoc]
    simp [bitOf]

theorem cvtLanes_getD {gov : Mask} (f : Nat → FRes) {l : Nat} (h : l < 64) (hg : bitOf gov l = true) :
    (cvtLanes gov f).1.getD l 0 = (f l).code := by
  simp [cvtLanes, lanes, h, hg]

theorem bitOf_cvtLanes (gov : Mask) (f : Nat → FRes) (i : Nat) :
    bitOf (cvtLanes gov f).2 i = true ↔ ∃ l < 64, bitOf gov l = true ∧ bitOf (f l).fl i = true := by
  have hnone : bitOf (0 : Flags) i = false := by simp [bitOf]
  rw [cvtLanes, bitOf_foldl_flags, hnone, Bool.false_or, List.any_map, List.any_eq_true]
  refine exists_congr fun l => ?_
  simp only [lanes, List.mem_range, Function.comp]
  by_cases hg : bitOf gov l = true
  · simp [hg]
  · simpa [hg] using fun _ => hnone

/-- A result delivered lane by lane, as the result that its elements and flags make (R168 to R171). -/
theorem State.vectorResult_cvtLanes (s : State) (c : Cluster) (nw : Bool) (dest : Dest) (gov : Mask) (lat : Nat) (d : Bool)
    {w : Nat} (hw : w * (32 / w) = 32) {f : Nat → FRes} {el : Nat → BitVec w} {fl : Nat → Flags}
    (hel : ∀ e, (f (laneOfElem w e)).code / 2 ^ (w * (e % (32 / w))) % 2 ^ w = (el e).toNat)
    (hfl : ∀ l i, bitOf (f l).fl i = true ↔ ∃ e, laneOfElem w e = l ∧ bitOf (fl e) i = true) :
    s.vectorResult (s.deliverV c nw dest gov lat (cvtLanes gov f).1 d (cvtLanes gov f).2) c nw dest gov lat d w el fl := by
  refine ⟨_, rfl, rfl, rfl, rfl, rfl, rfl, rfl, rfl, rfl, fun e he hg => ?_, fun i _ => ?_⟩
  · have hl := (laneOfElem_lt_iff hw e).2 he
    rw [VSrc.elem_eq_el hw, VSrc.el, if_neg (width_ne_64 hw), lanesLo, laneAt_joinLanes _ hl, cvtLanes_getD f hl hg,
      mod_two_pow_div_mod _ (elem_fits hw e), hel, BitVec.ofNat_toNat, BitVec.setWidth_eq]
  · rw [bitOf_cvtLanes]
    constructor
    · rintro ⟨l, hl, hg, hb⟩
      obtain ⟨e, rfl, he⟩ := (hfl l i).1 hb
      exact ⟨e, (laneOfElem_lt_iff hw e).1 hl, hg, he⟩
    · rintro ⟨e, he, hg, hb⟩
      exact ⟨_, (laneOfElem_lt_iff hw e).2 he, hg, (hfl _ i).2 ⟨e, rfl, hb⟩⟩

/-! ### Conversion of a lane -/

theorem Fmt.width_mul (k : Fmt) : k.width * (32 / k.width) = 32 := by cases k <;> rfl

/-- The elements that the conversion of a lane makes of it (R185). -/
theorem cvtLane_digit (ks kt : Fmt) (t : FCtx) (src : Nat → BitVec 32) (e : Nat) :
    (cvtLane (.flt ks) (.flt kt) t (fun _ => 0) (src (laneOfElem kt.width e)).toNat).code /
        2 ^ (kt.width * (e % (32 / kt.width))) % 2 ^ kt.width =
      (convertedElem ks.width kt.width src (fun _ _ v => cvtElem (.flt ks) (.flt kt) t 0 v) e).code % 2 ^ kt.width := by
  change joinElems kt.width _ / _ % _ = _
  rw [joinElems_digit]
  unfold convertedElem
  dsimp only
  split
  · next h => simp [h, CvtFmt.width, Nat.shiftRight_eq_div_pow]
  · next h => simp [h, CvtFmt.width]

/-- The flags that the conversion of a lane raises are those of its elements (R58, R185). -/
theorem bitOf_cvtLane_fl (ks kt : Fmt) (t : FCtx) (src : Nat → BitVec 32) (l i : Nat) :
    bitOf (cvtLane (.flt ks) (.flt kt) t (fun _ => 0) (src l).toNat).fl i = true ↔
      ∃ e, laneOfElem kt.width e = l ∧
        bitOf (convertedElem ks.width kt.width src (fun _ _ v => cvtElem (.flt ks) (.flt kt) t 0 v) e).fl i = true := by
  have hnone : bitOf (0 : Flags) i = false := by simp [bitOf]
  rw [cvtLane]
  dsimp only
  rw [bitOf_foldl_flags, hnone, Bool.false_or, List.any_map, List.any_eq_true]
  constructor
  · rintro ⟨k, hk, hb⟩
    have hk : k < min (32 / ks.width) (32 / kt.width) := List.mem_range.1 hk
    obtain ⟨e, rfl, rfl⟩ := exists_elem kt.width_mul l (lt_of_lt_of_le hk (min_le_right ..))
    refine ⟨e, rfl, ?_⟩
    rw [convertedElem, if_pos hk, BitVec.extractLsb'_toNat, Nat.shiftRight_eq_div_pow]
    exact hb
  · rintro ⟨e, rfl, hb⟩
    rw [convertedElem] at hb
    split at hb
    · next hk =>
      rw [BitVec.extractLsb'_toNat, Nat.shiftRight_eq_div_pow] at hb
      exact ⟨_, List.mem_range.2 hk, hb⟩
    · rw [hnone] at hb
      cases hb

/-! ### Tile registers -/

section
variable {s : State} {i : Instr} (h : s.runs i) (c : Cluster) (o : VOps) (dest : Dest) (lat : Nat) {el : Unit → Nat → Nat}
  (d : Unit → Bool) {src : Nat → BitVec 32} (hsrc : ∀ l, el s.src l = (src l).toNat)
include h hsrc

/-- R216: the raw form moves each governed lane unchanged. -/
theorem tileMove_raw (hraw : o.fn.toNat / 4 = 7) : ∃ t, tileMove s i c o dest lat el d = .next t ∧
    s.vectorResult t c o.nw dest (s.src.gov c o).1 lat (d s.src || s.gdef c o) 32 src (fun _ => 0) := by
  have hrow (l : Nat) : rowConvert o (s.src.fctx o) (el s.src l) = { code := (src l).toNat } := by
    rw [rowConvert, if_pos (by simp [rowRaw, hraw]), hsrc]
  refine ⟨_, slotStep_runs h, ?_⟩
  simp only [hrow]
  refine s.vectorResult_cvtLanes c o.nw dest _ lat _ (by decide) (fun e => ?_) fun l i => ?_
  · have hlane : laneOfElem 32 e = e := by simp [laneOfElem_eq]
    simpa [hlane, Nat.mod_one] using Nat.mod_eq_of_lt (src e).isLt
  · simp [bitOf]

/-- R216: the other forms convert each governed lane as VCVT does. -/
theorem tileMove_converted (hraw : ¬ o.fn.toNat / 4 = 7) : ∃ t, tileMove s i c o dest lat el d = .next t ∧
    s.vectorResult t c o.nw dest (s.src.gov c o).1 lat (d s.src || s.gdef c o) (vfmt o).width
      (fun e => BitVec.ofNat _ (convertedElem (Fmt.ofCode (o.fn.toNat / 4)).width (vfmt o).width src
        (fun _ _ v => cvtElem (.flt (Fmt.ofCode (o.fn.toNat / 4))) (.flt (vfmt o)) (s.src.fctx o) 0 v) e).code)
      (fun e => (convertedElem (Fmt.ofCode (o.fn.toNat / 4)).width (vfmt o).width src
        (fun _ _ v => cvtElem (.flt (Fmt.ofCode (o.fn.toNat / 4))) (.flt (vfmt o)) (s.src.fctx o) 0 v) e).fl) := by
  have hrow (l : Nat) : rowConvert o (s.src.fctx o) (el s.src l) =
      cvtLane (.flt (Fmt.ofCode (o.fn.toNat / 4))) (.flt (vfmt o)) (s.src.fctx o) (fun _ => 0) (src l).toNat := by
    rw [rowConvert, if_neg (by simp [rowRaw, hraw]), hsrc]
  refine ⟨_, slotStep_runs h, ?_⟩
  simp only [hrow]
  refine s.vectorResult_cvtLanes c o.nw dest _ lat _ (vfmt o).width_mul (fun e => ?_) fun l i => ?_
  · rw [cvtLane_digit, BitVec.toNat_ofNat]
  · exact bitOf_cvtLane_fl ..

end

/-! ### XEXT and STG -/

theorem VSrc.el_pair (p : VSrc) (l : Nat) :
    BitVec.ofNat 64 (p.el 64 l 0) = (p.hi.extractLsb' (32 * l) 32 ++ p.lo.extractLsb' (32 * l) 32 : BitVec 64) := by
  apply BitVec.eq_of_toNat_eq
  rw [VSrc.el, if_pos rfl, laneAt_eq, laneAt_eq, BitVec.toNat_append, ← Nat.shiftLeft_add_eq_or_of_lt (BitVec.isLt _),
    Nat.shiftLeft_eq, BitVec.toNat_ofNat, Nat.add_comm, Nat.mul_comm]
  exact Nat.mod_eq_of_lt (by omega)

/-- Settles O8: XEXT by its form, STG as a slot step, and each tile-register instruction as a move of the lanes that it reads. -/
theorem crossingStagingAndTileRegisters : Obligations.CrossingStagingAndTileRegisters := by
  refine ⟨⟨fun f o s h => ?_, fun o s h => ?_⟩, fun c o s => ?_⟩
  · have hform {n : Nat} (hn : f.toNat / 2 = n) : field f 1 2 = BitVec.ofNat 2 n := by
      rw [field, BitVec.extractLsb', Nat.shiftRight_eq_div_pow, pow_one, hn]
    have hrun : execXext f o s = _ := slotStep_runs h
    intro cl v p lane
    refine ⟨fun hn => ?_, fun hn => ?_, fun hn => ?_⟩ <;> rw [hform hn] at hrun
    · have hlane : BitVec.ofNat 64 (laneAt v.lo o.b.toNat) = (lane v.lo).setWidth 64 := by
        rw [laneAt_eq, BitVec.ofNat_toNat]
      rw [← hlane]
      exact hrun
    · have hlane : BitVec.ofNat 32 (laneAt v.lo o.b.toNat) = lane v.lo := by
        rw [laneAt_eq, BitVec.ofNat_toNat, BitVec.setWidth_eq]
      rw [← hlane]
      exact hrun
    · rw [← VSrc.el_pair p]
      exact hrun
  · change execStg o s = _
    exact slotStep_runs h
  · intro n row a g raw ks kt moves
    refine ⟨fun _ h => ?_, fun _ h => ?_, fun _ h => ?_⟩
    · change (_ → ∃ t, execTwr c o s = _ ∧ _) ∧ (_ → ∃ t, execTwr c o s = _ ∧ _)
      exact ⟨tileMove_raw h c o _ 3 _ fun l => laneAt_eq _ l, tileMove_converted h c o _ 3 _ fun l => laneAt_eq _ l⟩
    · change (_ → ∃ t, execTrdc c o s = _ ∧ _) ∧ (_ → ∃ t, execTrdc c o s = _ ∧ _)
      exact ⟨tileMove_raw h c o _ 4 _ fun l => laneAt_eq _ _, tileMove_converted h c o _ 4 _ fun l => laneAt_eq _ _⟩
    · change (_ → ∃ t, execTrdr c o s = _ ∧ _) ∧ (_ → ∃ t, execTrdr c o s = _ ∧ _)
      exact ⟨tileMove_raw h c o _ 4 _ fun l => laneAt_eq _ l, tileMove_converted h c o _ 4 _ fun l => laneAt_eq _ l⟩

end Sys2Proof.Machine
end

/-! ## Vector results

What a result delivered as a list of lane values holds, element by element (R50, R167 to R171), and which fields a well-formed
vector instruction has (R120): the layer under O22 to O26. -/

section
namespace Sys2Proof.Machine

/-! ### Elements of a width -/

/-- A width that elements may have: one element fills the lane of a pair, or whole elements fill a lane (R167). -/
@[reducible] def IsElemWidth (w : Nat) : Prop := w = 64 ∨ w * (32 / w) = 32

theorem isElemWidth_intWidth {ty : BitVec 3} : ty.toNat ≤ 3 → IsElemWidth (intWidth ty) := by
  revert ty
  decide

theorem Fmt.isElemWidth_width (k : Fmt) : IsElemWidth k.width := .inr k.width_mul

section
variable {w : Nat} (hw : IsElemWidth w)
include hw

theorem perLane_pos : 0 < perLane w := by
  rcases hw with rfl | hw
  · decide
  · rw [perLane, if_neg (width_ne_64 hw)]
    exact elemsOfLane_pos hw

theorem elemCount_eq_perLane : elemCount w = 64 * perLane w := by
  rcases hw with rfl | hw
  · rfl
  · rw [elemCount_eq hw, perLane, if_neg (width_ne_64 hw)]

theorem laneOfElem_eq_perLane (e : Nat) : laneOfElem w e = e / perLane w := by
  rcases hw with rfl | hw
  · exact (Nat.div_one e).symm
  · rw [laneOfElem_eq hw, perLane, if_neg (width_ne_64 hw)]

theorem laneOfElem_lt {e : Nat} (he : e < elemCount w) : laneOfElem w e < 64 := by
  rw [laneOfElem_eq_perLane hw, Nat.div_lt_iff_lt_mul (perLane_pos hw), ← elemCount_eq_perLane hw]
  exact he

/-- Every place of a lane is that of one element. -/
theorem exists_elem_at {l k : Nat} (hl : l < 64) (hk : k < perLane w) :
    ∃ e < elemCount w, laneOfElem w e = l ∧ e % perLane w = k := by
  refine ⟨perLane w * l + k, ?_, ?_, ?_⟩
  · calc perLane w * l + k < perLane w * (l + 1) := by rw [Nat.mul_succ]; omega
      _ ≤ perLane w * 64 := Nat.mul_le_mul_left _ hl
      _ = elemCount w := by rw [elemCount_eq_perLane hw, Nat.mul_comm]
  · rw [laneOfElem_eq_perLane hw, Nat.mul_add_div (perLane_pos hw), Nat.div_eq_of_lt hk, Nat.add_zero]
  · rw [Nat.mul_add_mod, Nat.mod_eq_of_lt hk]

/-- Element `e` of an operand is an element of its lane (R50, R167). -/
theorem VSrc.elem_eq_ofNat (v : VSrc) (e : Nat) :
    v.elem w e = BitVec.ofNat w (v.el w (laneOfElem w e) (e % perLane w)) := by
  rcases hw with rfl | hw
  · rw [VSrc.elem, VSrc.el, if_pos rfl, if_pos rfl, laneAt_eq, laneAt_eq]
    rfl
  · rw [VSrc.elem_eq_el hw, perLane, if_neg (width_ne_64 hw)]

theorem VSrc.el_lt (v : VSrc) (l k : Nat) : v.el w l k < 2 ^ w := by
  rw [VSrc.el]
  split
  · next h =>
    have hlo : laneAt v.lo l < 2 ^ 32 := Nat.mod_lt _ (Nat.two_pow_pos 32)
    have hhi : laneAt v.hi l < 2 ^ 32 := Nat.mod_lt _ (Nat.two_pow_pos 32)
    subst h
    omega
  · exact Nat.mod_lt _ (Nat.two_pow_pos w)

theorem VSrc.toNat_elem (v : VSrc) (e : Nat) : (v.elem w e).toNat = v.el w (laneOfElem w e) (e % perLane w) := by
  rw [v.elem_eq_ofNat hw, BitVec.toNat_ofNat, Nat.mod_eq_of_lt (v.el_lt hw ..)]

/-- The elements of a register, or a pair, put together from lane values. -/
theorem VSrc.el_lanes (ls : List Nat) {l k : Nat} (hl : l < 64) (hk : k < perLane w) :
    ({ lo := lanesLo ls, hi := lanesHi ls, d := false } : VSrc).el w l k = ls.getD l 0 / 2 ^ (w * k) % 2 ^ w := by
  have hlo : laneAt (lanesLo ls) l = ls.getD l 0 % 2 ^ 32 := laneAt_joinLanes ls hl
  rcases hw with rfl | hw
  · have hhi : laneAt (lanesHi ls) l = ls.getD l 0 / 2 ^ 32 % 2 ^ 32 := by
      rw [lanesHi, laneAt_joinLanes _ hl, ← List.getD_map (f := (· / 2 ^ 32)), Nat.zero_div]
    obtain rfl : k = 0 := Nat.lt_one_iff.1 hk
    rw [VSrc.el, if_pos rfl, hlo, hhi]
    omega
  · rw [perLane, if_neg (width_ne_64 hw)] at hk
    have hfits : w * k + w ≤ 32 := by
      have h := elem_fits hw k
      rwa [Nat.mod_eq_of_lt hk] at h
    rw [VSrc.el, if_neg (width_ne_64 hw), hlo, mod_two_pow_div_mod _ hfits]

end

/-! ### Lists of lane values -/

theorem getD_lanes_map (f : Nat → Nat) {l : Nat} (h : l < 64) : (lanes.map f).getD l 0 = f l := by simp [lanes, h]

theorem ofNat_mapElems {gov : Mask} {w : Nat} (f : Nat → Nat → Nat) {l k : Nat} (hl : l < 64) (hg : bitOf gov l = true)
    (hk : k < perLane w) :
    BitVec.ofNat w ((mapElems gov w f).getD l 0 / 2 ^ (w * k)) = BitVec.ofNat w (f l k) := by
  apply BitVec.eq_of_toNat_eq
  rw [mapElems, getD_lanes_map _ hl, if_pos hg, BitVec.toNat_ofNat, BitVec.toNat_ofNat, joinElems_digit]
  simp [hk]

theorem mapFloat_fst (gov : Mask) (w : Nat) (f : Nat → Nat → FRes) :
    (mapFloat gov w f).1 = mapElems gov w (fun l k => (f l k).code) := by
  rw [mapFloat, mapElems, List.map_map]
  refine List.map_congr_left fun l _ => ?_
  by_cases hg : bitOf gov l = true
  · simp only [Function.comp_apply, if_pos hg, List.map_map]
    rfl
  · simp [hg, joinElems]

/-- The flags of a result are those of its governed elements (R58). -/
theorem bitOf_mapFloat (gov : Mask) (w : Nat) (f : Nat → Nat → FRes) (i : Nat) : bitOf (mapFloat gov w f).2 i = true ↔
    ∃ l < 64, bitOf gov l = true ∧ ∃ k < perLane w, bitOf (f l k).fl i = true := by
  have hnone : bitOf (0 : Flags) i = false := by simp [bitOf]
  rw [mapFloat]
  dsimp only
  rw [← List.foldl_flatten, bitOf_foldl_flags, hnone, Bool.false_or, ← List.flatMap_def, List.any_flatMap, List.any_eq_true]
  refine exists_congr fun l => ?_
  by_cases hg : bitOf gov l = true
  · simp [lanes, hg]
  · simp [hg]

/-! ### Results in flight -/

section
variable {w : Nat} (hw : IsElemWidth w)
include hw

section
variable (s : State) (c : Cluster) (nw : Bool) (dest : Dest) (gov : Mask) (lat : Nat) (d : Bool)

/-- Lane values delivered are the result whose elements they hold (R168 to R171). -/
theorem State.vectorResult_deliverV (ls : List Nat) (flags : Flags) {el : Nat → BitVec w} {fl : Nat → Flags}
    (hel : ∀ e < elemCount w, bitOf gov (laneOfElem w e) = true →
      BitVec.ofNat w (ls.getD (laneOfElem w e) 0 / 2 ^ (w * (e % perLane w))) = el e)
    (hfl : ∀ i, bitOf flags i = true ↔ ∃ e < elemCount w, bitOf gov (laneOfElem w e) = true ∧ bitOf (fl e) i = true) :
    s.vectorResult (s.deliverV c nw dest gov lat ls d flags) c nw dest gov lat d w el fl := by
  refine ⟨_, rfl, rfl, rfl, rfl, rfl, rfl, rfl, rfl, rfl, fun e he hg => ?_, fun i _ => hfl i⟩
  have hk : e % perLane w < perLane w := Nat.mod_lt _ (perLane_pos hw)
  rw [VSrc.elem_eq_ofNat hw, VSrc.el_lanes hw _ (laneOfElem_lt hw he) hk, ← hel e he hg]
  apply BitVec.eq_of_toNat_eq
  rw [BitVec.toNat_ofNat, BitVec.toNat_ofNat, Nat.mod_mod]

/-- Elements delivered without flags. -/
theorem State.vectorResult_mapElems {f : Nat → Nat → Nat} {el : Nat → BitVec w}
    (hel : ∀ e, BitVec.ofNat w (f (laneOfElem w e) (e % perLane w)) = el e) :
    s.vectorResult (s.deliverV c nw dest gov lat (mapElems gov w f) d 0) c nw dest gov lat d w el (fun _ => 0) := by
  refine s.vectorResult_deliverV hw c nw dest gov lat d _ _ (fun e he hg => ?_) (fun i => by simp [bitOf])
  have hk : e % perLane w < perLane w := Nat.mod_lt _ (perLane_pos hw)
  rw [ofNat_mapElems f (laneOfElem_lt hw he) hg hk, hel]

/-- Elements delivered with their flags (R58). -/
theorem State.vectorResult_mapFloat {f : Nat → Nat → FRes} {el : Nat → FRes}
    (hel : ∀ e, f (laneOfElem w e) (e % perLane w) = el e) :
    s.vectorResult (s.deliverV c nw dest gov lat (mapFloat gov w f).1 d (mapFloat gov w f).2) c nw dest gov lat d w
      (fun e => BitVec.ofNat w (el e).code) (fun e => (el e).fl) := by
  refine s.vectorResult_deliverV hw c nw dest gov lat d _ _ (fun e he hg => ?_) (fun i => ?_)
  · have hk : e % perLane w < perLane w := Nat.mod_lt _ (perLane_pos hw)
    rw [mapFloat_fst, ofNat_mapElems _ (laneOfElem_lt hw he) hg hk, hel]
  · rw [bitOf_mapFloat]
    constructor
    · rintro ⟨l, hl, hg, k, hk, hb⟩
      obtain ⟨e, he, rfl, rfl⟩ := exists_elem_at hw hl hk
      exact ⟨e, he, hg, by rwa [← hel]⟩
    · rintro ⟨e, he, hg, hb⟩
      exact ⟨_, laneOfElem_lt hw he, hg, _, Nat.mod_lt _ (perLane_pos hw), by rwa [hel]⟩

/-- One element a lane, delivered without flags. -/
theorem State.vectorResult_lanes (hone : perLane w = 1) {ls : List Nat} {el : Nat → BitVec w}
    (hel : ∀ l < 64, bitOf gov l = true → BitVec.ofNat w (ls.getD l 0) = el l) :
    s.vectorResult (s.deliverV c nw dest gov lat ls d 0) c nw dest gov lat d w el (fun _ => 0) := by
  refine s.vectorResult_deliverV hw c nw dest gov lat d _ _ (fun e he hg => ?_) (fun i => by simp [bitOf])
  have hlane : laneOfElem w e = e := by rw [laneOfElem_eq_perLane hw, hone, Nat.div_one]
  have hlt := laneOfElem_lt hw he
  rw [hlane] at hg hlt ⊢
  rw [hone, Nat.mod_one, Nat.mul_zero, Nat.pow_zero, Nat.div_one, hel e hlt hg]

end

end

/-- A mask delivered is the result whose bits it holds (R176, R219). -/
theorem State.maskResult_deliverK (s : State) (c : Cluster) (nw : Bool) (n : Nat) (gov m : Mask) (d : Bool) {bit : Nat → Bool}
    (hbit : ∀ l < 64, bitOf gov l = true → bitOf m l = bit l) :
    s.maskResult (s.deliverK c nw n gov 2 m d) c nw n gov d bit := by
  refine ⟨_, rfl, rfl, rfl, rfl, rfl, rfl, rfl, rfl, fun l hl hg => ?_⟩
  have hlow : l < 2048 := by omega
  simpa [bitOf, hlow] using hbit l hl hg

/-! ### Well-formed vector instructions -/

theorem need_eq_nil {lo : Nat} {ok : Bool} : need lo ok = [] ↔ ok = true := by simp [need]

/-- A well-formed vector instruction has a form, with a type and an fn value that the form accepts (R119, R120). -/
theorem exists_form_of_wellFormed {i : Instr} {op : Nat} {c : Cluster} {o : VOps} (h : WellFormed i = true)
    (hof : vectorOf i = some (op, c, o)) : ∃ f, vform op o = some f ∧ f.tyOk = true ∧ f.fnOk = true := by
  have hfaults := encodingFaults_of_wellFormed h
  simp only [encodingFaults, hof] at hfaults
  split at hfaults
  · next f hf =>
    simp only [vectorFaults, List.append_eq_nil_iff, need_eq_nil] at hfaults
    obtain ⟨⟨⟨⟨⟨-, hty⟩, -⟩, hfn⟩, -⟩, -⟩ := hfaults
    exact ⟨f, hf, hty, hfn⟩
  · cases hfaults

theorem formOk_of_wellFormed {i : Instr} {op : Nat} {c : Cluster} {o : VOps} {f : VForm} (h : WellFormed i = true)
    (hof : vectorOf i = some (op, c, o)) (hf : vform op o = some f) : f.tyOk = true ∧ f.fnOk = true := by
  obtain ⟨g, hg, hok⟩ := exists_form_of_wellFormed h hof
  rwa [Option.some.inj (hf.symm.trans hg)]

end Sys2Proof.Machine
end

/-! ## Vector integer arithmetic

The element operations on numbers as operations on words of the element's width (R173 to R175), and what each shared form
delivers: O22. -/

section
namespace Sys2Proof.Machine

/-! ### Elements as words -/

section
variable {w : Nat} (a b : BitVec w)

theorem sgn_toNat : sgn w a.toNat = a.toInt := by rw [sgn, BitVec.ofNat_toNat, BitVec.setWidth_eq]

theorem ofNat_wrap (v : Int) : BitVec.ofNat w (wrap w v) = BitVec.ofInt w v := by
  apply BitVec.eq_of_toNat_eq
  have hlt : wrap w v < 2 ^ w := by
    have hpos : (0 : Int) < 2 ^ w := Int.pow_pos (by decide)
    have hmod := Int.emod_lt_of_pos v hpos
    zify
    rw [wrap, Int.toNat_of_nonneg (Int.emod_nonneg v hpos.ne')]
    exact hmod
  rw [BitVec.toNat_ofNat, Nat.mod_eq_of_lt hlt, wrap, BitVec.toNat_ofInt]
  simp

theorem ofNat_mod (n : Nat) : BitVec.ofNat w (n % 2 ^ w) = BitVec.ofNat w n := by
  apply BitVec.eq_of_toNat_eq
  simp

theorem ofNat_sub : BitVec.ofNat w ((2 ^ w + a.toNat - b.toNat) % 2 ^ w) = a - b := by
  have hb := b.isLt
  rw [ofNat_mod, eq_comm, eq_ofNat_iff, BitVec.toNat_sub]
  congr 1
  omega

theorem ofNat_andn : BitVec.ofNat w (a.toNat &&& (2 ^ w - 1 - b.toNat)) = a &&& ~~~b := by
  rw [← BitVec.toNat_not, ← BitVec.toNat_and, BitVec.ofNat_toNat, BitVec.setWidth_eq]

theorem ofNat_mulh (signed : Bool) : BitVec.ofNat w (if signed = true then wrap w (sgn w a.toNat * sgn w b.toNat / 2 ^ w)
      else a.toNat * b.toNat / 2 ^ w) =
    if signed then BitVec.ofInt w (a.toInt * b.toInt / 2 ^ w) else BitVec.ofNat w (a.toNat * b.toNat / 2 ^ w) := by
  cases signed
  · rfl
  · rw [if_pos rfl, if_pos rfl, ofNat_wrap, sgn_toNat, sgn_toNat]

theorem ofNat_pickElem_min (signed : Bool) : BitVec.ofNat w (pickElem signed false w a.toNat b.toNat) =
    if signed then BitVec.ofInt w (min a.toInt b.toInt) else BitVec.ofNat w (min a.toNat b.toNat) := by
  cases signed
  · rcases Nat.lt_or_ge a.toNat b.toNat with h | h
    · simp [pickElem, h, Nat.min_eq_left h.le]
    · simp [pickElem, Nat.not_lt.2 h, Nat.min_eq_right h]
  · rcases lt_or_ge a.toInt b.toInt with h | h
    · simp [pickElem, sgn_toNat, h, Int.min_eq_left h.le]
    · simp [pickElem, sgn_toNat, Int.not_lt.2 h, Int.min_eq_right h]

theorem ofNat_pickElem_max (signed : Bool) : BitVec.ofNat w (pickElem signed true w a.toNat b.toNat) =
    if signed then BitVec.ofInt w (max a.toInt b.toInt) else BitVec.ofNat w (max a.toNat b.toNat) := by
  cases signed
  · rcases Nat.lt_or_ge a.toNat b.toNat with h | h
    · simp [pickElem, h, Nat.max_eq_right h.le]
    · simp [pickElem, Nat.not_lt.2 h, Nat.max_eq_left h]
  · rcases lt_or_ge a.toInt b.toInt with h | h
    · simp [pickElem, sgn_toNat, h, Int.max_eq_right h.le]
    · simp [pickElem, sgn_toNat, Int.not_lt.2 h, Int.max_eq_left h]

theorem ofNat_neg : BitVec.ofNat w ((2 ^ w - a.toNat) % 2 ^ w) = -a := by
  rw [ofNat_mod, eq_comm, eq_ofNat_iff, BitVec.toNat_neg]

/-- R173: the leading zero bits are those above the highest one bit. -/
theorem clzElem_toNat : clzElem w a.toNat = leadingZerosOf w a := by
  unfold clzElem leadingZerosOf
  split
  · next h =>
    obtain rfl : a = 0 := BitVec.eq_of_toNat_eq h
    exact (length_takeWhile_range (Nat.le_refl w) (fun j _ => by simp [bitOf]) (fun h => absurd h (Nat.lt_irrefl w))).symm
  · next hne =>
    have hlog : a.toNat.log2 < w := (Nat.log2_lt hne).2 a.isLt
    refine (length_takeWhile_range (by omega) (fun j hj => ?_) (fun _ => ?_)).symm
    · have hzero : a.toNat.testBit (w - 1 - j) = false := Nat.testBit_lt_two_pow ((Nat.log2_lt hne).1 (by omega))
      rw [Bool.not_eq_true']
      exact hzero
    · have hone : a.toNat.testBit a.toNat.log2 = true := Nat.testBit_log2 hne
      rw [show w - 1 - (w - 1 - a.toNat.log2) = a.toNat.log2 by omega, Bool.not_eq_false']
      exact hone

theorem popElem_eq_popNat : ∀ n v : Nat, popElem n v = popNat n v
  | 0, _ => rfl
  | n + 1, v => congrArg _ (popElem_eq_popNat n (v / 2))

theorem popElem_toNat : popElem w a.toNat = oneBitsOf w a := (popElem_eq_popNat w _).trans (popNat_eq w _)

theorem ofNat_shl (n : Nat) : BitVec.ofNat w (a.toNat * 2 ^ n % 2 ^ w) = a <<< n := by
  rw [ofNat_mod, eq_comm, eq_ofNat_iff, BitVec.toNat_shiftLeft, Nat.shiftLeft_eq]

theorem ofNat_shr (n : Nat) : BitVec.ofNat w (a.toNat / 2 ^ n) = a >>> n := by
  rw [← Nat.shiftRight_eq_div_pow, ← BitVec.toNat_ushiftRight, BitVec.ofNat_toNat, BitVec.setWidth_eq]

theorem ofNat_sar (n : Nat) : BitVec.ofNat w (wrap w (sgn w a.toNat / 2 ^ n)) = a.sshiftRight n := by
  rw [ofNat_wrap, sgn_toNat, BitVec.sshiftRight, Int.shiftRight_eq_div_pow]
  rfl

theorem ofNat_rot (n : Nat) :
    BitVec.ofNat w ((a.toNat * 2 ^ n % 2 ^ w) ||| (a.toNat / 2 ^ (w - n))) = (a <<< n) ||| (a >>> (w - n)) := by
  rw [← ofNat_shl, ← ofNat_shr, ← BitVec.ofNat_or]

theorem toNat_append_elems (a b : BitVec w) : (a ++ b).toNat = a.toNat * 2 ^ w + b.toNat := by
  rw [BitVec.toNat_append, ← Nat.shiftLeft_add_eq_or_of_lt b.isLt, Nat.shiftLeft_eq]

theorem ofNat_funnelLeft (n : Nat) :
    BitVec.ofNat w ((a.toNat * 2 ^ w + b.toNat) * 2 ^ n / 2 ^ w % 2 ^ w) = funnelLeft w a b n := by
  rw [ofNat_mod, eq_comm, eq_ofNat_iff, funnelLeft, BitVec.extractLsb'_toNat, BitVec.toNat_shiftLeft, toNat_append_elems,
    Nat.shiftLeft_eq, Nat.shiftRight_eq_div_pow, mod_two_pow_div_mod _ (Nat.le_refl _)]

theorem ofNat_funnelRight (n : Nat) :
    BitVec.ofNat w ((b.toNat * 2 ^ w + a.toNat) / 2 ^ n % 2 ^ w) = funnelRight w a b n := by
  rw [ofNat_mod, eq_comm, eq_ofNat_iff, funnelRight, BitVec.extractLsb'_toNat, BitVec.toNat_ushiftRight, toNat_append_elems,
    Nat.shiftRight_zero, Nat.shiftRight_eq_div_pow]

end

/-! ### The shared forms -/

/-- The destination of an integer result is a pair for 64-bit elements (R167). -/
theorem vdest_of_type (c : Cluster) {o : VOps} (hty : o.ty.toNat ≤ 3) : vdest c (o.ty == 3) o =
    if intWidth o.ty = 64 then .vpair c o.vd.toNat else .vreg c o.vd.toNat := by
  have hpair : (o.ty == 3) = decide (intWidth o.ty = 64) := by
    revert hty
    generalize o.ty = ty
    revert ty
    decide
  rw [vdest, hpair]
  simp only [decide_eq_true_eq]

section
variable {c : Cluster} {o : VOps} (hty : o.ty.toNat ≤ 3)
include hty

/-- Integer elements delivered are the result whose elements they are (R168, R171, R172). -/
theorem State.intResult_mapElems (s : State) (d : Bool) {f : Nat → Nat → Nat} {el : Nat → BitVec (intWidth o.ty)}
    (hel : ∀ e, BitVec.ofNat _ (f (laneOfElem (intWidth o.ty) e) (e % perLane (intWidth o.ty))) = el e) :
    s.intResult (s.deliverV c o.nw (vdest c (o.ty == 3) o) (s.src.gov c o).1 2
      (mapElems (s.src.gov c o).1 (intWidth o.ty) f) (d || s.gdef c o) 0) c o d (intWidth o.ty) el := by
  rw [State.intResult, vdest_of_type c hty]
  exact s.vectorResult_mapElems (isElemWidth_intWidth hty) _ _ _ _ _ _ hel

variable {s : State} {i : Instr} (h : s.runs i)
include h

theorem vintA_of_runs {f : Nat → Nat → Nat} {value : BitVec (intWidth o.ty) → BitVec (intWidth o.ty)}
    (hf : ∀ a : BitVec (intWidth o.ty), BitVec.ofNat _ (f (intWidth o.ty) a.toNat) = value a) :
    ∃ t, vintA s i c o f = .next t ∧
      s.intResult t c o (s.vin c o o.va).d (intWidth o.ty) (fun e => value ((s.vin c o o.va).elem _ e)) := by
  refine ⟨_, slotStep_runs h, State.intResult_mapElems hty s _ fun e => ?_⟩
  rw [← hf, VSrc.toNat_elem (isElemWidth_intWidth hty)]
  rfl

theorem vintAB_of_runs {f : Nat → Nat → Nat → Nat}
    {value : BitVec (intWidth o.ty) → BitVec (intWidth o.ty) → BitVec (intWidth o.ty)}
    (hf : ∀ a b : BitVec (intWidth o.ty), BitVec.ofNat _ (f (intWidth o.ty) a.toNat b.toNat) = value a b) :
    ∃ t, vintAB s i c o f = .next t ∧ s.intResult t c o ((s.vin c o o.va).d || (s.vin c o o.vb).d) (intWidth o.ty)
      (fun e => value ((s.vin c o o.va).elem _ e) ((s.vin c o o.vb).elem _ e)) := by
  refine ⟨_, slotStep_runs h, State.intResult_mapElems hty s _ fun e => ?_⟩
  rw [← hf, VSrc.toNat_elem (isElemWidth_intWidth hty), VSrc.toNat_elem (isElemWidth_intWidth hty)]
  rfl

/-- R174: the amount is the low bits of the element of vb, or fn. -/
theorem vshift_of_runs {f : Nat → Nat → Nat → Nat} {value : BitVec (intWidth o.ty) → Nat → BitVec (intWidth o.ty)}
    (hf : ∀ (a : BitVec (intWidth o.ty)) (n : Nat), BitVec.ofNat _ (f (intWidth o.ty) a.toNat n) = value a n) :
    (o.fn = 0 → ∃ t, vshift s i c o f = .next t ∧
      s.intResult t c o ((s.vin c o o.va).d || (s.vin c o o.vb).d) (intWidth o.ty) (fun e =>
        value ((s.vin c o o.va).elem _ e) (((s.vin c o o.vb).elem (intWidth o.ty) e).toNat % intWidth o.ty))) ∧
    (o.fn ≠ 0 → o.fn.toNat < intWidth o.ty → ∃ t, vshift s i c o f = .next t ∧
      s.intResult t c o (s.vin c o o.va).d (intWidth o.ty) (fun e => value ((s.vin c o o.va).elem _ e) o.fn.toNat)) := by
  refine ⟨fun hfn => ?_, fun hfn _ => ?_⟩
  · rw [vshift, if_pos hfn]
    exact vintAB_of_runs hty h (value := fun a b => value a (b.toNat % intWidth o.ty)) fun a b => hf a _
  · rw [vshift, if_neg hfn]
    exact vintA_of_runs hty h (value := fun a => value a o.fn.toNat) fun a => hf a _

/-- R175: the amount of a funnel shift is the low bits of the element of vc, or fn. -/
theorem vfunnel_of_runs {f : Nat → Nat → Nat → Nat → Nat}
    {value : BitVec (intWidth o.ty) → BitVec (intWidth o.ty) → Nat → BitVec (intWidth o.ty)}
    (hf : ∀ (a b : BitVec (intWidth o.ty)) (n : Nat), BitVec.ofNat _ (f (intWidth o.ty) a.toNat b.toNat n) = value a b n) :
    (o.fn = 0 → ∃ t, vfunnel s i c o f = .next t ∧
      s.intResult t c o ((s.vin c o o.va).d || (s.vin c o o.vb).d || (s.vin c o o.vc).d) (intWidth o.ty) (fun e =>
        value ((s.vin c o o.va).elem _ e) ((s.vin c o o.vb).elem _ e)
          (((s.vin c o o.vc).elem (intWidth o.ty) e).toNat % intWidth o.ty))) ∧
    (o.fn ≠ 0 → o.fn.toNat < intWidth o.ty → ∃ t, vfunnel s i c o f = .next t ∧
      s.intResult t c o ((s.vin c o o.va).d || (s.vin c o o.vb).d) (intWidth o.ty)
        (fun e => value ((s.vin c o o.va).elem _ e) ((s.vin c o o.vb).elem _ e) o.fn.toNat)) := by
  have hw := isElemWidth_intWidth hty
  refine ⟨fun hfn => ?_, fun hfn _ => ?_⟩
  · rw [vfunnel, if_pos hfn]
    refine ⟨_, slotStep_runs h, State.intResult_mapElems hty s _ fun e => ?_⟩
    rw [← hf, VSrc.toNat_elem hw, VSrc.toNat_elem hw, VSrc.toNat_elem hw]
    rfl
  · rw [vfunnel, if_neg hfn]
    exact vintAB_of_runs hty h (value := fun a b => value a b o.fn.toNat) fun a b => hf a b _

end

theorem exec_vmad_of_runs {c : Cluster} {o : VOps} {s : State} (hty : o.ty.toNat ≤ 2) (h : s.runs (.vmad c o)) :
    ∃ t, exec (.vmad c o) s = .next t ∧
      s.intResult t c o ((s.vin c o o.va).d || (s.vin c o o.vb).d || (s.vin c o o.vc).d) (intWidth o.ty)
        (fun e => (s.vin c o o.va).elem _ e * (s.vin c o o.vb).elem _ e + (s.vin c o o.vc).elem _ e) := by
  have hty3 : o.ty.toNat ≤ 3 := by omega
  have hw := isElemWidth_intWidth hty3
  have hone : (o.ty == 3) = false := beq_false_of_ne fun e => by simp [e] at hty
  have hvin (code : BitVec 6) : s.vin c o code = s.src.vsrc c code := by rw [State.vin, hone]; rfl
  refine ⟨_, (slotStep_runs h : execVmad c o s = _), ?_⟩
  rw [hvin, hvin, hvin, show vdest c false o = vdest c (o.ty == 3) o by rw [hone]]
  refine State.intResult_mapElems hty3 s _ fun e => ?_
  rw [ofNat_mod, ← VSrc.toNat_elem hw, ← VSrc.toNat_elem hw, ← VSrc.toNat_elem hw]
  simp [BitVec.ofNat_add, BitVec.ofNat_mul]

/-! ### O22 -/

/-- The instructions of R173 to R178 have integer types (R119, R120). -/
theorem intType_of_wellFormed {i : Instr} {op : Nat} {c : Cluster} {o : VOps} (h : WellFormed i = true)
    (hof : vectorOf i = some (op, c, o)) (hop : op ≤ 0x18) : o.ty.toNat ≤ 3 := by
  obtain ⟨f, hf, hty, -⟩ := exists_form_of_wellFormed h hof
  clear hof
  -- each form of this range takes types 000 to 011, or 000 to 010
  interval_cases op <;> cases hf <;> exact (of_decide_eq_true hty).trans (by decide)

theorem opSigned_eq {o : VOps} (hfn : o.fn.toNat ≤ 1) : opSigned o = (o.fn == 1) := by
  revert hfn
  rw [opSigned]
  generalize o.fn = fn
  revert fn
  decide

theorem exec_vecRow_of_runs {row : VecRow} (hrow : row ∈ vecRows) {c : Cluster} {o : VOps} {s : State}
    (hwf : WellFormed (row.instr c o) = true) (h : s.runs (row.instr c o)) :
    ∃ t, exec (row.instr c o) s = .next t ∧
      s.intResult t c o ((s.vin c o o.va).d || (s.vin c o o.vb).d) (intWidth o.ty)
        (fun e => row.value (opSigned o) _ ((s.vin c o o.va).elem _ e) ((s.vin c o o.vb).elem _ e)) := by
  simp only [vecRows, List.mem_cons, List.not_mem_nil, or_false] at hrow
  rcases hrow with rfl | rfl | rfl | rfl | rfl | rfl | rfl | rfl | rfl | rfl
  all_goals have hty : o.ty.toNat ≤ 3 := intType_of_wellFormed hwf rfl (by decide)
  · change ∃ t, execVadd c o s = _ ∧ _
    exact vintAB_of_runs hty h fun a b => by simp [ofNat_mod, BitVec.ofNat_add]
  · change ∃ t, execVsub c o s = _ ∧ _
    exact vintAB_of_runs hty h ofNat_sub
  · change ∃ t, execVmul c o s = _ ∧ _
    exact vintAB_of_runs hty h fun a b => by simp [ofNat_mod, BitVec.ofNat_mul]
  · change ∃ t, execVmulh c o s = _ ∧ _
    rw [opSigned_eq (of_decide_eq_true (formOk_of_wellFormed hwf rfl rfl).2)]
    exact vintAB_of_runs hty h fun a b => by simpa only [beq_iff_eq] using ofNat_mulh a b (o.fn == 1)
  · change ∃ t, execVand c o s = _ ∧ _
    exact vintAB_of_runs hty h fun a b => by simp
  · change ∃ t, execVor c o s = _ ∧ _
    exact vintAB_of_runs hty h fun a b => by simp
  · change ∃ t, execVxor c o s = _ ∧ _
    exact vintAB_of_runs hty h fun a b => by simp
  · change ∃ t, execVandn c o s = _ ∧ _
    exact vintAB_of_runs hty h ofNat_andn
  · change ∃ t, execVmin c o s = _ ∧ _
    rw [opSigned_eq (of_decide_eq_true (formOk_of_wellFormed hwf rfl rfl).2)]
    exact vintAB_of_runs hty h fun a b => ofNat_pickElem_min a b _
  · change ∃ t, execVmax c o s = _ ∧ _
    rw [opSigned_eq (of_decide_eq_true (formOk_of_wellFormed hwf rfl rfl).2)]
    exact vintAB_of_runs hty h fun a b => ofNat_pickElem_max a b _

theorem exec_vecUnaryRow_of_runs {row : VecUnaryRow} (hrow : row ∈ vecUnaryRows) {c : Cluster} {o : VOps} {s : State}
    (hwf : WellFormed (row.instr c o) = true) (h : s.runs (row.instr c o)) :
    ∃ t, exec (row.instr c o) s = .next t ∧
      s.intResult t c o (s.vin c o o.va).d (intWidth o.ty) (fun e => row.value _ ((s.vin c o o.va).elem _ e)) := by
  simp only [vecUnaryRows, List.mem_cons, List.not_mem_nil, or_false] at hrow
  rcases hrow with rfl | rfl | rfl | rfl
  all_goals have hty : o.ty.toNat ≤ 3 := intType_of_wellFormed hwf rfl (by decide)
  · change ∃ t, execVabs c o s = _ ∧ _
    exact vintA_of_runs hty h fun a => by rw [ofNat_mod, sgn_toNat]
  · change ∃ t, execVneg c o s = _ ∧ _
    exact vintA_of_runs hty h ofNat_neg
  · change ∃ t, execVclz c o s = _ ∧ _
    exact vintA_of_runs hty h fun a => by rw [clzElem_toNat]
  · change ∃ t, execVpopc c o s = _ ∧ _
    exact vintA_of_runs hty h fun a => by rw [popElem_toNat]

/-- Settles O22: each row delivers its element results, as do VMAD and the funnel shifts. -/
theorem vectorIntegerResults : Obligations.VectorIntegerResults := by
  refine ⟨⟨fun row hrow c o s hwf h => exec_vecRow_of_runs hrow hwf h,
    fun row hrow c o s hwf h => exec_vecUnaryRow_of_runs hrow hwf h, fun c o s hwf h => ?_⟩,
    fun row hrow c o s hwf h => ?_, fun left c o s => ?_⟩
  · exact exec_vmad_of_runs (of_decide_eq_true (formOk_of_wellFormed hwf rfl rfl).1) h
  · simp only [vecShiftRows, List.mem_cons, List.not_mem_nil, or_false] at hrow
    rcases hrow with rfl | rfl | rfl | rfl
    all_goals have hty : o.ty.toNat ≤ 3 := intType_of_wellFormed hwf rfl (by decide)
    · change (_ → ∃ t, execVshl c o s = _ ∧ _) ∧ (_ → _ → ∃ t, execVshl c o s = _ ∧ _)
      exact vshift_of_runs hty h ofNat_shl
    · change (_ → ∃ t, execVshr c o s = _ ∧ _) ∧ (_ → _ → ∃ t, execVshr c o s = _ ∧ _)
      exact vshift_of_runs hty h ofNat_shr
    · change (_ → ∃ t, execVsar c o s = _ ∧ _) ∧ (_ → _ → ∃ t, execVsar c o s = _ ∧ _)
      exact vshift_of_runs hty h ofNat_sar
    · change (_ → ∃ t, execVrot c o s = _ ∧ _) ∧ (_ → _ → ∃ t, execVrot c o s = _ ∧ _)
      exact vshift_of_runs hty h ofNat_rot
  · intro i shift hwf h
    cases left with
    | true =>
      change (_ → ∃ t, execVfshl c o s = _ ∧ _) ∧ (_ → _ → ∃ t, execVfshl c o s = _ ∧ _)
      exact vfunnel_of_runs (intType_of_wellFormed hwf rfl (by decide)) h ofNat_funnelLeft
    | false =>
      change (_ → ∃ t, execVfshr c o s = _ ∧ _) ∧ (_ → _ → ∃ t, execVfshr c o s = _ ∧ _)
      exact vfunnel_of_runs (intType_of_wellFormed hwf rfl (by decide)) h ofNat_funnelRight

end Sys2Proof.Machine
end

/-! ## Vector compares, selection, constants and masks

The bits of a mask made from its lanes (R176, R219), and the results of VCMP, VSEL, VMOVI and the mask instructions: O23. -/

section
namespace Sys2Proof.Machine

/-! ### Sums of digits -/

theorem joinElems_concat (w y : Nat) : ∀ xs : List Nat,
    joinElems w (xs ++ [y]) = joinElems w xs + 2 ^ (w * xs.length) * (y % 2 ^ w)
  | [] => by simp [joinElems]
  | x :: xs => by
    change x % 2 ^ w + 2 ^ w * joinElems w (xs ++ [y]) = x % 2 ^ w + 2 ^ w * joinElems w xs + _
    rw [joinElems_concat w y xs, List.length_cons, Nat.mul_succ w, pow_add]
    ring

/-- A sum of digits below `2 ^ w` holds each of them. -/
theorem sum_range_eq_joinElems {w : Nat} {f : Nat → Nat} (hf : ∀ i, f i < 2 ^ w) (n : Nat) :
    ((List.range n).map (fun i => f i * (2 ^ w) ^ i)).sum = joinElems w ((List.range n).map f) := by
  induction n with
  | zero => rfl
  | succ n ih =>
    rw [List.range_succ, List.map_append, List.sum_append, ih, List.map_append]
    simp only [List.map_cons, List.map_nil, List.sum_singleton]
    rw [joinElems_concat, List.length_map, List.length_range, Nat.mod_eq_of_lt (hf n), pow_mul, Nat.mul_comm]

/-! ### Masks -/

theorem bitOf_ofNat {n l : Nat} (x : Nat) (hl : l < n) : bitOf (BitVec.ofNat n x) l = x.testBit l := by
  rw [bitOf, BitVec.getLsbD_ofNat, decide_eq_true hl, Bool.true_and]

theorem bitOf_and_of_bitOf {m g : Mask} {l : Nat} (hg : bitOf g l = true) : bitOf (m &&& g) l = bitOf m l := by
  simpa [bitOf] using fun _ => hg

theorem bitOf_maskOf (f : Nat → Bool) {l : Nat} (hl : l < 64) : bitOf (maskOf f) l = f l := by
  have hsum : lanes.foldr (fun l acc => (if f l then 2 ^ l else 0) + acc) 0 =
      joinElems 1 (lanes.map (fun l => (f l).toNat)) := by
    rw [lanes, ← sum_range_eq_joinElems fun l => Bool.toNat_lt (f l), List.sum, List.foldr_map]
    congr 1
    funext l acc
    cases f l <;> simp
  have hdigit := joinElems_digit 1 (lanes.map (fun l => (f l).toNat)) l
  rw [getD_lanes_map _ hl, Nat.one_mul, pow_one] at hdigit
  rw [maskOf, bitOf_ofNat _ hl, hsum, Nat.testBit_eq_decide_div_mod_eq, hdigit]
  cases f l <;> rfl

/-- A condition of VCMP on words (R145, R176). -/
theorem cmpElem_toNat {w : Nat} (a b : BitVec w) : ∀ cond, cmpElem cond w a.toNat b.toNat = true ↔ condHolds cond a b
  | 0 => by simp [cmpElem, condHolds, BitVec.toNat_inj]
  | 1 => by simp [cmpElem, condHolds, BitVec.toNat_inj]
  | 2 => by simp [cmpElem, condHolds]
  | 3 => by simp [cmpElem, condHolds, sgn_toNat]
  | 4 => by simp [cmpElem, condHolds]
  | _ + 5 => by simp [cmpElem, condHolds, sgn_toNat]

/-- The lowest one bit of a mask (R219). -/
theorem firstBit_eq_trailingZeros (a : Mask) : firstBit a = trailingZeros a := by
  unfold firstBit trailingZeros
  cases hfind : lanes.find? (bitOf a) with
  | none =>
    have hzero : ∀ l < 64, bitOf a l = false := by simpa [lanes] using hfind
    exact (length_takeWhile_range (Nat.le_refl 64) (fun j hj => by simp [hzero j hj]) (fun h => absurd h (by decide))).symm
  | some l =>
    obtain ⟨hone, hl, hzero⟩ := List.find?_range_eq_some.1 hfind
    have hl : l < 64 := List.mem_range.1 hl
    exact (length_takeWhile_range hl.le hzero (fun _ => by simp [hone])).symm

/-! ### Compares, selection and constants -/

section
variable {c : Cluster} {o : VOps} {s : State}

theorem exec_vcmp_of_runs (hty : o.ty.toNat ≤ 3) (h : s.runs (.vcmp c o)) :
    ∃ t m, exec (.vcmp c o) s = .next t ∧
      s.maskResult t c o.nw o.vd.toNat (BitVec.allOnes 64) ((s.vin c o o.va).d || (s.vin c o o.vb).d || s.gdef c o)
        (bitOf (m : Mask)) ∧
      ∀ l < 64, (bitOf m l = true ↔ s.governs c o l = true ∧
        ∀ e < elemCount (intWidth o.ty), laneOfElem (intWidth o.ty) e = l →
          condHolds o.fn.toNat ((s.vin c o o.va).elem (intWidth o.ty) e) ((s.vin c o o.vb).elem (intWidth o.ty) e)) := by
  have hw := isElemWidth_intWidth hty
  refine ⟨_, _, (slotStep_runs h : execVcmp c o s = _), s.maskResult_deliverK _ _ _ _ _ _ fun _ _ _ => rfl, fun l hl => ?_⟩
  rw [bitOf_maskOf _ hl, Bool.and_eq_true, List.all_eq_true]
  refine and_congr_right fun _ => ⟨fun hall e he hlane => ?_, fun hall k hk => ?_⟩
  · subst hlane
    rw [← cmpElem_toNat, VSrc.toNat_elem hw, VSrc.toNat_elem hw]
    exact hall _ (List.mem_range.2 (Nat.mod_lt _ (perLane_pos hw)))
  · obtain ⟨e, he, hlane, rfl⟩ := exists_elem_at hw hl (List.mem_range.1 hk)
    have hcond := (cmpElem_toNat ..).2 (hall e he hlane)
    rw [VSrc.toNat_elem hw, VSrc.toNat_elem hw, hlane] at hcond
    exact hcond

theorem VSrc.ofNat_el_64 (v : VSrc) (l : Nat) : BitVec.ofNat 64 (v.el 64 l 0) = v.elem 64 l := (v.elem_eq_ofNat (.inl rfl) l).symm

theorem VSrc.ofNat_el_32 (v : VSrc) (l : Nat) : BitVec.ofNat 32 (v.el 64 l 0) = v.elem 32 l := by
  rw [VSrc.elem, if_neg (by decide), ← laneAt_eq, VSrc.el, if_pos rfl, BitVec.ofNat_add, BitVec.ofNat_mul]
  simp

/-- R177: every lane, from va where the mask holds and from vb elsewhere. -/
theorem exec_vsel_of_runs (h : s.runs (.vsel c o)) {w : Nat} (hw : w = if o.ty = 3 then 64 else 32) :
    ∃ t, exec (.vsel c o) s = .next t ∧
      s.vectorResult t c o.nw (if o.ty = 3 then .vpair c o.vd.toNat else .vreg c o.vd.toNat) (BitVec.allOnes 64) 2
        ((s.vin c o o.va).d || (s.vin c o o.vb).d || s.gdef c o) w
        (fun l => if s.governs c o l then (s.vin c o o.va).elem w l else (s.vin c o o.vb).elem w l) (fun _ => 0) := by
  have hlane : IsElemWidth w ∧ perLane w = 1 ∧ ∀ (v : VSrc) (l : Nat), BitVec.ofNat w (v.el 64 l 0) = v.elem w l := by
    split at hw
    · subst hw
      exact ⟨.inl rfl, rfl, VSrc.ofNat_el_64⟩
    · subst hw
      exact ⟨.inr rfl, rfl, VSrc.ofNat_el_32⟩
  obtain ⟨hwidth, hone, hlane⟩ := hlane
  have hdest : vdest c (o.ty == 3) o = if o.ty = 3 then .vpair c o.vd.toNat else .vreg c o.vd.toNat := by simp [vdest]
  refine ⟨_, (slotStep_runs h : execVsel c o s = _), ?_⟩
  rw [← hdest]
  refine s.vectorResult_lanes hwidth _ _ _ _ _ _ hone fun l hl _ => ?_
  rw [getD_lanes_map _ hl]
  change BitVec.ofNat w (if s.governs c o l = true then _ else _) = _
  split
  · exact hlane _ l
  · exact hlane _ l

theorem exec_vmovi_of_runs (hty : o.ty.toNat ≤ 3) (h : s.runs (.vmovi c o)) :
    ∃ t, exec (.vmovi c o) s = .next t ∧ s.intResult t c o false (intWidth o.ty)
      (fun _ => BitVec.ofInt _ (o.fn ++ (o.vc ++ (o.vb ++ o.va)) : BitVec 23).toInt) :=
  ⟨_, (slotStep_runs h : execVmovi c o s = _), State.intResult_mapElems hty s false fun _ => ofNat_wrap _⟩

/-! ### Mask instructions -/

variable {i : Instr} (h : s.runs i)
include h

/-- R219: the bits of a mask operation in the bits that the governing mask selects. -/
theorem maskOp_of_runs {useB : Bool} {f : Mask → Mask → Mask} {d : Bool} {bit : Nat → Bool}
    (hd : ((s.src.regs.mask c o.va.toNat).d || (if useB then s.src.regs.mask c o.vb.toNat else {}).d) = d)
    (hbit : ∀ l < 64, bitOf (f (s.src.regs.mask c o.va.toNat).v
      (if useB then s.src.regs.mask c o.vb.toNat else {}).v) l = bit l) :
    ∃ t, maskOp s i c o useB f = .next t ∧ s.maskResult t c o.nw o.vd.toNat (s.src.gov c o).1
      (d || s.gdef c o) bit := by
  subst hd
  refine ⟨_, slotStep_runs h, s.maskResult_deliverK _ _ _ _ _ _ fun l hl hg => ?_⟩
  rw [bitOf_and_of_bitOf hg, hbit l hl]

/-- R219: a value in every governed lane. -/
theorem maskLanes_of_runs {f : Nat → Mask → Nat} {lane : Nat → BitVec 32}
    (hlane : ∀ l, BitVec.ofNat 32 (f l (s.src.regs.mask c o.va.toNat).v) = lane l) :
    ∃ t, maskLanes s i c o f = .next t ∧ s.vectorResult t c o.nw (.vreg c o.vd.toNat) (s.src.gov c o).1 2
      ((s.src.regs.mask c o.va.toNat).d || s.gdef c o) 32 lane (fun _ => 0) := by
  refine ⟨_, slotStep_runs h, s.vectorResult_mapElems (by decide) _ _ _ _ _ _ fun e => ?_⟩
  rw [laneOfElem_eq_perLane (by decide), show perLane 32 = 1 from rfl, Nat.div_one, hlane]

omit h

theorem exec_kmovVk_of_runs (h : s.runs (.kmovVk c o)) : ∃ t, exec (.kmovVk c o) s = .next t ∧
    s.maskResult t c o.nw o.vd.toNat (s.src.gov c o).1 ((s.src.vsrc c o.va).d || s.gdef c o)
      (fun l => decide ((s.src.vsrc c o.va).lane l ≠ 0)) := by
  refine ⟨_, (slotStep_runs h : execKmovVk c o s = _), s.maskResult_deliverK _ _ _ _ _ _ fun l hl hg => ?_⟩
  rw [bitOf_and_of_bitOf hg, bitOf_maskOf _ hl, laneAt_eq]
  simp [VSrc.lane, bne, beq_eq_decide, ← BitVec.toNat_inj]

end

/-! ### O23 -/

/-- Settles O23: each instruction delivers the mask or the lanes of its shared form. -/
theorem vectorCompareSelectAndMasks : Obligations.VectorCompareSelectAndMasks := by
  refine ⟨⟨fun c o s hwf h => ?_, fun c o s _ h => ?_, fun c o s hwf h => ?_⟩, fun c o s => ?_⟩
  · exact exec_vcmp_of_runs (intType_of_wellFormed hwf rfl (by decide)) h
  · exact exec_vsel_of_runs h rfl
  · exact exec_vmovi_of_runs (intType_of_wellFormed hwf rfl (by decide)) h
  · intro a b v g gives fills
    refine ⟨fun _ h => ?_, fun _ h => ?_, fun _ h => ?_, fun _ h => ?_, fun _ h => ?_, fun _ h => ?_, fun _ h => ?_,
      fun _ h => ?_, fun _ h => ?_⟩
    · exact (maskOp_of_runs h rfl fun _ _ => BitVec.getLsbD_and : ∃ t, execKand c o s = _ ∧ _)
    · exact (maskOp_of_runs h rfl fun _ _ => BitVec.getLsbD_or : ∃ t, execKor c o s = _ ∧ _)
    · exact (maskOp_of_runs h rfl fun _ _ => BitVec.getLsbD_xor : ∃ t, execKxor c o s = _ ∧ _)
    · have hnot (l : Nat) (hl : l < 64) : bitOf (~~~a.v) l = !bitOf a.v l := by simp [bitOf, hl]
      exact (maskOp_of_runs h (Bool.or_false _) hnot : ∃ t, execKnot c o s = _ ∧ _)
    · exact (maskOp_of_runs h (Bool.or_false _) fun _ _ => rfl : ∃ t, execKmov c o s = _ ∧ _)
    · exact exec_kmovVk_of_runs h
    · exact (maskLanes_of_runs h fun _ => congrArg _ (popElem_toNat _) : ∃ t, execKpopc c o s = _ ∧ _)
    · exact (maskLanes_of_runs h fun _ => congrArg _ (firstBit_eq_trailingZeros _) : ∃ t, execKfirst c o s = _ ∧ _)
    · exact (maskLanes_of_runs h fun _ => apply_ite (BitVec.ofNat 32) .. : ∃ t, execKmovKv c o s = _ ∧ _)

end Sys2Proof.Machine
end

/-! ## Random words and space-filling keys

The generators on numbers as generators on words, stepped in the governed lanes (R192, R193), and the bits of the interleaved key
(R194, R195): O24. -/

section
namespace Sys2Proof.Machine

/-! ### Generators -/

theorem toNat_xorshift (x : BitVec 64) : (xorshift x).toNat = genStep x.toNat := by
  simp [xorshift, genStep, Nat.shiftLeft_eq, Nat.shiftRight_eq_div_pow]

theorem ofNat_genOut (x : BitVec 64) : BitVec.ofNat 32 (genOut x.toNat) = randomWord x := by
  apply BitVec.eq_of_toNat_eq
  rw [randomWord, BitVec.extractLsb'_toNat, BitVec.toNat_mul, Nat.shiftRight_eq_div_pow, BitVec.toNat_ofNat]
  rfl

theorem Regs.toNat_genWord (g : Regs) (c : Cluster) (l : Nat) : (g.genWord c l).toNat = g.gen c l :=
  (BitVec.toNat_ofNat ..).trans (Nat.mod_eq_of_lt (BitVec.isLt _))

theorem toNat_seedOf {l : Nat} (hl : l < 64) (v : BitVec 32) : (seedOf l v).toNat = genSeed l v.toNat := by
  have hv := v.isLt
  have hx : 0x9E3779B9 ^^^ l < 2 ^ 32 := Nat.xor_lt_two_pow (by decide) (by omega)
  have hconst : (0x9E3779B9 : BitVec 64).toNat = 0x9E3779B9 := rfl
  rw [seedOf, genSeed, BitVec.toNat_add, BitVec.toNat_xor, BitVec.toNat_ofNat, BitVec.toNat_ofNat, hconst,
    Nat.mod_eq_of_lt (a := l) (by omega)]
  omega

theorem tget_foldl_tput {α : Type} (d : α) (p : Nat → Bool) (v : Nat → α) (j : Nat) : ∀ (ls : List Nat) (t : Tbl α),
    tget d (ls.foldl (fun t l => if p l then tput t l (v l) else t) t) j = if j ∈ ls ∧ p j = true then v j else tget d t j
  | [], t => by simp
  | l :: ls, t => by
    rw [List.foldl_cons, tget_foldl_tput d p v j ls]
    by_cases hp : p l = true <;> by_cases hj : j = l <;> simp [hp, hj]

/-- R192: the generators of the governed lanes hold their new states, the others the old. -/
theorem Regs.genWord_setGen (g : Regs) (c : Cluster) (gov : Mask) (f : Nat → Nat) {l : Nat} (hl : l < 64) :
    (g.setGen c gov f).genWord c l = if bitOf gov l = true then BitVec.ofNat 64 (f l) else g.genWord c l := by
  have hgen : (g.setGen c gov f).gen c l = if bitOf gov l = true then (BitVec.ofNat 64 (f l)).toNat else g.gen c l := by
    have hmem : l ∈ lanes := List.mem_range.2 hl
    cases c with
    | va => simp only [Regs.gen, Regs.setGen, tget_foldl_tput, hmem, true_and, apply_ite BitVec.toNat]
    | vb => simp only [Regs.gen, Regs.setGen, tget_foldl_tput, hmem, true_and, apply_ite BitVec.toNat]
  rw [Regs.genWord, hgen, apply_ite (BitVec.ofNat 64), BitVec.ofNat_toNat, BitVec.setWidth_eq]
  rfl

section
variable (g : Regs) (c : Cluster) (gov : Mask) (f : Nat → Nat)

@[simp] theorem Regs.setGen_s : (g.setGen c gov f).s = g.s := by cases c <;> rfl
@[simp] theorem Regs.setGen_va : (g.setGen c gov f).va = g.va := by cases c <;> rfl
@[simp] theorem Regs.setGen_vb : (g.setGen c gov f).vb = g.vb := by cases c <;> rfl

end

/-- R192: a draw delivers the random words of the stepped generators and advances those of the governed lanes alone. -/
theorem drawRandom_spec {s t : State} {c : Cluster} {o : VOps} {d : Bool} {seed : Nat → Nat} {x : Nat → BitVec 64}
    (ht : drawRandom s c o (s.src.gov c o) seed d = t) (hseed : ∀ l < 64, seed l = (x l).toNat) :
    ∃ u, s.onlyFocus t ∧
      s.vectorResult u c o.nw (.vreg c o.vd.toNat) (s.src.gov c o).1 2 d 32 (fun l => randomWord (xorshift (x l)))
        (fun _ => 0) ∧
      t.cur.flight = u.cur.flight ∧ t.cur.regs.s = s.cur.regs.s ∧ t.cur.regs.va = s.cur.regs.va ∧
      t.cur.regs.vb = s.cur.regs.vb ∧
      ∀ l < 64, t.cur.regs.genWord c l = if s.governs c o l then xorshift (x l) else s.cur.regs.genWord c l := by
  subst ht
  have hstep {l : Nat} (hl : l < 64) : genStep (seed l) = (xorshift (x l)).toNat := by rw [hseed l hl, toNat_xorshift]
  refine ⟨s.deliverV c o.nw (vdest c false o) (s.src.gov c o).1 2
    (lanes.map fun l => if bitOf (s.src.gov c o).1 l then genOut (genStep (seed l)) else 0) d 0,
    (s.onlyFocus_refl.modCur _).modCur _, s.vectorResult_lanes (.inr rfl) _ _ _ _ _ _ rfl fun l hl hg => ?_, ?_⟩
  · rw [getD_lanes_map _ hl, if_pos hg, hstep hl, ofNat_genOut]
  · simp only [drawRandom, State.deliverV, State.cur_modCur, Regs.setGen_s, Regs.setGen_va, Regs.setGen_vb]
    refine ⟨trivial, rfl, rfl, rfl, fun l hl => ?_⟩
    rw [Regs.genWord_setGen _ _ _ _ hl, hstep hl, BitVec.ofNat_toNat, BitVec.setWidth_eq]
    rfl

/-! ### Keys -/

/-- The digit of an interleaved key: bit `i` of each coordinate, x highest (R194). -/
def keyDigit (x y z i : Nat) : Nat := x / 2 ^ i % 2 * 4 + y / 2 ^ i % 2 * 2 + z / 2 ^ i % 2

theorem keyDigit_eq (x y z i : Nat) :
    keyDigit x y z i = (x.testBit i).toNat * 4 + (y.testBit i).toNat * 2 + (z.testBit i).toNat := by
  simp only [keyDigit, Nat.toNat_testBit]

theorem keyDigit_lt (x y z i : Nat) : keyDigit x y z i < 2 ^ 3 := by
  rw [keyDigit]
  omega

theorem testBit_keyDigit (x y z i : Nat) {j : Nat} (hj : j < 3) : (keyDigit x y z i).testBit j =
    if j = 2 then x.testBit i else if j = 1 then y.testBit i else z.testBit i := by
  rw [keyDigit_eq]
  interval_cases j <;> cases x.testBit i <;> cases y.testBit i <;> cases z.testBit i <;> rfl

theorem interleave_eq (x y z : Nat) : interleave x y z = joinElems 3 ((List.range 21).map (keyDigit x y z)) := by
  rw [← sum_range_eq_joinElems (keyDigit_lt x y z), List.sum_eq_foldl, List.foldl_map]
  rfl

theorem testBit_interleave (x y z i : Nat) : (interleave x y z).testBit i = (decide (i < 63) &&
    if i % 3 = 2 then x.testBit (i / 3) else if i % 3 = 1 then y.testBit (i / 3) else z.testBit (i / 3)) := by
  have hmod : i % 3 < 3 := Nat.mod_lt i (by decide)
  have hdigit := joinElems_digit 3 ((List.range 21).map (keyDigit x y z)) (i / 3)
  have hbit : (interleave x y z / 2 ^ (3 * (i / 3)) % 2 ^ 3).testBit (i % 3) = (interleave x y z).testBit i := by
    rw [Nat.testBit_mod_two_pow, Nat.testBit_div_two_pow, Nat.mod_add_div, decide_eq_true hmod, Bool.true_and]
  rw [← hbit, interleave_eq, hdigit]
  by_cases hi : i < 63
  · have hi' : i / 3 < 21 := by omega
    have hget : ((List.range 21).map (keyDigit x y z)).getD (i / 3) 0 = keyDigit x y z (i / 3) := by simp [hi']
    rw [decide_eq_true hi, Bool.true_and, ← testBit_keyDigit x y z _ hmod, hget, Nat.mod_eq_of_lt (keyDigit_lt ..)]
  · have hi' : ¬ i / 3 < 21 := by omega
    simp [hi, hi']

/-- R194: bit `i` of the Morton key. -/
theorem bitOf_interleave (x y z : BitVec 32) {i : Nat} (hi : i < 64) :
    bitOf (BitVec.ofNat 64 (interleave (x.toNat % 2 ^ 21) (y.toNat % 2 ^ 21) (z.toNat % 2 ^ 21))) i = mortonBit x y z i := by
  rw [bitOf_ofNat _ hi, testBit_interleave, mortonBit]
  by_cases h : i < 63
  · have hcoord (v : BitVec 32) : (v.toNat % 2 ^ 21).testBit (i / 3) = bitOf v (i / 3) := by
      rw [Nat.testBit_mod_two_pow, decide_eq_true (by omega), Bool.true_and]
      rfl
    simp only [hcoord]
  · simp [h]

/-- R194: a key of the coordinates of each governed lane, into a pair. -/
theorem sfcKey_of_runs {s : State} {i : Instr} (h : s.runs i) (c : Cluster) (o : VOps) (f : Nat → Nat → Nat → Nat) :
    ∃ t, sfcKey s i c o f = .next t ∧ s.vectorResult t c o.nw (.vpair c o.vd.toNat) (s.src.gov c o).1 3
      ((s.src.vsrc c o.va).d || (s.src.vsrc c o.vb).d || (s.src.vsrc c o.vc).d || s.gdef c o) 64
      (fun l => BitVec.ofNat 64 (f (((s.src.vsrc c o.va).lane l).toNat % 2 ^ 21) (((s.src.vsrc c o.vb).lane l).toNat % 2 ^ 21)
        (((s.src.vsrc c o.vc).lane l).toNat % 2 ^ 21))) (fun _ => 0) := by
  refine ⟨_, slotStep_runs h, s.vectorResult_lanes (.inl rfl) _ _ _ _ _ _ rfl fun l hl hg => ?_⟩
  rw [getD_lanes_map _ hl, if_pos hg]
  simp only [laneAt_eq]
  rfl

/-! ### O24 -/

/-- Settles O24: each form of VRND is a draw, each form of VSFCK a key. -/
theorem randomAndKeys : Obligations.RandomAndKeys := by
  refine ⟨fun seed c o s => ?_, fun c o s => ?_⟩
  · intro i _ h
    cases seed with
    | true =>
      have hexec : execVrndSeed c o s = _ := slotStep_runs h
      refine ⟨_, (drawRandom_spec rfl fun l hl => ?_).imp fun u hu => ⟨hexec, hu⟩⟩
      rw [laneAt_eq]
      exact (toNat_seedOf hl _).symm
    | false =>
      have hexec : execVrnd c o s = _ := slotStep_runs h
      exact ⟨_, (drawRandom_spec rfl fun l _ => (Regs.toNat_genWord ..).symm).imp fun u hu => ⟨hexec, hu⟩⟩
  · intro a b z m
    refine ⟨fun _ h => ?_, fun _ h => ?_⟩
    · obtain ⟨t, ht, hresult⟩ := sfcKey_of_runs h c o interleave
      exact ⟨t, _, ht, hresult, fun l _ _ i hi => bitOf_interleave _ _ _ hi⟩
    · exact (sfcKey_of_runs h c o hilbert : ∃ t, execVsfckHil c o s = _ ∧ _)

end Sys2Proof.Machine
end

/-! ## Vector floating arithmetic

What each shared form delivers (R171, R179 to R183), and the value that a rounding of a magnitude takes (R51): O25. -/

section
namespace Sys2Proof.Machine

/-! ### The shared forms -/

theorem Fmt.perLane_width (k : Fmt) : perLane k.width = 32 / k.width := by cases k <;> rfl

/-- An element of a floating operand as its code. -/
theorem VSrc.el_width (v : VSrc) (k : Fmt) (e : Nat) :
    v.el k.width (laneOfElem k.width e) (e % perLane k.width) = (v.elem k.width e).toNat :=
  (v.toNat_elem k.isElemWidth_width e).symm

section
variable {s : State} {i : Instr} (h : s.runs i) (c : Cluster) (o : VOps)
include h

theorem vfloatA_of_runs (lat : Nat) (f : Fmt → FCtx → Nat → Nat → FRes) {el : Nat → FRes}
    (hel : ∀ e, f (vfmt o) (s.src.fctx o) (s.randomBits c o (vfmt o).width e)
      ((s.src.vsrc c o.va).elem (vfmt o).width e).toNat = el e) :
    ∃ t, vfloatA s i c o lat f = .next t ∧ s.vectorResult t c o.nw (.vreg c o.vd.toNat) (s.src.gov c o).1 lat
      ((s.src.vsrc c o.va).d || (s.src.randomOp c o).d || s.gdef c o) (vfmt o).width
      (fun e => BitVec.ofNat _ (el e).code) (fun e => (el e).fl) := by
  refine ⟨_, slotStep_runs h, s.vectorResult_mapFloat (vfmt o).isElemWidth_width _ _ _ _ _ _ fun e => ?_⟩
  rw [VSrc.el_width, Fmt.perLane_width]
  exact hel e

theorem vfloatAB_of_runs (lat : Nat) (f : Fmt → FCtx → Nat → Nat → Nat → FRes) {el : Nat → FRes}
    (hel : ∀ e, f (vfmt o) (s.src.fctx o) (s.randomBits c o (vfmt o).width e)
      ((s.src.vsrc c o.va).elem (vfmt o).width e).toNat ((s.src.vsrc c o.vb).elem (vfmt o).width e).toNat = el e) :
    ∃ t, vfloatAB s i c o lat f = .next t ∧ s.vectorResult t c o.nw (.vreg c o.vd.toNat) (s.src.gov c o).1 lat
      ((s.src.vsrc c o.va).d || (s.src.vsrc c o.vb).d || (s.src.randomOp c o).d || s.gdef c o) (vfmt o).width
      (fun e => BitVec.ofNat _ (el e).code) (fun e => (el e).fl) := by
  refine ⟨_, slotStep_runs h, s.vectorResult_mapFloat (vfmt o).isElemWidth_width _ _ _ _ _ _ fun e => ?_⟩
  rw [VSrc.el_width, VSrc.el_width, Fmt.perLane_width]
  exact hel e

theorem vfused_of_runs (neg : Bool) {el : Nat → FRes}
    (hel : ∀ e, (vfmt o).fma (s.src.fctx o) neg ((s.src.vsrc c o.va).elem (vfmt o).width e).toNat
      ((s.src.vsrc c o.vb).elem (vfmt o).width e).toNat ((s.src.vsrc c o.vc).elem (vfmt o).width e).toNat = el e) :
    ∃ t, vfused s i c o neg = .next t ∧ s.vectorResult t c o.nw (.vreg c o.vd.toNat) (s.src.gov c o).1 4
      ((s.src.vsrc c o.va).d || (s.src.vsrc c o.vb).d || (s.src.vsrc c o.vc).d || s.gdef c o) (vfmt o).width
      (fun e => BitVec.ofNat _ (el e).code) (fun e => (el e).fl) := by
  refine ⟨_, slotStep_runs h, s.vectorResult_mapFloat (vfmt o).isElemWidth_width _ _ _ _ _ _ fun e => ?_⟩
  rw [VSrc.el_width, VSrc.el_width, VSrc.el_width]
  exact hel e

end

/-- Each instruction of two operands is the operation of its row (R180, R181). -/
theorem exec_floatRow {row : FloatRow} (hrow : row ∈ floatRows) (c : Cluster) (o : VOps) (s : State) :
    exec (row.instr c o) s = vfloatAB s (row.instr c o) c o row.latency row.op := by
  simp only [floatRows, List.mem_cons, List.not_mem_nil, or_false] at hrow
  rcases hrow with rfl | rfl | rfl | rfl | rfl | rfl <;> rfl

/-- Each instruction of one operand is the operation of its row (R180, R182, R183). -/
theorem exec_floatUnaryRow {row : FloatUnaryRow} (hrow : row ∈ floatUnaryRows) (c : Cluster) (o : VOps) (s : State) :
    exec (row.instr c o) s = vfloatA s (row.instr c o) c o row.latency row.op := by
  simp only [floatUnaryRows, List.mem_cons, List.not_mem_nil, or_false] at hrow
  rcases hrow with rfl | rfl | rfl | rfl | rfl <;> rfl

/-! ### Rounding a magnitude -/

theorem quotient_mul_sub (m n : Nat) : ((m / 2 ^ n : Nat) : Int) * 2 ^ n - m = -((m % 2 ^ n : Nat) : Int) := by
  have hdiv := congrArg (Nat.cast (R := Int)) (Nat.div_add_mod' m (2 ^ n))
  push_cast at hdiv ⊢
  linarith

theorem natAbs_quotient (m n : Nat) : (((m / 2 ^ n : Nat) : Int) * 2 ^ n - m).natAbs = m % 2 ^ n := by
  rw [quotient_mul_sub, Int.natAbs_neg, Int.natAbs_natCast]

theorem natAbs_quotient_succ (m n : Nat) : (((m / 2 ^ n + 1 : Nat) : Int) * 2 ^ n - m).natAbs = 2 ^ n - m % 2 ^ n := by
  have hlt := Nat.mod_lt m (Nat.two_pow_pos n)
  have hdist : ((m / 2 ^ n + 1 : Nat) : Int) * 2 ^ n - m = ((2 ^ n - m % 2 ^ n : Nat) : Int) := by
    have hsub := quotient_mul_sub m n
    rw [Nat.cast_sub hlt.le]
    push_cast at hsub ⊢
    linarith
  rw [hdist, Int.natAbs_natCast]

theorem add_pred_div (m : Nat) {p : Nat} (hp : 0 < p) : (m + p - 1) / p = if m % p = 0 then m / p else m / p + 1 := by
  have hlt := Nat.mod_lt m hp
  have hdiv := Nat.div_add_mod m p
  split
  · next h =>
    rw [show m + p - 1 = p * (m / p) + (p - 1) by omega, Nat.mul_add_div hp,
      Nat.div_eq_of_lt (a := p - 1) (by omega), Nat.add_zero]
  · next h =>
    rw [show m + p - 1 = p * (m / p + 1) + (m % p - 1) by rw [Nat.mul_succ]; omega, Nat.mul_add_div hp,
      Nat.div_eq_of_lt (a := m % p - 1) (by omega), Nat.add_zero]

section
variable (m q : Nat) (s : Bool) {n : Nat} (hn : 0 < n)
include hn

/-- R51: a rounding is inexact exactly where a part is lost. -/
theorem Mag.roundAt_inexact (mode : Nat) : (({ m := m, e := 0 } : Mag).roundAt n mode s q).2 = decide (m % 2 ^ n ≠ 0) := by
  have hpos : ¬ ((n : Int) - 0 ≤ 0) := by omega
  rw [Mag.roundAt]
  simp only [if_neg hpos]
  split <;> simp [bne, beq_eq_decide]

theorem Mag.roundAt_towardZero : (({ m := m, e := 0 } : Mag).roundAt n 1 s q).1 = m / 2 ^ n := by
  simp [Mag.roundAt, hn.ne']

theorem Mag.roundAt_down : (({ m := m, e := 0 } : Mag).roundAt n 2 s q).1 =
    if s then (m + 2 ^ n - 1) / 2 ^ n else m / 2 ^ n := by
  rw [add_pred_div _ (Nat.two_pow_pos n)]
  cases s <;> simp [Mag.roundAt, hn.ne']

theorem Mag.roundAt_up : (({ m := m, e := 0 } : Mag).roundAt n 3 s q).1 =
    if s then m / 2 ^ n else (m + 2 ^ n - 1) / 2 ^ n := by
  rw [add_pred_div _ (Nat.two_pow_pos n)]
  cases s <;> simp [Mag.roundAt, hn.ne']

theorem Mag.roundAt_nearestEven {r : Nat} (hr : (({ m := m, e := 0 } : Mag).roundAt n 0 s q).1 = r) :
    2 * ((r : Int) * 2 ^ n - m).natAbs ≤ 2 ^ n ∧ (2 * ((r : Int) * 2 ^ n - m).natAbs = 2 ^ n → r % 2 = 0) := by
  have hr : (if 2 ^ (n - 1) < m % 2 ^ n ∨ m % 2 ^ n = 2 ^ (n - 1) ∧ m / 2 ^ n % 2 = 1
      then m / 2 ^ n + 1 else m / 2 ^ n) = r := by
    simpa [Mag.roundAt, hn.ne'] using hr
  have hlt := Nat.mod_lt m (Nat.two_pow_pos n)
  have hhalf := Nat.two_pow_pred_mul_two hn
  subst hr
  split
  · rw [natAbs_quotient_succ]
    generalize m % 2 ^ n = rem at *
    omega
  · rw [natAbs_quotient]
    generalize m % 2 ^ n = rem at *
    omega

theorem Mag.roundAt_nearestAway {r : Nat} (hr : (({ m := m, e := 0 } : Mag).roundAt n 4 s q).1 = r) :
    2 * ((r : Int) * 2 ^ n - m).natAbs ≤ 2 ^ n ∧ (2 * ((r : Int) * 2 ^ n - m).natAbs = 2 ^ n → m < r * 2 ^ n) := by
  have hr : (if 2 ^ (n - 1) ≤ m % 2 ^ n then m / 2 ^ n + 1 else m / 2 ^ n) = r := by simpa [Mag.roundAt, hn.ne'] using hr
  have hlt := Nat.mod_lt m (Nat.two_pow_pos n)
  have hhalf := Nat.two_pow_pred_mul_two hn
  subst hr
  split
  · rw [natAbs_quotient_succ]
    refine ⟨?_, fun _ => Nat.lt_mul_of_div_lt (Nat.lt_succ_self _) (Nat.two_pow_pos n)⟩
    generalize m % 2 ^ n = rem at *
    omega
  · rw [natAbs_quotient]
    generalize m % 2 ^ n = rem at *
    omega

end

/-! ### O25 -/

/-- Settles O25: each row and each fused form delivers its operation, and each mode rounds as its law says. -/
theorem vectorFloatResults : Obligations.VectorFloatResults := by
  refine ⟨⟨fun row hrow c o s _ h => ?_, fun row hrow c o s _ h => ?_, fun neg c o s => ?_⟩, fun m n q s hn => ?_⟩
  · intro k w a b el
    rw [exec_floatRow hrow]
    exact vfloatAB_of_runs h c o _ _ fun _ => rfl
  · intro k w a el
    rw [exec_floatUnaryRow hrow]
    exact vfloatA_of_runs h c o _ _ fun _ => rfl
  · intro i _ h
    cases neg with
    | true => exact (vfused_of_runs h c o true fun _ => rfl : ∃ t, execVfnma c o s = _ ∧ _)
    | false => exact (vfused_of_runs h c o false fun _ => rfl : ∃ t, execVfma c o s = _ ∧ _)
  · exact ⟨Mag.roundAt_inexact m q s hn, Mag.roundAt_towardZero m q s hn, Mag.roundAt_down m q s hn, Mag.roundAt_up m q s hn,
      Mag.roundAt_nearestEven m q s hn rfl, Mag.roundAt_nearestAway m q s hn rfl⟩

end Sys2Proof.Machine
end

/-! ## Vector conversion, packed dot products and the triple merge

The elements and the flags of a converted lane for every pair of formats (R185), and results of one element a lane (R189,
R191): O26. -/

section
namespace Sys2Proof.Machine

/-! ### Conversion of a lane -/

theorem CvtFmt.width_mul (k : CvtFmt) : k.width * (32 / k.width) = 32 := by
  cases k with
  | flt k => exact k.width_mul
  | int k => cases k <;> rfl

/-- Element `k` of a lane, as it is read from a word and from its number. -/
theorem toNat_extractLsb'_lane (v : BitVec 32) (w k : Nat) : (v.extractLsb' (w * k) w).toNat = v.toNat / 2 ^ (w * k) % 2 ^ w := by
  rw [BitVec.extractLsb'_toNat, Nat.shiftRight_eq_div_pow]

section
variable (ks kt : CvtFmt) (t : FCtx) (q : Nat → Nat → Nat) (src : Nat → BitVec 32)

/-- The conversion of element `e` of the lanes `src` (R185, R186). -/
def convertedBy (e : Nat) : FRes :=
  convertedElem ks.width kt.width src (fun l k v => cvtElem ks kt t (q l k) v) e

theorem convertedBy_of_lt {e : Nat} (h : e % (32 / kt.width) < min (32 / ks.width) (32 / kt.width)) :
    convertedBy ks kt t q src e = cvtElem ks kt t (q (laneOfElem kt.width e) (e % (32 / kt.width)))
      ((src (laneOfElem kt.width e)).toNat / 2 ^ (ks.width * (e % (32 / kt.width))) % 2 ^ ks.width) := by
  rw [← toNat_extractLsb'_lane]
  exact if_pos h

theorem convertedBy_of_ge {e : Nat} (h : ¬ e % (32 / kt.width) < min (32 / ks.width) (32 / kt.width)) :
    convertedBy ks kt t q src e = { code := 0 } := if_neg h

/-- The elements that the conversion of a lane makes of it, the rest zero (R185). -/
theorem cvtLane_code (e : Nat) :
    (cvtLane ks kt t (q (laneOfElem kt.width e)) (src (laneOfElem kt.width e)).toNat).code /
      2 ^ (kt.width * (e % (32 / kt.width))) % 2 ^ kt.width = (convertedBy ks kt t q src e).code % 2 ^ kt.width := by
  rw [cvtLane, joinElems_digit]
  by_cases h : e % (32 / kt.width) < min (32 / ks.width) (32 / kt.width)
  · rw [convertedBy_of_lt ks kt t q src h]
    simp [h]
  · rw [convertedBy_of_ge ks kt t q src h]
    simp [h]

/-- The flags that the conversion of a lane raises are those of its elements (R58, R185). -/
theorem bitOf_cvtLane (l i : Nat) : bitOf (cvtLane ks kt t (q l) (src l).toNat).fl i = true ↔
    ∃ e, laneOfElem kt.width e = l ∧ bitOf (convertedBy ks kt t q src e).fl i = true := by
  have hnone : bitOf (0 : Flags) i = false := by simp [bitOf]
  rw [cvtLane]
  dsimp only
  rw [bitOf_foldl_flags, hnone, Bool.false_or, List.any_map, List.any_eq_true]
  constructor
  · rintro ⟨k, hk, hb⟩
    have hk : k < min (32 / ks.width) (32 / kt.width) := List.mem_range.1 hk
    obtain ⟨e, rfl, rfl⟩ := exists_elem kt.width_mul l (lt_of_lt_of_le hk (min_le_right ..))
    exact ⟨e, rfl, by rw [convertedBy_of_lt ks kt t q src hk]; exact hb⟩
  · rintro ⟨e, rfl, hb⟩
    by_cases hk : e % (32 / kt.width) < min (32 / ks.width) (32 / kt.width)
    · rw [convertedBy_of_lt ks kt t q src hk] at hb
      exact ⟨_, List.mem_range.2 hk, hb⟩
    · rw [convertedBy_of_ge ks kt t q src hk, hnone] at hb
      cases hb

/-- Lanes converted one by one are the result of their converted elements (R168 to R171, R185). -/
theorem State.vectorResult_cvtLane (s : State) (c : Cluster) (nw : Bool) (dest : Dest) (gov : Mask) (lat : Nat) (d : Bool) :
    s.vectorResult (s.deliverV c nw dest gov lat (cvtLanes gov fun l => cvtLane ks kt t (q l) (src l).toNat).1 d
      (cvtLanes gov fun l => cvtLane ks kt t (q l) (src l).toNat).2) c nw dest gov lat d kt.width
      (fun e => BitVec.ofNat _ (convertedBy ks kt t q src e).code) (fun e => (convertedBy ks kt t q src e).fl) := by
  refine s.vectorResult_cvtLanes c nw dest gov lat d kt.width_mul (fun e => ?_) fun l i => ?_
  · rw [BitVec.toNat_ofNat]
    exact cvtLane_code ks kt t q src e
  · exact bitOf_cvtLane ks kt t q src l i

end

/-! ### The shared forms -/

/-- A result of one element a lane, with its flags (R168 to R171). -/
theorem State.vectorResult_cvtLanes_32 (s : State) (c : Cluster) (nw : Bool) (dest : Dest) (gov : Mask) (lat : Nat) (d : Bool)
    {f : Nat → FRes} {el : Nat → FRes} (hel : ∀ l, f l = el l) :
    s.vectorResult (s.deliverV c nw dest gov lat (cvtLanes gov f).1 d (cvtLanes gov f).2) c nw dest gov lat d 32
      (fun l => BitVec.ofNat 32 (el l).code) (fun l => (el l).fl) := by
  have hlane (e : Nat) : laneOfElem 32 e = e := (laneOfElem_eq_perLane (.inr rfl) e).trans (Nat.div_one e)
  refine s.vectorResult_cvtLanes c nw dest gov lat d rfl (fun e => ?_) fun l i => ?_
  · rw [hlane, Nat.mod_one, Nat.mul_zero, Nat.pow_zero, Nat.div_one, hel, BitVec.toNat_ofNat]
  · simp only [hlane, exists_eq_left, hel]

section
variable {s : State} {c : Cluster} {o : VOps}

theorem exec_vcvt_of_runs (h : s.runs (.vcvt c o)) : ∃ t, exec (.vcvt c o) s = .next t ∧
    s.vectorResult t c o.nw (.vreg c o.vd.toNat) (s.src.gov c o).1 3
      ((s.src.vsrc c o.va).d || (s.src.randomOp c o).d || s.gdef c o) (vcvtTo o).width
      (fun e => BitVec.ofNat _ (convertedBy (vcvtFrom o) (vcvtTo o) (s.src.fctx o) (qBits (s.src.randomOp c o))
        (s.src.vsrc c o.va).lane e).code)
      (fun e => (convertedBy (vcvtFrom o) (vcvtTo o) (s.src.fctx o) (qBits (s.src.randomOp c o))
        (s.src.vsrc c o.va).lane e).fl) := by
  refine ⟨_, (slotStep_runs h : execVcvt c o s = _), ?_⟩
  simp only [laneAt_eq]
  exact State.vectorResult_cvtLane (vcvtFrom o) (vcvtTo o) (s.src.fctx o) _ (s.src.vsrc c o.va).lane s c o.nw _ _ 3 _

/-- R189: the packed dot product of each governed lane, with vc as the addend where fn[43] is 1. -/
theorem exec_vdot_of_runs (h : s.runs (.vdot c o)) {acc : Bool} (hacc : (o.fn == 1) = acc) {z : VSrc}
    (hz : (if acc then s.src.vsrc c o.vc else s.src.randomOp c o) = z) {el : Nat → FRes}
    (hel : ∀ l, dotLane (vfmt o) (s.src.fctx o) (qBits z l 0)
      ((List.range 4).map fun k => ((s.src.vsrc c o.va).elem 8 (4 * l + k)).toNat)
      ((List.range 4).map fun k => ((s.src.vsrc c o.vb).elem 8 (4 * l + k)).toNat)
      (if acc then some (z.lane l).toNat else none) = el l) :
    ∃ t, exec (.vdot c o) s = .next t ∧ s.vectorResult t c o.nw (.vreg c o.vd.toNat) (s.src.gov c o).1 5
      ((s.src.vsrc c o.va).d || (s.src.vsrc c o.vb).d || z.d || s.gdef c o) 32
      (fun l => BitVec.ofNat 32 (el l).code) (fun l => (el l).fl) := by
  have hfour (v : VSrc) (l : Nat) :
      (List.range 4).map (fun k => v.el 8 l k) = (List.range 4).map fun k => (v.elem 8 (4 * l + k)).toNat := by
    refine List.map_congr_left fun k hk => ?_
    have hk : k < 4 := List.mem_range.1 hk
    rw [VSrc.toNat_elem (.inr rfl), laneOfElem_eq_perLane (.inr rfl), show perLane 8 = 4 from rfl]
    congr 1 <;> omega
  subst hacc hz
  refine ⟨_, (slotStep_runs h : execVdot c o s = _), s.vectorResult_cvtLanes_32 c _ _ _ _ _ fun l => ?_⟩
  rw [← hel]
  simp only [hfour, laneAt_eq]
  rfl

/-- R191: a component of the merged triple of each governed lane. -/
theorem mergeTriple_of_runs {i : Instr} (h : s.runs i) (f : Nat → Nat → Nat → Nat → FRes) {el : Nat → FRes}
    (hel : ∀ l, f ((s.src.vpair c o.va).lane l).toNat ((s.src.vpair c o.va).hi.extractLsb' (32 * l) 32).toNat
      ((s.src.vsrc c o.vb).lane l).toNat ((s.src.vsrc c o.vc).lane l).toNat = el l) :
    ∃ t, mergeTriple s i c o f = .next t ∧ s.vectorResult t c o.nw (.vreg c o.vd.toNat) (s.src.gov c o).1 8
      ((s.src.vpair c o.va).d || (s.src.vsrc c o.vb).d || (s.src.vsrc c o.vc).d || s.gdef c o) 32
      (fun l => BitVec.ofNat 32 (el l).code) (fun l => (el l).fl) := by
  refine ⟨_, slotStep_runs h, s.vectorResult_cvtLanes_32 c _ _ _ _ _ fun l => ?_⟩
  rw [← hel]
  simp only [laneAt_eq]
  rfl

end

/-! ### O26 -/

/-- Settles O26: VCVT and VDOT by their own rules, each part of VTRIM as a merge. -/
theorem vectorConvertDotTrim : Obligations.VectorConvertDotTrim := by
  refine ⟨fun c o s _ h => exec_vcvt_of_runs h, fun c o s hwf h => ?_, fun p hp c o s _ h => ?_⟩
  · exact exec_vdot_of_runs h (opSigned_eq (of_decide_eq_true (formOk_of_wellFormed hwf rfl rfl).2)).symm rfl fun _ => rfl
  · simp only [List.mem_cons, List.not_mem_nil, or_false] at hp
    rcases hp with rfl | rfl | rfl
    · exact (mergeTriple_of_runs h _ fun _ => rfl : ∃ t, execVtrimX c o s = _ ∧ _)
    · exact (mergeTriple_of_runs h _ fun _ => rfl : ∃ t, execVtrimM c o s = _ ∧ _)
    · exact (mergeTriple_of_runs h _ fun _ => rfl : ∃ t, execVtrimXb c o s = _ ∧ _)

end Sys2Proof.Machine
end

/-! ## Ports and the fabric

What a message that goes out on a port, and a port that goes down, leave of the module (R435 to R441); then the statement of O43. -/

section
namespace Sys2Proof.Machine

/-! ### Fields of registers -/

theorem State.cfield_csetField_same (s : State) (a : Nat) {lo w : Nat} (v : Nat) (h : lo + w ≤ 64) :
    (s.csetField a lo w v).cfield a lo w = v % 2 ^ w := by
  rw [State.cfield, State.cget_csetField, if_pos rfl, field_setField_same _ _ _ h, BitVec.toNat_ofNat]

theorem State.cfield_csetField_apart (s : State) (a : Nat) {lo w lo' w' : Nat} (v : Nat) (h : lo' + w' ≤ 64)
    (hd : lo' + w' ≤ lo ∨ lo + w ≤ lo') : (s.csetField a lo w v).cfield a lo' w' = s.cfield a lo' w' := by
  rw [State.cfield, State.cget_csetField, if_pos rfl, field_setField_ne _ _ _ _ _ h hd, State.cfield]

theorem State.portState_csetField (s : State) (p v : Nat) : (s.csetField (pstat p) 0 2 v).portState p = v % 4 :=
  State.cfield_csetField_same _ _ _ (by omega)

/-- STATE and CAUSE of a port once they are set. -/
theorem State.setPort2_fields (s : State) (p st cause : Nat) :
    (s.setPort2 p st cause).portState p = st % 4 ∧ (s.setPort2 p st cause).cfield (pstat p) 16 8 = cause % 256 :=
  ⟨(State.cfield_csetField_apart _ _ _ (by omega) (by omega)).trans (State.cfield_csetField_same _ _ _ (by omega)),
    State.cfield_csetField_same _ _ _ (by omega)⟩

theorem State.cget_cbump_ne (s : State) {a b : Nat} (lo w n : Nat) (h : b ≠ a) : (s.cbump a lo w n).cget b = s.cget b := by
  rw [State.cbump, State.cget_csetField, if_neg h]
  rfl

theorem State.port_congr {s t : State} (h : t.ports = s.ports) (p : Nat) : t.port p = s.port p := by
  rw [State.port, h, State.port]

theorem State.port_setPort_same (s : State) (p : Nat) (y : Port) : (s.setPort p y).port p = y :=
  (s.port_setPort p p y).trans (if_pos rfl)

@[simp] theorem State.port_csetField (s : State) (a lo w v p : Nat) : (s.csetField a lo w v).port p = s.port p :=
  State.port_congr rfl p

/-! ### A message on a port -/

/-- A message changes only what a port holds to send. -/
theorem Port.rest_put (x : Port) (m : Msg) (k : Nat) :
    { x.put m k with txSeq := x.txSeq, replay := x.replay, waiting := x.waiting } = x := by
  unfold Port.put
  dsimp only
  split <;> rfl

theorem State.port_sendFrom (s : State) (p : Nat) (m : Msg) (k q : Nat) : (s.sendFrom p m k).port q =
    if q = p then (if (s.port p).blocks m then (s.port p).keep m k else (s.port p).put m k) else s.port q := by
  unfold State.sendFrom
  dsimp only
  by_cases hb : (s.port p).blocks m = true
  · rw [if_pos hb, if_pos hb, State.port_setPort]
  · rw [if_neg hb, if_neg hb]
    split
    · exact s.port_setPort p q _
    · exact s.port_setPort p q _

theorem State.rest_port_sendFrom (s : State) (p : Nat) (m : Msg) (k q : Nat) :
    { (s.sendFrom p m k).port q with
      txSeq := (s.port q).txSeq, replay := (s.port q).replay, waiting := (s.port q).waiting } = s.port q := by
  rw [s.port_sendFrom]
  split
  · next hq =>
    subst hq
    split
    · rfl
    · exact (s.port q).rest_put m k
  · rfl

theorem State.rest_port_sendAt (s : State) (m : Msg) (k q : Nat) :
    { (s.sendAt m k).port q with
      txSeq := (s.port q).txSeq, replay := (s.port q).replay, waiting := (s.port q).waiting } = s.port q := by
  unfold State.sendAt
  split
  · next p _ =>
    split
    · exact s.rest_port_sendFrom p m k q
    · rw [State.port_setPort]
      split
      · next hq => rw [hq]; rfl
      · rfl
  · rfl

@[simp] theorem State.rxSeq_sendOn (s : State) (p : Nat) (m : Msg) (q : Nat) : ((s.sendOn p m).port q).rxSeq = (s.port q).rxSeq :=
  (congrArg Port.rxSeq (s.rest_port_sendFrom p m 0 q) :)
@[simp] theorem State.buffered_sendOn (s : State) (p : Nat) (m : Msg) (q : Nat) :
    ((s.sendOn p m).port q).buffered = (s.port q).buffered := (congrArg Port.buffered (s.rest_port_sendFrom p m 0 q) :)
@[simp] theorem State.pausing_sendOn (s : State) (p : Nat) (m : Msg) (q : Nat) :
    ((s.sendOn p m).port q).pausing = (s.port q).pausing := (congrArg Port.pausing (s.rest_port_sendFrom p m 0 q) :)

/-- The epoch of a port's link, which only training and a rekey raise (R438). -/
def State.epochOf (s : State) (p : Nat) : Nat := (s.port p).epoch

/-- A short message on a port that neither waits nor is paused goes into its replay buffer at once. -/
theorem State.replay_sendOn {s : State} {p : Nat} {m : Msg} (hw : (s.port p).waiting = []) (hp : (s.port p).paused = [])
    (hl : (s.port p).replay.length < 512) (hm : m.flits = 1) :
    ((s.sendOn p m).port p).replay = (s.port p).replay ++ [((s.port p).txSeq, m, 0)] := by
  have hb : (s.port p).blocks m = false := by simp [Port.blocks, hw, hp, replayFlits, Nat.not_le.2 hl]
  have hn : min (1 - 0) (512 - (s.port p).replay.length) = 1 := by omega
  rw [State.sendOn, State.port_sendFrom, if_pos rfl, hb, if_neg (by simp), Port.put]
  simp [hm, replayFlits, hn]

/-! ### What is sent as collectives take up their chunks -/

/-- `t` is `s` after messages have been sent and collectives have changed. -/
inductive State.Says : State → State → Prop
  | refl (s : State) : State.Says s s
  | colls (s : State) (cs : List Coll) : State.Says s { s with colls := cs }
  | sendAt (s : State) (m : Msg) (k : Nat) : State.Says s (s.sendAt m k)
  | trans {s t v : State} : State.Says s t → State.Says t v → State.Says s v

theorem State.Says.foldl {α : Type} {f : State → α → State} (h : ∀ (s : State) (a : α), s.Says (f s a)) :
    ∀ (l : List α) (s : State), s.Says (l.foldl f s)
  | [], s => .refl s
  | a :: l, s => (h s a).trans (State.Says.foldl h l (f s a))

theorem State.Says.reviewBy : ∀ (n : Nat) (s : State), s.Says (s.reviewBy n)
  | 0, s => .refl s
  | n + 1, s => by
    unfold State.reviewBy
    dsimp only
    split
    · exact .refl s
    · exact (State.Says.colls s _).trans (State.Says.reviewBy n _)

theorem State.Says.sendNext (s : State) (c : Coll) (m : Nat) : s.Says (s.sendNext c m) := by
  unfold State.sendNext
  split
  · exact .colls s _
  · split
    · exact .colls s _
    · exact (State.Says.sendAt s _ 0).trans (.colls _ _)

theorem State.Says.sendHeld (s : State) (u serial : Nat) : s.Says (s.sendHeld u serial) := by
  unfold State.sendHeld
  split
  · exact .refl s
  · refine .foldl (fun s m => ?_) _ s
    cases s.collOf u serial with
    | none => exact .refl s
    | some c => exact .sendNext s c m

theorem State.Says.requestMissing (s : State) (mod : Nat) (c : Coll) : s.Says (s.requestMissing mod c) := by
  unfold State.requestMissing
  split
  · exact .refl s
  · refine .foldl (fun s f => ?_) _ s
    split
    · exact .foldl (fun s t => .sendAt s _ 0) _ s
    · exact .refl s

theorem State.Says.pickUp (s : State) (u serial : Nat) : s.Says (s.pickUp u serial) := by
  unfold State.pickUp
  split
  · exact .refl s
  · next c _ =>
    split
    · exact .refl s
    · dsimp only
      refine .trans ?_ (.sendHeld _ u serial)
      split
      · refine .trans ?_ (.foldl (fun s _ => .sendAt s _ 0) _ _)
        exact .trans (.colls s _) (.foldl (fun s m => .requestMissing s m _) _ _)
      · exact .trans (.colls s _) (.foldl (fun s m => .requestMissing s m _) _ _)

theorem State.Says.pickUpAll (s : State) : s.Says s.pickUpAll :=
  .trans (.foldl (fun s (p : Nat × Nat) => .pickUp s p.1 p.2) _ s) (.reviewBy _ _)

theorem State.Says.askModule (s : State) (mod : Nat) : s.Says (s.askModule mod) := .trans (.colls s _) (.pickUpAll _)

theorem State.Says.talks {s t : State} (h : s.Says t) : s.Talks t := by
  induction h with
  | refl s => exact .refl s
  | colls s cs => exact ⟨rfl, [], (List.append_nil _).symm⟩
  | sendAt s m k => exact .sendAt s m k
  | trans _ _ ih jh => exact ih.trans jh

theorem State.Says.epochOf {s t : State} (h : s.Says t) (p : Nat) : t.epochOf p = s.epochOf p := by
  induction h with
  | refl => rfl
  | colls => rfl
  | sendAt s m k => exact (congrArg Port.epoch (s.rest_port_sendAt m k p) :)
  | trans _ _ ih jh => exact jh.trans ih

theorem State.epochOf_sendFrom (s : State) (p : Nat) (m : Msg) (k q : Nat) : (s.sendFrom p m k).epochOf q = s.epochOf q :=
  (congrArg Port.epoch (s.rest_port_sendFrom p m k q) :)

theorem State.epochOf_flushPort (s : State) (p q : Nat) : (s.flushPort p).epochOf q = s.epochOf q := by
  have hsend (ms : List (Msg × Nat)) : ∀ s : State, (s.sendEach p ms).epochOf q = s.epochOf q := by
    induction ms with
    | nil => exact fun _ => rfl
    | cons w ms ih => exact fun s => (ih (s.sendFrom p w.1 w.2)).trans (s.epochOf_sendFrom p w.1 w.2 q)
  refine (hsend _ _).trans ?_
  rw [State.epochOf, State.port_setPort]
  split
  · next hq => rw [hq]; rfl
  · rfl

theorem State.ctl_flushPort (s : State) (p : Nat) : (s.flushPort p).ctl = s.ctl ∧ (s.flushPort p).dram = s.dram := by
  have hsend (ms : List (Msg × Nat)) : ∀ s : State, (s.sendEach p ms).ctl = s.ctl ∧ (s.sendEach p ms).dram = s.dram := by
    induction ms with
    | nil => exact fun _ => ⟨rfl, rfl⟩
    | cons w ms ih =>
      intro s
      obtain ⟨hc, hd⟩ := ih (s.sendFrom p w.1 w.2)
      exact ⟨hc.trans (s.sendFrom_ctl p w.1 w.2), hd.trans (s.sendFrom_dram p w.1 w.2)⟩
  exact hsend _ _

/-! ### Looking at peers -/

/-- Looking at peers changes the collectives only. -/
theorem State.rest_reviewBy : ∀ (n : Nat) (s : State), { s.reviewBy n with colls := s.colls } = s
  | 0, _ => rfl
  | n + 1, s => by
    unfold State.reviewBy
    dsimp only
    split
    · rfl
    · exact congrArg (fun t : State => { t with colls := s.colls }) (State.rest_reviewBy n { s with colls := s.colls.map s.reviewColl })

theorem State.rest_review (s : State) : { s.review with colls := s.colls } = s := s.rest_reviewBy _

theorem State.units_review (s : State) : s.review.units = s.units := (congrArg State.units s.rest_review :)
theorem State.dram_review (s : State) : s.review.dram = s.dram := (congrArg State.dram s.rest_review :)
theorem State.port_review (s : State) (p : Nat) : s.review.port p = s.port p := (congrArg (State.port · p) s.rest_review :)
theorem State.cget_review (s : State) (a : Nat) : s.review.cget a = s.cget a := (congrArg (State.cget · a) s.rest_review :)

/-! ### A port that goes down -/

/-- `t` is `s` after something that leaves DRAM, and a port with its status, as they stand. -/
structure State.SparesPort (p : Nat) (s t : State) : Prop where
  dram : t.dram = s.dram
  status : t.cget (pstat p) = s.cget (pstat p)
  port : t.port p = s.port p

namespace State.SparesPort

variable {p : Nat} {s t v : State}

theorem refl (s : State) : State.SparesPort p s s := ⟨rfl, rfl, rfl⟩

theorem trans (h : State.SparesPort p s t) (k : State.SparesPort p t v) : State.SparesPort p s v :=
  ⟨k.dram.trans h.dram, k.status.trans h.status, k.port.trans h.port⟩

theorem portState (h : State.SparesPort p s t) : t.portState p = s.portState p := by
  rw [State.portState, State.cfield]
  exact congrArg (fun w : Word => (field w 0 2).toNat) h.status

theorem foldl {α : Type} {f : State → α → State} (h : ∀ (s : State) (a : α), s.portState p = 0 → State.SparesPort p s (f s a)) :
    ∀ (l : List α) (s : State), s.portState p = 0 → State.SparesPort p s (l.foldl f s)
  | [], s, _ => refl s
  | a :: l, s, h0 => (h s a h0).trans (foldl h l (f s a) ((h s a h0).portState.trans h0))

theorem cbump (s : State) {a : Nat} (lo w n : Nat) (h : pstat p ≠ a) : State.SparesPort p s (s.cbump a lo w n) :=
  ⟨rfl, s.cget_cbump_ne lo w n h, rfl⟩

theorem raiseVector (s : State) (n : Nat) (hp : p < 16) : State.SparesPort p s (s.raiseVector n) := by
  unfold State.raiseVector
  split
  · refine ⟨rfl, ?_, rfl⟩
    rw [State.cget_cset, if_neg (by simp only [pstat, fabAddr, brb]; omega)]
  · exact refl s

theorem postNotice (s : State) (kind n : Nat) : State.SparesPort p s (s.postNotice kind n) := by
  unfold State.postNotice State.raiseEvent
  split <;> exact ⟨rfl, rfl, rfl⟩

theorem failReads (s : State) (m : Nat) (hp : p < 16) : State.SparesPort p s (s.failReads m) := by
  have hfold (l : List (Nat × Nat)) : ∀ s : State, State.SparesPort p s (l.foldl (fun (s : State) r =>
      { s.cbump (brb + 0x90) 0 32 1 with
        out := (s.cbump (brb + 0x90) 0 32 1).out ++ [.hostData (List.replicate r.2 (0xFF : Byte))] }) s) := by
    induction l with
    | nil => exact refl
    | cons r l ih =>
      intro s
      refine trans ?_ (ih _)
      obtain ⟨hd, hs, hq⟩ := cbump (p := p) s (a := brb + 0x90) 0 32 1 (by simp only [pstat, fabAddr, brb]; omega)
      exact ⟨hd, hs, hq⟩
  obtain ⟨hd, hs, hq⟩ := hfold (s.hostReads.filter (fun r => r.1 == m)) { s with hostReads := s.hostReads.filter (fun r => r.1 != m) }
  exact ⟨hd, hs, hq⟩

theorem modUnit (s : State) (u : Nat) (f : Unit → Unit) : State.SparesPort p s (s.modUnit u f) := ⟨rfl, rfl, rfl⟩

theorem review (s : State) : State.SparesPort p s s.review := ⟨s.dram_review, s.cget_review _, s.port_review p⟩

/-- No message goes by a port that is down. -/
theorem portOf_ne {q : Nat} {m : Msg} (h0 : s.portState p = 0) (h : s.portOf m = some q) : q ≠ p := by
  have hup : s.portUp p = false := by simp [State.portUp, h0]
  rintro rfl
  unfold State.portOf at h
  split at h
  · cases h
  · split at h
    · next r hr =>
      cases h
      have := List.find?_some hr
      simp [h0] at this
    · obtain ⟨n, -, hn⟩ := Option.bind_eq_some_iff.1 h
      unfold State.portTowards at hn
      split at hn
      · next r hr =>
        cases hn
        unfold State.portFor at hr
        split at hr
        · next r' hr' =>
          cases hr
          exact absurd (List.find?_some hr') (by simp [hup])
        · exact absurd (List.find?_some hr) (by simp [hup])
      · exact absurd (List.find?_some hn) (by simp [h0])

theorem sendAt (s : State) (m : Msg) (k : Nat) (h0 : s.portState p = 0) : State.SparesPort p s (s.sendAt m k) := by
  refine ⟨s.sendAt_dram m k, by rw [State.cget, State.sendAt_ctl, State.cget], ?_⟩
  unfold State.sendAt
  split
  · next q hq =>
    have hne := portOf_ne h0 hq
    split
    · rw [State.port_sendFrom, if_neg hne.symm]
    · rw [State.port_setPort, if_neg hne.symm]
  · rfl

end State.SparesPort

/-- What a port that goes down leaves of DRAM and of itself (R441). -/
theorem State.portDown_spec (s : State) {p : Nat} (cause : Nat) (hp : p < 16) :
    (s.portDown p cause).dram = s.dram ∧ (s.portDown p cause).portState p = 0 ∧
      (s.portDown p cause).cfield (pstat p) 16 8 = cause % 256 ∧ ((s.portDown p cause).port p).replay = [] := by
  unfold State.portDown
  extract_lets x was s1 s2 routed s3 lost s4 s5 s6
  obtain ⟨hstate, hcause⟩ := (s.setPort p { x with
    replay := [], fails := 0, paused := [], waiting := [], buffered := [], pausing := [] }).setPort2_fields p 0 cause
  have h2 : State.SparesPort p s1 s2 := by
    unfold s2
    split
    · exact ((State.SparesPort.cbump _ _ _ _ (by simp only [pstat]; omega)).trans (.raiseVector _ _ hp)).trans (.postNotice _ _ _)
    · exact .refl _
  have h3 : State.SparesPort p s1 s3 :=
    h2.trans (.foldl (fun s w h0 => .sendAt s w.1 w.2 h0) _ _ (h2.portState.trans hstate))
  have h4 : State.SparesPort p s1 s4 := by
    unfold s4
    split
    · exact h3
    · exact h3.trans (.cbump _ _ _ _ (by simp only [pstat, fabAddr, brb]; omega))
  have h5 : State.SparesPort p s1 s5 := by
    refine h4.trans (.foldl (fun s m _ => ?_) _ _ (h4.portState.trans hstate))
    split
    · exact .failReads s m hp
    · exact .refl s
  have h6 : State.SparesPort p s1 s6 :=
    h5.trans (.foldl (fun s i _ => .modUnit s _ _) _ _ (h5.portState.trans hstate))
  have h := h6.trans (.review s6)
  refine ⟨h.dram, h.portState.trans hstate, ?_, ?_⟩
  · exact (congrArg (fun w : Word => (field w 16 8).toNat) h.status).trans hcause
  · rw [h.port]
    exact congrArg Port.replay (s.port_setPort_same p _)

/-! ### Flits -/

theorem State.takeAck_of_none {s : State} {p acked : Nat} (h : ∀ f ∈ (s.port p).replay, acked ≤ f.1) : s.takeAck p acked = s := by
  unfold State.takeAck
  exact if_pos (List.all_eq_true.2 fun f hf => decide_eq_true (h f hf))

/-- Flits that are acknowledged leave the replay buffer, and nothing else changes at a port where nothing waits. -/
theorem State.port_takeAck {s : State} {p : Nat} (acked : Nat) (hw : (s.port p).waiting = []) :
    ∃ fails, (s.takeAck p acked).port p = { s.port p with
      replay := (s.port p).replay.filter (fun f => decide (acked ≤ f.1)), fails := fails } := by
  unfold State.takeAck
  dsimp only
  split
  · next h =>
    rw [List.filter_eq_self.2 (List.all_eq_true.1 h)]
    exact ⟨_, rfl⟩
  · refine ⟨0, ?_⟩
    unfold State.flushPort
    dsimp only
    rw [State.port_setPort, if_pos rfl]
    dsimp only
    rw [hw]
    exact (State.port_setPort_same _ p _).trans (by simp only)

/-- A flit of a class other than 0 counted in the buffer of its class (R436). -/
theorem State.port_fillBuffer (s : State) (p : Nat) {cls : Nat} (left : Nat) (hcls : cls ≠ 0) :
    ((s.fillBuffer p cls left).port p).rxSeq = (s.port p).rxSeq ∧
      tget 0 ((s.fillBuffer p cls left).port p).buffered cls = tget 0 (s.port p).buffered cls - left + 1 ∧
      (3 * Config.classBuffer cls < 4 * (tget 0 (s.port p).buffered cls - left + 1) →
        cls ∈ ((s.fillBuffer p cls left).port p).pausing) ∧
      (2 * (tget 0 (s.port p).buffered cls - left + 1) < Config.classBuffer cls →
        ((s.fillBuffer p cls left).port p).pausing = (s.port p).pausing.erase cls) := by
  unfold State.fillBuffer
  rw [if_neg hcls]
  dsimp only
  generalize tget 0 (s.port p).buffered cls - left + 1 = n
  split
  · next h =>
    simp only [State.rxSeq_sendOn, State.buffered_sendOn, State.pausing_sendOn, State.port_setPort, if_true, tget_tput_same]
    exact ⟨trivial, trivial, fun _ => by simp, fun hlow => by omega⟩
  · next h =>
    split
    · next hlow =>
      simp only [State.rxSeq_sendOn, State.buffered_sendOn, State.pausing_sendOn, State.port_setPort, if_true, tget_tput_same]
      exact ⟨trivial, trivial, fun hhigh => by omega, fun _ => trivial⟩
    · next hlow =>
      simp only [State.port_setPort, if_true, tget_tput_same]
      refine ⟨trivial, trivial, fun hhigh => ?_, fun hl => ?_⟩
      · simpa using not_and.1 h hhigh
      · exact (List.erase_of_not_mem (by simpa using not_and.1 hlow hl)).symm

section
variable {p cls seq acked left : Nat} {s : State}

theorem exec_flitReceive_bad (hp : p < 16) (hc : cls < 4) (hup : s.portUp p = true) :
    exec (.flitReceive p cls ⟨seq, acked, left⟩ false) s = .next (s.sendOn p (.nak p seq)) := by
  change execFlitReceive p cls ⟨seq, acked, left⟩ false s = _
  unfold execFlitReceive
  rw [if_neg (by simp only [portCount]; omega), if_neg (by simp only [portCount]; omega)]
  simp [hup]

/-- A good flit once its acknowledgement has been taken. -/
theorem exec_flitReceive_good (hp : p < 16) (hc : cls < 4) (hup : s.portUp p = true) {t : State} (ht : s.takeAck p acked = t) :
    exec (.flitReceive p cls ⟨seq, acked, left⟩ true) s =
      if seq = (t.port p).rxSeq then
        .next (((t.setPort p { t.port p with rxSeq := seq + 1 }).fillBuffer p cls left).sendOn p (.ack p seq))
      else if seq < (t.port p).rxSeq then .next (t.sendOn p (.ack p seq))
      else .next (t.sendOn p (.nak p (t.port p).rxSeq)) := by
  change execFlitReceive p cls ⟨seq, acked, left⟩ true s = _
  unfold execFlitReceive
  rw [if_neg (by simp only [portCount]; omega), if_neg (by simp only [portCount]; omega)]
  simp [hup, ht]

/-! ### NAK -/

/-- The port has sent its flits from one on again (R437). -/
def State.resent (s : State) (p seq : Nat) : State :=
  let again := (s.port p).replay.filter (fun f => decide (seq ≤ f.1))
  (State.setPort { s with out := s.out ++ again.map (fun f => Msg.flit p f.1) } p { s.port p with
    replay := again
    fails := if (s.port p).replay.head?.map (·.1) = some seq then (s.port p).fails + 1 else 1 }).cbump
      (fabAddr p + 0x10) 32 32 again.length

theorem exec_nak_of_replay (hp : p < 16) (hup : s.portUp p = true) (hf : ∃ f ∈ (s.port p).replay, f.1 = seq) :
    exec (.nak p seq) s =
      .next (if (if (s.port p).replay.head?.map (·.1) = some seq then (s.port p).fails + 1 else 1) < 8 then s.resent p seq
        else (s.resent p seq).portDown p 3) := by
  have hany : (s.port p).replay.any (fun f => f.1 == seq) = true := by simpa using hf
  change execNak p seq s = _
  unfold execNak
  rw [if_neg (by simp only [portCount]; omega), if_neg (by simp only [portCount]; omega)]
  simp only [hup, hany]
  rfl

theorem State.port_resent (s : State) (p seq : Nat) : (s.resent p seq).port p = { s.port p with
    replay := (s.port p).replay.filter (fun f => decide (seq ≤ f.1))
    fails := if (s.port p).replay.head?.map (·.1) = some seq then (s.port p).fails + 1 else 1 } :=
  State.port_setPort_same _ p _

theorem State.portState_resent (s : State) (p seq : Nat) : (s.resent p seq).portState p = s.portState p := by
  have hne : fabAddr p + 8 ≠ fabAddr p + 0x10 := by omega
  exact congrArg (fun w : Word => (field w 0 2).toNat) (State.cget_cbump_ne _ 32 32 _ hne)

end

/-! ### PAUSE, RESUME and rekey -/

section
variable {p cls : Nat} {s : State}

theorem exec_pauseClass_of_open (hp : p < 16) (hc : cls < 4) (hup : s.portUp p = true) (h0 : cls ≠ 0) (hn : cls ∉ (s.port p).paused) :
    exec (.pauseClass p cls) s =
      .next ((s.setPort p { s.port p with paused := (s.port p).paused ++ [cls] }).csetField (pstat p) 0 2 3) := by
  change execPauseClass p cls s = _
  unfold execPauseClass
  rw [if_neg (by simp only [portCount]; omega)]
  dsimp only
  rw [if_neg (by simp [h0, hup, hn])]

theorem exec_resumeClass_of_paused (hp : p < 16) (hc : cls < 4) (hup : s.portUp p = true) (hin : cls ∈ (s.port p).paused)
    (hw : (s.port p).waiting = []) :
    exec (.resumeClass p cls) s =
      .next ((s.setPort p { s.port p with paused := (s.port p).paused.erase cls, waiting := [] }).csetField (pstat p) 0 2
        (if ((s.port p).paused.erase cls).isEmpty then 2 else 3)) := by
  change execResumeClass p cls s = _
  unfold execResumeClass
  rw [if_neg (by simp only [portCount]; omega)]
  dsimp only
  rw [if_neg (by simp [hup, hin]), hw]
  rfl

theorem exec_linkRekey_due (hp : p < 16) (hup : s.portUp p = true)
    (hd : (s.port p).keyedSeq + 2 ^ 40 ≤ (s.port p).txSeq ∨ (s.port p).keyedAt + us 86400000000 ≤ s.now) :
    exec (.linkRekey p) s = .next (s.setPort p { s.port p with
      epoch := ((s.port p).epoch + 1) % 2 ^ 32, keyedAt := s.now, keyedSeq := (s.port p).txSeq }) := by
  change execLinkRekey p s = _
  unfold execLinkRekey
  rw [if_neg (by simp only [portCount]; omega)]
  dsimp only
  rw [if_neg]
  rw [hup]
  rintro (h | ⟨h1, h2⟩)
  · cases h
  · rcases hd with hd | hd <;> omega

end

/-! ### Training -/

/-- The port of a training that has succeeded, before what waited for it goes out (R438, R440). -/
def State.trained (s : State) (p peer : Nat) (vers : List (Nat × Nat)) : State :=
  let x := s.port p
  let t := s.setPort p { x with epoch := (x.epoch + 1) % 2 ^ 32, keyedAt := s.now, keyedSeq := x.txSeq, fails := 0 }
  let t := ((t.setPort2 p 2 0).csetField (pstat p) 8 8 (common vers 0)).csetField (pstat p) 48 16 peer
  { t with versions := tput t.versions (peer % 65536) ((List.range 5).map (common vers)) }.postNotice 1 p

theorem State.trained_spec (s : State) (p peer : Nat) (vers : List (Nat × Nat)) :
    (s.trained p peer vers).dram = s.dram ∧ (s.trained p peer vers).portState p = 2 ∧
      (s.trained p peer vers).cfield (pstat p) 16 8 = 0 ∧ (s.trained p peer vers).cfield (pstat p) 48 16 = peer % 65536 ∧
      (s.trained p peer vers).epochOf p = ((s.port p).epoch + 1) % 2 ^ 32 := by
  unfold State.trained
  extract_lets x t1 t2
  obtain ⟨hstate, hcause⟩ := t1.setPort2_fields p 2 0
  have hport : t1.port p = { x with epoch := (x.epoch + 1) % 2 ^ 32, keyedAt := s.now, keyedSeq := x.txSeq, fails := 0 } :=
    s.port_setPort_same p _
  have hnote := State.SparesPort.postNotice (p := p)
    ({ t2 with versions := tput t2.versions (peer % 65536) ((List.range 5).map (common vers)) } : State) 1 p
  have hfield (lo w : Nat) : State.cfield (State.postNotice { t2 with
      versions := tput t2.versions (peer % 65536) ((List.range 5).map (common vers)) } 1 p) (pstat p) lo w = t2.cfield (pstat p) lo w :=
    congrArg (fun v : Word => (field v lo w).toNat) hnote.status
  refine ⟨hnote.dram, (hfield 0 2).trans ?_, (hfield 16 8).trans ?_, (hfield 48 16).trans ?_, ?_⟩
  · unfold t2
    rw [State.cfield_csetField_apart _ _ _ (by omega) (by omega), State.cfield_csetField_apart _ _ _ (by omega) (by omega)]
    exact hstate
  · unfold t2
    rw [State.cfield_csetField_apart _ _ _ (by omega) (by omega), State.cfield_csetField_apart _ _ _ (by omega) (by omega)]
    exact hcause
  · exact State.cfield_csetField_same _ _ _ (by omega)
  · have hvers : ({ t2 with versions := tput t2.versions (peer % 65536) ((List.range 5).map (common vers)) } : State).port p =
        t2.port p := rfl
    rw [State.epochOf, hnote.port, hvers]
    unfold t2
    rw [State.port_csetField, State.port_csetField, State.setPort2, State.port_csetField, State.port_csetField, hport]

theorem State.rest_setPort2 (s : State) (p st cause : Nat) : { s.setPort2 p st cause with ctl := s.ctl } = s := rfl

theorem State.rest_trainPort (s : State) (p : Nat) : { s.trainPort p with ctl := s.ctl, out := s.out } = s :=
  congrArg (fun t : State => { t with out := s.out }) (s.rest_setPort2 p 1 0)

section
variable {p : Nat} {s : State}

theorem exec_portTrained_of_training (peer : Nat) (vers : List (Nat × Nat)) (auth : Bool) (hp : p < 16) (ht : s.portState p = 1) :
    exec (.portTrained p peer vers auth) s = .next
      (if common vers 0 = 0 then s.portDown p 1
      else if !auth then s.portDown p 2
      else ((s.trained p peer vers).flushPort p).askModule (peer % 65536)) := by
  change execPortTrained p peer vers auth s = _
  unfold execPortTrained
  rw [if_neg (by simp only [portCount]; omega), if_neg (by simp [ht])]
  split
  · rfl
  · split <;> rfl

/-- What a link that has come up sends leaves what its training set. -/
theorem State.goesUp_spec (s : State) (p peer : Nat) (vers : List (Nat × Nat)) {t : State}
    (ht : ((s.trained p peer vers).flushPort p).askModule (peer % 65536) = t) :
    t.dram = s.dram ∧ t.portState p = 2 ∧ t.cfield (fabAddr p + 8) 16 8 = 0 ∧
      t.cfield (fabAddr p + 8) 48 16 = peer % 65536 ∧ (t.port p).epoch = ((s.port p).epoch + 1) % 2 ^ 32 := by
  subst ht
  obtain ⟨hdram, hstate, hcause, hpeer, hepoch⟩ := s.trained_spec p peer vers
  generalize s.trained p peer vers = v at hdram hstate hcause hpeer hepoch
  obtain ⟨hctl, hfdram⟩ := v.ctl_flushPort p
  have hfepoch := v.epochOf_flushPort p p
  generalize v.flushPort p = w at hctl hfdram hfepoch
  have hsays := State.Says.askModule w (peer % 65536)
  have hcget : (w.askModule (peer % 65536)).cget (pstat p) = v.cget (pstat p) := by
    rw [hsays.talks.cget, State.cget, hctl, State.cget]
  have hfield (lo n : Nat) : (w.askModule (peer % 65536)).cfield (pstat p) lo n = v.cfield (pstat p) lo n :=
    congrArg (fun x : Word => (field x lo n).toNat) hcget
  exact ⟨hsays.talks.dram.trans (hfdram.trans hdram), (hfield 0 2).trans hstate, (hfield 16 8).trans hcause,
    (hfield 48 16).trans hpeer, (hsays.epochOf p).trans (hfepoch.trans hepoch)⟩

theorem exec_portEnable_of_off {v : Word} (hp : p < 16) (hv : bitOf v 0 = true) (h0 : bitOf (s.cget (fabAddr p)) 0 = false) :
    exec (.portEnable p v) s = .next ((s.cset (fabAddr p) (v &&& 1)).trainPort p) := by
  change execPortEnable p v s = _
  unfold execPortEnable State.writePctl
  rw [if_neg (by simp only [portCount]; omega)]
  simp [hv, h0]

end

/-! ### Notices of peers -/

theorem State.memberChanged_rest (s : State) (m : Nat) : { s.memberChanged m with ctl := s.ctl } = s := by
  unfold State.memberChanged State.raiseVector
  split
  · split <;> rfl
  · rfl

/-- The failing of the host reads of a module. -/
theorem State.failReads_eq (s : State) (m : Nat) : ∃ ctl out bumped at_, s.failReads m =
    { s with hostReads := s.hostReads.filter (fun r => r.1 != m), ctl := ctl, out := out, bumped := bumped, bumpedAt := at_ } := by
  have hfold (l : List (Nat × Nat)) : ∀ s : State, ∃ ctl out bumped at_, l.foldl (fun (s : State) r =>
      { s.cbump (brb + 0x90) 0 32 1 with
        out := (s.cbump (brb + 0x90) 0 32 1).out ++ [.hostData (List.replicate r.2 (0xFF : Byte))] }) s =
      { s with ctl := ctl, out := out, bumped := bumped, bumpedAt := at_ } := by
    induction l with
    | nil => exact fun s => ⟨_, _, _, _, rfl⟩
    | cons r l ih => exact fun s => ih _
  exact hfold _ _

/-! ### Requests of peers -/

section
variable {src : Nat} {write : Bool} {space : FabSpace} {a : Word} {data : List Byte} {s : State}

/-- The translations by which a request goes, where there are any. -/
def State.requestXlats (s : State) (space : FabSpace) (a : Word) (data : List Byte) : List Xlat :=
  (pageParts a.toNat data.length).filterMap (fun p => s.walk (space == .seg) 0 p.1)

/-- A request of an address that goes to memory. -/
theorem exec_fabricRequest_memory (hmid : s.dusk.midnight = false) (hn : s.noon = true) (hsv : s.serving = true)
    (hh : space ≠ .host) (hs : space ≠ .status) : exec (.fabricRequest src write space a data) s =
      (let ps := pageParts a.toNat data.length
      let xs := s.requestXlats space a data
      if xs.length ≠ ps.length ∨ xs.any (fun x => if write then !x.w else !x.r) then .next (s.send (.answer src 0x13))
      else if homesOn s.isShed xs then .next s
      else if homesOn s.dieHeld xs then
        let dies := (List.range 4).filter (fun d => homesOn (fun e => e == d && s.dieHeld e) xs)
        .next ((dies.foldl (fun (s : State) d => s.cbump (drbAddr d + 8) 32 16 1) s).send (.answer src 2))
      else if write then
        match s.vwrite (space == .seg) 0 a.toNat data with
        | some t => .next (t.send (.answer src 0))
        | none => .next (s.send (.answer src 0x13))
      else
        match s.vread (space == .seg) 0 a.toNat data.length with
        | some bs => .next (s.send (.reply src bs))
        | none => .next (s.send (.answer src 0x05))) := by
  change execFabricRequest src write space a data s = _
  unfold execFabricRequest
  rw [if_neg (by simp [hmid]), if_neg (by simp [hn]), if_neg hs, if_neg (by simp [hsv]), if_neg hh]
  rfl

theorem State.requestXlats_of_hole (h : ∃ q ∈ pageParts a.toNat data.length, s.walk (space == .seg) 0 q.1 = none) :
    (s.requestXlats space a data).length ≠ (pageParts a.toNat data.length).length := by
  obtain ⟨q, hq, hw⟩ := h
  unfold State.requestXlats
  rw [ne_eq, List.length_filterMap_eq_countP, List.countP_eq_length]
  intro hall
  simpa [hw] using hall q hq

/-- A request whose every page may be accessed in DRAM is held by no die. -/
theorem State.requestXlats_of_dram (h : ∀ q ∈ pageParts a.toNat data.length, ∃ x, s.walk (space == .seg) 0 q.1 = some x ∧
      (if write then x.w else x.r) = true ∧ x.place = .dram) :
    (s.requestXlats space a data).length = (pageParts a.toNat data.length).length ∧
      (s.requestXlats space a data).any (fun x => if write then !x.w else !x.r) = false ∧
      ∀ p, homesOn p (s.requestXlats space a data) = false := by
  have hall : ∀ x ∈ s.requestXlats space a data, (if write then x.w else x.r) = true ∧ x.place = .dram := by
    intro x hx
    obtain ⟨q, hq, hw⟩ := List.mem_filterMap.1 hx
    obtain ⟨y, hy, hyp⟩ := h q hq
    rw [hw] at hy
    cases hy
    exact hyp
  refine ⟨?_, ?_, fun p => ?_⟩
  · unfold State.requestXlats
    rw [List.length_filterMap_eq_countP, List.countP_eq_length]
    intro q hq
    obtain ⟨y, hy, -⟩ := h q hq
    simp [hy]
  · rw [List.any_eq_false]
    intro x hx
    obtain ⟨hp, -⟩ := hall x hx
    cases write <;> simpa using hp
  · rw [homesOn, List.any_eq_false]
    intro x hx
    rw [(hall x hx).2]
    simp

end

/-! ### O43 -/

section
variable {p cls seq acked left : Nat} {s : State}

theorem exec_flitReceive_spec (hp : p < 16) (hc : cls < 4) (hup : s.portUp p = true) (hall : ∀ f ∈ (s.port p).replay, acked ≤ f.1) :
    (seq = (s.port p).rxSeq →
      (cls = 0 → exec (.flitReceive p cls ⟨seq, acked, left⟩ true) s =
        .next ((s.setPort p { s.port p with rxSeq := seq + 1 }).sendOn p (.ack p seq))) ∧
      (cls ≠ 0 → ∃ t, exec (.flitReceive p cls ⟨seq, acked, left⟩ true) s = .next t ∧ (t.port p).rxSeq = seq + 1 ∧
        tget 0 (t.port p).buffered cls = tget 0 (s.port p).buffered cls - left + 1 ∧
        (3 * Config.classBuffer cls < 4 * (tget 0 (s.port p).buffered cls - left + 1) → cls ∈ (t.port p).pausing) ∧
        (2 * (tget 0 (s.port p).buffered cls - left + 1) < Config.classBuffer cls →
          (t.port p).pausing = (s.port p).pausing.erase cls))) ∧
    (seq < (s.port p).rxSeq → exec (.flitReceive p cls ⟨seq, acked, left⟩ true) s = .next (s.sendOn p (.ack p seq))) ∧
    ((s.port p).rxSeq < seq →
      exec (.flitReceive p cls ⟨seq, acked, left⟩ true) s = .next (s.sendOn p (.nak p (s.port p).rxSeq))) := by
  have hgood := exec_flitReceive_good (seq := seq) (left := left) hp hc hup (State.takeAck_of_none hall)
  refine ⟨fun hseq => ⟨fun hcls => ?_, fun hcls => ?_⟩, fun hlt => ?_, fun hlt => ?_⟩
  · rw [hgood, if_pos hseq, hcls]
    rfl
  · refine ⟨_, hgood.trans (if_pos hseq), ?_⟩
    have hfill := State.port_fillBuffer (s.setPort p { s.port p with rxSeq := seq + 1 }) p left hcls
    rw [State.port_setPort_same] at hfill
    simpa only [State.rxSeq_sendOn, State.buffered_sendOn, State.pausing_sendOn] using hfill
  · rw [hgood, if_neg (by omega), if_pos hlt]
  · rw [hgood, if_neg (by omega), if_neg (by omega)]

theorem exec_flitReceive_replay (hp : p < 16) (hc : cls < 4) (hup : s.portUp p = true) (hw : (s.port p).waiting = [])
    (hpd : (s.port p).paused = []) (hlt : seq < (s.port p).rxSeq)
    (hlen : ((s.port p).replay.filter (fun f => decide (acked ≤ f.1))).length < 512) :
    ∃ t, exec (.flitReceive p cls ⟨seq, acked, left⟩ true) s = .next t ∧ (t.port p).replay =
      (s.port p).replay.filter (fun f => decide (acked ≤ f.1)) ++ [((s.port p).txSeq, .ack p seq, 0)] := by
  obtain ⟨fails, hport⟩ := State.port_takeAck (s := s) acked hw
  generalize ht : s.takeAck p acked = t at hport
  have hgood := exec_flitReceive_good (seq := seq) (left := left) hp hc hup ht
  rw [hport, if_neg (by dsimp only; omega), if_pos hlt] at hgood
  refine ⟨_, hgood, ?_⟩
  rw [State.replay_sendOn (by rw [hport]; exact hw) (by rw [hport]; exact hpd) (by rw [hport]; exact hlen)
    (by simp [Msg.flits, Msg.payload]), hport]

theorem exec_nak_spec (hp : p < 16) (hup : s.portUp p = true) (hf : ∃ f ∈ (s.port p).replay, f.1 = seq) :
    ∃ t, exec (.nak p seq) s = .next t ∧ t.dram = s.dram ∧
      ((s.port p).replay.head?.map (·.1) ≠ some seq ∨ (s.port p).fails < 7 →
        (t.port p).replay = (s.port p).replay.filter (fun f => decide (seq ≤ f.1)) ∧ t.portState p = s.portState p ∧
        t.units = s.units ∧
        (t.port p).fails = (if (s.port p).replay.head?.map (·.1) = some seq then (s.port p).fails + 1 else 1)) ∧
      ((s.port p).replay.head?.map (·.1) = some seq → 7 ≤ (s.port p).fails →
        t.portState p = 0 ∧ t.cfield (fabAddr p + 8) 16 8 = 3 ∧ (t.port p).replay = []) := by
  have hexec := exec_nak_of_replay hp hup hf
  have hport := s.port_resent p seq
  by_cases hlow : (if (s.port p).replay.head?.map (·.1) = some seq then (s.port p).fails + 1 else 1) < 8
  · rw [if_pos hlow] at hexec
    refine ⟨_, hexec, rfl, fun _ => ⟨by rw [hport], s.portState_resent p seq, rfl, by rw [hport]⟩, fun hh h7 => ?_⟩
    rw [if_pos hh] at hlow
    omega
  · obtain ⟨hdram, hstate, hcause, hreplay⟩ := (s.resent p seq).portDown_spec 3 hp
    rw [if_neg hlow] at hexec
    refine ⟨_, hexec, hdram, fun hor => absurd ?_ hlow, fun _ _ => ⟨hstate, hcause, hreplay⟩⟩
    split
    · next hh => exact hor.elim (fun h => absurd hh h) (fun h => by omega)
    · omega

theorem exec_pauseClass_spec (hp : p < 16) (hc : cls < 4) (hup : s.portUp p = true) (h0 : cls ≠ 0)
    (hn : cls ∉ (s.port p).paused) : ∃ t, exec (.pauseClass p cls) s = .next t ∧
      (t.port p).paused = (s.port p).paused ++ [cls] ∧ t.portState p = 3 ∧ t.out = s.out := by
  refine ⟨_, exec_pauseClass_of_open hp hc hup h0 hn, ?_, State.portState_csetField _ p 3, rfl⟩
  rw [State.port_csetField, State.port_setPort_same]

theorem exec_resumeClass_spec (hp : p < 16) (hc : cls < 4) (hup : s.portUp p = true) (hin : cls ∈ (s.port p).paused)
    (hw : (s.port p).waiting = []) : ∃ t, exec (.resumeClass p cls) s = .next t ∧
      (t.port p).paused = (s.port p).paused.erase cls ∧
      t.portState p = (if (s.port p).paused.erase cls = [] then 2 else 3) ∧ t.out = s.out := by
  refine ⟨_, exec_resumeClass_of_paused hp hc hup hin hw, ?_, ?_, rfl⟩
  · rw [State.port_csetField, State.port_setPort_same]
  · rw [State.portState_csetField]
    simp only [List.isEmpty_iff]
    split <;> rfl

theorem exec_portEnable_spec {v : Word} (hp : p < 16) (hv : bitOf v 0 = true) (h0 : bitOf (s.cget (fabAddr p)) 0 = false) :
    ∃ t, exec (.portEnable p v) s = .next t ∧ t.portState p = 1 ∧ t.out = s.out ++ [.capability p capabilities] ∧
      { t with ctl := s.ctl, out := s.out } = s := by
  obtain ⟨hstate, -⟩ := (s.cset (fabAddr p) (v &&& 1)).setPort2_fields p 1 0
  have hrest := (s.cset (fabAddr p) (v &&& 1)).rest_trainPort p
  exact ⟨_, exec_portEnable_of_off hp hv h0, hstate, rfl, congrArg (fun t : State => { t with ctl := s.ctl }) hrest⟩

theorem exec_portTrained_spec (peer : Nat) (vers : List (Nat × Nat)) (auth : Bool) (hp : p < 16) (ht : s.portState p = 1) :
    ∃ t, exec (.portTrained p peer vers auth) s = .next t ∧ t.dram = s.dram ∧
      (common vers 0 = 0 → t.portState p = 0 ∧ t.cfield (fabAddr p + 8) 16 8 = 1) ∧
      (common vers 0 ≠ 0 → auth = false → t.portState p = 0 ∧ t.cfield (fabAddr p + 8) 16 8 = 2) ∧
      (common vers 0 ≠ 0 → auth = true → t.portState p = 2 ∧ t.cfield (fabAddr p + 8) 16 8 = 0 ∧
        t.cfield (fabAddr p + 8) 48 16 = peer % 65536 ∧ (t.port p).epoch = ((s.port p).epoch + 1) % 2 ^ 32) := by
  refine ⟨_, exec_portTrained_of_training peer vers auth hp ht, ?_⟩
  by_cases h0 : common vers 0 = 0
  · obtain ⟨hdram, hstate, hcause, -⟩ := s.portDown_spec 1 hp
    rw [if_pos h0]
    exact ⟨hdram, fun _ => ⟨hstate, hcause⟩, fun h => absurd h0 h, fun h => absurd h0 h⟩
  · rw [if_neg h0]
    cases auth with
    | false =>
      obtain ⟨hdram, hstate, hcause, -⟩ := s.portDown_spec 2 hp
      exact ⟨hdram, fun h => absurd h h0, fun _ _ => ⟨hstate, hcause⟩, fun _ h => absurd h (by simp)⟩
    | true =>
      obtain ⟨hdram, hup⟩ := s.goesUp_spec p peer vers rfl
      exact ⟨hdram, fun h => absurd h h0, fun _ h => absurd h (by simp), fun _ _ => hup⟩

theorem exec_darkNotice_spec {m : Nat} (hm : m ∉ s.darkMods) : ∃ t, exec (.darkNotice m) s = .next t ∧
    t.darkMods = s.darkMods ++ [m] ∧ t.units = s.units ∧ t.dram = s.dram ∧ ∀ r ∈ t.hostReads, r.1 ≠ m := by
  have hexec : exec (.darkNotice m) s = .next
      (State.failReads { s.memberChanged m with darkMods := s.darkMods ++ [m] } m).review :=
    congrArg Host.Outcome.next (if_neg (by simpa using hm))
  have hrest := s.memberChanged_rest m
  obtain ⟨ctl, out, bumped, at_, hfail⟩ := State.failReads_eq { s.memberChanged m with darkMods := s.darkMods ++ [m] } m
  rw [hfail] at hexec
  refine ⟨_, hexec, (congrArg State.darkMods (State.rest_review _) :), (State.units_review _).trans (congrArg State.units hrest :),
    (State.dram_review _).trans (congrArg State.dram hrest :), fun r hr => ?_⟩
  rw [(congrArg State.hostReads (State.rest_review _) :)] at hr
  simpa using (List.mem_filter.1 hr).2

theorem exec_dawnNotice_spec (m : Nat) (serial : Word) (s : State) : ∃ t, exec (.dawnNotice m serial) s = .next t ∧
    m ∉ t.darkMods ∧ t.units = s.units ∧ t.dram = s.dram := by
  have hrest := s.memberChanged_rest m
  refine ⟨_, rfl, ?_, (State.Says.askModule _ m).talks.units.trans (congrArg State.units hrest :),
    (State.Says.askModule _ m).talks.dram.trans (congrArg State.dram hrest :)⟩
  rw [(congrArg State.darkMods (State.Says.askModule _ m).talks.rest :)]
  simp

theorem exec_coldNotice_spec (m : Nat) (s : State) : ∃ t, exec (.coldNotice m) s = .next t ∧ m ∉ t.darkMods ∧
    t.units = s.units ∧ t.colls.length = s.colls.length ∧
      ∀ c ∈ t.colls, (∃ e ∈ c.mems, e.1 = m) → c.ended.isSome = true := by
  refine ⟨_, rfl, by simp, (congrArg State.units (s.memberChanged_rest m) :), List.length_map .., fun c hc he => ?_⟩
  obtain ⟨d, -, rfl⟩ := List.mem_map.1 hc
  split at he
  · next h => rw [if_pos h]; rfl
  · next h =>
    rw [if_neg h]
    have hany : d.mems.any (fun e => e.1 == m) = true := by simpa using he
    simpa [hany, Option.isSome_iff_ne_none] using h

end

section
variable {src : Nat} {write : Bool} {space : FabSpace} {a : Word} {data : List Byte} {s : State}

theorem exec_fabricRequest_memory_spec (hmid : s.dusk.midnight = false) (hn : s.noon = true) (hsv : s.serving = true)
    (hh : space ≠ .host) (hs : space ≠ .status) :
    ((∃ q ∈ pageParts a.toNat data.length, s.walk (space == .seg) 0 q.1 = none) →
      exec (.fabricRequest src write space a data) s = .next (s.send (.answer src 0x13))) ∧
    ((∀ q ∈ pageParts a.toNat data.length, ∃ x, s.walk (space == .seg) 0 q.1 = some x ∧
        (if write then x.w else x.r) = true ∧ x.place = .dram) →
      (write = true → ∀ t, s.vwrite (space == .seg) 0 a.toNat data = some t →
        exec (.fabricRequest src write space a data) s = .next (t.send (.answer src 0))) ∧
      (write = false → ∀ bs, s.vread (space == .seg) 0 a.toNat data.length = some bs →
        exec (.fabricRequest src write space a data) s = .next (s.send (.reply src bs)))) := by
  have hexec := exec_fabricRequest_memory (src := src) (write := write) (a := a) (data := data) hmid hn hsv hh hs
  refine ⟨fun hhole => hexec.trans (if_pos (.inl (State.requestXlats_of_hole hhole))), fun hdram => ?_⟩
  obtain ⟨hlen, hperm, hhome⟩ := State.requestXlats_of_dram hdram
  dsimp only at hexec
  rw [if_neg (by simp [hlen, hperm]), hhome, hhome] at hexec
  refine ⟨fun hw t ht => ?_, fun hw bs hbs => ?_⟩
  · rw [hexec, hw, ht]
    rfl
  · rw [hexec, hw, hbs]
    rfl

theorem exec_fabricRequest_host_spec (hmid : s.dusk.midnight = false) (hn : s.noon = true) (hsv : s.serving = true)
    (hbr : bitOf (s.cget brb) 0 = true) (hrs : s.hostReset = false) :
    (write = true → exec (.fabricRequest src write .host a data) s = .next { s with
      host := mwrite s.host a.toNat data, out := s.out ++ [.pcieWrite a.toNat data] }) ∧
    (write = false → ∃ t, exec (.fabricRequest src write .host a data) s = .next t ∧
      t.out = s.out ++ [.pcieRead s.nextPcie a.toNat data.length] ∧ t.nextPcie = s.nextPcie + 1 ∧
      ∃ r, t.pcie = s.pcie ++ [r] ∧ r.id = s.nextPcie ∧ r.origin = some src ∧ r.len = data.length) := by
  have hbridging : s.bridging = true := by simp [State.bridging, hbr, hrs, hmid]
  have hexec : exec (.fabricRequest src write .host a data) s = .next (s.bridgeRequest src write a.toNat data) := by
    change execFabricRequest src write .host a data s = _
    simp [execFabricRequest, hmid, hn, hsv]
  rw [hexec]
  unfold State.bridgeRequest
  simp only [hbridging, Bool.not_true, Bool.false_eq_true, if_false]
  refine ⟨fun hw => ?_, fun hw => ?_⟩
  · rw [hw, if_pos rfl]
  · rw [hw, if_neg (by simp)]
    exact ⟨_, rfl, rfl, rfl, _, rfl, rfl, rfl, rfl⟩

end

/-- Settles O43: each event by its condition; a port that goes down, and one that comes up, by what their messages leave alone. -/
theorem fabricEvents : Obligations.FabricEvents := by
  refine ⟨fun p cls seq acked left s hp hc hup => ⟨exec_flitReceive_bad hp hc hup, exec_flitReceive_spec hp hc hup,
      exec_flitReceive_replay hp hc hup, exec_nak_spec hp hup, exec_pauseClass_spec hp hc hup, exec_resumeClass_spec hp hc hup,
      exec_linkRekey_due hp hup⟩,
    fun p v s hp hv h0 => exec_portEnable_spec hp hv h0,
    fun p peer vers auth s hp ht => exec_portTrained_spec peer vers auth hp ht,
    fun m serial s => ⟨exec_darkNotice_spec, fun hm => congrArg Host.Outcome.next (if_pos (by simpa using hm)),
      exec_dawnNotice_spec m serial s, exec_coldNotice_spec m s⟩,
    fun src write space a data s hmid => ⟨fun hn => ?_, fun hn => ?_, fun hn hsv hh hs =>
      exec_fabricRequest_memory_spec hmid hn hsv hh hs, fun hn hsv hsp hbr hrs => ?_⟩⟩
  · change execFabricRequest src write space a data s = _
    simp [execFabricRequest, hmid, hn]
  · change execFabricRequest src write .status a data s = _
    simp [execFabricRequest, hmid, hn]
  · subst hsp
    exact exec_fabricRequest_host_spec hmid hn hsv hbr hrs

end Sys2Proof.Machine
end


/-! ## Collectives that send

What a comm master makes of a command that it receives (R265, R327, R328), what looking at the peers comes to for one command
(R345), and what the messages of a sender's peers do (R331 to R333); then the statement of O36. -/

section
namespace Sys2Proof.Machine

/-! ### Commands found after a change -/

theorem State.collOf_map (s : State) (u id : Nat) {f : Coll → Coll} (hf : ∀ c, (f c).unit = c.unit ∧ (f c).serial = c.serial) :
    ({ s with colls := s.colls.map f } : State).collOf u id = (s.collOf u id).map f := by
  have hp : ((fun c : Coll => c.unit == u && c.serial == id) ∘ f) = fun c => c.unit == u && c.serial == id := by
    funext c
    obtain ⟨hu, hs⟩ := hf c
    simp only [Function.comp_apply, hu, hs]
  exact List.find?_map.trans (by rw [hp, State.collOf])

theorem State.collOf_keys {s : State} {u id : Nat} {c : Coll} (h : s.collOf u id = some c) : c.unit = u ∧ c.serial = id := by
  simpa using List.find?_some h

/-- A command reads as it was stored. -/
theorem State.collOf_setColl {s : State} {u id : Nat} {c d : Coll} (h : s.collOf u id = some c) (hu : d.unit = u)
    (hs : d.serial = id) : (s.setColl d).collOf u id = some d := by
  obtain ⟨hcu, hcs⟩ := State.collOf_keys h
  have hmap := s.collOf_map u id (f := fun b => if b.unit = d.unit ∧ b.serial = d.serial then d else b) fun b => by
    split
    · next hb => exact ⟨hb.1.symm, hb.2.symm⟩
    · exact ⟨rfl, rfl⟩
  refine hmap.trans ?_
  rw [h, Option.map_some, if_pos ⟨hcu.trans hu.symm, hcs.trans hs.symm⟩]

/-! ### Looking at the peers of one command -/

/-- Looking at its peers leaves all of a command but its end and its waits (R345). -/
theorem State.rest_reviewColl (s : State) (c : Coll) : { s.reviewColl c with
    ended := c.ended, status := c.status, waitFrom := c.waitFrom, waited := c.waited, waitCode := c.waitCode, waitOn := c.waitOn } = c := by
  unfold State.reviewColl
  split
  · rfl
  · dsimp only
    split
    · rfl
    · split
      · unfold Coll.answered
        split <;> rfl
      · unfold Coll.waitFor
        split <;> rfl

theorem State.reviewColl_keys (s : State) (c : Coll) : (s.reviewColl c).unit = c.unit ∧ (s.reviewColl c).serial = c.serial :=
  ⟨(congrArg Coll.unit (s.rest_reviewColl c) :), (congrArg Coll.serial (s.rest_reviewColl c) :)⟩

/-- A command that has ended looks at no peer any more. -/
theorem State.reviewColl_of_ended (s : State) {c : Coll} {e : Nat} (h : c.ended = some e) : s.reviewColl c = c := by
  unfold State.reviewColl
  rw [if_pos (.inl (by rw [h]; rfl))]

theorem State.collOf_reviewBy {P : Coll → Prop} {u id : Nat} : ∀ (n : Nat) {s : State} {c : Coll},
    (∀ cs d, P d → P (State.reviewColl { s with colls := cs } d)) → s.collOf u id = some c → P c →
    ∃ d, (s.reviewBy n).collOf u id = some d ∧ P d
  | 0, _, c, _, h, hc => ⟨c, h, hc⟩
  | n + 1, s, c, hP, h, hc => by
    have hmap := s.collOf_map u id s.reviewColl_keys
    rw [h, Option.map_some] at hmap
    unfold State.reviewBy
    dsimp only
    split
    · exact ⟨c, h, hc⟩
    · exact State.collOf_reviewBy n (s := { s with colls := s.colls.map s.reviewColl }) (fun cs d hd => hP cs d hd) hmap (hP s.colls c hc)

/-- What holds of a command that has looked at its peers, and stays so however it looks again, holds of it at the end. -/
theorem State.collOf_review {P : Coll → Prop} {s : State} {u id : Nat} {c : Coll} (h : s.collOf u id = some c)
    (hc : P (s.reviewColl c)) (hP : ∀ cs d, P d → P (State.reviewColl { s with colls := cs } d)) :
    ∃ d, s.review.collOf u id = some d ∧ P d := by
  have hmap := s.collOf_map u id s.reviewColl_keys
  rw [h, Option.map_some] at hmap
  unfold State.review State.reviewBy
  dsimp only
  split
  · next hsame =>
    rw [hsame] at hmap
    exact ⟨_, hmap, hc⟩
  · exact State.collOf_reviewBy _ (s := { s with colls := s.colls.map s.reviewColl }) (fun cs d hd => hP cs d hd) hmap hc

/-- A command that ends before its peers are looked at stays as it ended. -/
theorem State.collOf_review_ended {s : State} {u id e : Nat} {c : Coll} (h : s.collOf u id = some c) (he : c.ended = some e) :
    s.review.collOf u id = some c := by
  obtain ⟨d, hd, rfl⟩ := State.collOf_review (P := (· = c)) h (s.reviewColl_of_ended he)
    (fun cs d hd => hd ▸ State.reviewColl_of_ended _ (hd ▸ he))
  exact hd

/-! ### Members out of reach -/

/-- What members on this module have applied says nothing of what one on another module takes. -/
theorem State.needs_learned (s : State) {c : Coll} {f : Nat} (h : c.modOf f = s.modnum → f = c.member) :
    (s.learned c).needs f = c.needs f := by
  by_cases hf : f = c.member
  · simp [Coll.needs, State.learned, hf]
  · have hno (t : Nat) : s.appliedAt c f t = false := by
      simp [State.appliedAt, show c.modOf f ≠ s.modnum from fun e => hf (h e)]
    have hcontains (t : Nat) : (s.learned c).acks.contains (f, t) = c.acks.contains (f, t) := by
      simp [State.learned, List.contains_eq_mem, hno]
    have hcount : (s.learned c).acks.filter (fun p => p.1 == f) = c.acks.filter (fun p => p.1 == f) := by
      simp only [State.learned, List.filter_append, List.append_right_eq_self, List.filter_filter]
      rw [List.filter_eq_nil_iff]
      rintro ⟨g, t⟩ -
      by_cases hg : g = f
      · subst hg
        simp [hno]
      · simp [hg]
    have howes : (s.learned c).owes f = c.owes f := by
      unfold Coll.owes
      simp only [hcount, hcontains]
      rfl
    have hdue : (s.learned c).due f = c.due f := rfl
    unfold Coll.needs
    rw [howes, hdue]
    rfl

/-- The answer of a member that a command needs is the last word of those that hold it up, where every other member is on this
module or within reach (R345). -/
theorem State.reviewColl_of_word {s : State} {c : Coll} {pre : List PeerWord} {m code : Nat} (hend : c.ended = none)
    (hrun : s.mastersRun c.unit = true) (hwait : c.waitOn = pre ++ [⟨m, code, false⟩]) (hm : m < c.nmem) (hneeds : c.needs m = true)
    (hreach : ∀ f < c.nmem, c.modOf f ≠ s.modnum → s.reachable (c.modOf f) = true)
    (hown : ∀ f < c.nmem, c.modOf f = s.modnum → f = c.member) :
    ∃ pre', s.reviewColl c = { c.waitFor s.now code with waitOn := pre' ++ [⟨m, code, false⟩] } := by
  have hneed : (List.range c.nmem).filter (s.learned c).needs = (List.range c.nmem).filter c.needs :=
    List.filter_congr fun f hf => s.needs_learned (hown f (List.mem_range.1 hf))
  have hother : ∀ f ∈ (List.range c.nmem).filter c.needs, c.modOf f ≠ s.modnum := by
    intro f hf he
    obtain ⟨hlt, hn⟩ := List.mem_filter.1 hf
    have := hown f (List.mem_range.1 hlt) he
    simp [Coll.needs, this] at hn
  have hends : firstSome (s.memberEnd c) ((List.range c.nmem).filter c.needs) = none := by
    have hnone : ∀ l : List Nat, (∀ f ∈ l, c.modOf f ≠ s.modnum) → firstSome (s.memberEnd c) l = none := by
      intro l
      induction l with
      | nil => exact fun _ => rfl
      | cons f l ih =>
        intro hl
        have hf : s.memberEnd c f = none := if_pos (hl f List.mem_cons_self)
        rw [firstSome, hf]
        exact ih fun g hg => hl g (List.mem_cons_of_mem f hg)
    exact hnone _ hother
  have hknown : ((List.range c.nmem).filter c.needs).filterMap (fun f => (s.memberStatus c f).map (fun e => (⟨f, e, true⟩ : PeerWord))) = [] := by
    rw [List.filterMap_eq_nil_iff]
    intro f hf
    have hr := hreach f (List.mem_range.1 (List.mem_filter.1 hf).1) (hother f hf)
    simp [State.memberStatus, hother f hf, hr, guarded]
  have hin : ((List.range c.nmem).filter c.needs).contains m = true := by simp [hm, hneeds]
  refine ⟨pre.filter (fun w => ((List.range c.nmem).filter c.needs).contains w.member && (!w.own || ([] : List PeerWord).contains w)), ?_⟩
  unfold State.reviewColl
  rw [if_neg (by simp [hend, hrun])]
  simp only [hneed, hends, hknown, hwait, List.filter_append, List.filter_nil, List.append_nil]
  rw [List.filter_cons_of_pos (by rw [hin]; rfl), List.filter_nil, List.getLast?_concat]

/-! ### Replies of peers -/

section
variable {u id : Nat} {c : Coll} {s : State}

/-- The guard of an answer of a member on another module. -/
theorem exec_peerStatusReply_of_needed {m code : Nat} (closed : Bool) (hu : u < 512) (hc : s.collOf u id = some c)
    (hend : c.ended = none) (hrun : s.mastersRun u = true) (hw : s.fabricWaits = false) (hm : m < c.nmem)
    (hmod : c.modOf m ≠ s.modnum) : exec (.peerStatusReply u id ⟨m, code, closed⟩) s =
      .next (if closed then
          if code ≠ 0 ∧ c.needs m then
            (s.setColl { c.follow code with barred := decide (0x10 ≤ code ∧ code ≤ 0x15) }).review
          else s
        else if code = 3 ∨ code = 4 then (s.setColl { c with waitOn := (c.heard m).waitOn ++ [⟨m, code, false⟩] }).review
        else s) := by
  change execPeerStatusReply u id ⟨m, code, closed⟩ s = _
  unfold execPeerStatusReply
  rw [if_neg (by omega), hc]
  dsimp only
  rw [if_neg (by simp [hend, hrun, hw, hmod, Nat.not_le.2 hm])]
  split
  · rfl
  · split <;> rfl

/-- PEER_DARK or TWILIGHT from a member that the command needs: it waits, or ends with that where PATIENCE is 0 (R345). -/
theorem exec_peerStatusReply_waits {m code : Nat} (hu : u < 512) (hc : s.collOf u id = some c) (hend : c.ended = none)
    (hrun : s.mastersRun u = true) (hw : s.fabricWaits = false) (hm : m < c.nmem) (hmod : c.modOf m ≠ s.modnum)
    (hneeds : c.needs m = true) (hreach : ∀ f < c.nmem, c.modOf f ≠ s.modnum → s.reachable (c.modOf f) = true)
    (hcode : code = 3 ∨ code = 4) (hown : ∀ f < c.nmem, c.modOf f = s.modnum → f = c.member) :
    ∃ t d, exec (.peerStatusReply u id ⟨m, code, false⟩) s = .next t ∧ t.units = s.units ∧ t.collOf u id = some d ∧
      (recPatience c.rcd = 0 → d.ended = some code) ∧
      (recPatience c.rcd ≠ 0 → d.ended = none ∧ d.status = c.status ||| 64 ∧
        d.waitFrom = some (c.waitFrom.getD s.now) ∧ d.waitCode = code) := by
  obtain ⟨hcu, hcs⟩ := State.collOf_keys hc
  have hexec := exec_peerStatusReply_of_needed (code := code) false hu hc hend hrun hw hm hmod
  rw [if_neg (by simp), if_pos hcode] at hexec
  generalize (c.heard m).waitOn = pre at hexec
  have hset := State.collOf_setColl hc (d := { c with waitOn := pre ++ [⟨m, code, false⟩] }) hcu hcs
  have hrun' : s.mastersRun c.unit = true := by rw [hcu]; exact hrun
  obtain ⟨pre', hlook⟩ := State.reviewColl_of_word (s := s.setColl { c with waitOn := pre ++ [⟨m, code, false⟩] })
    (c := { c with waitOn := pre ++ [⟨m, code, false⟩] }) hend hrun' rfl hm hneeds hreach hown
  by_cases hp : recPatience c.rcd = 0
  · have hfirst : (State.reviewColl (s.setColl { c with waitOn := pre ++ [⟨m, code, false⟩] })
        { c with waitOn := pre ++ [⟨m, code, false⟩] }).ended = some code := by
      rw [hlook, Coll.waitFor, if_pos hp]
    obtain ⟨d, hd, hde⟩ := State.collOf_review (P := fun d => d.ended = some code) hset hfirst
      (fun cs d hd => (congrArg Coll.ended (State.reviewColl_of_ended _ hd)).trans hd)
    exact ⟨_, d, hexec, State.units_review _, hd, fun _ => hde, fun h => absurd hp h⟩
  · have hfirst : ∃ pre', State.reviewColl (s.setColl { c with waitOn := pre ++ [⟨m, code, false⟩] })
        { c with waitOn := pre ++ [⟨m, code, false⟩] } = { c with
          status := c.status ||| 64, waitFrom := some (c.waitFrom.getD s.now), waitCode := code
          waitOn := pre' ++ [⟨m, code, false⟩] } := by
      refine ⟨pre', ?_⟩
      rw [hlook, Coll.waitFor, if_neg hp]
      rfl
    obtain ⟨d, hd, pre'', rfl⟩ := State.collOf_review (P := fun d => ∃ pre', d = { c with
        status := c.status ||| 64, waitFrom := some (c.waitFrom.getD s.now), waitCode := code
        waitOn := pre' ++ [⟨m, code, false⟩] }) hset hfirst (by
      rintro cs _ ⟨q, rfl⟩
      obtain ⟨q', hq⟩ := State.reviewColl_of_word
        (s := { s.setColl { c with waitOn := pre ++ [⟨m, code, false⟩] } with colls := cs })
        (c := { c with
          status := c.status ||| 64, waitFrom := some (c.waitFrom.getD s.now), waitCode := code
          waitOn := q ++ [⟨m, code, false⟩] }) hend hrun' rfl hm hneeds hreach hown
      refine ⟨q', hq.trans ?_⟩
      rw [Coll.waitFor, if_neg hp]
      simp [Coll.setStatus, stWaited])
    exact ⟨_, _, hexec, State.units_review _, hd, fun h => absurd h hp, fun _ => ⟨hend, rfl, rfl, rfl⟩⟩

/-- The outcome of a member that the command needs ends it (R345, R346, R499). -/
theorem exec_peerStatusReply_closed {m code : Nat} (hu : u < 512) (hc : s.collOf u id = some c) (hend : c.ended = none)
    (hrun : s.mastersRun u = true) (hw : s.fabricWaits = false) (hm : m < c.nmem) (hmod : c.modOf m ≠ s.modnum)
    (hneeds : c.needs m = true) (h0 : code ≠ 0) :
    ∃ t d, exec (.peerStatusReply u id ⟨m, code, true⟩) s = .next t ∧ t.units = s.units ∧ t.collOf u id = some d ∧
      d.ended = some (if (code = 3 ∨ code = 4) ∧ 128 ≤ c.status then code else 0x15) := by
  obtain ⟨hcu, hcs⟩ := State.collOf_keys hc
  have hexec := exec_peerStatusReply_of_needed (code := code) true hu hc hend hrun hw hm hmod
  rw [if_pos rfl, if_pos ⟨h0, hneeds⟩] at hexec
  have hset := State.collOf_setColl hc (d := { c.follow code with barred := decide (0x10 ≤ code ∧ code ≤ 0x15) }) hcu hcs
  exact ⟨_, _, hexec, State.units_review _, State.collOf_review_ended hset rfl, rfl⟩

/-- Waits that exceed PATIENCE end a command with the last reply (R345). -/
theorem exec_patienceExpiry_due {t0 : Nat} (hu : u < 512) (hc : s.collOf u id = some c) (hend : c.ended = none)
    (hrun : s.mastersRun u = true) (hf : c.waitFrom = some t0) (hp : us 1000 * recPatience c.rcd < c.waited + (s.now - t0)) :
    ∃ t, exec (.patienceExpiry u id) s = .next t ∧ t.units = s.units ∧
      t.collOf u id = some { c with ended := some c.waitCode } := by
  obtain ⟨hcu, hcs⟩ := State.collOf_keys hc
  have hexec : exec (.patienceExpiry u id) s = .next (s.setColl { c with ended := some c.waitCode }).review := by
    change execPatienceExpiry u id s = _
    unfold execPatienceExpiry
    rw [if_neg (by omega), hc]
    dsimp only
    rw [hf]
    dsimp only
    rw [if_neg (by simp [hend, hrun]; exact hp)]
  exact ⟨_, hexec, State.units_review _, State.collOf_review_ended (State.collOf_setColl hc hcu hcs) rfl⟩

/-! ### Credits, requests and reports -/

theorem State.collFor_of_isFor {p : Peer} (hc : s.collOf u id = some c) (hp : c.isFor p = true) : s.collFor u id p = some c := by
  rw [State.collFor, hc, Option.filter_some, if_pos hp]

theorem State.masterDark_of_run (h : s.mastersRun u = true) : s.masterDark u = false := by
  simp only [State.mastersRun, Bool.and_eq_true, Bool.not_eq_true'] at h
  exact h.1.1

theorem State.creditGiven_of_away {m : Nat} (h : c.modOf m ≠ s.modnum) : s.creditGiven c m = true := by
  simp [State.creditGiven, h]

/-- The next chunk goes out against a credit. -/
theorem State.sendNext_of_next {m t : Nat} {bs : List Byte} {cr : Tbl Nat} (ws : List PeerWord) (hn : c.nextFor m = some (t, bs))
    (hcr : tget 0 cr m ≠ 0) (hway : s.chunkWay c m t = true) : s.sendNext { c with credits := cr, waitOn := ws } m =
      (s.send (.chunk (c.modOf m) c.group c.step c.member m t (c.landing t) bs)).setColl
        { c with credits := tmod 0 cr m (· - 1), waitOn := ws, sent := c.sent ++ [(m, t)] } := by
  have hn' : ({ c with credits := cr, waitOn := ws } : Coll).nextFor m = some (t, bs) := hn
  have hway' : s.chunkWay { c with credits := cr, waitOn := ws } m t = true := hway
  unfold State.sendNext
  rw [hn']
  dsimp only
  rw [if_neg (by simp [hcr, hway'])]
  rfl

/-- A credit that finds the comm master at rest is kept and answered (R346, R428). -/
theorem exec_credit_dark {m : Nat} {p : Peer} (hu : u < 512) (hc : s.collOf u id = some c) (hw : s.fabricWaits = false)
    (hd : s.masterDark u = true) (hp : c.isFor p = true) (hpm : p.member = m) (hend : c.ended = none) (hm : m < c.nmem)
    (hmod : c.modOf m ≠ s.modnum) :
    ∃ d, exec (.credit u id p) s = .next ((s.send (.status p.mod p.group p.step (if s.noon then 4 else 3) false)).setColl d) ∧
      tget 0 d.credits m = tget 0 c.credits m + 1 ∧ (∀ k, k ≠ m → tget 0 d.credits k = tget 0 c.credits k) ∧
      { d with credits := c.credits } = c := by
  subst hpm
  refine ⟨{ c with credits := tmod 0 c.credits p.member (· + 1) }, ?_, tget_tput_same _ _ _ _,
    fun k hk => tget_tput_ne _ _ _ _ hk _, rfl⟩
  change execCredit u id p s = _
  unfold execCredit
  rw [if_neg (by omega), if_neg (by simp [hw]), State.collFor_of_isFor hc hp]
  dsimp only
  split
  · next e he => cases hend.symm.trans he
  · rw [if_neg (by simp [Nat.not_le.2 hm, State.creditGiven_of_away hmod]), if_pos hd]
    rfl

/-- A credit moves the next chunk to the receiver (R332). -/
theorem exec_credit_sends {m t : Nat} {p : Peer} {bs : List Byte} (hu : u < 512) (hc : s.collOf u id = some c)
    (hrun : s.mastersRun u = true) (hw : s.fabricWaits = false) (hp : c.isFor p = true) (hpm : p.member = m)
    (hend : c.ended = none) (hm : m < c.nmem) (hmod : c.modOf m ≠ s.modnum) (hn : c.nextFor m = some (t, bs))
    (hway : s.chunkWay c m t = true) :
    ∃ d, exec (.credit u id p) s =
        .next ((s.send (.chunk (c.modOf m) c.group c.step c.member m t (c.landing t) bs)).setColl d).review ∧
      d.sent = c.sent ++ [(m, t)] ∧ (∀ k, tget 0 d.credits k = tget 0 c.credits k) ∧
      { d with sent := c.sent, credits := c.credits, waitOn := c.waitOn } = c := by
  subst hpm
  have hcredit : tget 0 (tmod 0 c.credits p.member (· + 1)) p.member = tget 0 c.credits p.member + 1 := tget_tput_same _ _ _ _
  refine ⟨{ c with
    waitOn := (c.heard p.member).waitOn, credits := tmod 0 (tmod 0 c.credits p.member (· + 1)) p.member (· - 1), sent := c.sent ++ [(p.member, t)] }, ?_, rfl,
    fun k => ?_, rfl⟩
  · change execCredit u id p s = _
    unfold execCredit
    rw [if_neg (by omega), if_neg (by simp [hw]), State.collFor_of_isFor hc hp]
    dsimp only
    split
    · next e he => cases hend.symm.trans he
    · rw [if_neg (by simp [Nat.not_le.2 hm, State.creditGiven_of_away hmod]), if_neg (by simp [State.masterDark_of_run hrun]),
        if_neg (by simp [hrun])]
      exact congrArg (fun v : State => Host.Outcome.next v.review)
        (State.sendNext_of_next (c.heard p.member).waitOn hn (by rw [hcredit]; omega) hway)
  · by_cases hk : k = p.member
    · subst hk
      rw [tmod, tget_tput_same, hcredit, Nat.add_sub_cancel]
    · rw [tmod, tget_tput_ne _ _ _ _ hk, tmod, tget_tput_ne _ _ _ _ hk]

/-- A chunk that was sent is sent again from the kept copy (R333). -/
theorem exec_chunkRequest_sent {m t : Nat} {p : Peer} (hu : u < 512) (hc : s.collOf u id = some c)
    (hrun : s.mastersRun u = true) (hw : s.fabricWaits = false) (hp : c.isFor p = true) (hpm : p.member = m)
    (hend : c.ended = none) (hsent : (m, t) ∈ c.sent) (hway : s.chunkWay c m t = true) :
    exec (.chunkRequest u id p ⟨t, false⟩) s =
      .next (s.send (.chunk (c.modOf m) c.group c.step c.member m t (c.landing t) (c.keptChunk m t))) := by
  subst hpm
  change execChunkRequest u id p ⟨t, false⟩ s = _
  unfold execChunkRequest
  rw [if_neg (by omega), if_neg (by simp [hw]), State.collFor_of_isFor hc hp]
  dsimp only
  split
  · next e he => cases hend.symm.trans he
  · rw [if_neg (by simp), if_neg (by simp [State.masterDark_of_run hrun]), if_neg (by simp [hrun]), if_pos (by simpa using hsent),
      if_neg (by simp [hway])]

/-- A request for the next chunk acts as a credit (R346). -/
theorem exec_chunkRequest_next {m t : Nat} {p : Peer} {bs : List Byte} (hu : u < 512) (hc : s.collOf u id = some c)
    (hrun : s.mastersRun u = true) (hw : s.fabricWaits = false) (hp : c.isFor p = true) (hpm : p.member = m)
    (hend : c.ended = none) (hm : m < c.nmem) (hmod : c.modOf m ≠ s.modnum) (hn : c.nextFor m = some (t, bs))
    (hsent : (m, t) ∉ c.sent) (hway : s.chunkWay c m t = true) :
    ∃ d, exec (.chunkRequest u id p ⟨t, false⟩) s =
        .next ((s.send (.chunk (c.modOf m) c.group c.step c.member m t (c.landing t) bs)).setColl d).review ∧
      { d with credits := c.credits, waitOn := c.waitOn } = { c with sent := c.sent ++ [(m, t)] } := by
  subst hpm
  refine ⟨{ c with
    waitOn := (c.heard p.member).waitOn, credits := tmod 0 (tmod 0 c.credits p.member (max 1)) p.member (· - 1), sent := c.sent ++ [(p.member, t)] }, ?_, rfl⟩
  change execChunkRequest u id p ⟨t, false⟩ s = _
  unfold execChunkRequest
  rw [if_neg (by omega), if_neg (by simp [hw]), State.collFor_of_isFor hc hp]
  dsimp only
  split
  · next e he => cases hend.symm.trans he
  · rw [if_neg (by simp), if_neg (by simp [State.masterDark_of_run hrun]), if_neg (by simp [hrun]), if_neg (by simpa using hsent),
      if_neg (by simp [Nat.not_le.2 hm, State.creditGiven_of_away hmod, hn])]
    exact congrArg (fun v : State => Host.Outcome.next v.review)
      (State.sendNext_of_next (c.heard p.member).waitOn hn (by rw [tmod, tget_tput_same]; omega) hway)

/-- A command that has ended answers a request with its outcome (R345, R499). -/
theorem exec_chunkRequest_ended {e t : Nat} {p : Peer} (hu : u < 512) (hc : s.collOf u id = some c) (hw : s.fabricWaits = false)
    (hp : c.isFor p = true) (he : c.ended = some e) :
    exec (.chunkRequest u id p ⟨t, false⟩) s = .next (s.send (.status p.mod p.group p.step e true)) := by
  change execChunkRequest u id p ⟨t, false⟩ s = _
  unfold execChunkRequest
  rw [if_neg (by omega), if_neg (by simp [hw]), State.collFor_of_isFor hc hp]
  dsimp only
  simp only [he]
  rfl

/-- A chunk that the member itself has lost is asked for again (R333). -/
theorem exec_chunkRequest_mine {m t : Nat} {p : Peer} {h : Chunk} (hu : u < 512) (hc : s.collOf u id = some c)
    (hrun : s.mastersRun u = true) (hw : s.fabricWaits = false) (hp : c.isFor p = true) (hpm : p.member = m)
    (hend : c.ended = none) (hred : c.reduces = false) (hh : c.held.find? (fun h => h.sender == m && h.t == t) = some h) :
    exec (.chunkRequest u id p ⟨t, true⟩) s =
      .next ((s.send (.request (c.modOf m) c.group c.step m c.member t)).setColl { c with
        inSlots := c.inSlots.filter (· != h), inPool := c.inPool.filter (· != h)
        granted := tput c.granted m (tget 0 c.granted m + 1) }) := by
  subst hpm
  obtain ⟨hsender, ht⟩ : h.sender = p.member ∧ h.t = t := by simpa using List.find?_some hh
  change execChunkRequest u id p ⟨t, true⟩ s = _
  unfold execChunkRequest
  rw [if_neg (by omega), if_neg (by simp [hw]), State.collFor_of_isFor hc hp]
  dsimp only
  split
  · next e he => cases hend.symm.trans he
  · rw [if_pos rfl, hh]
    dsimp only
    rw [if_pos hrun, State.reclaim, hred, ← hsender, ← ht]
    rfl

/-- A report that a chunk is applied is recorded; the kept copy goes once every receiver has reported (R333). -/
theorem exec_chunkApplied_recorded {m t : Nat} (hu : u < 512) (hc : s.collOf u id = some c)
    (hrun : s.mastersRun u = true) (hw : s.fabricWaits = false) (hmod : c.modOf m ≠ s.modnum) (hsent : (m, t) ∈ c.sent)
    (hack : (m, t) ∉ c.acks) :
    let all := (recTargets c.rcd c.member t).all (fun k => (c.acks ++ [(m, t)]).contains (k, t))
    exec (.chunkApplied u id m t) s = .next (s.setColl { c with
      waitOn := c.waitOn.filter (fun w => w.member != m || w.own)
      acks := c.acks ++ [(m, t)]
      kept := if !c.repart && all then tdel c.kept t else c.kept }).review := by
  intro all
  change execChunkApplied u id m t s = _
  unfold execChunkApplied
  rw [if_neg (by omega), hc]
  dsimp only
  rw [if_neg (by simp [hrun, hw, hsent, hack, hmod])]
  refine congrArg (fun d : Coll => Host.Outcome.next (s.setColl d).review) ?_
  by_cases hb : (!c.repart && all) = true
  · refine (if_pos hb).trans ?_
    rw [if_pos hb]
    rfl
  · refine (if_neg hb).trans ?_
    rw [if_neg hb]
    rfl

end

/-! ### Dispatch -/

/-- The module once a comm master has received a command of a unit. -/
def State.received (s : State) (u : Nat) (q : CCmd) (c : Coll) : State :=
  { (s.modUnit u (fun x => x.modQueued q.serial (fun d => { d with phase := .moved }))) with colls := s.colls ++ [c] }

/-- A collective is the one that a command of a unit becomes. -/
def Coll.comesOf (c : Coll) (u : Nat) (q : CCmd) : Prop := c.unit = u ∧ c.serial = q.serial ∧ c.tag = q.tag

theorem State.comesOf_readRecord (s : State) (u : Nat) (x : Unit) (q : CCmd) : (s.readRecord u x q).1.comesOf u q := ⟨rfl, rfl, rfl⟩

/-- What a comm master counts and keeps of translations as it receives a command (R399, R400). -/
theorem State.countedAndFilled (s : State) (keys : List Nat) (u : Nat) (xs : List Xlat) :
    ((keys.foldl State.busyUp s).fillWalker u xs).colls = s.colls ∧
      ∀ v, (((keys.foldl State.busyUp s).fillWalker u xs).unit v).regs = (s.unit v).regs ∧
        (((keys.foldl State.busyUp s).fillWalker u xs).unit v).q0 = (s.unit v).q0 := by
  have hup : ∀ (l : List Nat) (s : State), (l.foldl State.busyUp s).colls = s.colls ∧ (l.foldl State.busyUp s).units = s.units := by
    intro l
    induction l with
    | nil => exact fun _ => ⟨rfl, rfl⟩
    | cons k l ih => exact fun s => ih (s.busyUp k)
  obtain ⟨hcolls, hunits⟩ := hup keys s
  generalize keys.foldl State.busyUp s = t at hcolls hunits
  refine ⟨hcolls, fun v => ?_⟩
  have hv : t.unit v = s.unit v := by rw [State.unit, hunits, State.unit]
  unfold State.fillWalker
  rw [State.unit_modUnit]
  split
  · next h => subst h; rw [← hv]; exact ⟨rfl, rfl⟩
  · rw [hv]; exact ⟨rfl, rfl⟩

/-- The credits that a receiver gives change what it has given, and what goes out. -/
theorem State.grantFrom_spec : ∀ (fs : List Nat) (s : State) (c : Coll), (s.grantFrom c fs).1.units = s.units ∧
    (s.grantFrom c fs).1.colls = s.colls ∧ ∃ g r, (s.grantFrom c fs).2 = { c with granted := g, turned := r }
  | [], _, c => ⟨rfl, rfl, c.granted, c.turned, rfl⟩
  | f :: fs, s, c => by
    unfold State.grantFrom
    split
    · split
      · obtain ⟨hu, hc, g, r, h⟩ := State.grantFrom_spec fs (s.send (.credit (c.modOf f) c.group c.step f c.member))
          { c with granted := tput c.granted f 1 }
        exact ⟨hu.trans (s.send_units _), hc.trans (s.send_colls _), g, r, h⟩
      · next p _ =>
        obtain ⟨hu, hc, g, r, h⟩ := State.grantFrom_spec fs (s.send (.request (c.modOf f) c.group c.step f c.member p.2))
          { c with granted := tput c.granted f 1, turned := c.turned.erase p }
        exact ⟨hu.trans (s.send_units _), hc.trans (s.send_colls _), g, r, h⟩
    · exact State.grantFrom_spec fs s c

/-- `t` is `s` with a command of a unit received as a collective. -/
structure State.Receives (s : State) (u : Nat) (q : CCmd) (t : State) : Prop where
  coll : ∃ c ∈ t.colls, c.comesOf u q
  regs : ∀ v, (t.unit v).regs = (s.unit v).regs
  queue : ∀ v, (t.unit v).q0 =
    if v = u then ((s.unit u).modQueued q.serial (fun d => { d with phase := .moved })).q0 else (s.unit v).q0

theorem State.Receives.received {s t : State} {u : Nat} {q : CCmd} {c : Coll} (hc : c.comesOf u q)
    (ht : ∀ v, (t.unit v).regs = (s.unit v).regs ∧ (t.unit v).q0 = (s.unit v).q0) : s.Receives u q (t.received u q c) := by
  have hunit (v : Nat) : (t.received u q c).unit v = if v = u then
      (t.unit u).modQueued q.serial (fun d => { d with phase := .moved }) else t.unit v :=
    t.unit_modUnit u v (fun x => x.modQueued q.serial (fun d => { d with phase := .moved }))
  refine ⟨⟨c, List.mem_append_right _ (List.mem_singleton.2 rfl), hc⟩, fun v => ?_, fun v => ?_⟩
  · rw [hunit]
    split
    · next h => subst h; exact (ht v).1
    · exact (ht v).1
  · rw [hunit]
    split
    · simp only [Unit.modQueued, (ht u).2]
    · exact (ht v).2

theorem State.Receives.giveCredits {s t : State} {u : Nat} {q : CCmd} {d : Coll} (h : s.Receives u q t) (hd : d.comesOf u q) :
    s.Receives u q (t.giveCredits d) := by
  obtain ⟨⟨c, hc, hcu, hcs, hct⟩, hregs, hqueue⟩ := h
  obtain ⟨hunits, hcolls, g, r, hgrant⟩ := State.grantFrom_spec (List.range d.nmem) t d
  obtain ⟨hdu, hds, hdt⟩ := hd
  have hunit (v : Nat) : (t.giveCredits d).unit v = t.unit v := by
    unfold State.giveCredits
    rw [State.unit, State.setColl, hunits, State.unit]
  refine ⟨⟨{ d with granted := g, turned := r }, ?_, hdu, hds, hdt⟩, fun v => by rw [hunit]; exact hregs v,
    fun v => by rw [hunit]; exact hqueue v⟩
  unfold State.giveCredits State.setColl
  dsimp only
  rw [hgrant, hcolls]
  exact List.mem_map.2 ⟨c, hc, if_pos ⟨hcu.trans hdu.symm, hcs.trans hds.symm⟩⟩

/-- The collective of a command that has just been received. -/
theorem State.comesOf_of_received {s t : State} {u : Nat} {q : CCmd} {c d : Coll}
    (hd : (t.received u q c).collOf u q.serial = some d) (hn : s.collOf u q.serial = none)
    (hcolls : t.colls = s.colls) (hc : c.comesOf u q) : d.comesOf u q := by
  obtain ⟨hu, hs, -⟩ := id hc
  have hfind : (s.colls ++ [c]).find? (fun c => c.unit == u && c.serial == q.serial) = some d := hcolls ▸ hd
  rw [List.find?_append, show s.colls.find? (fun c => c.unit == u && c.serial == q.serial) = none from hn] at hfind
  obtain rfl : c = d := by simpa [hu, hs] using hfind
  exact hc

theorem State.startColl_receives {s t : State} {u : Nat} {x : Unit} {q : CCmd} {keyless : Bool}
    (hn : s.collOf u q.serial = none) (h : s.startColl u x q keyless = some t) : s.Receives u q t := by
  have hkeys := s.comesOf_readRecord u x q
  unfold State.startColl at h
  generalize s.readRecord u x q = p at h hkeys
  obtain ⟨c, m⟩ := p
  have hstay (d : Coll) (hd : d.comesOf u q) : s.Receives u q (s.received u q d) := .received hd fun v => ⟨rfl, rfl⟩
  have hfilled (keys : List Nat) (xs : List Xlat) (d : Coll) (hd : d.comesOf u q) :
      s.Receives u q (((keys.foldl State.busyUp s).fillWalker u xs).received u q d) :=
    .received hd (s.countedAndFilled keys u xs).2
  dsimp -zeta only at h
  extract_lets a lin bytes look readAt take r tab reparts own needs xs word data keys s' c' split_ k edge at h
  split at h
  · cases h
    exact hstay _ hkeys
  · split at h
    · cases h
    · split at h
      · cases h
        exact hfilled _ _ _ hkeys
      · split at h
        · cases h
          exact hfilled _ _ _ hkeys
        · split at h
          · cases h
            exact hfilled _ _ _ hkeys
          · obtain ⟨t', htake, rfl⟩ := Option.map_eq_some_iff.1 h
            cases htake
            split
            · exact hfilled _ _ _ hkeys
            · next d hd =>
              have hcomes : d.comesOf u q := State.comesOf_of_received hd hn (s.countedAndFilled keys u _).1 hkeys
              split
              · exact hfilled _ _ _ hkeys
              · refine State.Receives.giveCredits ?_ hcomes
                exact hfilled _ _ _ hkeys

/-- A record that has no translation is received with the outcome RECORD_TRANSLATION (R328). -/
theorem State.startColl_of_dark {s : State} {u : Nat} {x : Unit} {q : CCmd} {keyless : Bool}
    (h : rangeVia (s.walkerXlat u x.card.aspace) (x.card.coll.getD (field q.fields.2.flags 0 2).toNat 0) 128 false = none) :
    s.startColl u x q keyless = some (s.received u q { (s.readRecord u x q).1 with noWord := true, ended := some 0x13 }) := by
  have hspace : (s.readRecord u x q).1.aspace = x.card.aspace := rfl
  unfold State.startColl
  generalize s.readRecord u x q = p at hspace
  obtain ⟨c, m⟩ := p
  rw [← hspace] at h
  dsimp only
  rw [h]
  rfl

theorem exec_collDispatch_due {u id : Nat} {keyless : Bool} {q : CCmd} {s : State} (hu : u < 512)
    (hq : ((s.unit u).q0 ++ (s.unit u).q1).find?
      (fun c => c.serial == id && (c.fields.1 == 0x0A || c.fields.1 == 0x0B)) = some q)
    (hphase : q.phase = .queued) (hclear : s.copyClear u q = true) (hfence : (s.unit u).fenced id = false)
    (hmasters : s.mastersRun u = true) (hrun : (s.unit u).run = .running) :
    exec (.collDispatch u id keyless) s =
      .next (((s.startColl u (s.unit u) q keyless).map State.review).getD s) := by
  change execCollDispatch u id keyless s = _
  unfold execCollDispatch
  dsimp only
  rw [if_neg (Nat.not_le.2 hu), hq]
  dsimp only
  rw [if_neg (by simp [hphase, hclear, hfence, hmasters, hrun])]

/-- A collective is received by the comm master of its cluster (R265, R327, R328). -/
theorem exec_collDispatch_receives {u id : Nat} {keyless : Bool} {q : CCmd} {s : State} (hu : u < 512)
    (hq : ((s.unit u).q0 ++ (s.unit u).q1).find?
      (fun c => c.serial == id && (c.fields.1 == 0x0A || c.fields.1 == 0x0B)) = some q)
    (hphase : q.phase = .queued) (hclear : s.copyClear u q = true) (hfence : (s.unit u).fenced id = false)
    (hmasters : s.mastersRun u = true) (hrun : (s.unit u).run = .running) :
    let a := (s.unit u).card.coll.getD (field q.fields.2.flags 0 2).toNat 0
    (rangeVia (s.walkerXlat u (s.unit u).card.aspace) a 128 false = none →
      ∃ c, c.unit = u ∧ c.serial = id ∧ c.tag = q.tag ∧ c.ended = some 0x13 ∧ c.noWord = true ∧
        exec (.collDispatch u id keyless) s = .next (State.review
          { (s.modUnit u (fun x => x.modQueued id (fun d => { d with phase := .moved }))) with colls := s.colls ++ [c] })) ∧
    (∀ t, s.collOf u id = none → s.startColl u (s.unit u) q keyless = some t →
      exec (.collDispatch u id keyless) s = .next t.review ∧ (∃ c ∈ t.colls, c.unit = u ∧ c.serial = id ∧ c.tag = q.tag) ∧
      ∀ v, (t.unit v).regs = (s.unit v).regs ∧
        (t.unit v).q0 = (if v = u then ((s.unit u).modQueued id (fun d => { d with phase := .moved })).q0 else (s.unit v).q0)) := by
  have hexec := exec_collDispatch_due (keyless := keyless) hu hq hphase hclear hfence hmasters hrun
  have hserial : q.serial = id := by
    have h := List.find?_some hq
    simp only [Bool.and_eq_true, beq_iff_eq] at h
    exact h.1
  subst hserial
  refine ⟨fun hdark => ?_, fun t hn ht => ?_⟩
  · obtain ⟨hcu, hcs, hct⟩ := s.comesOf_readRecord u (s.unit u) q
    refine ⟨{ (s.readRecord u (s.unit u) q).1 with noWord := true, ended := some 0x13 }, hcu, hcs, hct, rfl, rfl, ?_⟩
    rw [hexec, State.startColl_of_dark hdark]
    rfl
  · obtain ⟨hcoll, hregs, hqueue⟩ := State.startColl_receives hn ht
    rw [ht] at hexec
    exact ⟨hexec, hcoll, fun v => ⟨hregs v, hqueue v⟩⟩

/-- Settles O36: the comm master's operations, each by the lemma of its case. -/
theorem collectivesSend : Obligations.CollectivesSend := by
  unfold Obligations.CollectivesSend
  refine ⟨⟨?_, ?_⟩, ?_, ?_⟩
  · intro u id keyless q s hu hq hphase hclear hfence hmasters hrun
    exact exec_collDispatch_receives hu hq hphase hclear hfence hmasters hrun
  · intro u id c s hu hc hend hrun hw
    refine ⟨fun m code hm hmod hneeds hreach => ⟨fun hcode hown => ?_, fun h0 => ?_⟩, fun t0 hf hp => ?_⟩
    · exact exec_peerStatusReply_waits hu hc hend hrun hw hm hmod hneeds hreach hcode hown
    · exact exec_peerStatusReply_closed hu hc hend hrun hw hm hmod hneeds h0
    · exact exec_patienceExpiry_due hu hc hend hrun hf hp
  · intro u id m p c s hu hc hw hdark hp hpm hend hm hmod
    exact exec_credit_dark hu hc hw hdark hp hpm hend hm hmod
  · intro u id m t p c s hu hc hrun hw hp hpm
    refine ⟨?_, ?_, ?_, ?_, ?_, ?_⟩
    · exact fun bs hend hm hmod hn hway => exec_credit_sends hu hc hrun hw hp hpm hend hm hmod hn hway
    · exact fun hend hsent hway => exec_chunkRequest_sent hu hc hrun hw hp hpm hend hsent hway
    · exact fun bs hend hm hmod hn hsent hway => exec_chunkRequest_next hu hc hrun hw hp hpm hend hm hmod hn hsent hway
    · exact fun e he => exec_chunkRequest_ended hu hc hw hp he
    · exact fun h hend hred hh => exec_chunkRequest_mine hu hc hrun hw hp hpm hend hred hh
    · exact fun hmod hsent hack => exec_chunkApplied_recorded hu hc hrun hw hmod hsent hack

end Sys2Proof.Machine
end


/-! ## Copy commands that translate and start

How a pre-translation ends (R248, R249), what a WALK leaves alone (R269), and how the pieces of a copy between tile buffers are
read and land as it starts (R254); then the statement of O34. -/

section
namespace Sys2Proof.Machine

/-! ### Pre-translation -/

/-- What a pre-translation leaves of the module and of its command as it goes from unit to unit. -/
structure State.Translates (s : State) (c : CCmd) (t : State) (d : CCmd) (u : Nat) : Prop where
  now : t.now = s.now
  unit : ∃ l0 l1, t.unit u = { s.unit u with tlb0 := l0, tlb1 := l1 }
  command : ∃ xs ks, d = { c with xlat := xs, counted := ks }

theorem State.Translates.refl (s : State) (c : CCmd) (u : Nat) : s.Translates c s c u :=
  ⟨rfl, ⟨_, _, rfl⟩, _, _, rfl⟩

theorem State.Translates.trans {s t v : State} {c d f : CCmd} {u : Nat} (h : s.Translates c t d u) (k : t.Translates d v f u) :
    s.Translates c v f u := by
  obtain ⟨hnow, ⟨_, _, hu⟩, _, _, rfl⟩ := h
  obtain ⟨know, ⟨l0, l1, ku⟩, _, _, rfl⟩ := k
  exact ⟨know.trans hnow, ⟨l0, l1, by rw [ku, hu]⟩, _, _, rfl⟩

/-- A step that leaves the units alone. -/
theorem State.Translates.of_units {s t : State} (c : CCmd) (u : Nat) (hnow : t.now = s.now) (hu : t.units = s.units) :
    s.Translates c t c u :=
  ⟨hnow, ⟨_, _, by rw [State.unit, hu]; rfl⟩, _, _, rfl⟩

theorem State.Translates.fill (s : State) (c : CCmd) (u : Nat) (e : Engine) (x : Xlat) :
    s.Translates c (s.modUnit u (fun y => y.fillTlb e x)) c u := by
  refine ⟨rfl, ?_, _, _, rfl⟩
  rw [State.unit_modUnit, if_pos rfl]
  cases e <;> exact ⟨_, _, rfl⟩

theorem State.Translates.ite {s t v : State} {c : CCmd} {u : Nat} {p : Prop} [Decidable p] (h : s.Translates c t c u)
    (k : s.Translates c v c u) : s.Translates c (if p then t else v) c u := by
  split
  · exact h
  · exact k

theorem State.translates_translateSide (u : Nat) (e : Engine) (sd : Side) : ∀ (ks : List Nat) (s : State) (c : CCmd)
    {r : State × CCmd × PreEnd}, s.translateSide u e c sd ks = r → s.Translates c r.1 r.2.1 u
  | [], s, c, _, h => h ▸ .refl s c u
  | k :: ks, s, c, r, h => by
    unfold State.translateSide at h
    extract_lets x seg a known hit t at h
    clear_value t
    split at h
    · exact h ▸ .refl s c u
    · split at h
      · exact h ▸ .refl s c u
      · extract_lets l held count s' s'' s3 c' at h
        split at h
        · exact h ▸ .refl s c u
        · have hcount : s.Translates c s' c u := by
            refine .ite ?_ (.refl s c u)
            split
            · exact .of_units c u rfl rfl
            · exact .refl s c u
          have hfill : s'.Translates c s'' c u := .ite (.refl s' c u) (.fill s' c u e _)
          have hsend : s''.Translates c s3 c u := .ite (.of_units c u (s''.send_now _) (s''.send_units _)) (.refl s'' c u)
          have hcmd : s3.Translates c s3 c' u := ⟨rfl, ⟨_, _, rfl⟩, _, _, rfl⟩
          exact (((hcount.trans hfill).trans hsend).trans hcmd).trans (State.translates_translateSide u e sd ks s3 c' h)

theorem State.translates_translateAll (u : Nat) (e : Engine) : ∀ (sds : List Side) (s : State) (c : CCmd),
    s.Translates c (s.translateAll u e c sds).1 (s.translateAll u e c sds).2.1 u
  | [], s, c => .refl s c u
  | sd :: sds, s, c => by
    have hside := State.translates_translateSide u e sd (touched 65536 sd.ranges) s c rfl
    unfold State.translateAll
    split
    · exact State.translates_translateAll u e sds s c
    · dsimp only
      split
      · exact hside.trans (State.translates_translateAll u e sds _ _)
      · exact hside

/-- Operands in tile buffers have nothing to translate (R248). -/
theorem State.translateAll_of_buffers (s : State) (u : Nat) (e : Engine) (c : CCmd) : ∀ {sds : List Side},
    (∀ sd ∈ sds, sd.operand.code < 4) → s.translateAll u e c sds = (s, c, .done)
  | [], _ => rfl
  | sd :: sds, h => by
    rw [State.translateAll, if_pos (h sd List.mem_cons_self)]
    exact State.translateAll_of_buffers s u e c fun sd hsd => h sd (List.mem_cons_of_mem _ hsd)

/-- The trap with which a pre-translation rolls its member back (R248, R249). -/
def CCmd.rollbackPend (c : CCmd) (cause : Cause) (a now : Nat) : Pend :=
  { cause := cause, resume := none, val := BitVec.ofNat 64 a, rollback := true, handler := c.handler, tag := c.tag, arose := now }

/-- A command of task mode that a condition refuses stays queued, and its trap is pending (R248, R249). -/
theorem State.preFault_spec {s : State} {u : Nat} (e : Engine) {c : CCmd} (cause : Cause) (a : Nat) (hop : c.fields.1 ≠ 0x08)
    (hh : c.handler = false) (hrun : (s.unit u).run = .running) :
    let y := (s.preFault u e c cause a).unit u
    y.run = .running ∧ y.pend = (s.unit u).pend ++ [c.rollbackPend cause a s.now] ∧ y.regs = (s.unit u).regs ∧
      y.tags = (s.unit u).tags := by
  intro y
  let x := (s.unit u).modCmd e c.serial (fun _ => { c with counted := [], xlat := [], index := [], refused := true })
  obtain ⟨hregs, hruns, htags, hpend, -, -⟩ := (s.unit u).setQueue_keeps e (((s.unit u).queueOf e).map (fun q =>
    if q.serial = c.serial then { c with counted := [], xlat := [], index := [], refused := true } else q))
  have hxrun : x.run = .running := hruns.trans hrun
  have hy : y = { x with pend := x.pend ++ [c.rollbackPend cause a s.now] } := by
    have hpost : x.postPend (c.rollbackPend cause a s.now) = { x with pend := x.pend ++ [c.rollbackPend cause a s.now] } := by
      rw [Unit.postPend_of_running hxrun]
      simp [CCmd.rollbackPend]
    change (s.preFault u e c cause a).unit u = _
    unfold State.preFault
    rw [if_neg hop]
    dsimp only
    rw [State.unit_modUnit, if_pos rfl, State.unit_busyDown, State.now_busyDown]
    change (if c.handler = true ∨ (x.postPend (c.rollbackPend cause a s.now)).run = .faulting then _ else
      x.postPend (c.rollbackPend cause a s.now)) = _
    rw [hpost, if_neg (by simp [hh, hxrun])]
  rw [hy]
  exact ⟨hxrun, congrArg (· ++ [c.rollbackPend cause a s.now]) hpend, hregs, htags⟩

/-! ### The event of a pre-translation -/

section
variable {u : Nat} {e : Engine} {c0 c : CCmd} {s : State}

/-- The event of a pre-translation whose operands are all known, by what translating them comes to. -/
theorem exec_copyPretranslation_due {r : State × CCmd × PreEnd} (hu : u < unitCount)
    (hq : ((s.unit u).queueOf e).find? (fun d => d.phase == .queued && !d.untranslated && !d.refused) = some c0)
    (hrun : (s.unit u).run = .running) (hpow : s.powered u = true) (hidx : s.readIndex u c0 = some c)
    (hfar : farSpaceEnd u c = .done) (hop : c.fields.1 ≠ 0x08) (hall : s.translateAll u e c (c.sides u) = r) :
    exec (.copyPretranslation u e) s =
      match (match r.2.2 with | .done => r.1.preChecks u r.2.1 | o => o) with
      | .done => .next (r.1.modUnit u (fun x => x.withCommand e r.2.1.serial { r.2.1 with phase := .translated }))
      | .waits => .next (r.1.modUnit u (fun x => x.withCommand e r.2.1.serial r.2.1))
      | .faults cause val => .next (r.1.preFault u e r.2.1 cause val) := by
  change execCopyPretranslation u e s = _
  unfold execCopyPretranslation
  rw [if_neg (Nat.not_le.2 hu)]
  dsimp only
  rw [hq]
  dsimp only
  rw [if_neg (by simp [Unit.engines_of_running hrun, hpow]), hidx]
  dsimp only
  rw [hfar, if_neg hop]
  dsimp only
  rw [hall]
  rfl

/-- A command whose operands all lie in tile buffers, and which no condition refuses, may start. -/
theorem exec_copyPretranslation_passes (hu : u < unitCount)
    (hq : ((s.unit u).queueOf e).find? (fun d => d.phase == .queued && !d.untranslated && !d.refused) = some c0)
    (hrun : (s.unit u).run = .running) (hpow : s.powered u = true) (hidx : s.readIndex u c0 = some c)
    (hfar : farSpaceEnd u c = .done) (hop : c.fields.1 ≠ 0x08) (hbuf : ∀ sd ∈ c.sides u, sd.operand.code < 4)
    (hchecks : s.preChecks u c = .done) :
    exec (.copyPretranslation u e) s =
      .next (s.modUnit u (fun x => x.withCommand e c.serial { c with phase := .translated })) := by
  rw [exec_copyPretranslation_due hu hq hrun hpow hidx hfar hop (State.translateAll_of_buffers s u e c hbuf)]
  dsimp only
  rw [hchecks]

/-- A command that a condition refuses leaves the trap that rolls its member back. -/
theorem exec_copyPretranslation_rollsBack {t : State} {d : CCmd} {cause : Cause} {a : Nat} (hu : u < unitCount)
    (hq : ((s.unit u).queueOf e).find? (fun d => d.phase == .queued && !d.untranslated && !d.refused) = some c0)
    (hrun : (s.unit u).run = .running) (hpow : s.powered u = true) (hidx : s.readIndex u c0 = some c)
    (hfar : farSpaceEnd u c = .done) (hop : c.fields.1 ≠ 0x08)
    (hall : s.translateAll u e c (c.sides u) = (t, d, .faults cause a)) (hh : d.handler = false) :
    ∃ t', exec (.copyPretranslation u e) s = .next t' ∧ (t'.unit u).run = .running ∧
      (t'.unit u).pend = (s.unit u).pend ++
        [{ cause := cause, resume := none, val := BitVec.ofNat 64 a, rollback := true, handler := false,
           tag := c.tag, arose := s.now }] ∧
      (t'.unit u).regs = (s.unit u).regs ∧ (t'.unit u).tags = (s.unit u).tags := by
  obtain ⟨hnow, ⟨l0, l1, hunit⟩, xs, ks, hd⟩ : s.Translates c t d u := by
    have h := State.translates_translateAll u e (c.sides u) s c
    rw [hall] at h
    exact h
  have hdop : d.fields.1 ≠ 0x08 := by rw [hd]; exact hop
  have htag : d.tag = c.tag := by rw [hd]
  obtain ⟨hr, hp, hregs, htags⟩ := State.preFault_spec e cause a hdop hh (by rw [hunit]; exact hrun : (t.unit u).run = .running)
  rw [hunit] at hp hregs htags
  rw [CCmd.rollbackPend, hh, htag, hnow] at hp
  refine ⟨t.preFault u e d cause a, ?_, hr, hp, hregs, htags⟩
  rw [exec_copyPretranslation_due hu hq hrun hpow hidx hfar hop hall]

end

/-! ### The walker -/

/-- The transfers of a WALK leave the units alone (R269). -/
theorem State.units_emitFor (s : State) (d : Coll) (ts : List Nat) : (s.emitFor d ts).units = s.units := by
  unfold State.emitFor
  split
  · rfl
  · refine List.foldlRecOn (motive := fun (t : State) => t.units = s.units) ts _ rfl fun t ht n _ => ?_
    refine List.foldlRecOn (motive := fun (t : State) => t.units = s.units) _ _ ht fun v hv m _ => ?_
    split
    · exact hv
    · split
      · exact hv
      · exact (v.send_units _).trans hv

/-- The walker changes one unit only, in which its command goes on. -/
theorem State.walkOn_units (s : State) (u : Nat) (e : Engine) (c : CCmd) (v : Nat) :
    (s.walkOn u e c).unit v = (s.putCmd u e c).unit v := by
  have hsame {t : State} (ht : t.units = s.units) : (t.putCmd u e c).unit v = (s.putCmd u e c).unit v := by
    rw [State.putCmd, State.putCmd, State.unit_modUnit, State.unit_modUnit, State.unit, State.unit, State.unit, ht]
    rfl
  refine hsame ?_
  refine List.foldlRecOn (motive := fun (t : State) => t.units = s.units) _ _ ?_ fun t ht d _ => ht
  exact List.foldlRecOn (motive := fun (t : State) => t.units = s.units) _ _ rfl fun t ht d _ => (t.units_emitFor d _).trans ht

/-! ### Commands in their queue -/

/-- The serials of an engine's commands. -/
def Unit.serials (x : Unit) (e : Engine) : List Nat := (x.queueOf e).map (·.serial)

theorem Unit.mem_serials_of_command {x : Unit} {e : Engine} {id : Nat} {c : CCmd} (h : x.command e id = some c) :
    id ∈ x.serials e :=
  List.mem_map.2 ⟨c, List.mem_of_find?_eq_some h, Unit.serial_of_command h⟩

theorem Unit.queueOf_setQueue (x : Unit) (e : Engine) (q : List CCmd) : (x.setQueue e q).queueOf e = q := by
  cases e <;> rfl

theorem Unit.queueOf_setLastSlot (x : Unit) (e f : Engine) (t : Option Nat) : (x.setLastSlot e t).queueOf f = x.queueOf f := by
  cases e <;> cases f <;> rfl

theorem Unit.serials_modCmd (x : Unit) (e : Engine) (c : CCmd) : (x.modCmd e c.serial (fun _ => c)).serials e = x.serials e := by
  rw [Unit.serials, Unit.modCmd, Unit.queueOf_setQueue, List.map_map, Unit.serials]
  refine List.map_congr_left fun d _ => ?_
  by_cases h : d.serial = c.serial <;> simp [h]

/-- A command that stands in the queue is found as it is put there. -/
theorem Unit.command_modCmd {x : Unit} {e : Engine} {c : CCmd} (h : c.serial ∈ x.serials e) :
    (x.modCmd e c.serial (fun _ => c)).command e c.serial = some c := by
  rw [Unit.command, Unit.modCmd, Unit.queueOf_setQueue, List.find?_map]
  obtain ⟨d, hd, hds⟩ := List.mem_map.1 h
  have hsome : ((x.queueOf e).find?
      ((fun d => d.serial == c.serial) ∘ fun d => if d.serial = c.serial then c else d)).isSome := by
    rw [List.find?_isSome]
    exact ⟨d, hd, by simp [hds]⟩
  obtain ⟨d, hd⟩ := Option.isSome_iff_exists.1 hsome
  have hser := List.find?_some hd
  rw [hd, Option.map_some]
  by_cases hds : d.serial = c.serial
  · rw [if_pos hds]
  · simp [hds] at hser

theorem State.command_putCmd {s : State} {u : Nat} {e : Engine} {c : CCmd} (h : c.serial ∈ (s.unit u).serials e) :
    ((s.putCmd u e c).unit u).command e c.serial = some c := by
  rw [State.putCmd, State.unit_modUnit, if_pos rfl]
  exact Unit.command_modCmd h

/-- A command without requests has none placed (R409). -/
theorem State.find_placeQueue (s : State) (u : Nat) (used : List (Nat × Nat)) {id : Nat} {c : CCmd} (hreqs : c.reqs = []) :
    ∀ (q : List CCmd) (last : Option Nat), q.find? (fun d => d.serial == id) = some c →
    (s.placeQueue u used last q).1.find? (fun d => d.serial == id) = some c
  | [], _, h => h
  | d :: q, last, h => by
    by_cases hd : d.serial = id
    · obtain rfl : d = c := by simpa [hd] using h
      have hsame : { d with reqs := (s.placeReqs u used [] last d.reqs).1 } = d := by rw [hreqs, State.placeReqs, ← hreqs]
      unfold State.placeQueue
      dsimp only
      rw [hsame]
      split <;> simp [hd]
    · have htail : q.find? (fun d => d.serial == id) = some c := by simpa [hd] using h
      unfold State.placeQueue
      dsimp only
      split
      · simpa [hd] using htail
      · have hrest := State.find_placeQueue s u used hreqs q (s.placeReqs u used [] last d.reqs).2 htail
        simpa [hd] using hrest

theorem State.command_placeEngine {s : State} {u : Nat} {e : Engine} {id : Nat} {c : CCmd}
    (h : (s.unit u).command e id = some c) (hreqs : c.reqs = []) : ((s.placeEngine u e).unit u).command e id = some c := by
  unfold State.placeEngine
  dsimp only
  rw [State.unit_setUnit, if_pos rfl, Unit.command, Unit.queueOf_setLastSlot, Unit.queueOf_setQueue]
  exact s.find_placeQueue u _ hreqs _ _ h

/-! ### Pieces between tile buffers -/

/-- A piece that goes raw from a tile buffer, or as a pattern, to a tile buffer, and has not landed. -/
structure Run.BetweenBuffers (r : Run) : Prop where
  fresh : r.wrote = false
  rawSrc : r.scs = 0
  rawDst : r.dcs = 0
  dst : ∃ v b, r.dst.place = .buf v b
  src : ∀ l, r.src = some l → ∃ v b, l.place = .buf v b
  lit : r.src = none → r.lit.length = r.len

/-- What a piece brings: the bytes of its source, or of its pattern. -/
def State.sourceBytes (s : State) (r : Run) : List Byte :=
  match r.src with
  | some l => s.locRead l r.len
  | none => r.lit

section
variable {r : Run} (h : r.BetweenBuffers)
include h

theorem Run.BetweenBuffers.toDram : r.toDram = false := by
  obtain ⟨v, b, hp⟩ := h.dst
  simp [Run.toDram, hp]

theorem Run.BetweenBuffers.doorbell : (r.dst.place == .doorbell) = false := by
  obtain ⟨v, b, hp⟩ := h.dst
  simp [hp]

theorem Run.BetweenBuffers.source_ne {p : Place} (hp : ∀ v b, p ≠ .buf v b) {l : Loc} (hl : r.src = some l) : l.place ≠ p := by
  obtain ⟨v, b, hb⟩ := h.src l hl
  rw [hb]
  exact (hp v b).symm

theorem Run.BetweenBuffers.fromDram : r.fromDram = false := by
  unfold Run.fromDram
  split
  · next l hl => simpa using h.source_ne (p := .dram) (fun _ _ => by simp) hl
  · rfl

theorem Run.BetweenBuffers.fromHost : r.fromHost = false := by
  unfold Run.fromHost
  split
  · next l hl => simpa using h.source_ne (p := .host) (fun _ _ => by simp) hl
  · rfl

theorem Run.BetweenBuffers.landsWith (q : Run) : r.landsWith q = false := by
  simp [Run.landsWith, h.rawDst, h.doorbell]

/-- Buffers have no home die in a warm reset (R467). -/
theorem Run.BetweenBuffers.resetDie (s : State) : s.resetDie r = none := by
  have hnone : ∀ ls : List Loc, (∀ l ∈ ls, ∃ v b, l.place = .buf v b) →
      firstSome (fun (l : Loc) => l.homeDie.bind (fun d => guarded (s.dieResetting d) d)) ls = none := by
    intro ls
    induction ls with
    | nil => intro _; rfl
    | cons l ls ih =>
      intro hls
      obtain ⟨v, b, hl⟩ := hls l List.mem_cons_self
      rw [firstSome, Loc.homeDie, hl]
      exact ih fun l hl => hls l (List.mem_cons_of_mem _ hl)
  refine hnone _ fun l hl => ?_
  rcases List.mem_append.1 hl with hl | hl
  · exact h.src l (by simpa using hl)
  · rw [List.mem_singleton.1 hl]
    exact h.dst

theorem State.length_sourceBytes (s : State) : (s.sourceBytes r).length = r.len := by
  unfold State.sourceBytes
  split
  · simp [State.locRead]
  · next hl => exact h.lit hl

end

theorem State.getD_sourceBytes (s : State) (r : Run) {i : Nat} (hi : i < r.len) : (s.sourceBytes r).getD i 0 =
    match r.src with
    | some l => s.locGet (l.plus i)
    | none => r.lit.getD i 0 := by
  unfold State.sourceBytes
  split
  · simp [State.locRead, hi, Loc.plus]
  · rfl

/-! ### The pieces of a command as they are read -/

theorem filterMap_getElem?_range {α : Type} : ∀ l : List α, (List.range l.length).filterMap (fun i => l[i]?) = l
  | [] => rfl
  | a :: l => by
    rw [List.length_cons, List.range_succ_eq_map, List.filterMap_cons, List.filterMap_map]
    exact congrArg (a :: ·) (filterMap_getElem?_range l)

theorem CCmd.map_numbered (c : CCmd) : c.numbered.map Prod.snd = c.runs := by
  rw [CCmd.numbered, List.map_filterMap]
  simp only [Option.map_map, Function.comp_def, Option.map_id']
  exact filterMap_getElem?_range c.runs

theorem CCmd.mem_numbered {c : CCmd} {p : Nat × Run} (h : p ∈ c.numbered) : c.runs[p.1]? = some p.2 := by
  obtain ⟨i, -, hi⟩ := List.mem_filterMap.1 h
  obtain ⟨r, hr, rfl⟩ := Option.map_eq_some_iff.1 hi
  exact hr

theorem CCmd.mem_runs_of_numbered {c : CCmd} {p : Nat × Run} (h : p ∈ c.numbered) : p.2 ∈ c.runs :=
  List.mem_of_getElem? (CCmd.mem_numbered h)

/-- A command that has kept nothing reads what the places hold. -/
theorem State.locReadFor_of_none (s : State) (u : Nat) {c : CCmd} (ho : c.old = []) (hg : c.gate = []) (l : Loc) (n : Nat) :
    s.locReadFor u c l n = s.locRead l n := by
  rw [State.locReadFor, State.locRead, ho, hg]
  refine List.map_congr_left fun i _ => ?_
  cases l.place <;> simp [oldByte, gatedByte]

theorem State.readPiece_between {r : Run} (h : r.BetweenBuffers) (s : State) (u : Nat) {c : CCmd} (ho : c.old = [])
    (hg : c.gate = []) (i : Nat) : s.readPiece u c i r = { c with got := tput c.got i (s.sourceBytes r) } := by
  have hblock : s.readBlock c r = c := by
    unfold State.readBlock
    split
    · rfl
    · rw [if_pos]
      simp [CCmd.movesStored, h.rawSrc]
  have hdata : s.pieceData u c r = some (s.sourceBytes r) := by
    unfold State.pieceData State.sourceBytes
    cases r.src with
    | none => rfl
    | some l => simp only [h.rawSrc, true_or, if_true, s.locReadFor_of_none u ho hg]
  simp only [State.readPiece, hblock, hdata]

/-- The table of what pieces bring, as those of some numbers are read. -/
def State.gotOf (s : State) (rs : List Run) (is : List Nat) (got : Tbl (List Byte)) : Tbl (List Byte) :=
  is.foldl (fun g i => match rs[i]? with | none => g | some r => tput g i (s.sourceBytes r)) got

/-- A piece has arrived with some bytes. -/
def gotHolds (got : Tbl (List Byte)) (i : Nat) (bs : List Byte) : Prop :=
  tget [] got i = bs ∧ (got.find? (fun g => g.1 == i)).isSome

theorem State.gotOf_holds (s : State) {rs : List Run} {i : Nat} {r : Run} (hr : rs[i]? = some r) :
    ∀ (is : List Nat) (got : Tbl (List Byte)), tsorted got = true → i ∈ is ∨ gotHolds got i (s.sourceBytes r) →
    gotHolds (s.gotOf rs is got) i (s.sourceBytes r)
  | [], _, _, h => h.resolve_left (by simp)
  | j :: is, got, hs, h => by
    by_cases hij : i = j
    · subst hij
      have hnow : gotHolds (tput got i (s.sourceBytes r)) i (s.sourceBytes r) :=
        ⟨tget_tput_same _ _ _ _, by rw [find_tput_same i _ got hs]; rfl⟩
      have hrest := s.gotOf_holds hr is (tput got i (s.sourceBytes r)) (tsorted_tput i _ hs) (.inr hnow)
      rw [State.gotOf, List.foldl_cons, hr]
      exact hrest
    · have hin : i ∈ is ∨ gotHolds got i (s.sourceBytes r) := h.imp_left fun h => (List.mem_cons.1 h).resolve_left hij
      rw [State.gotOf, List.foldl_cons]
      cases hj : rs[j]? with
      | none => exact s.gotOf_holds hr is got hs hin
      | some q =>
        refine s.gotOf_holds hr is _ (tsorted_tput j _ hs) (hin.imp_right fun ⟨hget, hfind⟩ => ⟨?_, ?_⟩)
        · rw [tget_tput_ne _ _ _ _ hij, hget]
        · rw [find_tput_ne hij]
          exact hfind

/-- The command with one piece read, where it is at hand as the command starts. -/
def State.gatherPiece (s : State) (u : Nat) (c : CCmd) (i : Nat) : CCmd :=
  match c.runs[i]? with
  | none => c
  | some r => if r.fromDram ∨ r.fromHost ∨ c.lost.contains i then c else s.readPiece u c i r

theorem State.gatherPieces_nil (s : State) (u : Nat) (c : CCmd) : s.gatherPieces u c [] =
    let q := s.readReqs c.dsize c.runs 0 none
    let d := (List.range q.1.length).foldl (s.gatherPiece u) { c with runs := q.1, reqs := q.2.1 }
    (if d.runs.any Run.fromHost then d else s.askWrites u d, q.2.2) := rfl

theorem State.gatherPiece_between (s : State) (u : Nat) {c : CCmd} (h : ∀ r ∈ c.runs, r.BetweenBuffers) (hl : c.lost = [])
    (ho : c.old = []) (hg : c.gate = []) (i : Nat) : s.gatherPiece u c i = { c with got := s.gotOf c.runs [i] c.got } := by
  unfold State.gatherPiece
  rw [State.gotOf, List.foldl_cons, List.foldl_nil]
  cases hi : c.runs[i]? with
  | none => rfl
  | some r =>
    have hr := h r (List.mem_of_getElem? hi)
    dsimp only
    rw [if_neg (by simp [hr.fromDram, hr.fromHost, hl]), State.readPiece_between hr s u ho hg]

/-- The pieces at hand as a command starts are read one after another. -/
theorem State.foldl_gatherPiece_between (s : State) (u : Nat) : ∀ (is : List Nat) {c : CCmd},
    (∀ r ∈ c.runs, r.BetweenBuffers) → c.lost = [] → c.old = [] → c.gate = [] →
    is.foldl (s.gatherPiece u) c = { c with got := s.gotOf c.runs is c.got }
  | [], _, _, _, _, _ => rfl
  | i :: is, c, h, hl, ho, hg => by
    rw [List.foldl_cons, s.gatherPiece_between u h hl ho hg]
    exact State.foldl_gatherPiece_between s u is (c := { c with got := s.gotOf c.runs [i] c.got }) h hl ho hg

theorem State.readReqs_between (s : State) (n : Nat) : ∀ (rs : List Run) (k : Nat) (last : Option (Bool × Nat)),
    (∀ r ∈ rs, r.BetweenBuffers) → s.readReqs n rs k last = (rs, [], 0)
  | [], _, _, _ => rfl
  | r :: rs, k, last, h => by
    have hrest := State.readReqs_between s n rs k last (fun r hr => h r (List.mem_cons_of_mem _ hr))
    unfold State.readReqs
    split
    · rw [hrest]
    · next l hl =>
      rw [if_pos ((h r List.mem_cons_self).source_ne (fun _ _ => by simp) hl), hrest]

theorem State.writeReqs_between (s t : State) (c : CCmd) : ∀ (rs : List Run) (qs : List Req) (seen : Tbl Nat),
    (∀ r ∈ rs, r.BetweenBuffers) → s.writeReqs t c rs qs seen = (rs, qs)
  | [], _, _, _ => rfl
  | r :: rs, qs, seen, h => by
    have hrest := State.writeReqs_between s t c rs qs seen fun r hr => h r (List.mem_cons_of_mem _ hr)
    rw [State.writeReqs, if_pos (by simp [(h r List.mem_cons_self).toDram])]
    dsimp only
    rw [hrest]

theorem State.askWrites_between (s : State) (u : Nat) {c : CCmd} (h : ∀ r ∈ c.runs, r.BetweenBuffers) : s.askWrites u c = c := by
  have hnum : c.numbered.filter (fun p => p.2.toDram) = [] :=
    List.filter_eq_nil_iff.2 fun p hp => by simp [(h _ (CCmd.mem_runs_of_numbered hp)).toDram]
  unfold State.askWrites
  dsimp only
  rw [hnum, s.writeReqs_between _ c c.runs c.reqs [] h]

/-- A command whose pieces all lie in tile buffers has them read as it starts, and asks for no slot. -/
theorem State.gatherPieces_between (s : State) (u : Nat) {c : CCmd} (h : ∀ r ∈ c.runs, r.BetweenBuffers) (hl : c.lost = [])
    (ho : c.old = []) (hg : c.gate = []) :
    s.gatherPieces u c [] = ({ c with reqs := [], got := s.gotOf c.runs (List.range c.runs.length) c.got }, 0) := by
  have hhost : c.runs.any Run.fromHost = false := List.any_eq_false.2 fun r hr => by simp [(h r hr).fromHost]
  rw [State.gatherPieces_nil, s.readReqs_between c.dsize c.runs 0 none h]
  dsimp only
  rw [s.foldl_gatherPiece_between u _ (c := { c with reqs := [] }) h hl ho hg]
  dsimp only
  rw [hhost, if_neg (by decide)]
  exact congrArg (·, 0) (s.askWrites_between u
    (c := { c with reqs := [], got := s.gotOf c.runs (List.range c.runs.length) c.got }) h)

/-! ### Pieces that land -/

/-- Pieces in tile buffers that have arrived all land at once (R254). -/
theorem CCmd.landing_of_arrived {c : CCmd} (h : ∀ r ∈ c.runs, r.BetweenBuffers) (hstop : c.stop = none)
    (harr : ∀ (i : Nat) (r : Run), c.runs[i]? = some r → (c.got.any (fun g => g.1 == i)) = true) (now : Nat) :
    c.landing now = c.numbered := by
  have hready : ∀ p ∈ c.numbered, p.2.wrote = false ∧ c.pieceReady now p.1 p.2 = true := by
    intro p hp
    have hr := h _ (CCmd.mem_runs_of_numbered hp)
    have hi := CCmd.mem_numbered hp
    refine ⟨hr.fresh, ?_⟩
    simp [CCmd.pieceReady, hstop, hr.landsWith, CCmd.pieceDone, hi, harr _ _ hi, hr.toDram]
  have hfold : ∀ (l acc : List (Nat × Run)), (∀ p ∈ l, p.2.wrote = false ∧ c.pieceReady now p.1 p.2 = true) →
      l.foldl (fun (a : List (Nat × Run) × List Run) p =>
        if p.2.wrote then a
        else if c.pieceReady now p.1 p.2 && !(a.2.any p.2.meets) then (a.1 ++ [p], a.2)
        else (a.1, a.2 ++ [p.2])) (acc, []) = (acc ++ l, []) := by
    intro l
    induction l with
    | nil => intro acc _; rw [List.append_nil]; rfl
    | cons p l ih =>
      intro acc hl
      obtain ⟨hw, hp⟩ := hl p List.mem_cons_self
      rw [List.foldl_cons, if_neg (by simp [hw]), if_pos (by simp [hp]), ih _ fun q hq => hl q (List.mem_cons_of_mem _ hq),
        List.append_assoc]
      rfl
  rw [CCmd.landing, hfold _ _ hready]
  rfl

/-- Pieces land in a module one after another, each with the bytes that its source held in the module `s`. -/
def State.landPieces (s : State) (u serial bundle : Nat) (rs : List Run) (t : State) : State :=
  rs.foldl (fun t r => t.engineWrite u serial bundle r.dst (s.sourceBytes r)) t

theorem State.landWrites_between (s t : State) (u : Nat) (c : CCmd) {rs : List Run} (h : ∀ r ∈ rs, r.BetweenBuffers) :
    t.landWrites u c (rs.map fun r => (r, s.sourceBytes r)) = { s := s.landPieces u c.serial c.bundle rs t } := by
  have hmem : ∀ w ∈ rs.map (fun r => (r, s.sourceBytes r)), w.1.BetweenBuffers := by
    intro w hw
    obtain ⟨r, hr, rfl⟩ := List.mem_map.1 hw
    exact h r hr
  have hblocks : ∀ ws : List (Run × List Byte), (∀ w ∈ ws, w.1.BetweenBuffers) → schemeBlocks ws = [] := by
    intro ws
    unfold schemeBlocks
    induction ws with
    | nil => intro _; rfl
    | cons w ws ih =>
      intro hws
      rw [List.foldl_cons, if_pos (.inl (hws w List.mem_cons_self).rawDst)]
      exact ih fun w hw => hws w (List.mem_cons_of_mem _ hw)
  have hraw : (rs.map fun r => (r, s.sourceBytes r)).filter (fun w => w.1.dcs == 0) = rs.map fun r => (r, s.sourceBytes r) :=
    List.filter_eq_self.2 fun w hw => by simp [(hmem w hw).rawDst]
  have hdoor : joinDoor (rs.map fun r => (r, s.sourceBytes r)) = rs.map fun r => (r, s.sourceBytes r) := by
    unfold joinDoor
    dsimp only
    rw [List.filter_eq_self.2 fun w hw => by simp [(hmem w hw).doorbell],
      List.filter_eq_nil_iff.2 fun w hw => by simp [(hmem w hw).doorbell]]
    exact List.append_nil _
  unfold State.landWrites
  dsimp only
  rw [hraw, hdoor, hblocks _ hmem, List.foldl_nil, List.foldl_map, State.landPieces]
  congr 1
  refine List.foldl_ext _ _ _ fun t r hr => ?_
  obtain ⟨v, b, hp⟩ := (h r hr).dst
  simp [State.landBytes, hp]

/-! ### A command that stays in its queue -/

/-- Every unit's buffers are in canonical form, and a command stands in its engine's queue. -/
structure State.Carries (s : State) (u : Nat) (e : Engine) (id : Nat) : Prop where
  canonical : ∀ v, (s.unit v).BuffersCanonical
  queued : id ∈ (s.unit u).serials e

theorem State.Carries.modUnit {s : State} {u : Nat} {e : Engine} {id : Nat} (h : s.Carries u e id) (v : Nat) {f : Unit → Unit}
    (hb : (f (s.unit v)).BuffersCanonical) (hq : (f (s.unit v)).serials e = (s.unit v).serials e) :
    (s.modUnit v f).Carries u e id := by
  refine ⟨fun w => ?_, ?_⟩
  · rw [State.unit_modUnit]
    split
    · exact hb
    · exact h.canonical w
  · rw [State.unit_modUnit]
    split
    · next hu => rw [hq, ← hu]; exact h.queued
    · exact h.queued

theorem Unit.serials_congr {x y : Unit} {e : Engine} (h0 : y.q0 = x.q0) (h1 : y.q1 = x.q1) : y.serials e = x.serials e := by
  rw [Unit.serials, Unit.queueOf_congr h0 h1, Unit.serials]

/-- Commands changed one by one keep their serials. -/
theorem Unit.serials_map {x y : Unit} {e : Engine} {f : CCmd → CCmd} (hf : ∀ c, (f c).serial = c.serial)
    (h0 : y.q0 = x.q0.map f) (h1 : y.q1 = x.q1.map f) : y.serials e = x.serials e := by
  have hmap (q : List CCmd) : (q.map f).map (·.serial) = q.map (·.serial) := by
    rw [List.map_map]
    exact List.map_congr_left fun c _ => hf c
  cases e
  · exact (congrArg (List.map (·.serial)) h0).trans (hmap _)
  · exact (congrArg (List.map (·.serial)) h1).trans (hmap _)

theorem Unit.serials_bput (x : Unit) (b : Buf) (bs : List (Nat × Byte)) (e : Engine) : (x.bput b bs).serials e = x.serials e := by
  cases b <;> exact Unit.serials_map (f := fun c => { c with gate := c.gate.map (fun (g : Gated) => g.without _ bs) })
    (fun _ => rfl) rfl rfl

theorem State.Carries.keepBytes {s : State} {u : Nat} {e : Engine} {id : Nat} (h : s.Carries u e id) (v serial n : Nat)
    (l : Loc) (bs : List Byte) : (s.keepBytes v serial n l bs).Carries u e id := by
  unfold State.keepBytes
  refine h.modUnit v ?_ ?_
  · exact (h.canonical v).of_buf fun b => by cases b <;> rfl
  · refine Unit.serials_map (fun c => ?_) rfl rfl
    dsimp only
    split <;> rfl

theorem State.Carries.locPut {s : State} {u : Nat} {e : Engine} {id : Nat} (h : s.Carries u e id) {l : Loc}
    (hl : ∃ v b, l.place = .buf v b) (x : Byte) : (s.locPut l x).Carries u e id := by
  obtain ⟨v, b, hl⟩ := hl
  rw [State.locPut, hl]
  exact h.modUnit v ((h.canonical v).bput b _) (Unit.serials_bput _ _ _ _)

theorem State.Carries.locWrite {u : Nat} {e : Engine} {id : Nat} : ∀ (bs : List Byte) {s : State} {l : Loc},
    s.Carries u e id → (∃ v b, l.place = .buf v b) → (s.locWrite l bs).Carries u e id
  | [], _, _, h, _ => h
  | x :: bs, _, l, h, hl => State.Carries.locWrite bs (l := { l with addr := l.addr + 1 }) (h.locPut hl x) hl

theorem State.Carries.engineWrite {s : State} {u : Nat} {e : Engine} {id : Nat} (h : s.Carries u e id) (v serial n : Nat)
    {l : Loc} (hl : ∃ v b, l.place = .buf v b) (bs : List Byte) : (s.engineWrite v serial n l bs).Carries u e id :=
  State.Carries.locWrite bs (h.keepBytes v serial n l _) hl

theorem State.Carries.putCmd {s : State} {u : Nat} {e : Engine} {c : CCmd} (h : s.Carries u e c.serial) :
    (s.putCmd u e c).Carries u e c.serial :=
  h.modUnit u ((h.canonical u).of_buf fun b => by cases e <;> cases b <;> rfl) (Unit.serials_modCmd _ e c)

theorem State.serials_placeQueue (s : State) (u : Nat) (used : List (Nat × Nat)) : ∀ (q : List CCmd) (last : Option Nat),
    (s.placeQueue u used last q).1.map (·.serial) = q.map (·.serial)
  | [], _ => rfl
  | c :: q, last => by
    unfold State.placeQueue
    dsimp only
    split
    · rfl
    · exact congrArg (c.serial :: ·) (State.serials_placeQueue s u used q _)

theorem State.Carries.placeEngine {s : State} {u : Nat} {e : Engine} {id : Nat} (h : s.Carries u e id) :
    (s.placeEngine u e).Carries u e id := by
  refine h.modUnit u (f := fun _ => _) ((h.canonical u).of_buf fun b => by cases e <;> cases b <;> rfl) ?_
  rw [Unit.serials, Unit.queueOf_setLastSlot, Unit.queueOf_setQueue]
  exact s.serials_placeQueue u _ _ _

/-! ### Bytes that have landed -/

theorem State.Carries.landPieces {u : Nat} {e : Engine} {id : Nat} (s : State) (v serial n : Nat) : ∀ (rs : List Run) {t : State},
    (∀ r ∈ rs, r.BetweenBuffers) → t.Carries u e id → (s.landPieces v serial n rs t).Carries u e id
  | [], _, _, h => h
  | r :: rs, _, hrs, h =>
    State.Carries.landPieces s v serial n rs (fun r hr => hrs r (List.mem_cons_of_mem _ hr))
      (h.engineWrite v serial n (hrs r List.mem_cons_self).dst _)

/-- A byte lies in the destination of a piece. -/
def Run.covers (r : Run) (y : Loc) : Prop := y.place = r.dst.place ∧ r.dst.addr ≤ y.addr ∧ y.addr < r.dst.addr + r.len

theorem State.locGet_engineWrite {t : State} {u : Nat} {e : Engine} {id : Nat} (h : t.Carries u e id) (s : State)
    (v serial n : Nat) {r : Run} (hr : r.BetweenBuffers) (y : Loc) :
    (r.covers y → (t.engineWrite v serial n r.dst (s.sourceBytes r)).locGet y = (s.sourceBytes r).getD (y.addr - r.dst.addr) 0) ∧
    (¬ r.covers y → (t.engineWrite v serial n r.dst (s.sourceBytes r)).locGet y = t.locGet y) := by
  obtain ⟨w, b, hp⟩ := hr.dst
  have hbyte := State.locGet_locWrite_buf (s.sourceBytes r) hp
    (State.BuffersCanonical_keepBytes (h.canonical w) (u := v) (serial := serial) (n := n) (l := r.dst)
      (bs := t.locRead r.dst (s.sourceBytes r).length)) y
  rw [State.length_sourceBytes hr, State.locGet_keepBytes] at hbyte
  rw [State.engineWrite, State.keepOld, State.length_sourceBytes hr, hbyte]
  exact ⟨fun hc => if_pos hc, fun hc => if_neg hc⟩

/-- A byte that no piece writes is as before. -/
theorem State.locGet_landPieces_other {u : Nat} {e : Engine} {id : Nat} (s : State) (v serial n : Nat) (y : Loc) :
    ∀ (rs : List Run) {t : State}, (∀ r ∈ rs, r.BetweenBuffers) → t.Carries u e id → (∀ r ∈ rs, ¬ r.covers y) →
    (s.landPieces v serial n rs t).locGet y = t.locGet y
  | [], _, _, _, _ => rfl
  | r :: rs, t, hrs, h, hy => by
    have hr := hrs r List.mem_cons_self
    have hrest := State.locGet_landPieces_other s v serial n y rs (fun r hr => hrs r (List.mem_cons_of_mem _ hr))
      (h.engineWrite v serial n hr.dst (s.sourceBytes r)) fun r hr => hy r (List.mem_cons_of_mem _ hr)
    exact hrest.trans ((State.locGet_engineWrite h s v serial n hr y).2 (hy r List.mem_cons_self))

/-- Two pieces write no byte in common. -/
def Run.apart (p q : Run) : Prop :=
  p.dst.place ≠ q.dst.place ∨ p.dst.addr + p.len ≤ q.dst.addr ∨ q.dst.addr + q.len ≤ p.dst.addr

theorem Run.apart.not_covers {p q : Run} (h : p.apart q) {y : Loc} (hp : p.covers y) : ¬ q.covers y := by
  rintro ⟨hplace, hlo, hhi⟩
  obtain ⟨hpplace, hplo, hphi⟩ := hp
  rcases h with h | h | h
  · exact h (hpplace.symm.trans hplace)
  · omega
  · omega

/-- Of pieces that write no byte in common each writes what its source held. -/
theorem State.locGet_landPieces_covers {u : Nat} {e : Engine} {id : Nat} (s : State) (v serial n : Nat) {y : Loc} {p : Run}
    (hy : p.covers y) : ∀ (rs : List Run) {t : State}, (∀ r ∈ rs, r.BetweenBuffers) → t.Carries u e id → rs.Pairwise Run.apart →
    p ∈ rs → (s.landPieces v serial n rs t).locGet y = (s.sourceBytes p).getD (y.addr - p.dst.addr) 0
  | [], _, _, _, _, hp => absurd hp (by simp)
  | r :: rs, t, hrs, h, hpair, hp => by
    obtain ⟨hhead, htail⟩ := List.pairwise_cons.1 hpair
    have hr := hrs r List.mem_cons_self
    have hrs' : ∀ r ∈ rs, r.BetweenBuffers := fun r hr => hrs r (List.mem_cons_of_mem _ hr)
    have hnext := h.engineWrite v serial n hr.dst (s.sourceBytes r)
    rcases List.mem_cons.1 hp with rfl | hp
    · have hrest := State.locGet_landPieces_other s v serial n y rs hrs' hnext fun q hq => (hhead q hq).not_covers hy
      exact hrest.trans ((State.locGet_engineWrite h s v serial n hr y).1 hy)
    · exact State.locGet_landPieces_covers s v serial n hy rs hrs' hnext htail hp

/-! ### A command that finishes at its start -/

theorem State.locGet_putCmd (s : State) (u : Nat) (e : Engine) (c : CCmd) (y : Loc) : (s.putCmd u e c).locGet y = s.locGet y :=
  State.locGet_modUnit (fun b a => Unit.bget_setQueue _ e _ b a) y

theorem State.locGet_placeEngine (s : State) (u : Nat) (e : Engine) (y : Loc) : (s.placeEngine u e).locGet y = s.locGet y :=
  State.locGet_modUnit (f := fun _ => ((s.unit u).setQueue e _).setLastSlot e _)
    (fun b a => Unit.bget_congr (by cases e <;> rfl) (fun b => by cases e <;> cases b <;> rfl) b a) y

/-- What a started command has at hand whose pieces all lie in tile buffers: all of them, as the module `s` held them. -/
structure CCmd.HasRead (c : CCmd) (s : State) : Prop where
  between : ∀ r ∈ c.runs, r.BetweenBuffers
  got : ∀ (i : Nat) (r : Run), c.runs[i]? = some r → gotHolds c.got i (s.sourceBytes r)
  lost : c.lost = []
  stop : c.stop = none
  reqs : c.reqs = []

theorem CCmd.HasRead.any_got {c : CCmd} {s : State} (h : c.HasRead s) (i : Nat) (r : Run) (hr : c.runs[i]? = some r) :
    (c.got.any fun g => g.1 == i) = true := by
  obtain ⟨-, hfind⟩ := h.got i r hr
  obtain ⟨g, hg, hi⟩ := List.find?_isSome.1 hfind
  exact List.any_eq_true.2 ⟨g, hg, hi⟩

theorem CCmd.HasRead.arrived {c : CCmd} {s : State} (h : c.HasRead s) : c.arrived = true := by
  refine List.all_eq_true.2 fun i hi => ?_
  obtain ⟨r, hr⟩ : ∃ r, c.runs[i]? = some r := ⟨_, List.getElem?_eq_getElem (List.mem_range.1 hi)⟩
  rw [h.any_got i r hr, Bool.true_or]

/-- The bytes that a command writes are those of its pieces. -/
theorem CCmd.HasRead.bytesOf {c : CCmd} {s : State} (h : c.HasRead s) :
    c.bytesOf c.numbered = c.runs.map fun r => (r, s.sourceBytes r) := by
  have hall : c.numbered.filter (fun p => !(c.unwritten p.2)) = c.numbered :=
    List.filter_eq_self.2 fun p _ => by simp [CCmd.unwritten, CCmd.lostUnits, h.lost]
  have hgot : c.numbered.map (fun p => (p.2, tget [] c.got p.1)) = c.numbered.map (fun p => (p.2, s.sourceBytes p.2)) :=
    List.map_congr_left fun p hp => by rw [(h.got _ _ (CCmd.mem_numbered hp)).1]
  rw [CCmd.bytesOf, hall, hgot, ← c.map_numbered, List.map_map]
  rfl

/-- A landing leaves the module as its writes do, and the command as it wrote. -/
structure State.Lands (t v : State) (u : Nat) (e : Engine) (c d : CCmd) : Prop where
  command : ∃ rs, d = { c with runs := rs } ∧ ∀ r ∈ rs, r.toDram = false
  carries : v.Carries u e c.serial
  locGet : ∀ y, v.locGet y = t.locGet y

/-- All pieces of a command that has read them land at once. -/
theorem State.landDue_between {s t : State} {u : Nat} {e : Engine} {c : CCmd} (h : c.HasRead s) (ht : t.Carries u e c.serial)
    (hheld : t.heldUp u c = false) (hop : c.fields.1 ≠ 0x06) :
    (s.landPieces u c.serial c.bundle c.runs t).Lands (t.landDue u e c).1 u e c (t.landDue u e c).2 := by
  have hland : c.landing t.now = c.numbered := CCmd.landing_of_arrived h.between h.stop h.any_got t.now
  have hraw : ∀ r ∈ c.runs, r.toDram = false := fun r hr => (h.between r hr).toDram
  by_cases hnone : c.numbered = []
  · have hruns : c.runs = [] := by rw [← c.map_numbered, hnone]; rfl
    rw [State.landDue_of_landed (hland.trans hnone), hruns]
    exact ⟨⟨c.runs, rfl, hraw⟩, ht.putCmd, fun y => t.locGet_putCmd u e c y⟩
  · have hwrites : t.landWrites u c (c.bytesOf c.numbered) = { s := s.landPieces u c.serial c.bundle c.runs t } := by
      rw [h.bytesOf, State.landWrites_between s t u c h.between]
    have hdue : t.landDue u e c = ({ s := s.landPieces u c.serial c.bundle c.runs t } : Landed).close u e
        (c.wroteOf (c.numbered.map (·.1))) := by
      unfold State.landDue
      rw [hland]
      dsimp only
      rw [if_neg (by simp [hnone, hheld]), State.refresh, if_pos hop, hwrites]
    rw [hdue]
    refine ⟨⟨_, rfl, fun r hr => ?_⟩, ?_, fun y => State.locGet_close _ u e _ y⟩
    · obtain ⟨p, hp, rfl⟩ := List.mem_map.1 hr
      have hp := hraw _ (CCmd.mem_runs_of_numbered hp)
      split
      · exact hp
      · exact hp
    · have hl := ht.landPieces s u c.serial c.bundle c.runs h.between
      have hcount := hl.modUnit u (f := fun x => { x with cstat := cstatAdd x.cstat 48 0 })
        ((hl.canonical u).of_buf fun b => by cases b <;> rfl) (Unit.serials_congr rfl rfl)
      exact hcount.putCmd (c := c.wroteOf (c.numbered.map (·.1)))

/-- A command that has read all its pieces, none of which is for DRAM, has moved. -/
theorem State.finishCopy_between {s t : State} {u : Nat} {e : Engine} {c : CCmd} (h : c.HasRead s) (ht : t.Carries u e c.serial)
    (hheld : t.heldUp u c = false) (hlo : 1 ≤ c.fields.1) (hop : c.fields.1 ≤ 5) :
    ∃ d, ((t.finishCopy u e c).unit u).command e c.serial = some d ∧ d.phase = .moved ∧ d.err = c.err ∧
      ∀ y, (t.finishCopy u e c).locGet y = (s.landPieces u c.serial c.bundle c.runs t).locGet y := by
  have hread : ({ c with phase := .moved } : CCmd).HasRead s := ⟨h.between, h.got, h.lost, h.stop, h.reqs⟩
  obtain ⟨⟨rs, hd, hraw⟩, hcarries, hget⟩ := State.landDue_between hread ht hheld (by change c.fields.1 ≠ 6; omega)
  have hasked : (t.landDue u e { c with phase := .moved }).2.asked = true := by
    rw [hd]
    exact List.all_eq_true.2 fun r hr => by simp [hraw r hr]
  have hfinish : t.finishCopy u e c = ((t.landDue u e { c with phase := .moved }).1.putCmd u e
      { (t.landDue u e { c with phase := .moved }).2 with old := [] }).placeEngine u e := by
    unfold State.finishCopy
    dsimp only
    rw [hheld, if_neg (by decide), State.strays_of_none t fun r hr => (h.between r hr).resetDie t]
    dsimp only
    rw [if_neg (by simp [h.arrived]), if_neg (by omega), if_neg (by omega), if_pos hasked]
  rw [hfinish, hd]
  refine ⟨{ c with phase := .moved, runs := rs, old := [] }, ?_, rfl, rfl, fun y => ?_⟩
  · exact State.command_placeEngine (State.command_putCmd (c := { c with phase := .moved, runs := rs, old := [] })
      hcarries.queued) h.reqs
  · rw [State.locGet_placeEngine, State.locGet_putCmd, hget]

/-! ### The start of a command -/

/-- What holds a command's flits does not lie in the units (R428, R460). -/
theorem State.heldUp_of_units {s t : State} (h : { t with units := s.units } = s) (u : Nat) (c : CCmd) :
    t.heldUp u c = s.heldUp u c := by
  have hunits : t.heldUp u c = ({ t with units := s.units } : State).heldUp u c := rfl
  rw [hunits, h]

/-- A command without pieces of host memory asks for none (R444). -/
theorem State.askHost_between (s : State) (u : Nat) (node : Option Nat) {c : CCmd} (h : ∀ r ∈ c.runs, r.BetweenBuffers) :
    s.askHost u node c = s := by
  unfold State.askHost
  refine List.foldlRecOn (motive := fun (t : State) => t = s) _ _ rfl fun t ht i _ => ?_
  subst ht
  split
  · rfl
  · next r hr =>
    split
    · rfl
    · next l hl =>
      rw [if_neg]
      rintro ⟨hhost, -⟩
      exact (h r (List.mem_of_getElem? hr)).source_ne (p := .host) (fun _ _ => by simp) hl hhost

/-- A command whose pieces lie in tile buffers, with all of them read. -/
def State.readCommand (s : State) (c : CCmd) (rs : List Run) : CCmd :=
  { c with phase := .started, runs := rs, reqs := [], got := s.gotOf rs (List.range rs.length) c.got }

/-- The module at the start of a command that has read its pieces. -/
def State.startedWith (s : State) (u : Nat) (e : Engine) (c : CCmd) : State :=
  ((s.modUnit u (fun x => { x with cstat := cstatAdd x.cstat 32 0 })).putCmd u e c).placeEngine u e

theorem State.readCommand_hasRead (s : State) {c : CCmd} {rs : List Run} (h : ∀ r ∈ rs, r.BetweenBuffers) (hg : c.got = [])
    (hl : c.lost = []) (hstop : c.stop = none) : (s.readCommand c rs).HasRead s := by
  refine ⟨h, fun i r hr => ?_, hl, hstop, rfl⟩
  have hi : i < rs.length := (List.getElem?_eq_some_iff.1 hr).1
  exact s.gotOf_holds hr (List.range rs.length) c.got (by rw [hg]; rfl) (.inl (List.mem_range.2 hi))

theorem State.Carries.startedWith {s : State} {u : Nat} {e : Engine} {c : CCmd} (h : s.Carries u e c.serial) :
    (s.startedWith u e c).Carries u e c.serial := by
  have hcount := h.modUnit u (f := fun x => { x with cstat := cstatAdd x.cstat 32 0 })
    ((h.canonical u).of_buf fun b => by cases b <;> rfl) (Unit.serials_congr rfl rfl)
  exact hcount.putCmd.placeEngine

theorem State.locGet_startedWith (s : State) (u : Nat) (e : Engine) (c : CCmd) (y : Loc) :
    (s.startedWith u e c).locGet y = s.locGet y := by
  rw [State.startedWith, State.locGet_placeEngine, State.locGet_putCmd,
    State.locGet_modUnit (fun b a => Unit.bget_congr rfl (fun b => by cases b <;> rfl) b a)]

theorem State.command_startedWith {s : State} {u : Nat} {e : Engine} {c : CCmd} (h : s.Carries u e c.serial) (hreqs : c.reqs = []) :
    ((s.startedWith u e c).unit u).command e c.serial = some c := by
  have hcount := h.modUnit u (f := fun x => { x with cstat := cstatAdd x.cstat 32 0 })
    ((h.canonical u).of_buf fun b => by cases b <;> rfl) (Unit.serials_congr rfl rfl)
  exact State.command_placeEngine (State.command_putCmd hcount.queued) hreqs

theorem State.heldUp_startedWith (s : State) (u : Nat) (e : Engine) (c d : CCmd) :
    (s.startedWith u e c).heldUp u d = s.heldUp u d := by
  have hcount := s.onlyUnit_modUnit u (fun x => { x with cstat := cstatAdd x.cstat 32 0 })
  have hput := (s.modUnit u (fun x => { x with cstat := cstatAdd x.cstat 32 0 })).onlyUnit_modUnit u
    (fun x => x.modCmd e c.serial (fun _ => c))
  exact State.heldUp_of_units ((hcount.trans hput).trans (State.onlyUnit_placeEngine _ u e)).1 u d

section
variable {s : State} {u id : Nat} {e : Engine} {c : CCmd}

/-- A command whose pieces lie in tile buffers goes to its end as it starts. -/
theorem State.startCopy_between (hcarries : s.Carries u e c.serial) (h : ∀ r ∈ s.pieces u c, r.BetweenBuffers) (hlo : 1 ≤ c.fields.1)
    (hop : c.fields.1 ≤ 5) (hshed : s.shedWait { c with runs := s.pieces u c } = false) (ho : c.old = []) (hg : c.gate = [])
    (hl : c.lost = []) : s.startCopy u e c [] =
      (s.startedWith u e (s.readCommand c (s.pieces u c))).finishCopy u e (s.readCommand c (s.pieces u c)) := by
  have hgather : s.gatherPieces u { c with runs := s.pieces u c, phase := .started } [] = (s.readCommand c (s.pieces u c), 0) :=
    s.gatherPieces_between u h hl ho hg
  have hfind := State.command_startedWith (c := s.readCommand c (s.pieces u c)) hcarries rfl
  unfold State.startCopy
  dsimp only
  rw [if_neg (by omega), if_neg (by omega), hshed, if_neg (by decide), if_neg (by omega),
    s.strays_of_none (c := { c with runs := s.pieces u c }) fun r hr => (h r hr).resetDie s]
  dsimp only
  rw [hgather]
  dsimp only
  rw [State.askHost_between _ u _ (c := s.readCommand c (s.pieces u c)) h]
  split
  · next hnone => exact absurd (hnone.symm.trans hfind) (by simp)
  · next d hd =>
    obtain rfl : d = s.readCommand c (s.pieces u c) := Option.some.inj (hd.symm.trans hfind)
    rfl

/-- The event of a command that may start, and before which no other of its engine does. -/
theorem exec_copyCommandStart_due (lost : List (Nat × Byte)) (hu : u < unitCount) (hc : (s.unit u).command e id = some c)
    (hphase : c.phase = .translated) (hrun : (s.unit u).run = .running) (hpow : s.powered u = true)
    (hclear : s.copyClear u c = true) (hfence : (s.unit u).fenced id = false)
    (hshed : s.shedWait { c with runs := s.pieces u c } = false) (hlink : s.linkWait u { c with runs := s.pieces u c } = false)
    (hfirst : ∀ d ∈ (s.unit u).queueOf e, d.serial < id → s.mayStart u d = false) :
    exec (.copyCommandStart u e id lost) s = .next (s.startCopy u e c lost) := by
  obtain rfl := Unit.serial_of_command hc
  have hfind : ((s.unit u).queueOf e).find? (fun d => d.serial == c.serial) = some c := hc
  have hstart : s.mayStart u c = true := by
    rw [State.mayStart, hclear, hfence]
    dsimp only
    rw [hshed, hlink, hphase]
    rfl
  have hnone : ((s.unit u).queueOf e).any (fun d => decide (d.serial < c.serial) && s.mayStart u d) = false := by
    refine List.any_eq_false.2 fun d hd => ?_
    by_cases h : d.serial < c.serial
    · simp [hfirst d hd h]
    · simp [h]
  change execCopyCommandStart u e c.serial lost s = _
  unfold execCopyCommandStart
  rw [if_neg (Nat.not_le.2 hu)]
  dsimp only
  rw [hfind]
  dsimp only
  rw [if_neg (by simp [Unit.engines_of_running hrun, hpow, hstart, hnone])]

/-- A copy between tile buffers moves its bytes as it starts (R254). -/
theorem State.startCopy_moves (hc : (s.unit u).command e id = some c) (hwf : ∀ v, (s.unit v).BuffersCanonical)
    (h : ∀ r ∈ s.pieces u c, r.BetweenBuffers) (hpair : (s.pieces u c).Pairwise Run.apart) (hlo : 1 ≤ c.fields.1)
    (hop : c.fields.1 ≤ 5) (hshed : s.shedWait { c with runs := s.pieces u c } = false)
    (hlink : s.linkWait u { c with runs := s.pieces u c } = false) (ho : c.old = []) (hg : c.gate = []) (hgot : c.got = [])
    (hl : c.lost = []) (herr : c.err = none) (hstop : c.stop = none) :
    ∃ d, ((s.startCopy u e c []).unit u).command e id = some d ∧ d.phase = .moved ∧ d.err = none ∧
      (∀ r ∈ s.pieces u c, ∀ i < r.len, (s.startCopy u e c []).locGet (r.dst.plus i) =
        match r.src with
        | some l => s.locGet (l.plus i)
        | none => r.lit.getD i 0) ∧
      ∀ l, (∀ r ∈ s.pieces u c, l.place = r.dst.place → l.addr < r.dst.addr ∨ r.dst.addr + r.len ≤ l.addr) →
        (s.startCopy u e c []).locGet l = s.locGet l := by
  obtain rfl := Unit.serial_of_command hc
  have hcarries : s.Carries u e c.serial := ⟨hwf, Unit.mem_serials_of_command hc⟩
  have hread := s.readCommand_hasRead h hgot hl hstop
  have hheld : (s.startedWith u e (s.readCommand c (s.pieces u c))).heldUp u (s.readCommand c (s.pieces u c)) = false := by
    have hwait : s.heldUp u (s.readCommand c (s.pieces u c)) = s.heldUp u { c with runs := s.pieces u c } := rfl
    rw [State.heldUp_startedWith, hwait, State.heldUp, hshed, hlink]
    rfl
  have hstarted := State.Carries.startedWith (c := s.readCommand c (s.pieces u c)) hcarries
  obtain ⟨d, hd, hmoved, hderr, hget⟩ := State.finishCopy_between hread hstarted hheld hlo hop
  rw [State.startCopy_between hcarries h hlo hop hshed ho hg hl]
  refine ⟨d, hd, hmoved, hderr.trans herr, fun r hr i hi => ?_, fun l hl => ?_⟩
  · have hcov : r.covers (r.dst.plus i) := ⟨rfl, Nat.le_add_right _ _, Nat.add_lt_add_left hi _⟩
    have hbyte := State.locGet_landPieces_covers s u c.serial c.bundle hcov (s.pieces u c) h hstarted hpair hr
    have hplace : (s.sourceBytes r).getD ((r.dst.plus i).addr - r.dst.addr) 0 = (s.sourceBytes r).getD i 0 :=
      congrArg (fun k => (s.sourceBytes r).getD k 0) (Nat.add_sub_cancel_left _ _)
    exact (((hget _).trans hbyte).trans hplace).trans (s.getD_sourceBytes r hi)
  · have hbyte := State.locGet_landPieces_other s u c.serial c.bundle l (s.pieces u c) h hstarted
      (by rintro r hr ⟨hplace, hlow, hhigh⟩
          rcases hl r hr hplace with hlt | hge <;> omega)
    exact ((hget _).trans hbyte).trans (s.locGet_startedWith u e _ l)

end

/-- Settles O34: a pre-translation ends as its conditions say, and the start of a command goes by its opcode; the pieces of
a copy between tile buffers are all read before the first of them lands. -/
theorem copiesTranslateAndStart : Obligations.CopiesTranslateAndStart := by
  unfold Obligations.CopiesTranslateAndStart
  refine ⟨fun u e c0 c s hu hq hrun hpow hidx hfar hop => ⟨fun hbuf hchecks => ?_, fun t d cause a hall _ hh => ?_⟩,
    fun u e id c s hu hc hphase hrun hpow hclear hfence hshed hlink hfirst => ?_⟩
  · exact exec_copyPretranslation_passes hu hq hrun hpow hidx hfar hop hbuf hchecks
  · exact exec_copyPretranslation_rollsBack hu hq hrun hpow hidx hfar hop hall hh
  · have hexec (lost : List (Nat × Byte)) : exec (.copyCommandStart u e id lost) s = .next (s.startCopy u e c lost) :=
      exec_copyCommandStart_due lost hu hc hphase hrun hpow hclear hfence hshed hlink hfirst
    refine ⟨fun hlo hhi hwf ho hg hgot hl herr hstop hrs hpair => ?_, fun lost hop => ?_, fun lost hop hreach => ?_⟩
    · have h : ∀ r ∈ s.pieces u c, r.BetweenBuffers := fun r hr => by
        obtain ⟨hw, hsc, hdc, hdst, hsrc, hlit⟩ := hrs r hr
        exact ⟨hw, hsc, hdc, hdst, hsrc, hlit⟩
      obtain ⟨d, hd⟩ := State.startCopy_moves hc (fun v b => hwf v b) h hpair hlo hhi hshed hlink ho hg hgot hl herr hstop
      exact ⟨_, d, hexec [], hd⟩
    · have hwalk : s.startCopy u e c lost = s.walkOn u e { c with phase := .started } := if_pos hop
      have hser := Unit.serial_of_command hc
      have hother (v : Nat) (hv : v ≠ u) : (s.putCmd u e { c with phase := .started }).unit v = s.unit v := by
        rw [State.putCmd, State.unit_modUnit, if_neg hv]
      rw [← hser] at hc
      have hput := State.command_putCmd (c := { c with phase := .started }) (Unit.mem_serials_of_command hc)
      refine ⟨_, { c with phase := .started }, hexec lost, ?_, rfl, rfl, fun v hv => ?_⟩
      · rw [hwalk, State.walkOn_units, ← hser]
        exact hput
      · rw [hwalk, State.walkOn_units, hother v hv]
    · have hdark : s.startCopy u e c lost = s.putCmd u e { c with phase := .moved, err := some 3, peer := true } := by
        unfold State.startCopy
        dsimp only
        rw [if_neg (by omega), if_pos ⟨hop, by simp [hreach]⟩]
      rw [hexec, hdark, ← Unit.serial_of_command hc]
      rfl

end Sys2Proof.Machine
end
